-- ==== Sys2Proof/Word.lean ====
section
/-! DEFINITION. The fixed-width words of the machine (R6, R7, R69 of spec/03_bundles.md) and nothing else. -/
namespace Sys2Proof

/-- One byte of memory. -/
abbrev Byte := BitVec 8
/-- A scalar register, a CSR, a layout word, a matrix parameter (R69). -/
abbrev Word := BitVec 64
/-- A vector register or the data of a hold latch (R69). -/
abbrev Vec := BitVec 1024
/-- A lane mask, or the byte enables of a vector landing (R69, R365). -/
abbrev Mask := BitVec 128

end Sys2Proof
end

