-- ==== Sys2Proof/Config.lean ====
section
/-! DEFINITION. What the manual leaves open, as constants without a body: nothing in Lean can evaluate them or prove a
value of them, so a statement about a step that uses one holds for every value. Each names the rule that leaves it open
and the log entry. -/
namespace Sys2Proof.Config

/-- One of several outcomes the manual allows (R223, R138, R240, R266, R302): the model takes the choice modulo the
number of outcomes, and each use applies it to a fresh value of `State.nfree`. Log entry 3. -/
opaque pick : Nat → Nat

/-- The signed relative error δ of VRCP, VRSQ, VEXP2 and VLOG2 for F32 and F64, as a numerator over 2^80; the model
clamps it to the bound of R193. It depends on the operation, the type code and the operand's bits only (R192). Log entry 4. -/
opaque approxDelta (op ty x : Nat) : Int

/-- FVAL of an ECC_UNCORRECTABLE that is not the matrix unit's (R133, R150, R367 state none; R268 states the matrix
unit's): of the block it was found in, or of a fresh index. Log entry 9. -/
opaque eccFval : Nat → Word

/-- The serial number of a die (R384). Log entry 5. -/
opaque serialNo (die : Nat) : Nat

/-- A digest in the negotiated hash (R384, R386, R406): what is digested, as numbers. Log entry 5. -/
opaque digest (data : List Nat) : Nat

/-- A signature under the identity key of a responder (R383, R386). Log entry 5. -/
opaque signature (resp : Nat) (data : List Nat) : Nat

/-- The content of a reply whose bytes a standard and the die's identity fix, not the manual (R383): request kind,
responder, argument. Log entry 5. -/
opaque spdmReply (kind resp arg : Nat) : Nat

/-- Rail telemetry over an interval, in the units of R336: die and a fresh index give Erail, and Ebase. Log entry 6. -/
opaque erail (die n : Nat) : Nat
/-- The unattributed estimate of R336. Log entry 6. -/
opaque ebase (die n : Nat) : Int
/-- A die's measured power over an interval in watts (R338) and its share of the limit is the model's. Log entry 6. -/
opaque power (die n : Nat) : Nat
/-- The power of a rail that a report gives, by its place in the table of R414 (R421). Log entry 6. -/
opaque railPower (rail n : Nat) : Nat
/-- The junction temperature that a report gives for a compute die, 0 to 7, or a quay die, 8 to 11 (R421). Log entry 6. -/
opaque temperature (die n : Nat) : Nat

/-- A destination outside the package: what it answers to an access that reads (R282): the access's identity and a
fresh index. Log entry 7. -/
opaque remoteData (ddie : Nat) (n : Nat) : Vec
/-- How a destination outside the package treats an arrival: 0 performs it, otherwise a reason of R285. Log entry 7. -/
opaque remoteReason (ddie : Nat) (n : Nat) : Nat

/-- Whether the firmware and device OS images on the boot flash pass the checks of R381 on a die. Log entry 8. -/
opaque bootPasses (die n : Nat) : Bool
/-- The reason in the report of a failed boot check (R421); log entry 5. -/
opaque bootReason (die n : Nat) : Nat

/-- The tag of a 64-byte block of a save image: the first 64 bits of GMAC (R371): suite, save tag key, plaintext, the block's offset in
the image, SERIAL. Log entry 5. -/
opaque saveTag (suite key : Nat) (block : List Byte) (off serial : Nat) : Word

/-- A byte of a page that is read under another key than it was written under (R297): its address and a fresh index. Log entry 80. -/
opaque otherKey (a n : Nat) : Byte

/-- Whether the installation of a key into its engine or key slot succeeds (R385, R386): die and a fresh index. Log entry 8. -/
opaque keyInstalls (die n : Nat) : Bool

/-- Whether the persistent tables of a context pass their tags after a recovery (R379, R410). Log entry 8. -/
opaque tablesPass (die tcid n : Nat) : Bool

end Sys2Proof.Config
end

