-- ==== Sys2Proof/Syntax.lean ====
section
/-! DEFINITION. The instructions and events of the part: one constructor of `Instr` per row of the opcode table.
Operand structures follow the formats of spec/03_bundles.md (R53 to R68), spec/23_harbourmaster.md (R402) and, for
events, commands and services, the rules each names. Register numbers, type codes and scopes stay the numbers the
encodings hold; WellFormed.lean says which are legal. -/
namespace Sys2Proof

/-- The two vector slots and files (R57, R184). -/
inductive VFile where
  | a | b
deriving DecidableEq, Repr

/-- The guard of an operation: predicate number and negation (R53, R54). -/
structure Guard where
  p : Nat
  n : Bool
deriving DecidableEq, Repr

/-- A second operand: a scalar register, or the immediate field as encoded, unsigned (R55, R57). -/
inductive Src where
  | reg (r : Nat)
  | imm (v : Nat)
deriving DecidableEq, Repr

/-- A coordinate field of a memory operand: scalar register or unsigned immediate (R60). -/
structure Coord where
  i : Bool
  v : Nat
deriving DecidableEq, Repr

/-! ## S slot (R55, R63) -/

/-- Format SR with two register sources. -/
structure RRR where
  g : Guard
  sd : Nat
  sa : Nat
  sb : Nat
deriving DecidableEq, Repr

/-- Format SR with a register and an immediate. -/
structure RRI where
  g : Guard
  sd : Nat
  sa : Nat
  imm : Nat
deriving DecidableEq, Repr

/-- Format SR with a register and a register or an immediate. -/
structure RRS where
  g : Guard
  sd : Nat
  sa : Nat
  b : Src
deriving DecidableEq, Repr

/-- Format SR with one register source. -/
structure RR where
  g : Guard
  sd : Nat
  sa : Nat
deriving DecidableEq, Repr

/-- SEL: `k` is the selecting predicate (R155). -/
structure SelOps where
  g : Guard
  sd : Nat
  sa : Nat
  sb : Nat
  k : Nat
deriving DecidableEq, Repr

/-- LI and LIH (R155). -/
structure RI where
  g : Guard
  sd : Nat
  imm : Nat
deriving DecidableEq, Repr

/-- CMP (R156). -/
structure CmpOps where
  g : Guard
  pd : Nat
  cc : Nat
  sa : Nat
  sb : Nat
deriving DecidableEq, Repr

/-- CMPI (R156). -/
structure CmpIOps where
  g : Guard
  pd : Nat
  cc : Nat
  sa : Nat
  imm : Nat
deriving DecidableEq, Repr

/-- PAND, POR, PXOR (R157). -/
structure PPP where
  g : Guard
  pd : Nat
  pa : Nat
  na : Bool
  pb : Nat
  nb : Bool
deriving DecidableEq, Repr

/-- PNOT (R157). -/
structure PP where
  g : Guard
  pd : Nat
  pa : Nat
  na : Bool
deriving DecidableEq, Repr

/-- BR and CALL: the register that holds the target (R161). -/
structure BrOps where
  g : Guard
  sa : Nat
deriving DecidableEq, Repr

/-- BRI and CALLI: the signed word offset as encoded (R161). -/
structure BriOps where
  g : Guard
  imm : Nat
deriving DecidableEq, Repr

/-- CSRR (R159). -/
structure CsrrOps where
  g : Guard
  sd : Nat
  csr : Nat
deriving DecidableEq, Repr

/-- CSRW, CSRS, CSRC (R159). -/
structure CsrwOps where
  g : Guard
  sa : Nat
  csr : Nat
deriving DecidableEq, Repr

/-- TRAP and HAIL (R160). -/
structure CodeOps where
  g : Guard
  code : Nat
deriving DecidableEq, Repr

/-- LAYW: entry `n`, word `k` (R148). -/
structure LaywOps where
  g : Guard
  sa : Nat
  n : Nat
  k : Nat
deriving DecidableEq, Repr

/-- LAYR (R148). -/
structure LayrOps where
  g : Guard
  sd : Nat
  n : Nat
  k : Nat
deriving DecidableEq, Repr

/-- MOVH: latch `h`, word `w`, keep bit (R158). -/
structure MovhOps where
  g : Guard
  sd : Nat
  h : Nat
  w : Nat
  keep : Bool
deriving DecidableEq, Repr

/-! ## VA and VB slots (R57, R64). `f` is the slot. -/

/-- VADD, VSUB, VMUL. -/
structure V3R where
  f : VFile
  g : Guard
  vd : Nat
  vs1 : Nat
  vs2 : Nat
  msel : Nat
  ty : Nat
  rnd : Nat
deriving DecidableEq, Repr

/-- VFMA, VFMS, VFNMA. -/
structure V4R where
  f : VFile
  g : Guard
  vd : Nat
  vs1 : Nat
  vs2 : Nat
  vs3 : Nat
  msel : Nat
  ty : Nat
  rnd : Nat
deriving DecidableEq, Repr

/-- Two vector sources and a type. -/
structure V3T where
  f : VFile
  g : Guard
  vd : Nat
  vs1 : Nat
  vs2 : Nat
  msel : Nat
  ty : Nat
deriving DecidableEq, Repr

/-- One vector source and a type. -/
structure V2T where
  f : VFile
  g : Guard
  vd : Nat
  vs1 : Nat
  msel : Nat
  ty : Nat
deriving DecidableEq, Repr

/-- One vector source, a type and a rounding mode. -/
structure V2R where
  f : VFile
  g : Guard
  vd : Nat
  vs1 : Nat
  msel : Nat
  ty : Nat
  rnd : Nat
deriving DecidableEq, Repr

/-- VCMP: destination mask and condition (R195). -/
structure VCmpOps where
  f : VFile
  g : Guard
  md : Nat
  vs1 : Nat
  vs2 : Nat
  msel : Nat
  ty : Nat
  cond : Nat
deriving DecidableEq, Repr

/-- VIADD, VISUB, VIMUL: with an overflow policy. -/
structure V3O where
  f : VFile
  g : Guard
  vd : Nat
  vs1 : Nat
  vs2 : Nat
  msel : Nat
  ty : Nat
  ovf : Nat
deriving DecidableEq, Repr

/-- VAND, VOR, VXOR, VANDN: untyped. -/
structure V3L where
  f : VFile
  g : Guard
  vd : Nat
  vs1 : Nat
  vs2 : Nat
  msel : Nat
deriving DecidableEq, Repr

/-- VSHL, VSHR, VSAR, VSLIDE: a scalar second operand. -/
structure VSS where
  f : VFile
  g : Guard
  vd : Nat
  vs1 : Nat
  b : Src
  msel : Nat
  ty : Nat
deriving DecidableEq, Repr

/-- VCVT, VCVTI, VCVTF: destination and source type (R200). -/
structure VCvtOps where
  f : VFile
  g : Guard
  vd : Nat
  vs1 : Nat
  msel : Nat
  ty : Nat
  src : Nat
  rnd : Nat
  ovf : Nat
deriving DecidableEq, Repr

/-- VQFP4 and VDQFP4 (R202, R204). -/
structure VQOps where
  f : VFile
  g : Guard
  vd : Nat
  vs1 : Nat
  vs2 : Nat
  vs3 : Nat
  msel : Nat
  rnd : Nat
  ovf : Nat
deriving DecidableEq, Repr

/-- VSCALE (R206). -/
structure VScaleOps where
  f : VFile
  g : Guard
  vd : Nat
  vs1 : Nat
  vs2 : Nat
  msel : Nat
  ty : Nat
  rnd : Nat
  ovf : Nat
deriving DecidableEq, Repr

/-- VMOV and VXFER (R207, R212). -/
structure V2L where
  f : VFile
  g : Guard
  vd : Nat
  vs1 : Nat
  msel : Nat
deriving DecidableEq, Repr

/-- VBCAST (R208). -/
structure VBcastOps where
  f : VFile
  g : Guard
  vd : Nat
  b : Src
  msel : Nat
  ty : Nat
deriving DecidableEq, Repr

/-- VSEL: `sel` is the selecting mask (R211). -/
structure VSelOps where
  f : VFile
  g : Guard
  vd : Nat
  vs1 : Nat
  vs2 : Nat
  msel : Nat
  sel : Nat
deriving DecidableEq, Repr

/-- VMOVH (R213). -/
structure VMovhOps where
  f : VFile
  g : Guard
  vd : Nat
  msel : Nat
  h : Nat
  keep : Bool
deriving DecidableEq, Repr

/-- VLANE (R214). -/
structure VLaneOps where
  f : VFile
  g : Guard
  sd : Nat
  vs1 : Nat
  b : Src
  ty : Nat
deriving DecidableEq, Repr

/-- MAND, MOR, MXOR (R216). -/
structure MMM where
  f : VFile
  g : Guard
  md : Nat
  m1 : Nat
  m2 : Nat
deriving DecidableEq, Repr

/-- MNOT (R216). -/
structure MM where
  f : VFile
  g : Guard
  md : Nat
  m1 : Nat
deriving DecidableEq, Repr

/-- MPOP (R216). -/
structure MPopOps where
  f : VFile
  g : Guard
  sd : Nat
  m1 : Nat
deriving DecidableEq, Repr

/-! ## MX slot (R59, R65, R249) -/

/-- MCALL: first parameter register and tile. -/
structure McallOps where
  g : Guard
  mp : Nat
  t : Bool
deriving DecidableEq, Repr

/-- MPAR. -/
structure MparOps where
  g : Guard
  mp : Nat
  ss : Nat
deriving DecidableEq, Repr

/-- MLDS. -/
structure MldsOps where
  g : Guard
  fl : VFile
  vr : Nat
  plane : Nat
  row : Nat
deriving DecidableEq, Repr

/-- MPLANE. -/
structure MplaneOps where
  g : Guard
  plane : Nat
  le : Nat
  tile : Nat
deriving DecidableEq, Repr

/-- MRD and MWR. -/
structure MrwOps where
  g : Guard
  t : Bool
  fl : VFile
  vr : Nat
  row : Nat
  seg : Nat
  raw : Bool
deriving DecidableEq, Repr

/-- MCLR and MNORM. -/
structure MtOps where
  g : Guard
  t : Bool
deriving DecidableEq, Repr

/-- MFMT. -/
structure MfmtOps where
  g : Guard
  k : Nat
deriving DecidableEq, Repr

/-- MSTAT. -/
structure MstatOps where
  g : Guard
  ss : Nat
  sel : Nat
deriving DecidableEq, Repr

/-! ## LD and ST slots (R60, R66) -/

/-- LDS and LDH: scalar register or latch. -/
structure LdOps where
  g : Guard
  d : Nat
  le : Nat
  c0 : Coord
  c1 : Coord
  c2 : Coord
  c3 : Coord
deriving DecidableEq, Repr

/-- LDV. -/
structure LdvOps where
  g : Guard
  d : Nat
  fl : VFile
  le : Nat
  c0 : Coord
  c1 : Coord
  c2 : Coord
  c3 : Coord
deriving DecidableEq, Repr

/-- LDVG. -/
structure LdvgOps where
  g : Guard
  d : Nat
  fl : VFile
  le : Nat
  c0 : Coord
  c1 : Coord
  c2 : Coord
  vx : Nat
deriving DecidableEq, Repr

/-- TMOV (R137). -/
structure TmovOps where
  g : Guard
  src : Nat
  dst : Nat
  ts : Coord
  td : Coord
  fg : Nat
deriving DecidableEq, Repr

/-- STS and STVH: scalar register or latch, with a handler index when `h` (R139). -/
structure StOps where
  g : Guard
  d : Nat
  le : Nat
  c0 : Coord
  c1 : Coord
  c2 : Coord
  c3 : Coord
  h : Bool
  hidx : Nat
deriving DecidableEq, Repr

/-- STV and STVS. -/
structure StvOps where
  g : Guard
  d : Nat
  fl : VFile
  le : Nat
  c0 : Coord
  c1 : Coord
  c2 : Coord
  c3 : Coord
  h : Bool
  hidx : Nat
deriving DecidableEq, Repr

/-- STVM. -/
structure StvmOps where
  g : Guard
  d : Nat
  fl : VFile
  le : Nat
  c0 : Coord
  c1 : Coord
  c2 : Coord
  msel : Nat
  h : Bool
  hidx : Nat
deriving DecidableEq, Repr

/-- The atomics (R143). `hl = none` is RT = 0. `sc` is the expected-value register of ACAS, 0 otherwise. -/
structure AtomOps where
  g : Guard
  d : Nat
  le : Nat
  c0 : Coord
  c1 : Coord
  hl : Option Nat
  scope : Nat
  acq : Bool
  rel : Bool
  sc : Nat
deriving DecidableEq, Repr

/-! ## CE slot (R61, R303) -/

/-- CJOB. -/
structure CjobOps where
  g : Guard
  sa : Nat
  le : Nat
  hl : Nat
  fg : Nat
deriving DecidableEq, Repr

/-- CWAIT and CPOLL. -/
structure ChOps where
  g : Guard
  sa : Nat
  hl : Nat
deriving DecidableEq, Repr

/-- CKILL. -/
structure CkillOps where
  g : Guard
  sa : Nat
deriving DecidableEq, Repr

/-- CSEND and CRED: `len` is the field len − 1; `op` and `tag` are zero for CSEND. -/
structure CfragOps where
  g : Guard
  sa : Nat
  sb : Nat
  le : Nat
  fg : Nat
  op : Nat
  tag : Nat
  len : Nat
deriving DecidableEq, Repr

/-- CBELL. -/
structure CbellOps where
  g : Guard
  sa : Nat
  sb : Nat
  loc : Bool
  win : Nat
  sqid : Nat
deriving DecidableEq, Repr

/-! ## SY slot (R68) -/

/-- LSET: `f` and `depth` of the level, `e` the end-line distance, `cnt` the count. -/
structure LsetOps where
  g : Guard
  f : Bool
  e : Nat
  depth : Nat
  cnt : Src
deriving DecidableEq, Repr

/-- An SY operation with one number: LBRK levels, PHASE scope, a flag, a crew. -/
structure NumOps where
  g : Guard
  n : Nat
deriving DecidableEq, Repr

/-- WAITF. -/
structure WaitfOps where
  g : Guard
  c : Bool
  flag : Nat
deriving DecidableEq, Repr

/-- SPIN. -/
structure SpinOps where
  g : Guard
  le : Nat
  sc : Nat
  sx : Nat
  cond : Nat
deriving DecidableEq, Repr

/-- TAKE. -/
structure TakeOps where
  g : Guard
  d : Nat
  chunk : Nat
deriving DecidableEq, Repr

/-- An empty bundle's header (R48, R49). -/
structure EmptyOps where
  erun : Nat
  lineEnd : Bool
  park : Bool
deriving DecidableEq, Repr

/-! ## Pilot engine (R402) -/

/-- Pilot format R. -/
structure PR where
  d : Nat
  a : Nat
  b : Nat
deriving DecidableEq, Repr

/-- Pilot format I. -/
structure PI where
  d : Nat
  a : Nat
  imm : Nat
deriving DecidableEq, Repr

/-- Pilot LI. -/
structure PLi where
  d : Nat
  imm : Nat
deriving DecidableEq, Repr

/-- Pilot format M: `w` is the width code, `sp` the space. -/
structure PM where
  d : Nat
  a : Nat
  w : Nat
  sp : Nat
  off : Nat
deriving DecidableEq, Repr

/-- Pilot format B. -/
structure PB where
  a : Nat
  b : Nat
  off : Nat
deriving DecidableEq, Repr

/-- Pilot LOOP: `n` is the field n − 1. -/
structure PL where
  n : Nat
  len : Nat
deriving DecidableEq, Repr

/-- EMIT_BELL. -/
structure PBell where
  a : Nat
  b : Nat
  sqid : Nat
deriving DecidableEq, Repr

/-! ## Events, commands and services -/

/-- A data section of an image: the layout entry and the bytes, in file order (R85, R86). -/
structure DataSec where
  entry : Nat
  bytes : List (BitVec 8)
deriving DecidableEq, Repr

/-- An image as `ivas` makes it (R85): words, frame requirements, layouts, windows, format table, flags, data. -/
structure Image where
  id : Nat
  features : Nat
  words : List Nat
  entries : List (Nat × Nat)
  ga : Nat
  gb : Nat
  hl : Nat
  tiles : Nat
  layouts : List (Nat × List Word)
  windows : List (Nat × Nat)
  ftab : List (Nat × BitVec 32)
  flags : List Nat
  data : List DataSec
deriving DecidableEq, Repr

/-- The target of a binding command: die, tenant context and SPDM session (R385, R386). -/
structure Bind where
  die : Nat
  tcid : Nat
  sess : Nat
deriving DecidableEq, Repr

/-- The resources that LOCK requests (R386): HBM in 2 MiB units, CLUSTER and DIE region sizes, and crews (log entry 90). -/
structure LockReq where
  die : Nat
  sess : Nat
  mem : Nat
  csize : Nat
  dsize : Nat
  crews : Nat
deriving DecidableEq, Repr

/-- INSTALL item 7 (R334, R387). -/
structure Account where
  cap : Nat
  refill : Nat
  fairpm : Nat
  inc : Nat
  crewq : Nat
  tokens : Nat
deriving DecidableEq, Repr

/-- A window's CSRs, ceiling and identifier, and for a multicast window the members of its group: INSTALL item 10 and the WINDOW
service (R278, R280, R387). -/
structure WinSet where
  n : Nat
  wcfg : Word
  wbase : Nat
  wsize : Nat
  ceil : Nat
  ident : Nat
  members : List (Nat × Nat × Nat)
deriving DecidableEq, Repr

/-- A delegation record (R356). -/
structure DelegRec where
  dmask : BitVec 32
  flaunch : Nat
  fstrand : Nat
  fflag : Nat
  frva : Nat
deriving DecidableEq, Repr

/-- A handler-table entry: launch, logical strand, entry bundle (R35). -/
structure HEntry where
  launch : Nat
  strand : Nat
  entry : Nat
deriving DecidableEq, Repr

/-- A page the MAP and PROTECT services write: virtual address, level, and the 128-bit leaf (R129, R408). -/
structure PageReq where
  va : Nat
  level : Nat
  leaf : BitVec 128
deriving DecidableEq, Repr

/-- QCREATE (R391, R408). -/
structure QReq where
  qslot : Nat
  log2n : Nat
  esz : Nat
  ringva : Nat
  prog : Nat
  bkey : Nat
  key : Nat
deriving DecidableEq, Repr

/-- A bell as it reaches a die (R395): `dev` marks a device-originated bell; `size` and `aligned` are those of the write. -/
structure BellMsg where
  die : Nat
  tcid : Nat
  sqid : Nat
  tail : Nat
  seq : Nat
  tag : Word
  dev : Bool
  wellSized : Bool
deriving DecidableEq, Repr

/-- How an SPDM message comes: over MCTP on the I3C management port, or as a secured message over a fabric (R383). -/
inductive Transport where
  | mctp | ualink | ethernet
deriving DecidableEq, Repr

/-- An SPDM request as it reaches a responder: compute dies 0 to 7, quay dies 8 to 11; session 0 is no session. -/
structure Spdm where
  resp : Nat
  sess : Nat
  arg : Nat
  via : Transport
deriving DecidableEq, Repr

/-- What a patrol scrub finds in a block (R420). -/
inductive ScrubResult where
  | clean | corrected | uncorrectable
deriving DecidableEq, Repr

/-- A rewrite of a poisoned in-flight entry by the RESTORE service: entry index and payload (R367, R408). -/
structure Rewrite where
  idx : Nat
  data : Vec
deriving DecidableEq, Repr

/-- The instructions and events of the part, one constructor per row of the opcode table: strand operations,
then pilot instructions, then events, commands and services, each group in the table's order. -/
inductive Instr where
  | emptyBundle (o : EmptyOps)
  | add (o : RRR)
  | sub (o : RRR)
  | addi (o : RRI)
  | mul (o : RRS)
  | mulh (o : RRR)
  | mulhu (o : RRR)
  | div (o : RRR)
  | divu (o : RRR)
  | rem (o : RRR)
  | remu (o : RRR)
  | and (o : RRS)
  | or (o : RRS)
  | xor (o : RRS)
  | andn (o : RRS)
  | shl (o : RRS)
  | shr (o : RRS)
  | sar (o : RRS)
  | rotl (o : RRS)
  | clz (o : RR)
  | popc (o : RR)
  | min (o : RRS)
  | max (o : RRS)
  | minu (o : RRS)
  | maxu (o : RRS)
  | sel (o : SelOps)
  | li (o : RI)
  | lih (o : RI)
  | cmp (o : CmpOps)
  | cmpi (o : CmpIOps)
  | pand (o : PPP)
  | por (o : PPP)
  | pxor (o : PPP)
  | pnot (o : PP)
  | br (o : BrOps)
  | bri (o : BriOps)
  | call (o : BrOps)
  | calli (o : BriOps)
  | ret (g : Guard)
  | csrr (o : CsrrOps)
  | csrw (o : CsrwOps)
  | csrs (o : CsrwOps)
  | csrc (o : CsrwOps)
  | trap (o : CodeOps)
  | hail (o : CodeOps)
  | layw (o : LaywOps)
  | layr (o : LayrOps)
  | movh (o : MovhOps)
  | vadd (o : V3R)
  | vsub (o : V3R)
  | vmul (o : V3R)
  | vfma (o : V4R)
  | vfms (o : V4R)
  | vfnma (o : V4R)
  | vmin (o : V3T)
  | vmax (o : V3T)
  | vabs (o : V2T)
  | vneg (o : V2T)
  | vcpys (o : V3T)
  | vrcp (o : V2R)
  | vrsq (o : V2R)
  | vsqrt (o : V2R)
  | vexp2 (o : V2R)
  | vlog2 (o : V2R)
  | vcmp (o : VCmpOps)
  | viadd (o : V3O)
  | visub (o : V3O)
  | vimul (o : V3O)
  | vimulh (o : V3T)
  | vimin (o : V3T)
  | vimax (o : V3T)
  | viabs (o : V2T)
  | vand (o : V3L)
  | vor (o : V3L)
  | vxor (o : V3L)
  | vandn (o : V3L)
  | vshl (o : VSS)
  | vshr (o : VSS)
  | vsar (o : VSS)
  | vcvt (o : VCvtOps)
  | vcvti (o : VCvtOps)
  | vcvtf (o : VCvtOps)
  | vqfp4 (o : VQOps)
  | vdqfp4 (o : VQOps)
  | vexpmax (o : V3T)
  | vscale (o : VScaleOps)
  | vmov (o : V2L)
  | vbcast (o : VBcastOps)
  | vperm (o : V3T)
  | vshuf (o : V3T)
  | vslide (o : VSS)
  | vsel (o : VSelOps)
  | vxfer (o : V2L)
  | vmovh (o : VMovhOps)
  | vlane (o : VLaneOps)
  | vrsum (o : V2T)
  | vrmax (o : V2T)
  | vrmin (o : V2T)
  | mand (o : MMM)
  | mor (o : MMM)
  | mxor (o : MMM)
  | mnot (o : MM)
  | mpop (o : MPopOps)
  | mcallMma (o : McallOps)
  | mcallMmat (o : McallOps)
  | mcallMmab (o : McallOps)
  | mcallSplit (o : McallOps)
  | mcallSlmma (o : McallOps)
  | mcallFold (o : McallOps)
  | mcallTrans (o : McallOps)
  | mcallMcopy (o : McallOps)
  | mpar (o : MparOps)
  | mlds (o : MldsOps)
  | mplane (o : MplaneOps)
  | mrd (o : MrwOps)
  | mwr (o : MrwOps)
  | mclr (o : MtOps)
  | mnorm (o : MtOps)
  | mfmt (o : MfmtOps)
  | mstat (o : MstatOps)
  | lds (o : LdOps)
  | ldv (o : LdvOps)
  | ldvg (o : LdvgOps)
  | ldh (o : LdOps)
  | tmov (o : TmovOps)
  | sts (o : StOps)
  | stv (o : StvOps)
  | stvs (o : StvOps)
  | stvm (o : StvmOps)
  | stvh (o : StOps)
  | aadd (o : AtomOps)
  | aaddf (o : AtomOps)
  | amin (o : AtomOps)
  | amax (o : AtomOps)
  | aand (o : AtomOps)
  | aor (o : AtomOps)
  | axor (o : AtomOps)
  | aswp (o : AtomOps)
  | acas (o : AtomOps)
  | vred (o : StvOps)
  | cjob (o : CjobOps)
  | cwait (o : ChOps)
  | cpoll (o : ChOps)
  | ckill (o : CkillOps)
  | csend (o : CfragOps)
  | cred (o : CfragOps)
  | cbell (o : CbellOps)
  | lset (o : LsetOps)
  | lbrk (o : NumOps)
  | endStrand (g : Guard)
  | phase (o : NumOps)
  | fence (g : Guard)
  | waitf (o : WaitfOps)
  | setf (o : NumOps)
  | clrf (o : NumOps)
  | spin (o : SpinOps)
  | join (o : NumOps)
  | leave (o : NumOps)
  | cbar (o : NumOps)
  | yield (g : Guard)
  | take (o : TakeOps)
  | hret (g : Guard)
  | pilotAdd (o : PR)
  | pilotSub (o : PR)
  | pilotAnd (o : PR)
  | pilotOr (o : PR)
  | pilotXor (o : PR)
  | pilotMul (o : PR)
  | pilotShl (o : PI)
  | pilotShr (o : PI)
  | pilotAddi (o : PI)
  | pilotAndi (o : PI)
  | pilotOri (o : PI)
  | pilotLi (o : PLi)
  | ldm (o : PM)
  | stm (o : PM)
  | beq (o : PB)
  | bne (o : PB)
  | bltu (o : PB)
  | bgeu (o : PB)
  | loop (o : PL)
  | emitLaunch (a : Nat)
  | emitCopy (a : Nat)
  | emitBell (o : PBell)
  | drop (code : Nat)
  | emptyIssueCycle (core : Nat)
  | resultLand (core : Nat)
  | runLimit (core : Nat)
  | mxOpStart (core : Nat)
  | mxCommit (core : Nat)
  | mxOpEnd (core : Nat)
  | mxTokenGain (die : Nat)
  | tmovComplete (core : Nat)
  | storePerform (sid rid : Nat)
  | atomicPerform (sid rid : Nat)
  | latchFill (sid rid : Nat)
  | accessFaultReport (sid : Nat)
  | jobAccept (core : Nat)
  | jobSegment (die : Nat)
  | jobComplete (jid : Nat)
  | phaseComplete (sid : Nat)
  | spinWaitTimeout (sid : Nat)
  | stealRequest (mid : Nat)
  | stealGrant (mid : Nat)
  | strandSelect (core : Nat)
  | rowLoadComplete (sid : Nat)
  | release (die lid : Nat)
  | retire (sid : Nat)
  | shareArrival (die lid : Nat)
  | shareReserveTimeout (die lid : Nat)
  | preemptCheck (die : Nat)
  | saveCaptureComplete (core : Nat)
  | saveComplete (sid : Nat)
  | quantumExpiry (core : Nat)
  | starvationTimeout (core : Nat)
  | prioritySwitchRequest (core : Nat)
  | boostDecay (die : Nat)
  | remtTick (die : Nat)
  | energyRefill (die : Nat)
  | chargeReconcile (die : Nat)
  | clockStep (die : Nat)
  | sliceWindow (die sl : Nat)
  | shrinkAdjust (die sl tenant p99 : Nat)
  | windowArrival (xid m : Nat)
  | windowAck (xid m : Nat)
  | retransmitTimeout (die tcid win : Nat)
  | gapTransaction (xid m : Nat)
  | resyncTransaction (die tcid win m : Nat)
  | linkFailure (port : Nat)
  | linkTraining (port : Nat) (ext : Bool)
  | fragmentArrival (fid m : Nat)
  | fragmentAck (fid m : Nat)
  | reductionTimeout (gid : Nat)
  | evictRegions (die tcid : Nat)
  | residencyRestore (die tcid : Nat)
  | restore (sid die serial : Nat)
  | invalidate (die tcid va size : Nat) (all : Bool)
  | resetRelease (die : Nat)
  | bootTimeout (die : Nat)
  | candidacy (die frm : Nat)
  | electionTimeout (die : Nat)
  | packageNumber (p : Nat)
  | getVersion (q : Spdm)
  | getCapabilities (q : Spdm)
  | negotiateAlgorithms (q : Spdm)
  | getDigests (q : Spdm)
  | getCertificate (q : Spdm)
  | challenge (q : Spdm)
  | getMeasurements (q : Spdm)
  | keyExchange (q : Spdm)
  | finish (q : Spdm)
  | keyUpdate (q : Spdm)
  | heartbeat (q : Spdm)
  | endSession (q : Spdm)
  | sessionHeartbeatLapse (die sess : Nat)
  | lock (r : LockReq)
  | installKeys (b : Bind) (keys : List (Nat × Nat))
  | installLinkkeys (b : Bind) (j keyid key : Nat)
  | installSavekeys (b : Bind) (key tag : Nat)
  | installPart (b : Bind) (part suite : Nat)
  | installRegions (b : Bind) (csize dsize bva : Nat)
  | installMemory (b : Bind) (quota : Nat)
  | installAccount (b : Bind) (a : Account)
  | installBandwidth (b : Bind) (sl weight : Nat) (critical : Bool) (target : Nat)
  | installGangs (b : Bind) (gangs : List Nat)
  | installWindow (b : Bind) (w : WinSet)
  | installQueues (b : Bind) (qmax sqva : Nat)
  | installNotice (b : Bind) (addr : Nat)
  | installDeleg (b : Bind) (r : DelegRec)
  | installHandlers (b : Bind) (t : List (Nat × HEntry))
  | installFaultpol (b : Bind) (p : Nat)
  | installFeatures (b : Bind) (w : Nat)
  | installQuayenrol (b : Bind) (key : Nat)
  | attest (b : Bind) (nonce : Nat)
  | start (b : Bind)
  | unbind (b : Bind)
  | map (b : Bind) (pages : List PageReq)
  | unmap (b : Bind) (pages : List (Nat × Nat))
  | protect (b : Bind) (pages : List PageReq)
  | qcreate (b : Bind) (q : QReq)
  | qdestroy (b : Bind) (qslot : Nat)
  | qreset (b : Bind) (sqid idx : Nat) (caller : Option Nat)
  | loadpilot (b : Bind) (words : List Nat)
  | pdrop (b : Bind) (handle : Nat)
  | window (b : Bind) (w : WinSet)
  | clearunc (b : Bind) (win : Nat) (caller : Option Nat)
  | deleg (b : Bind) (r : DelegRec)
  | handlers (b : Bind) (t : List (Nat × HEntry))
  | faultpol (b : Bind) (p : Nat)
  | restoreService (b : Bind) (serial die : Nat) (rw : List Rewrite)
  | resume (caller : Nat)
  | redirect (caller : Nat)
  | endstrand (caller : Nat)
  | bell (m : BellMsg)
  | pilotEntry (die lane : Nat)
  | watchdogRestart (die : Nat)
  | watchdogExpiry (die : Nat)
  | machineCheckStop (die : Nat)
  | recoveryTimeout (die : Nat)
  | powerGood
  | powerLoss
  | setPowerLimit (watts : Nat)
  | thermalStep (die temp : Nat)
  | thermtrip (die temp : Nat)
  | patrolScrub (blk : Nat) (r : ScrubResult)
  | telemetryReport
  | telemetryRequest
  | errorCounterRequest
  | imageLoad (die tcid : Nat) (img : Image)
  | filterStateLost (die tcid win : Nat)
  | railOutsideTolerance (rail : Nat)
  | retiredPageMove (die src dst : Nat)
deriving DecidableEq, Repr

end Sys2Proof
end

