-- ==== Sys2Proof/WellFormed.lean ====
section
/-! DEFINITION. Which instructions are well formed: every field inside the width its format gives it, and every
enumerated field at a value its table declares legal (R51, R56 to R61, R68, R71, R186, R195, R200, R258, R402, R405).
The decoder raises ILLEGAL_OP for a word whose fields fail the enumerated part. Events name agents that exist. -/
namespace Sys2Proof

/-- A guard names one of the 16 predicates (R69). -/
def Guard.wf (g : Guard) : Bool := decide (g.p < 16)

/-- A second operand fits: a scalar register, or an immediate below `lim` (R55, R57). -/
def Src.wf (lim : Nat) : Src → Bool
  | .reg r => decide (r < 64)
  | .imm v => decide (v < lim)

/-- A coordinate field holds a register number or a 6-bit immediate (R60). -/
def Coord.wf (c : Coord) : Bool := decide (c.v < 64)

/-- The assigned CSR numbers (R71). -/
def csrAssigned (n : Nat) : Bool :=
  decide (n ≤ 0x00A) || (decide (0x010 ≤ n) && decide (n ≤ 0x015)) || (decide (0x020 ≤ n) && decide (n ≤ 0x023)) ||
  (decide (0x040 ≤ n) && decide (n ≤ 0x04F)) || (decide (0x080 ≤ n) && decide (n ≤ 0x10F)) || n == 0x1F0

/-- The type codes of vector floating arithmetic: F32, BF16, F16, F64 (R98, R186). -/
def tyFloatArith (t : Nat) : Bool := t == 0 || t == 1 || t == 2 || t == 6
/-- The floating type codes (R87). -/
def tyFloat (t : Nat) : Bool := decide (t < 7)
/-- The integer type codes (R87). -/
def tyInt (t : Nat) : Bool := decide (7 ≤ t) && decide (t < 14)
/-- The signed integer type codes (R87). -/
def tySigned (t : Nat) : Bool := t == 7 || t == 8 || t == 9 || t == 13
/-- Every assigned type code (R87). -/
def tyAny (t : Nat) : Bool := decide (t < 14)

def RRR.wf (o : RRR) : Bool := o.g.wf && decide (o.sd < 64) && decide (o.sa < 64) && decide (o.sb < 64)
def RRI.wf (o : RRI) : Bool := o.g.wf && decide (o.sd < 64) && decide (o.sa < 64) && decide (o.imm < 2 ^ 32)
def RRS.wf (lim : Nat) (o : RRS) : Bool := o.g.wf && decide (o.sd < 64) && decide (o.sa < 64) && o.b.wf lim
def RR.wf (o : RR) : Bool := o.g.wf && decide (o.sd < 64) && decide (o.sa < 64)
def SelOps.wf (o : SelOps) : Bool :=
  o.g.wf && decide (o.sd < 64) && decide (o.sa < 64) && decide (o.sb < 64) && decide (o.k < 16)
def RI.wf (o : RI) : Bool := o.g.wf && decide (o.sd < 64) && decide (o.imm < 2 ^ 32)
def CmpOps.wf (o : CmpOps) : Bool :=
  o.g.wf && decide (o.pd < 16) && decide (o.cc < 8) && decide (o.sa < 64) && decide (o.sb < 64)
def CmpIOps.wf (o : CmpIOps) : Bool :=
  o.g.wf && decide (o.pd < 16) && decide (o.cc < 8) && decide (o.sa < 64) && decide (o.imm < 2 ^ 32)
def PPP.wf (o : PPP) : Bool := o.g.wf && decide (o.pd < 16) && decide (o.pa < 16) && decide (o.pb < 16)
def PP.wf (o : PP) : Bool := o.g.wf && decide (o.pd < 16) && decide (o.pa < 16)
def BrOps.wf (o : BrOps) : Bool := o.g.wf && decide (o.sa < 64)
def BriOps.wf (o : BriOps) : Bool := o.g.wf && decide (o.imm < 2 ^ 32)
def CsrrOps.wf (o : CsrrOps) : Bool := o.g.wf && decide (o.sd < 64) && decide (o.csr < 4096) && csrAssigned o.csr
def CsrwOps.wf (o : CsrwOps) : Bool := o.g.wf && decide (o.sa < 64) && decide (o.csr < 4096) && csrAssigned o.csr
def CodeOps.wf (o : CodeOps) : Bool := o.g.wf && decide (o.code < 65536)
def LaywOps.wf (o : LaywOps) : Bool := o.g.wf && decide (o.sa < 64) && decide (o.n < 64) && decide (o.k < 4)
def LayrOps.wf (o : LayrOps) : Bool := o.g.wf && decide (o.sd < 64) && decide (o.n < 64) && decide (o.k < 4)
def MovhOps.wf (o : MovhOps) : Bool := o.g.wf && decide (o.sd < 64) && decide (o.h < 16) && decide (o.w < 16)

def V3R.wf (o : V3R) : Bool :=
  o.g.wf && decide (o.vd < 512) && decide (o.vs1 < 512) && decide (o.vs2 < 512) && decide (o.msel < 8) &&
  tyFloatArith o.ty && decide (o.rnd < 4)
def V4R.wf (o : V4R) : Bool :=
  o.g.wf && decide (o.vd < 512) && decide (o.vs1 < 512) && decide (o.vs2 < 512) && decide (o.vs3 < 512) &&
  decide (o.msel < 8) && tyFloatArith o.ty && decide (o.rnd < 4)
def V3T.wf (ok : Nat → Bool) (o : V3T) : Bool :=
  o.g.wf && decide (o.vd < 512) && decide (o.vs1 < 512) && decide (o.vs2 < 512) && decide (o.msel < 8) && decide (o.ty < 16) && ok o.ty
def V2T.wf (ok : Nat → Bool) (o : V2T) : Bool :=
  o.g.wf && decide (o.vd < 512) && decide (o.vs1 < 512) && decide (o.msel < 8) && decide (o.ty < 16) && ok o.ty
def V2R.wf (o : V2R) : Bool :=
  o.g.wf && decide (o.vd < 512) && decide (o.vs1 < 512) && decide (o.msel < 8) && tyFloatArith o.ty && decide (o.rnd < 4)
def VCmpOps.wf (o : VCmpOps) : Bool :=
  o.g.wf && decide (o.md < 8) && decide (o.vs1 < 512) && decide (o.vs2 < 512) && decide (o.msel < 8) &&
  ((tyFloatArith o.ty && decide (o.cond < 8)) || (tyInt o.ty && decide (o.cond < 6)))
def V3O.wf (o : V3O) : Bool :=
  o.g.wf && decide (o.vd < 512) && decide (o.vs1 < 512) && decide (o.vs2 < 512) && decide (o.msel < 8) &&
  tyInt o.ty && decide (o.ovf < 4)
def V3L.wf (o : V3L) : Bool :=
  o.g.wf && decide (o.vd < 512) && decide (o.vs1 < 512) && decide (o.vs2 < 512) && decide (o.msel < 8)
def VSS.wf (ok : Nat → Bool) (o : VSS) : Bool :=
  o.g.wf && decide (o.vd < 512) && decide (o.vs1 < 512) && o.b.wf 2048 && decide (o.msel < 8) && decide (o.ty < 16) && ok o.ty
def VCvtOps.wf (okd oks : Nat → Bool) (o : VCvtOps) : Bool :=
  o.g.wf && decide (o.vd < 512) && decide (o.vs1 < 512) && decide (o.msel < 8) && decide (o.ty < 16) && okd o.ty &&
  decide (o.src < 16) && oks o.src && decide (o.rnd < 4) && decide (o.ovf < 4)
def VQOps.wf (o : VQOps) : Bool :=
  o.g.wf && decide (o.vd < 512) && decide (o.vs1 < 512) && decide (o.vs2 < 512) && decide (o.vs3 < 512) &&
  decide (o.msel < 8) && decide (o.rnd < 4) && decide (o.ovf < 4)
def VScaleOps.wf (o : VScaleOps) : Bool :=
  o.g.wf && decide (o.vd < 512) && decide (o.vs1 < 512) && decide (o.vs2 < 512) && decide (o.msel < 8) &&
  tyFloatArith o.ty && decide (o.rnd < 4) && decide (o.ovf < 4)
def V2L.wf (o : V2L) : Bool := o.g.wf && decide (o.vd < 512) && decide (o.vs1 < 512) && decide (o.msel < 8)
def VBcastOps.wf (o : VBcastOps) : Bool :=
  o.g.wf && decide (o.vd < 512) && o.b.wf 2048 && decide (o.msel < 8) && tyAny o.ty
def VSelOps.wf (o : VSelOps) : Bool :=
  o.g.wf && decide (o.vd < 512) && decide (o.vs1 < 512) && decide (o.vs2 < 512) && decide (o.msel < 8) && decide (o.sel < 8)
def VMovhOps.wf (o : VMovhOps) : Bool := o.g.wf && decide (o.vd < 512) && decide (o.msel < 8) && decide (o.h < 16)
def VLaneOps.wf (o : VLaneOps) : Bool :=
  o.g.wf && decide (o.sd < 64) && decide (o.vs1 < 512) && o.b.wf 2048 && tyAny o.ty
def MMM.wf (o : MMM) : Bool := o.g.wf && decide (o.md < 8) && decide (o.m1 < 8) && decide (o.m2 < 8)
def MM.wf (o : MM) : Bool := o.g.wf && decide (o.md < 8) && decide (o.m1 < 8)
def MPopOps.wf (o : MPopOps) : Bool := o.g.wf && decide (o.sd < 64) && decide (o.m1 < 8)

def McallOps.wf (o : McallOps) : Bool := o.g.wf && decide (o.mp < 8)
def MparOps.wf (o : MparOps) : Bool := o.g.wf && decide (o.mp < 8) && decide (o.ss < 64)
def MldsOps.wf (o : MldsOps) : Bool := o.g.wf && decide (o.vr < 512) && decide (o.plane < 2) && decide (o.row < 128)
def MplaneOps.wf (o : MplaneOps) : Bool := o.g.wf && decide (o.plane < 2) && decide (o.le < 64) && decide (o.tile < 512)
def MrwOps.wf (o : MrwOps) : Bool := o.g.wf && decide (o.vr < 512) && decide (o.row < 128) && decide (o.seg < 16)
def MtOps.wf (o : MtOps) : Bool := o.g.wf
def MfmtOps.wf (o : MfmtOps) : Bool := o.g.wf && decide (o.k < 16)
/-- The selectors that R258 lists. -/
def MstatOps.wf (o : MstatOps) : Bool :=
  o.g.wf && decide (o.ss < 64) && (decide (o.sel ≤ 3) || (decide (0x10 ≤ o.sel) && decide (o.sel ≤ 0x1F)))

def LdOps.wf (lim : Nat) (o : LdOps) : Bool :=
  o.g.wf && decide (o.d < lim) && decide (o.le < 64) && o.c0.wf && o.c1.wf && o.c2.wf && o.c3.wf
def LdvOps.wf (o : LdvOps) : Bool :=
  o.g.wf && decide (o.d < 512) && decide (o.le < 64) && o.c0.wf && o.c1.wf && o.c2.wf && o.c3.wf
def LdvgOps.wf (o : LdvgOps) : Bool :=
  o.g.wf && decide (o.d < 512) && decide (o.le < 64) && o.c0.wf && o.c1.wf && o.c2.wf && decide (o.vx < 512)
def TmovOps.wf (o : TmovOps) : Bool :=
  o.g.wf && decide (o.src < 64) && decide (o.dst < 64) && o.ts.wf && o.td.wf && decide (o.fg < 64)
def StOps.wf (lim : Nat) (o : StOps) : Bool :=
  o.g.wf && decide (o.d < lim) && decide (o.le < 64) && o.c0.wf && o.c1.wf && o.c2.wf && o.c3.wf && decide (o.hidx < 16)
def StvOps.wf (o : StvOps) : Bool :=
  o.g.wf && decide (o.d < 512) && decide (o.le < 64) && o.c0.wf && o.c1.wf && o.c2.wf && o.c3.wf && decide (o.hidx < 16)
def StvmOps.wf (o : StvmOps) : Bool :=
  o.g.wf && decide (o.d < 512) && decide (o.le < 64) && o.c0.wf && o.c1.wf && o.c2.wf && decide (o.msel < 8) && decide (o.hidx < 16)
/-- A return latch, when present, is one of the 16. -/
def latchWf : Option Nat → Bool
  | none => true
  | some h => decide (h < 16)
def AtomOps.wf (cas : Bool) (o : AtomOps) : Bool :=
  o.g.wf && decide (o.d < 64) && decide (o.le < 64) && o.c0.wf && o.c1.wf && latchWf o.hl && decide (o.scope < 5) &&
  (if cas then decide (o.sc < 64) else o.sc == 0)

def CjobOps.wf (o : CjobOps) : Bool :=
  o.g.wf && decide (o.sa < 64) && decide (o.le < 64) && decide (o.hl < 16) && decide (o.fg < 64)
def ChOps.wf (o : ChOps) : Bool := o.g.wf && decide (o.sa < 64) && decide (o.hl < 16)
def CkillOps.wf (o : CkillOps) : Bool := o.g.wf && decide (o.sa < 64)
def CfragOps.wf (red : Bool) (o : CfragOps) : Bool :=
  o.g.wf && decide (o.sa < 64) && decide (o.sb < 64) && decide (o.le < 64) && decide (o.fg < 64) && decide (o.len < 4096) &&
  (if red then decide (o.op < 4) && decide (o.tag < 256) else o.op == 0 && o.tag == 0)
/-- CBELL.LOC has WIN = 0 (R314). -/
def CbellOps.wf (o : CbellOps) : Bool :=
  o.g.wf && decide (o.sa < 64) && decide (o.sb < 64) && decide (o.win < 16) && decide (o.sqid < 4096) && (!o.loc || o.win == 0)

def LsetOps.wf (o : LsetOps) : Bool := o.g.wf && decide (o.e < 1024) && decide (o.depth < 8) && o.cnt.wf 64
def NumOps.wf (lim : Nat) (o : NumOps) : Bool := o.g.wf && decide (o.n < lim)
def WaitfOps.wf (o : WaitfOps) : Bool := o.g.wf && decide (o.flag < 64)
def SpinOps.wf (o : SpinOps) : Bool :=
  o.g.wf && decide (o.le < 64) && decide (o.sc < 64) && decide (o.sx < 64) && decide (o.cond < 5)
def TakeOps.wf (o : TakeOps) : Bool := o.g.wf && decide (o.d < 64) && decide (1 ≤ o.chunk) && decide (o.chunk < 32768)
def EmptyOps.wf (o : EmptyOps) : Bool := decide (o.erun < 16)

def PR.wf (o : PR) : Bool := decide (o.d < 8) && decide (o.a < 8) && decide (o.b < 8)
def PI.wf (lim : Nat) (o : PI) : Bool := decide (o.d < 8) && decide (o.a < 8) && decide (o.imm < lim)
def PLi.wf (o : PLi) : Bool := decide (o.d < 8) && decide (o.imm < 2 ^ 20)
/-- The fields of format M (R402); what rule 4 of R405 asks of them is the verifier's. -/
def PM.wf (o : PM) : Bool :=
  decide (o.d < 8) && decide (o.a < 8) && decide (o.w < 4) && decide (o.sp < 4) && decide (o.off < 1024)
def PB.wf (o : PB) : Bool := decide (o.a < 8) && decide (o.b < 8) && decide (o.off < 2 ^ 20)
def PL.wf (o : PL) : Bool := decide (o.n < 64) && decide (o.len < 2 ^ 20)
def PBell.wf (o : PBell) : Bool := decide (o.a < 8) && decide (o.b < 8) && decide (o.sqid < 4096)

/-- A die number (R16). -/
def dieWf (d : Nat) : Bool := decide (d < 8)
/-- A core number (R21). -/
def coreWf (c : Nat) : Bool := decide (c < 512)
/-- A tenant context of a die (R18). -/
def ctxWf (d t : Nat) : Bool := decide (d < 8) && decide (t < 1024)
def Bind.wf (b : Bind) : Bool := ctxWf b.die b.tcid

/-- The well-formed instructions and events. -/
def Instr.wf : Instr → Bool
  | .emptyBundle o => o.wf
  | .emptyIssueCycle c | .resultLand c | .runLimit c | .mxOpStart c | .mxOpEnd c | .tmovComplete c
  | .jobAccept c | .strandSelect c | .saveCaptureComplete c | .quantumExpiry c | .starvationTimeout c
  | .prioritySwitchRequest c => coreWf c
  | .mxCommit c => coreWf c
  | .add o | .sub o | .mulh o | .mulhu o | .div o | .divu o | .rem o | .remu o => o.wf
  | .addi o => o.wf
  | .mul o | .and o | .or o | .xor o | .andn o | .min o | .max o | .minu o | .maxu o => o.wf (2 ^ 32)
  | .shl o | .shr o | .sar o | .rotl o => o.wf 64
  | .clz o | .popc o => o.wf
  | .sel o => o.wf
  | .li o | .lih o => o.wf
  | .cmp o => o.wf
  | .cmpi o => o.wf
  | .pand o | .por o | .pxor o => o.wf
  | .pnot o => o.wf
  | .br o | .call o => o.wf
  | .bri o | .calli o => o.wf
  | .ret g => g.wf
  | .csrr o => o.wf
  | .csrw o | .csrs o | .csrc o => o.wf
  | .trap o | .hail o => o.wf
  | .layw o => o.wf
  | .layr o => o.wf
  | .movh o => o.wf
  | .vadd o | .vsub o | .vmul o => o.wf
  | .vfma o | .vfms o | .vfnma o => o.wf
  | .vmin o | .vmax o | .vcpys o | .vexpmax o => o.wf tyFloatArith
  | .vimulh o | .vimin o | .vimax o => o.wf tyInt
  | .vperm o | .vshuf o => o.wf (fun t => tyAny t && t != 5)
  | .vabs o | .vneg o => o.wf tyFloatArith
  | .viabs o => o.wf tySigned
  | .vrsum o | .vrmax o | .vrmin o => o.wf (fun t => tyFloatArith t || tyInt t)
  | .vrcp o | .vrsq o | .vsqrt o | .vexp2 o | .vlog2 o => o.wf
  | .vcmp o => o.wf
  | .viadd o | .visub o | .vimul o => o.wf
  | .vand o | .vor o | .vxor o | .vandn o => o.wf
  | .vshl o | .vshr o | .vsar o => o.wf tyInt
  | .vslide o => o.wf tyAny
  | .vcvt o => o.wf tyFloat tyFloat
  | .vcvti o => o.wf tyInt tyAny
  | .vcvtf o => o.wf tyFloat tyInt
  | .vqfp4 o | .vdqfp4 o => o.wf
  | .vscale o => o.wf
  | .vmov o | .vxfer o => o.wf
  | .vbcast o => o.wf
  | .vsel o => o.wf
  | .vmovh o => o.wf
  | .vlane o => o.wf
  | .mand o | .mor o | .mxor o => o.wf
  | .mnot o => o.wf
  | .mpop o => o.wf
  | .mcallMma o | .mcallMmat o | .mcallMmab o | .mcallSplit o | .mcallSlmma o | .mcallFold o | .mcallTrans o
  | .mcallMcopy o => o.wf
  | .mpar o => o.wf
  | .mlds o => o.wf
  | .mplane o => o.wf
  | .mrd o | .mwr o => o.wf
  | .mclr o | .mnorm o => o.wf
  | .mfmt o => o.wf
  | .mstat o => o.wf
  | .lds o => o.wf 64
  | .ldh o => o.wf 16
  | .ldv o => o.wf
  | .ldvg o => o.wf
  | .tmov o => o.wf
  | .sts o => o.wf 64
  | .stvh o => o.wf 16
  | .stv o | .stvs o => o.wf
  | .vred o => o.wf && !o.h && o.hidx == 0
  | .stvm o => o.wf
  | .aadd o | .aaddf o | .amin o | .amax o | .aand o | .aor o | .axor o | .aswp o => o.wf false
  | .acas o => o.wf true
  | .cjob o => o.wf
  | .cwait o | .cpoll o => o.wf
  | .ckill o => o.wf
  | .csend o => o.wf false
  | .cred o => o.wf true
  | .cbell o => o.wf
  | .lset o => o.wf
  | .lbrk o => o.wf 7 && decide (1 ≤ o.n)
  | .phase o => o.wf 5
  | .setf o | .clrf o => o.wf 64
  | .join o | .leave o | .cbar o => o.wf 256
  | .waitf o => o.wf
  | .spin o => o.wf
  | .take o => o.wf
  | .endStrand g | .fence g | .yield g | .hret g => g.wf
  | .mxTokenGain d | .jobSegment d | .preemptCheck d | .boostDecay d | .remtTick d | .energyRefill d
  | .chargeReconcile d | .clockStep d | .electionTimeout d | .watchdogRestart d
  | .watchdogExpiry d | .machineCheckStop d | .recoveryTimeout d => dieWf d
  | .storePerform _ _ | .atomicPerform _ _ | .latchFill _ _ => true
  | .accessFaultReport _ | .phaseComplete _ | .spinWaitTimeout _ | .rowLoadComplete _ | .retire _ | .saveComplete _ => true
  | .jobComplete _ | .stealRequest _ | .stealGrant _ | .reductionTimeout _ => true
  | .release d _ | .shareArrival d _ | .shareReserveTimeout d _ => dieWf d
  | .sliceWindow d sl => dieWf d && decide (sl < 2)
  | .shrinkAdjust d sl t _ => dieWf d && decide (sl < 2) && decide (t < 256)
  | .windowArrival _ m | .windowAck _ m | .gapTransaction _ m | .fragmentArrival _ m | .fragmentAck _ m => decide (m < 64)
  | .retransmitTimeout d t w | .filterStateLost d t w => ctxWf d t && decide (w < 16)
  | .resyncTransaction d t w m => ctxWf d t && decide (w < 16) && decide (m < 64)
  | .linkFailure p => decide (p < 24)
  | .linkTraining p _ => decide (p < 24)
  | .evictRegions d t | .residencyRestore d t => ctxWf d t
  | .restore _ d _ => dieWf d
  | .invalidate d t _ _ _ => ctxWf d t
  | .candidacy d f => dieWf d && dieWf f
  | .packageNumber p => decide (p < 128)
  | .getVersion q | .getCapabilities q | .negotiateAlgorithms q | .getDigests q | .getCertificate q | .challenge q
  | .getMeasurements q | .keyExchange q | .finish q | .keyUpdate q | .heartbeat q | .endSession q => decide (q.resp < 12)
  | .sessionHeartbeatLapse d _ | .resetRelease d | .bootTimeout d => decide (d < 12)
  | .lock r => dieWf r.die && r.csize % 65536 == 0 && r.dsize % 65536 == 0
  | .installKeys b _ | .installLinkkeys b _ _ _ | .installSavekeys b _ _ | .installPart b _ _ | .installRegions b _ _ _
  | .installMemory b _ | .installAccount b _ | .installBandwidth b _ _ _ _ | .installGangs b _ | .installWindow b _
  | .installQueues b _ _ | .installNotice b _ | .installDeleg b _ | .installHandlers b _ | .installFaultpol b _
  | .installFeatures b _ | .installQuayenrol b _ | .attest b _ | .start b | .unbind b | .map b _ | .unmap b _
  | .protect b _ | .qcreate b _ | .qdestroy b _ | .qreset b _ _ _ | .loadpilot b _ | .pdrop b _ | .window b _
  | .clearunc b _ _ | .deleg b _ | .handlers b _ | .faultpol b _ => b.wf
  | .restoreService b _ d _ => b.wf && dieWf d
  | .resume _ | .redirect _ | .endstrand _ => true
  | .bell m => ctxWf m.die m.tcid && decide (m.sqid < 4096)
  | .pilotEntry d l => dieWf d && decide (l < 16)
  | .pilotAdd o | .pilotSub o | .pilotAnd o | .pilotOr o | .pilotXor o | .pilotMul o => o.wf
  | .pilotShl o | .pilotShr o => o.wf 64
  | .pilotAddi o | .pilotAndi o | .pilotOri o => o.wf (2 ^ 20)
  | .pilotLi o => o.wf
  | .ldm o => o.wf
  | .stm o => o.wf
  | .beq o | .bne o | .bltu o | .bgeu o => o.wf
  | .loop o => o.wf
  | .emitLaunch a | .emitCopy a => decide (a < 8)
  | .emitBell o => o.wf
  | .drop c => decide (c < 256)
  | .powerGood | .powerLoss | .telemetryReport | .telemetryRequest | .errorCounterRequest => true
  | .setPowerLimit w => decide (2000 ≤ w) && decide (w ≤ 6000)
  | .thermalStep d _ | .thermtrip d _ => dieWf d
  | .patrolScrub _ _ => true
  | .imageLoad d t _ => ctxWf d t
  | .railOutsideTolerance r => decide (r < 16)
  | .retiredPageMove d _ _ => dieWf d

end Sys2Proof
end

