-- ==== Sys2Proof/Decode.lean ====
section
/-! DEFINITION. The decoder and the encoder. A bundle is a 32-bit header and the syllables of its present slots
(R47, R48); a syllable is read by the format of its opcode (R53 to R68); a pilot instruction is one 32-bit word
(R402, R403). A word is refused by name: ILLEGAL_BUNDLE where a field declared zero, or fixed to a value, is not so;
ILLEGAL_OP where the opcode is unassigned or an enumerated field holds an illegal value (R51, R62, R151, R187).
Words are natural numbers, bit 0 least significant (R8). -/
namespace Sys2Proof

/-- The bits [lo + len − 1 : lo] of a word (R8). -/
def fld (w lo len : Nat) : Nat := w / 2 ^ lo % 2 ^ len

/-- One bit of a word. -/
def flg (w lo : Nat) : Bool := fld w lo 1 == 1

/-- A word from fields of given widths, the lowest first. -/
def pack : List (Nat × Nat) → Nat
  | [] => 0
  | (len, v) :: r => v + 2 ^ len * pack r

/-- The slots of a bundle, in header order (R47, R48). -/
inductive Slot where
  | s | va | vb | mx | ld | st | ce | sy
deriving DecidableEq, Repr

/-- The bit of TSLOT and, above bit 24, of PRES that stands for a slot: bit 7 S down to bit 0 SY (R48, R76). -/
def Slot.bit : Slot → Nat
  | .s => 7 | .va => 6 | .vb => 5 | .mx => 4 | .ld => 3 | .st => 2 | .ce => 1 | .sy => 0

/-- The slots in slot order. -/
def Slot.all : List Slot := [.s, .va, .vb, .mx, .ld, .st, .ce, .sy]

/-- The vector slot of a file (R57). -/
def VFile.slot : VFile → Slot
  | .a => .va | .b => .vb

/-! ## Encoders of the formats -/

/-- The low 51 bits under OPC, G and N (R53). -/
def enc64 (opc : Nat) (g : Guard) (low : List (Nat × Nat)) : Nat :=
  pack (low ++ [(1, g.n.toNat), (4, g.p), (8, opc)])

/-- The low 21 bits of an SY syllable under OPC, G and N (R53). -/
def enc32 (opc : Nat) (g : Guard) (low : List (Nat × Nat)) : Nat :=
  pack (low ++ [(1, g.n.toNat), (4, g.p), (6, opc)])

/-- Format SR (R55). -/
def encSR (opc : Nat) (g : Guard) (sd sa sb : Nat) (i : Bool) (imm : Nat) : Nat :=
  enc64 opc g [(32, imm), (1, i.toNat), (6, sb), (6, sa), (6, sd)]
/-- Format SC (R55): PD [50:47], CC [46:44], SA [43:38], SB [37:32], IMM. -/
def encSC (opc : Nat) (g : Guard) (pd cc sa sb imm : Nat) : Nat :=
  enc64 opc g [(32, imm), (6, sb), (6, sa), (3, cc), (4, pd)]
/-- Format SQ (R55). -/
def encSQ (opc : Nat) (g : Guard) (pd pa pb : Nat) (na nb : Bool) : Nat :=
  enc64 opc g [(37, 0), (1, nb.toNat), (1, na.toNat), (4, pb), (4, pa), (4, pd)]
/-- Format V3 (R57). -/
def encV3 (opc : Nat) (g : Guard) (vd vs1 vs2 vs3 msel ty rnd ovf sub : Nat) : Nat :=
  enc64 opc g [(4, sub), (2, ovf), (2, rnd), (4, ty), (3, msel), (9, vs3), (9, vs2), (9, vs1), (9, vd)]
/-- Format VS (R57), RND, OVF and SUB zero. -/
def encVS (opc : Nat) (g : Guard) (vd vs1 ss : Nat) (i : Bool) (imm msel ty : Nat) : Nat :=
  enc64 opc g [(8, 0), (4, ty), (3, msel), (11, imm), (1, i.toNat), (5 + 1, ss), (9, vs1), (9, vd)]
/-- Format VM (R57): MD, M1, M2 and SD. -/
def encVM (opc : Nat) (g : Guard) (md m1 m2 sd : Nat) : Nat :=
  enc64 opc g [(36, 0), (6, sd), (3, m2), (3, m1), (3, md)]
/-- Format MX (R59). -/
def encMX (opc : Nat) (g : Guard) (rtn mp : Nat) (t : Bool) (fl : VFile) (ss vr imm : Nat) : Nat :=
  enc64 opc g [(16, imm), (7, 0), (9, vr), (6, ss), (1, (fl == .b).toNat), (1, t.toNat), (3, mp), (8, rtn)]
/-- A coordinate field (R60). -/
def Coord.num (c : Coord) : Nat := c.v + 64 * c.i.toNat
/-- Format M (R60), the low 28 bits under C0 given as fields. -/
def encM (opc : Nat) (g : Guard) (d : Nat) (fl : VFile) (le : Nat) (c0 : Coord) (low : List (Nat × Nat)) : Nat :=
  enc64 opc g (low ++ [(7, c0.num), (6, le), (1, (fl == .b).toNat), (9, d)])
/-- Format CE (R61). -/
def encCE (opc : Nat) (g : Guard) (sa sb le hl fg sub imm : Nat) : Nat :=
  enc64 opc g [(20, imm), (3, sub), (6, fg), (4, hl), (6, le), (6, sb), (6, sa)]

def RRR.enc (opc : Nat) (o : RRR) : Nat := encSR opc o.g o.sd o.sa o.sb false 0
def RRI.enc (opc : Nat) (o : RRI) : Nat := encSR opc o.g o.sd o.sa 0 true o.imm
def RRS.enc (opc : Nat) (o : RRS) : Nat :=
  match o.b with
  | .reg r => encSR opc o.g o.sd o.sa r false 0
  | .imm v => encSR opc o.g o.sd o.sa 0 true v
def RR.enc (opc : Nat) (o : RR) : Nat := encSR opc o.g o.sd o.sa 0 false 0
def SelOps.enc (opc : Nat) (o : SelOps) : Nat := encSR opc o.g o.sd o.sa o.sb false o.k
def RI.enc (opc : Nat) (o : RI) : Nat := encSR opc o.g o.sd 0 0 true o.imm
def CmpOps.enc (opc : Nat) (o : CmpOps) : Nat := encSC opc o.g o.pd o.cc o.sa o.sb 0
def CmpIOps.enc (opc : Nat) (o : CmpIOps) : Nat := encSC opc o.g o.pd o.cc o.sa 0 o.imm
def PPP.enc (opc : Nat) (o : PPP) : Nat := encSQ opc o.g o.pd o.pa o.pb o.na o.nb
def PP.enc (opc : Nat) (o : PP) : Nat := encSQ opc o.g o.pd o.pa 0 o.na false
def BrOps.enc (opc : Nat) (o : BrOps) : Nat := encSR opc o.g 0 o.sa 0 false 0
def BriOps.enc (opc : Nat) (o : BriOps) : Nat := encSR opc o.g 0 0 0 true o.imm
def Guard.encS (opc : Nat) (g : Guard) : Nat := encSR opc g 0 0 0 false 0
def CsrrOps.enc (opc : Nat) (o : CsrrOps) : Nat := encSR opc o.g o.sd 0 0 false o.csr
def CsrwOps.enc (opc : Nat) (o : CsrwOps) : Nat := encSR opc o.g 0 o.sa 0 false o.csr
def CodeOps.enc (opc : Nat) (o : CodeOps) : Nat := encSR opc o.g 0 0 0 true o.code
def LaywOps.enc (opc : Nat) (o : LaywOps) : Nat := encSR opc o.g 0 o.sa 0 false (o.n + 64 * o.k)
def LayrOps.enc (opc : Nat) (o : LayrOps) : Nat := encSR opc o.g o.sd 0 0 false (o.n + 64 * o.k)
def MovhOps.enc (opc : Nat) (o : MovhOps) : Nat :=
  encSR opc o.g o.sd 0 0 false (o.h + 16 * o.w + 256 * o.keep.toNat)

def V3R.enc (opc : Nat) (o : V3R) : Nat := encV3 opc o.g o.vd o.vs1 o.vs2 0 o.msel o.ty o.rnd 0 0
def V4R.enc (opc : Nat) (o : V4R) : Nat := encV3 opc o.g o.vd o.vs1 o.vs2 o.vs3 o.msel o.ty o.rnd 0 0
def V3T.enc (opc : Nat) (o : V3T) : Nat := encV3 opc o.g o.vd o.vs1 o.vs2 0 o.msel o.ty 0 0 0
def V2T.enc (opc : Nat) (o : V2T) : Nat := encV3 opc o.g o.vd o.vs1 0 0 o.msel o.ty 0 0 0
def V2R.enc (opc : Nat) (o : V2R) : Nat := encV3 opc o.g o.vd o.vs1 0 0 o.msel o.ty o.rnd 0 0
def VCmpOps.enc (opc : Nat) (o : VCmpOps) : Nat := encV3 opc o.g o.md o.vs1 o.vs2 0 o.msel o.ty 0 0 o.cond
def V3O.enc (opc : Nat) (o : V3O) : Nat := encV3 opc o.g o.vd o.vs1 o.vs2 0 o.msel o.ty 0 o.ovf 0
def V3L.enc (opc : Nat) (o : V3L) : Nat := encV3 opc o.g o.vd o.vs1 o.vs2 0 o.msel 0 0 0 0
def VSS.enc (opc : Nat) (o : VSS) : Nat :=
  match o.b with
  | .reg r => encVS opc o.g o.vd o.vs1 r false 0 o.msel o.ty
  | .imm v => encVS opc o.g o.vd o.vs1 0 true v o.msel o.ty
def VCvtOps.enc (opc : Nat) (o : VCvtOps) : Nat := encV3 opc o.g o.vd o.vs1 0 0 o.msel o.ty o.rnd o.ovf o.src
def VQOps.enc (opc : Nat) (o : VQOps) : Nat := encV3 opc o.g o.vd o.vs1 o.vs2 o.vs3 o.msel 0 o.rnd o.ovf 0
def VScaleOps.enc (opc : Nat) (o : VScaleOps) : Nat := encV3 opc o.g o.vd o.vs1 o.vs2 0 o.msel o.ty o.rnd o.ovf 0
def V2L.enc (opc : Nat) (o : V2L) : Nat := encV3 opc o.g o.vd o.vs1 0 0 o.msel 0 0 0 0
def VBcastOps.enc (opc : Nat) (o : VBcastOps) : Nat :=
  match o.b with
  | .reg r => encVS opc o.g o.vd 0 r false 0 o.msel o.ty
  | .imm v => encVS opc o.g o.vd 0 0 true v o.msel o.ty
def VSelOps.enc (opc : Nat) (o : VSelOps) : Nat := encV3 opc o.g o.vd o.vs1 o.vs2 0 o.msel 0 0 0 o.sel
def VMovhOps.enc (opc : Nat) (o : VMovhOps) : Nat := encVS opc o.g o.vd 0 0 true (o.h + 16 * o.keep.toNat) o.msel 0
def VLaneOps.enc (opc : Nat) (o : VLaneOps) : Nat :=
  match o.b with
  | .reg r => encVS opc o.g o.sd o.vs1 r false 0 0 o.ty
  | .imm v => encVS opc o.g o.sd o.vs1 0 true v 0 o.ty
def MMM.enc (opc : Nat) (o : MMM) : Nat := encVM opc o.g o.md o.m1 o.m2 0
def MM.enc (opc : Nat) (o : MM) : Nat := encVM opc o.g o.md o.m1 0 0
def MPopOps.enc (opc : Nat) (o : MPopOps) : Nat := encVM opc o.g 0 o.m1 0 o.sd

def McallOps.enc (rtn : Nat) (o : McallOps) : Nat := encMX 1 o.g rtn o.mp o.t .a 0 0 0
def MparOps.enc (opc : Nat) (o : MparOps) : Nat := encMX opc o.g 0 o.mp false .a o.ss 0 0
def MldsOps.enc (opc : Nat) (o : MldsOps) : Nat := encMX opc o.g 0 0 false o.fl 0 o.vr (o.plane + 2 * o.row)
def MplaneOps.enc (opc : Nat) (o : MplaneOps) : Nat := encMX opc o.g 0 0 false .a 0 0 (o.plane + 2 * o.le + 128 * o.tile)
def MrwOps.enc (opc : Nat) (o : MrwOps) : Nat :=
  encMX opc o.g 0 0 o.t o.fl 0 o.vr (o.row + 128 * o.seg + 2048 * o.raw.toNat)
def MtOps.enc (opc : Nat) (o : MtOps) : Nat := encMX opc o.g 0 0 o.t .a 0 0 0
def MfmtOps.enc (opc : Nat) (o : MfmtOps) : Nat := encMX opc o.g 0 0 false .a 0 0 o.k
def MstatOps.enc (opc : Nat) (o : MstatOps) : Nat := encMX opc o.g 0 0 false .a o.ss 0 o.sel

/-- The handler bits of X: [6] H, [5:2] HIDX (R60). -/
def xH (h : Bool) (hidx : Nat) : Nat := 4 * hidx + 64 * h.toNat
def LdOps.enc (opc : Nat) (o : LdOps) : Nat :=
  encM opc o.g o.d .a o.le o.c0 [(7, 0), (7, o.c3.num), (7, o.c2.num), (7, o.c1.num)]
def LdvOps.enc (opc : Nat) (o : LdvOps) : Nat :=
  encM opc o.g o.d o.fl o.le o.c0 [(7, 0), (7, o.c3.num), (7, o.c2.num), (7, o.c1.num)]
def LdvgOps.enc (opc : Nat) (o : LdvgOps) : Nat :=
  encM opc o.g o.d o.fl o.le o.c0 [(5, 0), (9, o.vx), (7, o.c2.num), (7, o.c1.num)]
def TmovOps.enc (opc : Nat) (o : TmovOps) : Nat :=
  encM opc o.g o.src .a o.dst o.ts [(7, 2 * o.fg), (7, 64), (7, 64), (7, o.td.num)]
def StOps.enc (opc : Nat) (o : StOps) : Nat :=
  encM opc o.g o.d .a o.le o.c0 [(7, xH o.h o.hidx), (7, o.c3.num), (7, o.c2.num), (7, o.c1.num)]
def StvOps.enc (opc : Nat) (o : StvOps) : Nat :=
  encM opc o.g o.d o.fl o.le o.c0 [(7, xH o.h o.hidx), (7, o.c3.num), (7, o.c2.num), (7, o.c1.num)]
def StvmOps.enc (opc : Nat) (o : StvmOps) : Nat :=
  encM opc o.g o.d o.fl o.le o.c0 [(7, xH o.h o.hidx), (7, o.msel), (7, o.c2.num), (7, o.c1.num)]
/-- RT and HL of an atomic: RT = 0 has HL = 0 (R143). -/
def hlNum : Option Nat → Nat
  | none => 0
  | some h => 1 + 2 * h
def AtomOps.enc (opc : Nat) (o : AtomOps) : Nat :=
  encM opc o.g o.d .a o.le o.c0
    [(5, 0), (6, o.sc), (1, o.rel.toNat), (1, o.acq.toNat), (3, o.scope), (5, hlNum o.hl), (7, o.c1.num)]

def CjobOps.enc (opc : Nat) (o : CjobOps) : Nat := encCE opc o.g o.sa 0 o.le o.hl o.fg 0 0
def ChOps.enc (opc : Nat) (o : ChOps) : Nat := encCE opc o.g o.sa 0 0 o.hl 0 0 0
def CkillOps.enc (opc : Nat) (o : CkillOps) : Nat := encCE opc o.g o.sa 0 0 0 0 0 0
def CfragOps.enc (opc : Nat) (o : CfragOps) : Nat := encCE opc o.g o.sa o.sb o.le 0 o.fg o.op (o.len + 4096 * o.tag)
def CbellOps.enc (opc : Nat) (o : CbellOps) : Nat :=
  encCE opc o.g o.sa o.sb 0 0 0 0 (o.sqid + 4096 * o.win + 524288 * o.loc.toNat)

def LsetOps.enc (opc : Nat) (o : LsetOps) : Nat :=
  match o.cnt with
  | .reg r => enc32 opc o.g [(6, r), (3, o.depth), (10, o.e), (1, o.f.toNat), (1, 0)]
  | .imm v => enc32 opc o.g [(6, v), (3, o.depth), (10, o.e), (1, o.f.toNat), (1, 1)]
def NumOps.enc (opc : Nat) (o : NumOps) : Nat := enc32 opc o.g [(21, o.n)]
def Guard.encY (opc : Nat) (g : Guard) : Nat := enc32 opc g [(21, 0)]
def WaitfOps.enc (opc : Nat) (o : WaitfOps) : Nat := enc32 opc o.g [(6, o.flag), (1, o.c.toNat), (14, 0)]
def SpinOps.enc (opc : Nat) (o : SpinOps) : Nat := enc32 opc o.g [(3, o.cond), (6, o.sx), (6, o.sc), (6, o.le)]
def TakeOps.enc (opc : Nat) (o : TakeOps) : Nat := enc32 opc o.g [(15, o.chunk), (6, o.d)]

/-- The syllable of a strand operation: 64 bits, or 32 bits for SY (R53). Other instructions have no syllable. -/
def encodeSyllable : Instr → Nat
  | .add o => RRR.enc 1 o
  | .sub o => RRR.enc 2 o
  | .addi o => RRI.enc 3 o
  | .mul o => RRS.enc 4 o
  | .mulh o => RRR.enc 5 o
  | .mulhu o => RRR.enc 6 o
  | .div o => RRR.enc 7 o
  | .divu o => RRR.enc 8 o
  | .rem o => RRR.enc 9 o
  | .remu o => RRR.enc 10 o
  | .and o => RRS.enc 11 o
  | .or o => RRS.enc 12 o
  | .xor o => RRS.enc 13 o
  | .andn o => RRS.enc 14 o
  | .shl o => RRS.enc 15 o
  | .shr o => RRS.enc 16 o
  | .sar o => RRS.enc 17 o
  | .rotl o => RRS.enc 18 o
  | .clz o => RR.enc 19 o
  | .popc o => RR.enc 20 o
  | .min o => RRS.enc 21 o
  | .max o => RRS.enc 22 o
  | .minu o => RRS.enc 23 o
  | .maxu o => RRS.enc 24 o
  | .sel o => SelOps.enc 25 o
  | .li o => RI.enc 26 o
  | .lih o => RI.enc 27 o
  | .cmp o => CmpOps.enc 28 o
  | .cmpi o => CmpIOps.enc 29 o
  | .pand o => PPP.enc 30 o
  | .por o => PPP.enc 31 o
  | .pxor o => PPP.enc 32 o
  | .pnot o => PP.enc 33 o
  | .br o => BrOps.enc 34 o
  | .bri o => BriOps.enc 35 o
  | .call o => BrOps.enc 36 o
  | .calli o => BriOps.enc 37 o
  | .ret g => Guard.encS 38 g
  | .csrr o => CsrrOps.enc 39 o
  | .csrw o => CsrwOps.enc 40 o
  | .csrs o => CsrwOps.enc 41 o
  | .csrc o => CsrwOps.enc 42 o
  | .trap o => CodeOps.enc 43 o
  | .hail o => CodeOps.enc 44 o
  | .layw o => LaywOps.enc 45 o
  | .layr o => LayrOps.enc 46 o
  | .movh o => MovhOps.enc 47 o
  | .vadd o => V3R.enc 1 o
  | .vsub o => V3R.enc 2 o
  | .vmul o => V3R.enc 3 o
  | .vfma o => V4R.enc 4 o
  | .vfms o => V4R.enc 5 o
  | .vfnma o => V4R.enc 6 o
  | .vmin o => V3T.enc 7 o
  | .vmax o => V3T.enc 8 o
  | .vabs o => V2T.enc 9 o
  | .vneg o => V2T.enc 10 o
  | .vcpys o => V3T.enc 11 o
  | .vrcp o => V2R.enc 12 o
  | .vrsq o => V2R.enc 13 o
  | .vsqrt o => V2R.enc 14 o
  | .vexp2 o => V2R.enc 15 o
  | .vlog2 o => V2R.enc 16 o
  | .vcmp o => VCmpOps.enc 17 o
  | .viadd o => V3O.enc 18 o
  | .visub o => V3O.enc 19 o
  | .vimul o => V3O.enc 20 o
  | .vimulh o => V3T.enc 21 o
  | .vimin o => V3T.enc 22 o
  | .vimax o => V3T.enc 23 o
  | .viabs o => V2T.enc 24 o
  | .vand o => V3L.enc 25 o
  | .vor o => V3L.enc 26 o
  | .vxor o => V3L.enc 27 o
  | .vandn o => V3L.enc 28 o
  | .vshl o => VSS.enc 29 o
  | .vshr o => VSS.enc 30 o
  | .vsar o => VSS.enc 31 o
  | .vcvt o => VCvtOps.enc 32 o
  | .vcvti o => VCvtOps.enc 33 o
  | .vcvtf o => VCvtOps.enc 34 o
  | .vqfp4 o => VQOps.enc 35 o
  | .vdqfp4 o => VQOps.enc 36 o
  | .vexpmax o => V3T.enc 37 o
  | .vscale o => VScaleOps.enc 38 o
  | .vmov o => V2L.enc 39 o
  | .vbcast o => VBcastOps.enc 40 o
  | .vperm o => V3T.enc 41 o
  | .vshuf o => V3T.enc 42 o
  | .vslide o => VSS.enc 43 o
  | .vsel o => VSelOps.enc 44 o
  | .vxfer o => V2L.enc 45 o
  | .vmovh o => VMovhOps.enc 46 o
  | .vlane o => VLaneOps.enc 47 o
  | .vrsum o => V2T.enc 48 o
  | .vrmax o => V2T.enc 49 o
  | .vrmin o => V2T.enc 50 o
  | .mand o => MMM.enc 51 o
  | .mor o => MMM.enc 52 o
  | .mxor o => MMM.enc 53 o
  | .mnot o => MM.enc 54 o
  | .mpop o => MPopOps.enc 55 o
  | .mpar o => MparOps.enc 2 o
  | .mlds o => MldsOps.enc 3 o
  | .mplane o => MplaneOps.enc 4 o
  | .mrd o => MrwOps.enc 5 o
  | .mwr o => MrwOps.enc 6 o
  | .mclr o => MtOps.enc 7 o
  | .mnorm o => MtOps.enc 8 o
  | .mfmt o => MfmtOps.enc 9 o
  | .mstat o => MstatOps.enc 10 o
  | .lds o => LdOps.enc 1 o
  | .ldv o => LdvOps.enc 2 o
  | .ldvg o => LdvgOps.enc 3 o
  | .ldh o => LdOps.enc 4 o
  | .tmov o => TmovOps.enc 5 o
  | .sts o => StOps.enc 1 o
  | .stv o => StvOps.enc 2 o
  | .stvs o => StvOps.enc 3 o
  | .stvm o => StvmOps.enc 4 o
  | .stvh o => StOps.enc 5 o
  | .aadd o => AtomOps.enc 6 o
  | .aaddf o => AtomOps.enc 7 o
  | .amin o => AtomOps.enc 8 o
  | .amax o => AtomOps.enc 9 o
  | .aand o => AtomOps.enc 10 o
  | .aor o => AtomOps.enc 11 o
  | .axor o => AtomOps.enc 12 o
  | .aswp o => AtomOps.enc 13 o
  | .acas o => AtomOps.enc 14 o
  | .vred o => StvOps.enc 15 o
  | .cjob o => CjobOps.enc 1 o
  | .cwait o => ChOps.enc 2 o
  | .cpoll o => ChOps.enc 3 o
  | .ckill o => CkillOps.enc 4 o
  | .csend o => CfragOps.enc 5 o
  | .cred o => CfragOps.enc 6 o
  | .cbell o => CbellOps.enc 7 o
  | .lset o => LsetOps.enc 1 o
  | .lbrk o => NumOps.enc 2 o
  | .endStrand g => Guard.encY 3 g
  | .phase o => NumOps.enc 4 o
  | .fence g => Guard.encY 5 g
  | .waitf o => WaitfOps.enc 6 o
  | .setf o => NumOps.enc 7 o
  | .clrf o => NumOps.enc 8 o
  | .spin o => SpinOps.enc 9 o
  | .join o => NumOps.enc 10 o
  | .leave o => NumOps.enc 11 o
  | .cbar o => NumOps.enc 12 o
  | .yield g => Guard.encY 13 g
  | .take o => TakeOps.enc 14 o
  | .hret g => Guard.encY 15 g
  | .mcallMma o => McallOps.enc 0 o
  | .mcallMmat o => McallOps.enc 1 o
  | .mcallMmab o => McallOps.enc 2 o
  | .mcallSplit o => McallOps.enc 4 o
  | .mcallSlmma o => McallOps.enc 5 o
  | .mcallFold o => McallOps.enc 6 o
  | .mcallTrans o => McallOps.enc 8 o
  | .mcallMcopy o => McallOps.enc 9 o
  | _ => 0

/-- The slot of a strand operation (R63 to R68). -/
def slotOf : Instr → Option Slot
  | .add _ | .sub _ | .addi _ | .mul _ | .mulh _ | .mulhu _ | .div _ | .divu _ | .rem _ | .remu _ | .and _ | .or _
  | .xor _ | .andn _ | .shl _ | .shr _ | .sar _ | .rotl _ | .clz _ | .popc _ | .min _ | .max _ | .minu _ | .maxu _
  | .sel _ | .li _ | .lih _ | .cmp _ | .cmpi _ | .pand _ | .por _ | .pxor _ | .pnot _ | .br _ | .bri _ | .call _
  | .calli _ | .ret _ | .csrr _ | .csrw _ | .csrs _ | .csrc _ | .trap _ | .hail _ | .layw _ | .layr _ | .movh _ => some .s
  | .vadd o | .vsub o | .vmul o => some o.f.slot
  | .vfma o | .vfms o | .vfnma o => some o.f.slot
  | .vmin o | .vmax o | .vcpys o | .vimulh o | .vimin o | .vimax o | .vexpmax o | .vperm o | .vshuf o => some o.f.slot
  | .vabs o | .vneg o | .viabs o | .vrsum o | .vrmax o | .vrmin o => some o.f.slot
  | .vrcp o | .vrsq o | .vsqrt o | .vexp2 o | .vlog2 o => some o.f.slot
  | .vcmp o => some o.f.slot
  | .viadd o | .visub o | .vimul o => some o.f.slot
  | .vand o | .vor o | .vxor o | .vandn o => some o.f.slot
  | .vshl o | .vshr o | .vsar o | .vslide o => some o.f.slot
  | .vcvt o | .vcvti o | .vcvtf o => some o.f.slot
  | .vqfp4 o | .vdqfp4 o => some o.f.slot
  | .vscale o => some o.f.slot
  | .vmov o | .vxfer o => some o.f.slot
  | .vbcast o => some o.f.slot
  | .vsel o => some o.f.slot
  | .vmovh o => some o.f.slot
  | .vlane o => some o.f.slot
  | .mand o | .mor o | .mxor o => some o.f.slot
  | .mnot o => some o.f.slot
  | .mpop o => some o.f.slot
  | .mcallMma _ | .mcallMmat _ | .mcallMmab _ | .mcallSplit _ | .mcallSlmma _ | .mcallFold _ | .mcallTrans _
  | .mcallMcopy _ | .mpar _ | .mlds _ | .mplane _ | .mrd _ | .mwr _ | .mclr _ | .mnorm _ | .mfmt _ | .mstat _ => some .mx
  | .lds _ | .ldv _ | .ldvg _ | .ldh _ | .tmov _ => some .ld
  | .sts _ | .stv _ | .stvs _ | .stvm _ | .stvh _ | .aadd _ | .aaddf _ | .amin _ | .amax _ | .aand _ | .aor _
  | .axor _ | .aswp _ | .acas _ | .vred _ => some .st
  | .cjob _ | .cwait _ | .cpoll _ | .ckill _ | .csend _ | .cred _ | .cbell _ => some .ce
  | .lset _ | .lbrk _ | .endStrand _ | .phase _ | .fence _ | .waitf _ | .setf _ | .clrf _ | .spin _ | .join _
  | .leave _ | .cbar _ | .yield _ | .take _ | .hret _ => some .sy
  | _ => none

/-! ## Pilot encoder (R402, R403) -/

def PR.enc (opc : Nat) (o : PR) : Nat := pack [(17, 0), (3, o.b), (3, o.a), (3, o.d), (6, opc)]
def PI.enc (opc : Nat) (o : PI) : Nat := pack [(20, o.imm), (3, o.a), (3, o.d), (6, opc)]
def PLi.enc (opc : Nat) (o : PLi) : Nat := pack [(20, o.imm), (3, 0), (3, o.d), (6, opc)]
def PM.enc (opc : Nat) (o : PM) : Nat := pack [(10, o.off), (6, 0), (2, o.sp), (2, o.w), (3, o.a), (3, o.d), (6, opc)]
def PB.enc (opc : Nat) (o : PB) : Nat := pack [(20, o.off), (3, o.b), (3, o.a), (6, opc)]
def PL.enc (opc : Nat) (o : PL) : Nat := pack [(20, o.len), (6, o.n), (6, opc)]

/-- The 32-bit word of a pilot instruction; `none` for every other instruction. -/
def encodePilot : Instr → Nat
  | .pilotAdd o => PR.enc 1 o
  | .pilotSub o => PR.enc 2 o
  | .pilotAnd o => PR.enc 3 o
  | .pilotOr o => PR.enc 4 o
  | .pilotXor o => PR.enc 5 o
  | .pilotMul o => PR.enc 6 o
  | .pilotShl o => PI.enc 7 o
  | .pilotShr o => PI.enc 8 o
  | .pilotAddi o => PI.enc 9 o
  | .pilotAndi o => PI.enc 10 o
  | .pilotOri o => PI.enc 11 o
  | .pilotLi o => PLi.enc 12 o
  | .ldm o => PM.enc 13 o
  | .stm o => PM.enc 14 o
  | .beq o => PB.enc 15 o
  | .bne o => PB.enc 16 o
  | .bltu o => PB.enc 17 o
  | .bgeu o => PB.enc 18 o
  | .loop o => PL.enc 19 o
  | .emitLaunch a => pack [(20, 0), (3, a), (3, 0), (6, 0x20)]
  | .emitCopy a => pack [(20, 0), (3, a), (3, 0), (6, 0x21)]
  | .emitBell o => pack [(12, o.sqid), (5, 0), (3, o.b), (3, o.a), (3, 0), (6, 0x22)]
  | .drop c => pack [(8, c), (18, 0), (6, 0x23)]
  | _ => 0

/-- The pilot instructions. -/
def isPilot : Instr → Bool
  | .pilotAdd _ | .pilotSub _ | .pilotAnd _ | .pilotOr _ | .pilotXor _ | .pilotMul _ | .pilotShl _ | .pilotShr _
  | .pilotAddi _ | .pilotAndi _ | .pilotOri _ | .pilotLi _ | .ldm _ | .stm _ | .beq _ | .bne _ | .bltu _ | .bgeu _
  | .loop _ | .emitLaunch _ | .emitCopy _ | .emitBell _ | .drop _ => true
  | _ => false

/-! ## Headers and whole bundles (R48, R49) -/

/-- The fields of a bundle header (R48). -/
structure Header where
  pres : Nat
  erun : Nat
  wcnt : Nat
  lineEnd : Bool
  park : Bool
deriving DecidableEq, Repr

def Header.enc (h : Header) : Nat :=
  pack [(14, 0), (1, h.park.toNat), (1, h.lineEnd.toNat), (4, h.wcnt), (4, h.erun), (8, h.pres)]
def Header.get (w : Nat) : Header := ⟨fld w 24 8, fld w 20 4, fld w 16 4, flg w 15, flg w 14⟩

/-- The words of the bundle that holds one operation, of an empty bundle, or of a pilot instruction. An event, a
command and a service have no encoding. -/
def encode (i : Instr) : List Nat :=
  match i, slotOf i with
  | .emptyBundle o, _ => [Header.enc ⟨0, o.erun, 0, o.lineEnd, o.park⟩]
  | _, some .sy => [Header.enc ⟨1, 0, 1, false, false⟩, encodeSyllable i]
  | _, some sl => [Header.enc ⟨2 ^ sl.bit, 0, 2, false, false⟩, fld (encodeSyllable i) 0 32, fld (encodeSyllable i) 32 32]
  | _, none => if isPilot i then [encodePilot i] else []

/-! ## Field readers -/

/-- Why a syllable is refused (R51). -/
inductive DecErr where
  /-- A field declared zero, or fixed, holds something else: ILLEGAL_BUNDLE. -/
  | illegalBundle
  /-- The opcode is unassigned or an enumerated field is illegal: ILLEGAL_OP. -/
  | illegalOp
deriving DecidableEq, Repr

def guard64 (w : Nat) : Guard := ⟨fld w 52 4, flg w 51⟩
def guard32 (w : Nat) : Guard := ⟨fld w 22 4, flg w 21⟩
/-- The FL bit (R59, R60). -/
def flAt (w lo : Nat) : VFile := if flg w lo then .b else .a
/-- The second operand of format SR (R55). -/
def srcSR (w : Nat) : Src := if flg w 32 then .imm (fld w 0 32) else .reg (fld w 33 6)
/-- The second operand of format VS (R57). -/
def srcVS (w : Nat) : Src := if flg w 26 then .imm (fld w 15 11) else .reg (fld w 27 6)
/-- A coordinate field (R60). -/
def coordAt (w lo : Nat) : Coord := ⟨flg w (lo + 6), fld w lo 6⟩

def RRR.get (w : Nat) : RRR := ⟨guard64 w, fld w 45 6, fld w 39 6, fld w 33 6⟩
def RRI.get (w : Nat) : RRI := ⟨guard64 w, fld w 45 6, fld w 39 6, fld w 0 32⟩
def RRS.get (w : Nat) : RRS := ⟨guard64 w, fld w 45 6, fld w 39 6, srcSR w⟩
/-- Shifts: IMM[31:6] must be zero (R154). -/
def RRS.getShift (w : Nat) : RRS :=
  ⟨guard64 w, fld w 45 6, fld w 39 6, if flg w 32 then .imm (fld w 0 6) else .reg (fld w 33 6)⟩
def RR.get (w : Nat) : RR := ⟨guard64 w, fld w 45 6, fld w 39 6⟩
def SelOps.get (w : Nat) : SelOps := ⟨guard64 w, fld w 45 6, fld w 39 6, fld w 33 6, fld w 0 4⟩
def RI.get (w : Nat) : RI := ⟨guard64 w, fld w 45 6, fld w 0 32⟩
def CmpOps.get (w : Nat) : CmpOps := ⟨guard64 w, fld w 47 4, fld w 44 3, fld w 38 6, fld w 32 6⟩
def CmpIOps.get (w : Nat) : CmpIOps := ⟨guard64 w, fld w 47 4, fld w 44 3, fld w 38 6, fld w 0 32⟩
def PPP.get (w : Nat) : PPP := ⟨guard64 w, fld w 47 4, fld w 43 4, flg w 38, fld w 39 4, flg w 37⟩
def PP.get (w : Nat) : PP := ⟨guard64 w, fld w 47 4, fld w 43 4, flg w 38⟩
def BrOps.get (w : Nat) : BrOps := ⟨guard64 w, fld w 39 6⟩
def BriOps.get (w : Nat) : BriOps := ⟨guard64 w, fld w 0 32⟩
def CsrrOps.get (w : Nat) : CsrrOps := ⟨guard64 w, fld w 45 6, fld w 0 12⟩
def CsrwOps.get (w : Nat) : CsrwOps := ⟨guard64 w, fld w 39 6, fld w 0 12⟩
def CodeOps.get (w : Nat) : CodeOps := ⟨guard64 w, fld w 0 16⟩
def LaywOps.get (w : Nat) : LaywOps := ⟨guard64 w, fld w 39 6, fld w 0 6, fld w 6 2⟩
def LayrOps.get (w : Nat) : LayrOps := ⟨guard64 w, fld w 45 6, fld w 0 6, fld w 6 2⟩
def MovhOps.get (w : Nat) : MovhOps := ⟨guard64 w, fld w 45 6, fld w 0 4, fld w 4 4, flg w 8⟩

def V3R.get (f : VFile) (w : Nat) : V3R :=
  ⟨f, guard64 w, fld w 42 9, fld w 33 9, fld w 24 9, fld w 12 3, fld w 8 4, fld w 6 2⟩
def V4R.get (f : VFile) (w : Nat) : V4R :=
  ⟨f, guard64 w, fld w 42 9, fld w 33 9, fld w 24 9, fld w 15 9, fld w 12 3, fld w 8 4, fld w 6 2⟩
def V3T.get (f : VFile) (w : Nat) : V3T := ⟨f, guard64 w, fld w 42 9, fld w 33 9, fld w 24 9, fld w 12 3, fld w 8 4⟩
def V2T.get (f : VFile) (w : Nat) : V2T := ⟨f, guard64 w, fld w 42 9, fld w 33 9, fld w 12 3, fld w 8 4⟩
def V2R.get (f : VFile) (w : Nat) : V2R := ⟨f, guard64 w, fld w 42 9, fld w 33 9, fld w 12 3, fld w 8 4, fld w 6 2⟩
def VCmpOps.get (f : VFile) (w : Nat) : VCmpOps :=
  ⟨f, guard64 w, fld w 42 3, fld w 33 9, fld w 24 9, fld w 12 3, fld w 8 4, fld w 0 4⟩
def V3O.get (f : VFile) (w : Nat) : V3O :=
  ⟨f, guard64 w, fld w 42 9, fld w 33 9, fld w 24 9, fld w 12 3, fld w 8 4, fld w 4 2⟩
def V3L.get (f : VFile) (w : Nat) : V3L := ⟨f, guard64 w, fld w 42 9, fld w 33 9, fld w 24 9, fld w 12 3⟩
def VSS.get (f : VFile) (w : Nat) : VSS := ⟨f, guard64 w, fld w 42 9, fld w 33 9, srcVS w, fld w 12 3, fld w 8 4⟩
def VCvtOps.get (f : VFile) (w : Nat) : VCvtOps :=
  ⟨f, guard64 w, fld w 42 9, fld w 33 9, fld w 12 3, fld w 8 4, fld w 0 4, fld w 6 2, fld w 4 2⟩
def VQOps.get (f : VFile) (w : Nat) : VQOps :=
  ⟨f, guard64 w, fld w 42 9, fld w 33 9, fld w 24 9, fld w 15 9, fld w 12 3, fld w 6 2, fld w 4 2⟩
def VScaleOps.get (f : VFile) (w : Nat) : VScaleOps :=
  ⟨f, guard64 w, fld w 42 9, fld w 33 9, fld w 24 9, fld w 12 3, fld w 8 4, fld w 6 2, fld w 4 2⟩
def V2L.get (f : VFile) (w : Nat) : V2L := ⟨f, guard64 w, fld w 42 9, fld w 33 9, fld w 12 3⟩
def VBcastOps.get (f : VFile) (w : Nat) : VBcastOps := ⟨f, guard64 w, fld w 42 9, srcVS w, fld w 12 3, fld w 8 4⟩
def VSelOps.get (f : VFile) (w : Nat) : VSelOps :=
  ⟨f, guard64 w, fld w 42 9, fld w 33 9, fld w 24 9, fld w 12 3, fld w 0 3⟩
def VMovhOps.get (f : VFile) (w : Nat) : VMovhOps := ⟨f, guard64 w, fld w 42 9, fld w 12 3, fld w 15 4, flg w 19⟩
def VLaneOps.get (f : VFile) (w : Nat) : VLaneOps := ⟨f, guard64 w, fld w 42 6, fld w 33 9, srcVS w, fld w 8 4⟩
def MMM.get (f : VFile) (w : Nat) : MMM := ⟨f, guard64 w, fld w 48 3, fld w 45 3, fld w 42 3⟩
def MM.get (f : VFile) (w : Nat) : MM := ⟨f, guard64 w, fld w 48 3, fld w 45 3⟩
def MPopOps.get (f : VFile) (w : Nat) : MPopOps := ⟨f, guard64 w, fld w 36 6, fld w 45 3⟩

def McallOps.get (w : Nat) : McallOps := ⟨guard64 w, fld w 40 3, flg w 39⟩
def MparOps.get (w : Nat) : MparOps := ⟨guard64 w, fld w 40 3, fld w 32 6⟩
def MldsOps.get (w : Nat) : MldsOps := ⟨guard64 w, flAt w 38, fld w 23 9, fld w 0 1, fld w 1 7⟩
def MplaneOps.get (w : Nat) : MplaneOps := ⟨guard64 w, fld w 0 1, fld w 1 6, fld w 7 9⟩
def MrwOps.get (w : Nat) : MrwOps := ⟨guard64 w, flg w 39, flAt w 38, fld w 23 9, fld w 0 7, fld w 7 4, flg w 11⟩
def MtOps.get (w : Nat) : MtOps := ⟨guard64 w, flg w 39⟩
def MfmtOps.get (w : Nat) : MfmtOps := ⟨guard64 w, fld w 0 4⟩
def MstatOps.get (w : Nat) : MstatOps := ⟨guard64 w, fld w 32 6, fld w 0 16⟩

/-- `len` bits of D are used (R60). -/
def LdOps.get (len w : Nat) : LdOps :=
  ⟨guard64 w, fld w 42 len, fld w 35 6, coordAt w 28, coordAt w 21, coordAt w 14, coordAt w 7⟩
def LdvOps.get (w : Nat) : LdvOps :=
  ⟨guard64 w, fld w 42 9, flAt w 41, fld w 35 6, coordAt w 28, coordAt w 21, coordAt w 14, coordAt w 7⟩
def LdvgOps.get (w : Nat) : LdvgOps :=
  ⟨guard64 w, fld w 42 9, flAt w 41, fld w 35 6, coordAt w 28, coordAt w 21, coordAt w 14, fld w 5 9⟩
def TmovOps.get (w : Nat) : TmovOps :=
  ⟨guard64 w, fld w 42 6, fld w 35 6, coordAt w 28, coordAt w 21, fld w 1 6⟩
/-- `len` bits of D are used (R60). -/
def StOps.get (len w : Nat) : StOps :=
  ⟨guard64 w, fld w 42 len, fld w 35 6, coordAt w 28, coordAt w 21, coordAt w 14, coordAt w 7, flg w 6, fld w 2 4⟩
def StvOps.get (w : Nat) : StvOps :=
  ⟨guard64 w, fld w 42 9, flAt w 41, fld w 35 6, coordAt w 28, coordAt w 21, coordAt w 14, coordAt w 7, flg w 6, fld w 2 4⟩
/-- VRED has X zero (R60). -/
def StvOps.getRed (w : Nat) : StvOps :=
  ⟨guard64 w, fld w 42 9, flAt w 41, fld w 35 6, coordAt w 28, coordAt w 21, coordAt w 14, coordAt w 7, false, 0⟩
def StvmOps.get (w : Nat) : StvmOps :=
  ⟨guard64 w, fld w 42 9, flAt w 41, fld w 35 6, coordAt w 28, coordAt w 21, coordAt w 14, fld w 7 3, flg w 6, fld w 2 4⟩
/-- ACAS alone uses SC (R143). -/
def AtomOps.get (cas : Bool) (w : Nat) : AtomOps :=
  ⟨guard64 w, fld w 42 6, fld w 35 6, coordAt w 28, coordAt w 21, if flg w 16 then some (fld w 17 4) else none,
   fld w 13 3, flg w 12, flg w 11, if cas then fld w 5 6 else 0⟩

def CjobOps.get (w : Nat) : CjobOps := ⟨guard64 w, fld w 45 6, fld w 33 6, fld w 29 4, fld w 23 6⟩
def ChOps.get (w : Nat) : ChOps := ⟨guard64 w, fld w 45 6, fld w 29 4⟩
def CkillOps.get (w : Nat) : CkillOps := ⟨guard64 w, fld w 45 6⟩
def CfragOps.get (w : Nat) : CfragOps :=
  ⟨guard64 w, fld w 45 6, fld w 39 6, fld w 33 6, fld w 23 6, fld w 20 3, fld w 12 8, fld w 0 12⟩
/-- CSEND has SUB and the tag zero (R303). -/
def CfragOps.getSend (w : Nat) : CfragOps :=
  ⟨guard64 w, fld w 45 6, fld w 39 6, fld w 33 6, fld w 23 6, 0, 0, fld w 0 12⟩
/-- With LOC, WIN must be 0 (R314). -/
def CbellOps.get (w : Nat) : CbellOps :=
  ⟨guard64 w, fld w 45 6, fld w 39 6, flg w 19, if flg w 19 then 0 else fld w 12 4, fld w 0 12⟩

def LsetOps.get (w : Nat) : LsetOps :=
  ⟨guard32 w, flg w 19, fld w 9 10, fld w 6 3, if flg w 20 then .imm (fld w 0 6) else .reg (fld w 0 6)⟩
def NumOps.get (len w : Nat) : NumOps := ⟨guard32 w, fld w 0 len⟩
def WaitfOps.get (w : Nat) : WaitfOps := ⟨guard32 w, flg w 6, fld w 0 6⟩
def SpinOps.get (w : Nat) : SpinOps := ⟨guard32 w, fld w 15 6, fld w 9 6, fld w 3 6, fld w 0 3⟩
def TakeOps.get (w : Nat) : TakeOps := ⟨guard32 w, fld w 15 6, fld w 0 15⟩

def PR.get (w : Nat) : PR := ⟨fld w 23 3, fld w 20 3, fld w 17 3⟩
def PI.get (w : Nat) : PI := ⟨fld w 23 3, fld w 20 3, fld w 0 20⟩
def PLi.get (w : Nat) : PLi := ⟨fld w 23 3, fld w 0 20⟩
def PM.get (w : Nat) : PM := ⟨fld w 23 3, fld w 20 3, fld w 18 2, fld w 16 2, fld w 0 10⟩
def PB.get (w : Nat) : PB := ⟨fld w 23 3, fld w 20 3, fld w 0 20⟩
def PL.get (w : Nat) : PL := ⟨fld w 20 6, fld w 0 20⟩

/-! ## Decoders: reading the fields of a syllable, then the checks of R51 -/

/-- A syllable is the operation `i` read from its fields when encoding `i` gives the same bits, so that no unused
field is set (R51 row 2, R62), and `i` is legal (R51 row 3). -/
def fin (w : Nat) (i : Instr) : Except DecErr Instr :=
  if encodeSyllable i = w then (if i.wf then .ok i else .error .illegalOp) else .error .illegalBundle

/-- The S slot (R63). -/
def readS (w : Nat) : Option Instr :=
  match fld w 56 8 with
  | 1 => some (.add (RRR.get w))
  | 2 => some (.sub (RRR.get w))
  | 3 => some (.addi (RRI.get w))
  | 4 => some (.mul (RRS.get w))
  | 5 => some (.mulh (RRR.get w))
  | 6 => some (.mulhu (RRR.get w))
  | 7 => some (.div (RRR.get w))
  | 8 => some (.divu (RRR.get w))
  | 9 => some (.rem (RRR.get w))
  | 10 => some (.remu (RRR.get w))
  | 11 => some (.and (RRS.get w))
  | 12 => some (.or (RRS.get w))
  | 13 => some (.xor (RRS.get w))
  | 14 => some (.andn (RRS.get w))
  | 15 => some (.shl (RRS.getShift w))
  | 16 => some (.shr (RRS.getShift w))
  | 17 => some (.sar (RRS.getShift w))
  | 18 => some (.rotl (RRS.getShift w))
  | 19 => some (.clz (RR.get w))
  | 20 => some (.popc (RR.get w))
  | 21 => some (.min (RRS.get w))
  | 22 => some (.max (RRS.get w))
  | 23 => some (.minu (RRS.get w))
  | 24 => some (.maxu (RRS.get w))
  | 25 => some (.sel (SelOps.get w))
  | 26 => some (.li (RI.get w))
  | 27 => some (.lih (RI.get w))
  | 28 => some (.cmp (CmpOps.get w))
  | 29 => some (.cmpi (CmpIOps.get w))
  | 30 => some (.pand (PPP.get w))
  | 31 => some (.por (PPP.get w))
  | 32 => some (.pxor (PPP.get w))
  | 33 => some (.pnot (PP.get w))
  | 34 => some (.br (BrOps.get w))
  | 35 => some (.bri (BriOps.get w))
  | 36 => some (.call (BrOps.get w))
  | 37 => some (.calli (BriOps.get w))
  | 38 => some (.ret (guard64 w))
  | 39 => some (.csrr (CsrrOps.get w))
  | 40 => some (.csrw (CsrwOps.get w))
  | 41 => some (.csrs (CsrwOps.get w))
  | 42 => some (.csrc (CsrwOps.get w))
  | 43 => some (.trap (CodeOps.get w))
  | 44 => some (.hail (CodeOps.get w))
  | 45 => some (.layw (LaywOps.get w))
  | 46 => some (.layr (LayrOps.get w))
  | 47 => some (.movh (MovhOps.get w))
  | _ => none

/-- The VA and VB slots (R64). -/
def readV (f : VFile) (w : Nat) : Option Instr :=
  match fld w 56 8 with
  | 1 => some (.vadd (V3R.get f w))
  | 2 => some (.vsub (V3R.get f w))
  | 3 => some (.vmul (V3R.get f w))
  | 4 => some (.vfma (V4R.get f w))
  | 5 => some (.vfms (V4R.get f w))
  | 6 => some (.vfnma (V4R.get f w))
  | 7 => some (.vmin (V3T.get f w))
  | 8 => some (.vmax (V3T.get f w))
  | 9 => some (.vabs (V2T.get f w))
  | 10 => some (.vneg (V2T.get f w))
  | 11 => some (.vcpys (V3T.get f w))
  | 12 => some (.vrcp (V2R.get f w))
  | 13 => some (.vrsq (V2R.get f w))
  | 14 => some (.vsqrt (V2R.get f w))
  | 15 => some (.vexp2 (V2R.get f w))
  | 16 => some (.vlog2 (V2R.get f w))
  | 17 => some (.vcmp (VCmpOps.get f w))
  | 18 => some (.viadd (V3O.get f w))
  | 19 => some (.visub (V3O.get f w))
  | 20 => some (.vimul (V3O.get f w))
  | 21 => some (.vimulh (V3T.get f w))
  | 22 => some (.vimin (V3T.get f w))
  | 23 => some (.vimax (V3T.get f w))
  | 24 => some (.viabs (V2T.get f w))
  | 25 => some (.vand (V3L.get f w))
  | 26 => some (.vor (V3L.get f w))
  | 27 => some (.vxor (V3L.get f w))
  | 28 => some (.vandn (V3L.get f w))
  | 29 => some (.vshl (VSS.get f w))
  | 30 => some (.vshr (VSS.get f w))
  | 31 => some (.vsar (VSS.get f w))
  | 32 => some (.vcvt (VCvtOps.get f w))
  | 33 => some (.vcvti (VCvtOps.get f w))
  | 34 => some (.vcvtf (VCvtOps.get f w))
  | 35 => some (.vqfp4 (VQOps.get f w))
  | 36 => some (.vdqfp4 (VQOps.get f w))
  | 37 => some (.vexpmax (V3T.get f w))
  | 38 => some (.vscale (VScaleOps.get f w))
  | 39 => some (.vmov (V2L.get f w))
  | 40 => some (.vbcast (VBcastOps.get f w))
  | 41 => some (.vperm (V3T.get f w))
  | 42 => some (.vshuf (V3T.get f w))
  | 43 => some (.vslide (VSS.get f w))
  | 44 => some (.vsel (VSelOps.get f w))
  | 45 => some (.vxfer (V2L.get f w))
  | 46 => some (.vmovh (VMovhOps.get f w))
  | 47 => some (.vlane (VLaneOps.get f w))
  | 48 => some (.vrsum (V2T.get f w))
  | 49 => some (.vrmax (V2T.get f w))
  | 50 => some (.vrmin (V2T.get f w))
  | 51 => some (.mand (MMM.get f w))
  | 52 => some (.mor (MMM.get f w))
  | 53 => some (.mxor (MMM.get f w))
  | 54 => some (.mnot (MM.get f w))
  | 55 => some (.mpop (MPopOps.get f w))
  | _ => none

/-- The MX slot (R65, R259). -/
def readMX (w : Nat) : Option Instr :=
  match fld w 56 8 with
  | 1 =>
    match fld w 43 8 with
    | 0 => some (.mcallMma (McallOps.get w))
    | 1 => some (.mcallMmat (McallOps.get w))
    | 2 => some (.mcallMmab (McallOps.get w))
    | 4 => some (.mcallSplit (McallOps.get w))
    | 5 => some (.mcallSlmma (McallOps.get w))
    | 6 => some (.mcallFold (McallOps.get w))
    | 8 => some (.mcallTrans (McallOps.get w))
    | 9 => some (.mcallMcopy (McallOps.get w))
    | _ => none
  | 2 => some (.mpar (MparOps.get w))
  | 3 => some (.mlds (MldsOps.get w))
  | 4 => some (.mplane (MplaneOps.get w))
  | 5 => some (.mrd (MrwOps.get w))
  | 6 => some (.mwr (MrwOps.get w))
  | 7 => some (.mclr (MtOps.get w))
  | 8 => some (.mnorm (MtOps.get w))
  | 9 => some (.mfmt (MfmtOps.get w))
  | 10 => some (.mstat (MstatOps.get w))
  | _ => none

/-- The LD slot (R66). -/
def readLD (w : Nat) : Option Instr :=
  match fld w 56 8 with
  | 1 => some (.lds (LdOps.get 6 w))
  | 2 => some (.ldv (LdvOps.get w))
  | 3 => some (.ldvg (LdvgOps.get w))
  | 4 => some (.ldh (LdOps.get 4 w))
  | 5 => some (.tmov (TmovOps.get w))
  | _ => none

/-- The ST slot (R66). -/
def readST (w : Nat) : Option Instr :=
  match fld w 56 8 with
  | 1 => some (.sts (StOps.get 6 w))
  | 2 => some (.stv (StvOps.get w))
  | 3 => some (.stvs (StvOps.get w))
  | 4 => some (.stvm (StvmOps.get w))
  | 5 => some (.stvh (StOps.get 4 w))
  | 6 => some (.aadd (AtomOps.get false w))
  | 7 => some (.aaddf (AtomOps.get false w))
  | 8 => some (.amin (AtomOps.get false w))
  | 9 => some (.amax (AtomOps.get false w))
  | 10 => some (.aand (AtomOps.get false w))
  | 11 => some (.aor (AtomOps.get false w))
  | 12 => some (.axor (AtomOps.get false w))
  | 13 => some (.aswp (AtomOps.get false w))
  | 14 => some (.acas (AtomOps.get true w))
  | 15 => some (.vred (StvOps.getRed w))
  | _ => none

/-- The CE slot (R67). -/
def readCE (w : Nat) : Option Instr :=
  match fld w 56 8 with
  | 1 => some (.cjob (CjobOps.get w))
  | 2 => some (.cwait (ChOps.get w))
  | 3 => some (.cpoll (ChOps.get w))
  | 4 => some (.ckill (CkillOps.get w))
  | 5 => some (.csend (CfragOps.getSend w))
  | 6 => some (.cred (CfragOps.get w))
  | 7 => some (.cbell (CbellOps.get w))
  | _ => none

/-- The SY slot (R68). -/
def readSY (w : Nat) : Option Instr :=
  match fld w 26 6 with
  | 1 => some (.lset (LsetOps.get w))
  | 2 => some (.lbrk (NumOps.get 3 w))
  | 3 => some (.endStrand (guard32 w))
  | 4 => some (.phase (NumOps.get 3 w))
  | 5 => some (.fence (guard32 w))
  | 6 => some (.waitf (WaitfOps.get w))
  | 7 => some (.setf (NumOps.get 6 w))
  | 8 => some (.clrf (NumOps.get 6 w))
  | 9 => some (.spin (SpinOps.get w))
  | 10 => some (.join (NumOps.get 8 w))
  | 11 => some (.leave (NumOps.get 8 w))
  | 12 => some (.cbar (NumOps.get 8 w))
  | 13 => some (.yield (guard32 w))
  | 14 => some (.take (TakeOps.get w))
  | 15 => some (.hret (guard32 w))
  | _ => none

/-- The operation that the opcode and the fields of a syllable name, before the checks of R51; `none` where the opcode is
unassigned or the routine index is outside the catalogue. -/
def readSyllable : Slot → Nat → Option Instr
  | .s => readS
  | .va => readV .a
  | .vb => readV .b
  | .mx => readMX
  | .ld => readLD
  | .st => readST
  | .ce => readCE
  | .sy => readSY

/-- One syllable in its slot. A routine index outside the catalogue raises ILLEGAL_OP once the unused fields are zero (R51, R259). -/
def decodeSyllable (sl : Slot) (w : Nat) : Except DecErr Instr :=
  match readSyllable sl w with
  | some i => fin w i
  | none =>
    if sl = .mx ∧ fld w 56 8 = 1 ∧ McallOps.enc (fld w 43 8) (McallOps.get w) ≠ w then .error .illegalBundle
    else .error .illegalOp

/-- A pilot word is the instruction read from its fields when encoding gives it back and it is legal. -/
def finP (w : Nat) (i : Instr) : Option Instr := if encodePilot i = w ∧ i.wf then some i else none

/-- One pilot instruction word; `none` where rule 1 of R405 refuses it. -/
def decodePilot (w : Nat) : Option Instr :=
  match fld w 26 6 with
  | 1 => finP w (.pilotAdd (PR.get w))
  | 2 => finP w (.pilotSub (PR.get w))
  | 3 => finP w (.pilotAnd (PR.get w))
  | 4 => finP w (.pilotOr (PR.get w))
  | 5 => finP w (.pilotXor (PR.get w))
  | 6 => finP w (.pilotMul (PR.get w))
  | 7 => finP w (.pilotShl (PI.get w))
  | 8 => finP w (.pilotShr (PI.get w))
  | 9 => finP w (.pilotAddi (PI.get w))
  | 10 => finP w (.pilotAndi (PI.get w))
  | 11 => finP w (.pilotOri (PI.get w))
  | 12 => finP w (.pilotLi (PLi.get w))
  | 13 => finP w (.ldm (PM.get w))
  | 14 => finP w (.stm (PM.get w))
  | 15 => finP w (.beq (PB.get w))
  | 16 => finP w (.bne (PB.get w))
  | 17 => finP w (.bltu (PB.get w))
  | 18 => finP w (.bgeu (PB.get w))
  | 19 => finP w (.loop (PL.get w))
  | 0x20 => finP w (.emitLaunch (fld w 20 3))
  | 0x21 => finP w (.emitCopy (fld w 20 3))
  | 0x22 => finP w (.emitBell ⟨fld w 20 3, fld w 17 3, fld w 0 12⟩)
  | 0x23 => finP w (.drop (fld w 0 8))
  | _ => none

/-- A present syllable of a bundle: its slot, its bits and what it decodes to. -/
structure Syl where
  slot : Slot
  raw : Nat
  op : Except DecErr Instr

/-- The guard of a present syllable, from its bits (R53). -/
def Syl.guard (x : Syl) : Guard := if x.slot = .sy then guard32 x.raw else guard64 x.raw
/-- The operation of a syllable, if it decodes. -/
def Syl.instr (x : Syl) : Option Instr :=
  match x.op with
  | .ok i => some i
  | .error _ => none

/-- The operation that a syllable names, whether or not it decodes. -/
def Syl.named (x : Syl) : Option Instr := readSyllable x.slot x.raw

/-- A bundle as read at an address: the header, its size in words, and its syllables. -/
structure Bundle where
  addr : Nat
  hw : Nat
  hdr : Header
  syls : List Syl

/-- Why an address holds no bundle: a header condition of R51 with its FVAL (R52, R162). -/
structure HeaderFault where
  fval : Nat
deriving DecidableEq, Repr

/-- The slots a PRES field announces, in slot order (R47). -/
def presSlots (pres : Nat) : List Slot := Slot.all.filter (fun sl => flg pres sl.bit)

/-- The words that present slots take: two each, one for SY (R48). -/
def wordsOf (sls : List Slot) : Nat := (sls.map (fun sl => if sl = .sy then 1 else 2)).sum

/-- The syllables that follow a header, from the words after it, low word first (R47). -/
def takeSyls : List Slot → List Nat → List Syl
  | [], _ => []
  | .sy :: r, w :: ws => ⟨.sy, w % 2 ^ 32, decodeSyllable .sy (w % 2 ^ 32)⟩ :: takeSyls r ws
  | sl :: r, lo :: hi :: ws =>
      let w := lo % 2 ^ 32 + 2 ^ 32 * (hi % 2 ^ 32)
      ⟨sl, w, decodeSyllable sl w⟩ :: takeSyls r ws
  | _ :: _, _ => []

/-- The bundle at a bundle address of an image (R47 to R52, R162). -/
def decodeBundle (img : List Nat) (a : Nat) : Except HeaderFault Bundle :=
  match img.drop a with
  | [] => .error ⟨0⟩
  | hw0 :: rest =>
    let hw := hw0 % 2 ^ 32
    let h := Header.get hw
    let sls := presSlots h.pres
    if hw % 2 ^ 14 ≠ 0 ∨ h.wcnt ≠ wordsOf sls ∨ 16 < a % 16 + 1 + h.wcnt ∨ rest.length < h.wcnt then .error ⟨hw⟩
    else .ok ⟨a, hw, h, takeSyls sls rest⟩

/-- The bundle ends its fetch line: LINE_END, or its last word is word 15 (R172). -/
def Bundle.endsLine (b : Bundle) : Bool := b.hdr.lineEnd || (b.addr + 1 + b.hdr.wcnt) % 16 == 0

/-- The fetch line of an address (R169). -/
def lineOf (a : Nat) : Nat := a / 16

/-- The sequential successor of a bundle (R172). -/
def Bundle.succ (b : Bundle) : Nat :=
  if b.endsLine then (lineOf b.addr + 1) * 16 else b.addr + 1 + b.hdr.wcnt

/-- The instruction an opcode-table word stands for, its bits numbered as the table numbers them (log entry 2): 32 bits
are a pilot instruction, or an empty bundle's header when its opcode field is zero; more bits are a bundle of one
operation, the header in the low 32 bits. -/
def decodeTableWord (nbits w : Nat) : Option Instr :=
  if nbits ≤ 32 then
    if fld w 26 6 = 0 then
      let h := Header.get w
      if w % 2 ^ 14 = 0 ∧ h.pres = 0 ∧ h.wcnt = 0 then some (.emptyBundle ⟨h.erun, h.lineEnd, h.park⟩) else none
    else decodePilot w
  else
    match decodeBundle [fld w 0 32, fld w 32 32, fld w 64 32] 0 with
    | .ok b =>
      match b.syls with
      | [x] =>
        match x.op with
        | .ok i => some i
        | .error _ => none
      | _ => none
    | .error _ => none

end Sys2Proof
end

