-- ==== Sys2Proof/Machine/Store.lean ====
section
/-! DEFINITION. Sparse data by number: lists of (number, value) with strictly rising numbers. Memory, register files and
the collections of State are stores. `put` keeps the canonical form: it lists no value that equals the default. -/
namespace Sys2Proof

/-- A sparse map from numbers to values. -/
abbrev Store (α : Type) := List (Nat × α)

/-- The value listed at a number. -/
def storeFind {α : Type} : Store α → Nat → Option α
  | [], _ => none
  | (k, v) :: r, a => if a = k then some v else storeFind r a

/-- The value at a number, `d` where none is listed. -/
def storeGet {α : Type} (d : α) (m : Store α) (a : Nat) : α := (storeFind m a).getD d

/-- List a value at a number, in place of the one listed there. -/
def storeSet {α : Type} : Store α → Nat → α → Store α
  | [], a, v => [(a, v)]
  | (k, w) :: r, a, v => if a < k then (a, v) :: (k, w) :: r else if a = k then (a, v) :: r else (k, w) :: storeSet r a v

/-- List nothing at a number. -/
def storeErase {α : Type} (m : Store α) (a : Nat) : Store α := m.filter (fun e => e.1 != a)

/-- Give a number a value, listing it unless it is the default. -/
def storePut {α : Type} [DecidableEq α] (d : α) (m : Store α) (a : Nat) (v : α) : Store α :=
  if v = d then storeErase m a else storeSet m a v

/-- Change the listed value at a number, if one is listed. -/
def storeMod {α : Type} (m : Store α) (a : Nat) (f : α → α) : Store α :=
  m.map (fun e => if e.1 = a then (e.1, f e.2) else e)

/-- Strictly rising numbers, all above a bound. -/
def storeSortedFrom {α : Type} : Nat → Store α → Bool
  | _, [] => true
  | lo, (k, _) :: r => decide (lo ≤ k) && storeSortedFrom (k + 1) r

/-- The canonical form: strictly rising, and nothing listed that equals the default. -/
def storeWf {α : Type} [DecidableEq α] (d : α) (m : Store α) : Bool :=
  storeSortedFrom 0 m && m.all (fun e => decide (e.2 ≠ d))

end Sys2Proof
end

