-- ==== Sys2Proof/Machine/State.lean ====
section
/-! DEFINITION. The state of the package: every frame's strand, the cores, dies, tenant contexts, launches, jobs,
transactions and memory, as the manual names them (INVENTORY.md lists each with its rule), and the state after reset.
A strand's state is one record whether it is resident in a frame or saved; `place` says which frame holds it. -/
namespace Sys2Proof.Machine

/-- Where the model stops a step because the manual gives no behaviour. -/
inductive Fault where
  /-- A rail left its tolerance (R414), or power stayed on after THERMTRIP (R416): the manual gives no behaviour for the
  dies concerned until the next power-up. Raised by `step` for every turn while it holds. Safe: the model stops. -/
  | noStatedBehaviour
  /-- An access to a physical address beyond the 96 GB of a die's HBM (R18), which a page-table entry of the device OS
  would have to name. Raised by `step` once an access meets it. Safe: the model stops. -/
  | absentHbm
deriving DecidableEq, Repr

/-- Where the model gives an instruction no meaning. -/
inductive Refusal where
  /-- Not modelled yet, by mnemonic. Raised by arms of `exec`. Safe: the model stops. -/
  | notModelled (mnemonic : String)
deriving DecidableEq, Repr

/-- The trap causes (R354). -/
inductive Cause where
  | illegalBundle | illegalOp | regRange | privOp | misaligned | layoutBounds | pageNotPresent | pagePerm
  | remoteAtomicPerm | windowFault | partition | linkUncertain | multicastPartial | controlIntegrity | convertOverflow
  | softwareTrap | hail | energyStop | eccUncorrectable | checkValue | accHeadroom | runLimit | shadowOverflow
deriving DecidableEq, Repr

/-- A cause with the values it carries (R183, R355). -/
structure Pending where
  cause : Cause
  fval : Word
  tbun : Nat
  tslot : Nat
deriving DecidableEq, Repr

/-- A loop level (R73). -/
structure Loop where
  start : Nat
  endl : Nat
  depth : Nat
  f : Bool
  count : Nat
deriving DecidableEq, Repr

/-- A shadow-stack entry: return address and the loop depth at the CALL (R165). -/
structure SEntry where
  ret : Nat
  depth : Nat
deriving DecidableEq, Repr

/-- What a WAITING strand waits for (R324, R353); `spin` names the 128-byte unit watched, `phase` the requests issued before it
and its bundle. -/
inductive Wait where
  | none
  | flag (n : Nat) (c : Bool)
  | crew (c : Nat)
  | phase (scope bound tbun : Nat)
  | spin (unit : Nat)
deriving DecidableEq, Repr

/-- The handler save (R37, R168). -/
structure HSave where
  pos : Nat
  depth : Nat
  preds : BitVec 16
  floor : Nat
  shadow : Nat
  wait : Wait
  causes : List Pending
deriving DecidableEq, Repr

/-- A write as a view names it: the identity of the request that makes it, and the 8-byte unit that it writes (R219, R222). -/
abbrev WKey := Nat × Nat

/-- A pending handler arrival: the entry bundle and the writes its payload makes visible (R35, R36, R222). -/
structure HArr where
  entry : Nat
  wids : List WKey
deriving DecidableEq, Repr

/-- A hold latch (R70, R363): `pend` is the request whose fill is awaited. -/
structure Latch where
  data : Vec
  full : Bool
  pend : Option Nat
  lost : Bool
  kind : Nat
deriving DecidableEq, Repr

/-- The destination of an in-flight result, by the kinds of R365; kind 13 holds the bytes of a core-scratch store or the
lanes of a VRED on core scratch. -/
inductive Dest where
  | sreg (n : Nat)
  | vreg (f : VFile) (n : Nat)
  | preg (n : Nat)
  | mask (f : VFile) (n : Nat)
  | flag (n : Nat)
  | csr (n : Nat)
  | lay (n : Nat)
  | mpShadow (n : Nat)
  | rofmt
  | band (tile row seg : Nat) (raw : Bool) (fmt : BitVec 32)
  | core (cells : List Host.Cell)
  | coreRed (ty : Nat) (lanes : List (Nat × Nat))
deriving DecidableEq, Repr

/-- An in-flight result (R365): remaining issue cycles, data, byte enables, poison, landing trap, and the slot and bundle
it comes from. -/
structure InFlight where
  dest : Dest
  rem : Nat
  data : Vec
  en : Mask
  poison : Bool
  trap : Option (Cause × Word)
  slot : Slot
  tbun : Nat
deriving DecidableEq, Repr

/-- One located element of an access: its place (an address in its space), its width in bytes, its data and, for ACAS, the
expected value. -/
structure El where
  off : Nat
  w : Nat
  data : Nat
  exp : Nat
deriving DecidableEq, Repr

/-- The atomic operations (R146). -/
inductive AOp where
  | add | addf | min | max | and | or | xor | swp | cas
deriving DecidableEq, Repr

/-- What an outstanding request does. -/
inductive ReqKind where
  | load
  | store
  | atomic (op : AOp) (ty : Nat)
  | vred (ty : Nat)
deriving DecidableEq, Repr

/-- An outstanding request of a strand outside core scratch, or an atomic (R125, R133, R144): the space it names, its
elements in order, the latch it binds, the ordering it carries, the slot and bundle that issued it, the window copies it
has sent, and, once an atomic is performed, the old value it returns. `held` and `replay` say that it stands in the replay list,
before and after the strand resumes; `left`, that a store has left the core's instance; `kept` are bytes of core scratch that later
stores of the strand overwrote before an LDH read them (R136); `flt` is the failure that a destination outside the package reports for a
load (R285). `id` rises in issue order. -/
structure Req where
  id : Nat
  kind : ReqKind
  space : Nat
  win : Nat
  els : List El
  latch : Option Nat
  scope : Nat
  acq : Bool
  rel : Bool
  hnd : Option Nat
  slot : Slot
  tbun : Nat
  units : Nat
  xact : Option Nat
  old : Option Vec
  held : Bool
  replay : Bool
  left : Bool
  kept : List Host.Cell
  flt : Option (Cause × Word)
deriving DecidableEq, Repr

/-- A byte that a strand has stored outside the package, which its loads return (R136, R223): the request, the place (a window's
destination with the offset, or a home beyond the package), and the byte. `lost` says that the store ended without being performed for
certain, so that no PHASE brings it into the view. -/
structure OwnByte where
  id : Nat
  place : Nat × Nat
  byte : Byte
  lost : Bool
deriving DecidableEq, Repr

/-- An accumulator element (R105). -/
structure AccEl where
  m : Int
  e : Int
  step : Nat
  inx : Bool
  hdl : Bool
  inv : Bool
  pinf : Bool
  ninf : Bool
  eovf : Bool
  eunf : Bool
deriving DecidableEq, Repr

/-- The queued matrix operations (R236, R259). -/
inductive MKind where
  | mma | mmat | mmab | split | slmma | fold | trans | mcopy
  | mlds (plane row : Nat) (data : Vec)
  | mplane (plane tile : Nat)
  | mclr | mnorm
deriving DecidableEq, Repr

/-- A queued matrix operation: its captured parameter words, format and layout entries, its start cycle, its end and the cycle
in which it is complete, how many contraction rows of the next step's operand B have been loaded, the scale
factors loaded with the planes of MMAB, the planes whose load met an uncorrectable error, and the row exponents of SPLIT so far
(R235, R236, R263, R264, R268). -/
structure MOp where
  id : Nat
  kind : MKind
  t : Nat
  mp : Nat
  par : List Word
  fmt : BitVec 32
  opnds : List (List Word)
  start : Nat
  ends : Nat
  done : Nat
  loaded : Nat
  snap : Store Nat
  snapBad : List Nat
  exps : List (Nat × Int)
  tbun : Nat
deriving DecidableEq, Repr

/-- An entry of the commit chain: the group of one element, due in an issue cycle (R235, R363). -/
structure Chain where
  due : Nat
  op : Nat
  tile : Nat
  row : Nat
  col : Nat
  m : Int
  e : Int
  flags : Nat
  clr : Bool
deriving DecidableEq, Repr

/-- A TMOV in its core's queue (R137, R138): source and destination bytes, flag, its place among engine operations, and its bundle. -/
structure Tmov where
  id : Nat
  sid : Nat
  moves : List (Nat × Nat)
  srcHome : Bool
  flag : Nat
  fence : Nat
  tbun : Nat
deriving DecidableEq, Repr

/-- A CE operation that the die has not accepted (R303), with its captured operands; a card is read in the strand's issue cycle `due`
and empty until then (R304). -/
inductive CeOp where
  | job (card : List Word) (due addr : Nat) (latch flag pri : Nat)
  | wait (handle latch : Nat)
  | poll (handle latch : Nat)
  | kill (handle : Nat)
  | send (src : List (Nat × Nat × Nat)) (desc : Word) (len flag : Nat)
  | red (src : List (Nat × Nat × Nat)) (desc : Word) (op tag len flag : Nat)
  | bell (tail : Nat) (data : Word) (loc : Bool) (win sqid : Nat)
deriving DecidableEq, Repr

/-- An entry of a core's CE queue; `core` and `tcid` are the core and the context that issued it (R314, R315), and `paid` counts the
requests of a fragment's source that have been made (R340). -/
structure CeEntry where
  id : Nat
  sid : Nat
  core : Nat
  tcid : Nat
  tbun : Nat
  fence : Nat
  op : CeOp
  paid : Nat
deriving DecidableEq, Repr

/-- The states of a strand and its frame (R324); `saved` is a strand whose frame has been freed by the save engine. -/
inductive FState where
  | filling | held | ready | issuing | waiting | energy | saving | saved | retiring
deriving DecidableEq, Repr

/-- What a drain leads to (R31, R32): the state the frame enters when the drain ends. -/
inductive DrainTo where
  | wait (w : Wait)
  | yield
  | park
  | ended
deriving DecidableEq, Repr

/-- How a strand comes to be saved (R364). -/
inductive SaveKind where
  | trap | park | checkpoint
deriving DecidableEq, Repr

/-- The range register (R41, R351). -/
structure Range where
  next : Nat
  limit : Nat
  outstanding : Bool
  exhausted : Bool
  slot : Option Nat
deriving DecidableEq, Repr

/-- How the next position is found once the empty residue has issued: it is `pos`, or R172 is evaluated for a bundle with
this successor and, when it ends its line, this line (R163, R172, R174). -/
inductive NextPos where
  | known
  | eval (succ : Nat) (line : Option Nat)
deriving DecidableEq, Repr

/-- The bundle being issued, or the one that carries the current run: address, sequential successor, whether it ends its fetch
line (R172), and the number that the next request had when it began to issue. -/
structure BunCtx where
  addr : Nat
  succ : Nat
  ends : Bool
  mark : Nat
deriving DecidableEq, Repr

/-- Everything the part keeps for one strand: its frame's contents (R24, R69, R182, R235, R363) and its identity. `skipped` says that
its issue cycle has begun, `tokPaid` which of its memory requests have found a token, by slice (R340), `tested` that the PARK test of the bundle due is made (R176), and `resumed` that no issue cycle has ended
since it came back from a save (R183). `winUsed` are the windows it has written through, `winPend` the members of multicast windows
with stores that no PHASE has covered yet, and `winPartial` those of them that have lost a copy (R230, R231, R291). -/
structure Strand where
  -- identity and allocation (R22, R24, R317)
  lid : Nat
  num : Nat
  die : Nat
  tcid : Nat
  image : Nat
  supervisor : Bool
  ga : Nat
  gb : Nat
  nlatch : Nat
  ntile : Nat
  csu : Nat
  cgrp : Nat
  place : Option Nat
  home : Option Nat
  base : Nat
  st : FState
  -- registers (R69)
  sreg : Store Word
  preg : BitVec 16
  va : Store Vec
  vb : Store Vec
  ma : Store Mask
  mb : Store Mask
  latches : Store Latch
  mpShadow : Store Word
  mpActive : Store Word
  ftab : Store (BitVec 32)
  lay : Store Word
  flags : BitVec 64
  -- matrix unit (R105, R235)
  tiles : Store AccEl
  /-- Elements in which an uncorrectable error has been found in the issue cycle: tile, row, column (R238, R268). -/
  accBad : List (Nat × Nat × Nat)
  planes : Store Byte
  rofmt : BitVec 32
  mq : List MOp
  chain : List Chain
  -- sequencer (R182)
  pos : Nat
  eres : Nat
  bres : Nat
  next : NextPos
  bun : BunCtx
  loops : List Loop
  lres : Nat
  parkStat : Word
  ldone : Nat
  lbase : Nat
  floor : Nat
  shadow : List SEntry
  spilled : List SEntry
  runCount : Nat
  hsave : Option HSave
  hq : List HArr
  stopRq : Bool
  ckptRq : Bool
  drain : Option DrainTo
  parked : Bool
  skipped : Bool
  tokPaid : List ((Nat × Nat) × Nat)
  tested : Bool
  resumed : Bool
  hndDue : Bool
  polls : Nat
  pollAt : Nat
  switchTo : Option DrainTo
  suppress : Nat
  icyc : Nat
  readySince : Nat
  selectedAt : Nat
  selectedIcyc : Nat
  waiterSince : Nat
  -- control and status registers (R71 to R76)
  ftsel : Nat
  spinlim : Nat
  prioBase : Nat
  prioCeil : Nat
  pen : Bool
  gang : Nat
  remt : Nat
  imaxrun : Nat
  cause : BitVec 8
  fval : Word
  tbun : Nat
  tslot : Nat
  allowOut : Store Nat
  allowLim : Store Nat
  range : Range
  wait : Wait
  crewDone : Bool
  -- results, causes and requests (R79, R183, R125, R133, R220, R222)
  inflight : List InFlight
  causes : List Pending
  reqs : List Req
  view : List WKey
  ownAway : List OwnByte
  /-- Stores of the strand that ended without being performed, by request, unit, bytes and data: its loads still return them (R223). -/
  ownLost : List (Nat × Nat × BitVec 8 × Word)
  lastAcq : Option Nat
  engOps : List Nat
  fence : Nat
  winPartial : Store Word
  winPend : Store Word
  winUsed : List Nat
  -- the save image (R363, R364)
  saveKind : Option SaveKind
  serial : Nat
  osCause : Option Pending
  osEmul : Bool
  emuData : Vec
  emuLdh : Option Vec
  img : List Host.Cell
  /-- The save area and the spill page, as home addresses (R167, R362). -/
  area : Option Nat
  spill : Option Nat
  wasRetiring : Bool
  phased : Bool
  due : Bool
deriving DecidableEq, Repr

/-- A core (R19, R31, R45, R125, R303, R339). `issuing` is the strand it issues for; `frames` are its four frames; `rows` are the
loaded instruction rows by context, image and index, among unleased ones the least recently released first; `bank` counts the stall
cycles that the bundle due has taken for bank conflicts (R123), and `skipRun` says that the nullifier has skipped since the last issue
cycle (R82). -/
structure CoreSt where
  issuing : Option Nat
  lastFrame : Nat
  frozen : Bool
  frames : Store Nat
  ceq : List CeEntry
  tmq : List Tmov
  rows : List (Nat × Nat × Nat)
  lastStream : Option Nat
  bank : Nat
  skipRun : Bool
deriving DecidableEq, Repr

/-- A gang-table entry (R325). -/
structure Gang where
  gid : Nat
  tenant : Nat
  boost : Nat
deriving DecidableEq, Repr

/-- A crew (R39, R40): members, those waiting to join the next generation, arrivals of the open generation and arrivals
for the next. -/
structure Crew where
  members : List Nat
  joining : List Nat
  arrived : List Nat
  leaving : List Nat
  nextArr : List Nat
deriving DecidableEq, Repr

/-- A memory slice (R340 to R342): buckets, weights, classes, targets, presenters of the window and latest misses. -/
structure Slice where
  pool : Nat
  weight : Store Nat
  critical : List Nat
  target : Store Nat
  bucket : Store Nat
  demand : List Nat
  shrink : Nat
  missed : List Nat
  /-- Read requests of each critical tenant in its block of 65,536 (R342). -/
  reads : Store Nat
  lastWindow : Nat
deriving DecidableEq, Repr

/-- The states of a share of a launch on a die (R320 to R323). -/
inductive ShareState where
  | arriving | queued | reserving | admitted | released | retired
deriving DecidableEq, Repr

/-- A share: its launch and BASE, since when it waits, when pre-emption is next considered for it (R333), whether it comes back
from a checkpoint, and the writes published at the submission of the launch on the die, by identity, scope and writer (R222). -/
structure Share where
  lid : Nat
  base : Nat
  since : Nat
  nextCheck : Nat
  st : ShareState
  again : Bool
  seen : List (WKey × Nat × Nat)
deriving DecidableEq, Repr

/-- A pilot-engine lane (R400, R401): the queue it serves, the entry it read, registers, loops, buffered stores and the
step of R400 it has reached. -/
inductive LaneStage where
  | idle | run | scratch | update | emit
deriving DecidableEq, Repr

inductive Emit where
  | none
  | launch (va : Nat)
  | copy (va : Nat)
  | bell (sqid tail : Nat) (data : Word)
  | drop (code : Nat)
deriving DecidableEq, Repr

structure Lane where
  stage : LaneStage
  pq : Nat
  prog : List Nat
  pc : Nat
  b : Store Word
  loops : List (Nat × Nat × Nat)
  pkt : List Byte
  qcbv : List Byte
  scr : List Byte
  qws : List Byte
  emit : Emit
deriving DecidableEq, Repr

/-- One copy of a queue control block (R392). -/
structure Qcb where
  gen : Nat
  chk : Nat
  head : Nat
  tail : Nat
  seq : Nat
  state : Nat
  lastdrop : Nat
  qslot : Nat
  tcid : Nat
  prog : Nat
  log2n : Nat
  esz : Nat
  bkey : Nat
  ringva : Nat
  accepted : Nat
  rejected : Nat
  qw : List Word
deriving DecidableEq, Repr

/-- A physical queue (R391): two control-block copies, scratch, and the bell key. `bad` marks QERR_QCB, in which no copy is active
(R393); `lane` marks a queue that a lane serves. -/
structure Queue where
  a : Qcb
  b : Qcb
  scratch : List Byte
  key : Nat
  bad : Bool
  lane : Option Nat
deriving DecidableEq, Repr

/-- A loaded pilot program (R406). -/
structure Pilot where
  words : List Nat
  ext : Nat
  tcid : Nat
deriving DecidableEq, Repr

/-- A copy-job region (R301). -/
structure Region where
  base : Nat
  win : Nat
  space : Nat
  stride : Nat
  nrow : Nat
  rlen : Nat
deriving DecidableEq, Repr

/-- A copy job (R299 to R307). `card` is where word 1 is written back: address, and whether it lies in HBM. `seg` holds the blocks that
an engine has still to move of the segment in progress, as places in the byte sequence (none: the job is on no engine), `paid` the
128-byte units, with their direction, whose requests that segment has made (R340), and `waits` the waiting latches, by strand. `got` holds
the 8-byte units of the block in progress that have been read, and `put` those still to be written, by their offset in the block (R226). -/
structure Job where
  die : Nat
  tcid : Nat
  sid : Option Nat
  handle : Nat
  eid : Nat
  tbun : Nat
  flag : Nat
  pri : Nat
  gang : Nat
  cluster : Nat
  cbase : Nat
  clen : Nat
  op : Nat
  scope : Nat
  rds : List Region
  wrs : List Region
  pattern : Word
  status : Nat
  detail : Nat
  done : Nat
  card : Nat
  cardHbm : Bool
  waits : List (Nat × Nat × Nat)
  reported : Bool
  seg : List Nat
  paid : List (Nat × Bool)
  got : List (Nat × Nat)
  put : List (Nat × Nat)
deriving DecidableEq, Repr

/-- How one copy of a transaction or fragment stands (R284 to R286, R289, R290, R292, R293): not yet sent, on its way,
refused at its destination, in a berth, in a berth and acknowledged, performed, acknowledged, undeliverable, skipped by a gap
transaction, uncertain. -/
inductive CopySt where
  | queued | sent | refused | berthed | stored | performed | acked | undeliverable | gapSent | uncertain
deriving DecidableEq, Repr

/-- A window transaction (R290 to R293): the window, its number, the request that made it, its copies by member, the writer it counts
as, when it was sent last, the extension word that it carries (R276), the failure that its destination has reported (R285), and by member
the elements of a store, as (address, width, data), that are still to be performed of one whose first ones have been (R219, R226). -/
structure Xact where
  die : Nat
  tcid : Nat
  win : Nat
  seq : Nat
  sid : Nat
  rid : Nat
  kind : ReqKind
  els : List El
  gang : Nat
  hnd : Option Nat
  units : Nat
  tries : Nat
  wid : Nat
  copies : Store CopySt
  core : Nat
  sentAt : Nat
  word : BitVec 32
  flt : Option (Cause × Word)
  todo : Store (List (Nat × Nat × Nat))
deriving DecidableEq, Repr

/-- A fragment on the fabric (R308 to R310), its extension word (R276), and by member how many requests of its write have been made
(R340). -/
structure Frag where
  die : Nat
  tcid : Nat
  sid : Nat
  eid : Nat
  tbun : Nat
  flag : Nat
  win : Nat
  gang : Nat
  off : Nat
  rflag : Nat
  nidx : Nat
  ncon : Nat
  op : Option Nat
  tag : Nat
  bytes : List Byte
  copies : Store CopySt
  word : BitVec 32
  paid : Store Nat
deriving DecidableEq, Repr

/-- A reduction group (R310, R311): contributions by sender domain die. -/
structure RGroup where
  gang : Nat
  tag : Nat
  die : Nat
  tcid : Nat
  off : Nat
  dspace : Nat
  dcl : Nat
  op : Nat
  ncon : Nat
  rflag : Nat
  nidx : Nat
  parts : Store (List Byte)
  since : Nat
deriving DecidableEq, Repr

/-- A bell under way (R314, R397), the window it goes through, its extension word (R276), and whether its destination lies outside the
package. -/
structure BellFly where
  msg : BellMsg
  sid : Nat
  eid : Nat
  tbun : Nat
  win : Option Nat
  word : BitVec 32
  away : Bool
deriving DecidableEq, Repr

/-- A handler whose payload was delivered from a berth while its strand's queue was full: the port holds it (R36, R289). -/
structure HeldHandler where
  die : Nat
  tcid : Nat
  hidx : Nat
  wids : List WKey
deriving DecidableEq, Repr

/-- An arrival in a berth, or one that the port holds for want of room, with the number of its records that are written (R288,
R289), and whether its sender has cleared its window since: it is never performed then (R294). -/
structure BerthRef where
  id : Nat
  member : Nat
  frag : Bool
  recs : Nat
  cl : Nat
  dead : Bool
deriving DecidableEq, Repr

/-- A cached translation (R132): virtual page, its size, and what the leaf gave. -/
structure Tlb where
  tcid : Nat
  vpage : Nat
  size : Nat
  leaf : BitVec 128
  level : Nat
deriving DecidableEq, Repr

/-- An SPDM session of a responder (R383): its number, the requester, which stands for a tenant (log entry 5), whether it is secured, and
when a message came last. -/
structure Session where
  sess : Nat
  requester : Nat
  secured : Bool
  last : Nat
deriving DecidableEq, Repr

/-- What a responder has negotiated (R383): the asymmetric algorithm (0 SM2, 1 P-384), which is also the certificate slot; the hash (0 SM3,
1 SHA-384); the key exchange (0 SM2, 1 secp384r1); and the AEAD (0 SM4-GCM, 1 AES-256-GCM). -/
structure Algs where
  asym : Nat
  hash : Nat
  kex : Nat
  aead : Nat
deriving DecidableEq, Repr

/-- The privilege modes of a hart of a harbourmaster complex (R2, R378). -/
inductive HartMode where
  | machine | supervisor | user
deriving DecidableEq, Repr

/-- A hart of a harbourmaster complex: its mode, and the registers of RV64GC, those never written reading zero (R2, R378; PRESUMED, log entry 99). -/
structure Hart where
  mode : HartMode
  pc : Word
  x : Store Word
  f : Store Word
  csr : Store Word
deriving DecidableEq, Repr

/-- The test access port: the state of its controller by the number of IEEE 1149.1's table, and the bit of its bypass register (R2, R413;
PRESUMED, log entry 99). -/
structure Tap where
  st : Nat
  bypass : Bool
deriving DecidableEq, Repr

/-- How far a die has booted (R381, R412). -/
inductive BootSt where
  | off | booting (step : Nat) | failed (step : Nat) | inService | outOfService
deriving DecidableEq, Repr

/-- A compute die (R18, R327 to R343, R378 to R412); the quay dies' sessions are kept under numbers 8 to 11. `lostEmits` are the
emits that a recovery has lost, by context, slot and index; `void` marks a die for which no behaviour is stated (R414). -/
structure Die where
  boot : BootSt
  bootSince : Nat
  clock : Nat
  cycle : Nat
  serviceAt : Nat
  refillAt : Nat
  lastDecay : Nat
  lastGain : Nat
  gangs : List Gang
  bused : Store Nat
  ballow : Store Nat
  chg : List Nat
  cf : Nat
  echg : Nat
  tokens : Nat
  thermal : Bool
  slices : List Slice
  shares : List Share
  crews : Store Crew
  tlb : List Tlb
  lanes : Store Lane
  pilots : Store Pilot
  queues : Store Queue
  supTable : Store Nat
  candidates : List Nat
  firstCand : Option Nat
  leader : Option Nat
  domain : Option Nat
  sessions : List Session
  /-- For each measurement block of R384, the data that it was extended with. -/
  measure : List (List (List Nat))
  algs : Algs
  /-- The four harts of the complex (R378). -/
  harts : List Hart
  remtAt : Nat
  watchdogAt : Nat
  recovering : Bool
  recoverAt : Nat
  /-- The boot of a recovery has failed a check: the die stays in boot failure (R381, R410). -/
  bootBad : Bool
  bellDrops : Nat
  bellHeld : List BellMsg
  errors : Nat
  tagDrops : Nat
  lostEmits : List (Nat × Nat × Nat)
  void : Bool
  nalloc : Nat
  lastReconcile : Nat
  lastStep : Nat
  /-- The set point of the die's core rail in millivolts (R414). -/
  setPoint : Nat
  /-- The last core whose turn the die's clock cycle has had (log entry 15). -/
  lastTurn : Option Nat
deriving DecidableEq, Repr

/-- The states of a tenant binding (R385). -/
inductive Binding where
  | unbound | locked | attested | run | error
deriving DecidableEq, Repr

/-- A window's CSRs (R278, R279) and its per-member numbering (R293). -/
structure Win where
  cfg : Word
  base : Nat
  size : Nat
  next : Nat
  acks : Store Nat
  comp : Word
  memb : Word
  flt : Word
  sent : Nat
  retx : Nat
  ceil : Nat
  ident : Nat
  unc : Bool
  resync : List Nat
  clearing : Bool
  clearCmd : Bool
  refusing : Option Nat
deriving DecidableEq, Repr

/-- The delegation record with its next slot (R356). -/
structure Deleg where
  entry : Option DelegRec
  frnext : Nat
deriving DecidableEq, Repr

/-- The energy account (R334, R336). -/
structure Energy where
  cap : Nat
  refill : Nat
  enbal : Int
  acc : Nat
  reported : Bool
deriving DecidableEq, Repr

/-- A tenant context of a die (R22, R278, R281, R385 to R390). `items` are the digests of the installed items, `pages` the tenant's
mapped pages by virtual address, level, home die and physical address. -/
structure Ctx where
  bind : Binding
  sess : Nat
  tenant : Nat
  resident : Bool
  keys : List (Nat × Nat)
  lkeys : Store (Nat × Nat)
  saveKeys : Option (Nat × Nat)
  part : Nat
  suite : Nat
  qenr : Bool
  csize : Nat
  dsize : Nat
  bva : Nat
  cbase : List Nat
  dbase : Nat
  /-- The area of the supervisor region that evicted regions are kept in, as a home address (R287, R379). -/
  evictAt : Option Nat
  root : Option Nat
  quota : Nat
  used : Nat
  energy : Energy
  fairpm : Nat
  inc : Nat
  crewq : Nat
  tokens : Nat
  gangs : List Nat
  wins : Store Win
  qmax : Nat
  sqva : Nat
  notice : Option Nat
  nnext : Nat
  nlost : Nat
  deleg : Deleg
  handlers : Store HEntry
  faultpol : Nat
  faultPages : List Nat
  features : Option Nat
  negotiated : Option Nat
  items : Store Nat
  pages : List (Nat × Nat × Nat × Nat)
  images : Store Image
  pdrop : Nat
  hdrop : Nat
  cerr : Nat
  bused : Nat
  bhead : Nat
  btail : Nat
  berthL : List BerthRef
  berthQ : List BerthRef
  serial : Nat
  /-- The slices for which the context's own item 8 has the class critical (R387). -/
  critical : List Nat
deriving DecidableEq, Repr

/-- A strand record of a launch packet (R317). -/
structure SRec where
  image : Nat
  cgrp : Nat
  die : Nat
  csu : Nat
  pflags : Word
  rnext : Nat
  rlimit : Nat
deriving DecidableEq, Repr

/-- A launch (R316 to R320) that has no final status: its packet, the dies of its shares, those that load data sections and have
loaded them (R86). -/
structure Launch where
  die : Nat
  tcid : Nat
  lnum : Nat
  tenant : Nat
  doneva : Nat
  base : Nat
  ceil : Nat
  gang : Nat
  tokens : Nat
  kill : Bool
  ckpt : Bool
  energy : Nat
  remt : Nat
  supervisor : Bool
  recs : List SRec
  dies : List Nat
  toLoad : List Nat
  loaded : List Nat
  hbmLoaded : Bool
  dataWids : List Nat
  ended : Nat
deriving DecidableEq, Repr

/-- A steal message under way (R42, R43, R352): a request or a grant. -/
structure Steal where
  from_ : Nat
  dst : Nat
  grant : Option (Nat × Nat)
deriving DecidableEq, Repr

/-- One performed write of an 8-byte unit (R219 to R223): who made it, from where, its issue order, the bytes it wrote, the
unit's value after it, the widest scope at which it is published, and the window it came through. -/
structure WriteRec where
  wid : Nat
  sid : Option Nat
  win : Option Nat
  core : Nat
  isStore : Bool
  en : BitVec 8
  data : Word
  val : Word
  pub : Option Nat
deriving DecidableEq, Repr

/-- The home order of a unit: its value before the first write, and the writes (R219). -/
structure UnitHist where
  base : Word
  ws : List WriteRec
deriving DecidableEq, Repr

/-- A UALink port's mode (R275). -/
inductive PortMode where
  | down | extended | plain
deriving DecidableEq, Repr

/-- A multicast group (R280). -/
structure McGroup where
  members : List (Nat × Nat × Nat)
  dspace : Nat
  size : Nat
deriving DecidableEq, Repr

/-- Reports that leave the package (R383, R386, R421): replies, attestation reports, and MCTP reports, as numbers. -/
inductive Report where
  | spdm (kind resp sess : Nat) (content : List Nat)
  | command (die tcid status value : Nat)
  | attest (die tcid : Nat) (content : List Nat) (sig : Nat)
  | bootFailure (die step reason : Nat)
  | outOfService (die : Nat)
  | uncorrectable (store die addr : Nat)
  | thermal (die temp : Nat)
  | power (values : List Nat)
  | berthCheck (die tcid : Nat) (fval : Word)
  | counters (values : List Nat)
deriving DecidableEq, Repr

/-- Package-wide state (R275, R295, R382, R413 to R421). `permits` and `pdrops` are the partition permit sets and drop counters of the
check points: quay dies 0 to 3, then link ports 0 to 23; `portPart` and `portKey` are the UALink ports' default partitions and link
keys. -/
structure Package where
  pwrgood : Bool
  thermtrip : Bool
  limit : Nat
  /-- The weights of the dies in the power limit, as the device OS gives them; none where the list has none (R338). -/
  weights : List Nat
  number : Option Nat
  /-- The package tenant indexes in use, each with the requester that it is assigned to (R23). -/
  tenants : Store Nat
  ports : List PortMode
  uePorts : List Bool
  permits : List (List Nat)
  pdrops : Store Nat
  portPart : List Nat
  portKey : List Nat
  groups : Store McGroup
  quayKeys : List (Nat × Nat)
  reports : List Report
  corrected : Store Nat
  tripAt : Nat
  teleAt : Nat
  tap : Tap
  /-- The key identifier under which a 4 KiB page of HBM was mapped last, by its address over 4,096 (R297). -/
  pageKeys : Store Nat
deriving DecidableEq, Repr

/-- What a transaction from another package asks for: a window access at offsets of its destination's space, a gap or a resynchronisation
transaction (R285, R290, R294), a fragment (R308 to R310), a bell (R314), an access to a page of this die's HBM by physical address (R130), or
word that a PHASE of DOMAIN scope of its strand is complete (R220). -/
inductive InAct where
  | access (kind : ReqKind) (els : List El)
  | gap
  | resync
  | fragment (off : Nat) (bytes : List Byte) (op : Option Nat) (tag ncon rflag nidx : Nat)
  | bell (sqid tail : Nat) (data : Word)
  | peer (kind : ReqKind) (els : List El)
  | publish
deriving DecidableEq, Repr

/-- A transaction from another package at a link port (R275, R276, R293): the port, 0 to 15 of UALink and 16 to 23 of Ultra Ethernet; the
extension word; the sender's domain die index, TCID, window with the member of its destination (R280), strand and sequence number; and the destination's domain die index, TCID, space
and cluster. -/
structure Inbound where
  port : Nat
  word : BitVec 32
  sdie : Nat
  stcid : Nat
  swin : Nat
  member : Nat
  strand : Nat
  seq : Nat
  ddie : Nat
  dtcid : Nat
  dspace : Nat
  dcl : Nat
  act : InAct
deriving DecidableEq, Repr

/-- What the device OS sets, and what befalls a stored bit, without an operation of the opcode table: a charge class (R335), the POOL of a
slice (R340), the weights of the power limit (R338), the default partition and link key of a plain port (R275), a block whose bytes no
longer match its check value (R298), a vector register or hold latch read with an uncorrectable error (R419), an
accumulator element, by tile, row and column, in which the matrix unit finds one (R268), a byte of a save area that is not what the save engine wrote (R372), the device OS's own queue (R391), which it makes, fills and rings itself,
a control block that no longer matches its CHK (R393), an error that the protection of a store corrects (R419), a row of instruction
memory that cannot be corrected (R419), a transaction from another package (R275), the set point of a core rail (R414), RESET_N (R415), and
what the program of a hart and the test access port leave in their registers (R2). -/
inductive Outside where
  | chg (die cls value : Nat)
  | pool (die sl tokens : Nat)
  | weights (w : List Nat)
  | portDefault (port part key : Nat)
  | badCheck (blk : Nat)
  | regError (core : Nat) (slot : Slot)
  | accError (core : Nat) (a : Nat × Nat × Nat)
  | areaByte (sid off : Nat) (b : Byte)
  | tableError (die tcid : Nat)
  | bootNext (die : Nat)
  | osQueue (die : Nat) (c : Qcb) (words : List Nat)
  | osTail (die tail : Nat)
  | osWrite (die pa : Nat) (bytes : List Byte)
  | qcbError (die pq : Nat) (copyB : Bool)
  | corrected (store : Nat)
  | rowError (core : Nat) (row : Nat × Nat × Nat)
  | inbound (p : Inbound)
  | setPoint (die mv : Nat)
  | resetN
  | hart (die n : Nat) (h : Hart)
  | tck (tms tdi : Bool)
deriving DecidableEq, Repr

/-- One turn of the agenda: an event, a core, a pilot lane, a die clock or the reference clock advancing, or an act from outside. -/
inductive Turn where
  | event (i : Instr)
  | strand (core : Nat)
  | lane (die l : Nat)
  | clock (die : Nat)
  | usec
  | outside (a : Outside)
deriving DecidableEq, Repr

/-- How exec treats the operations of a bundle: one operation on its own; the checks of R51 and of issue only; the effects
only. -/
inductive Mode where
  | whole | check | commit
deriving DecidableEq, Repr

/-- A condition met by a syllable: the cause, the slot, FVAL (R52), and whether it is a MISALIGNED that the device OS
emulates (R127). -/
structure Finding where
  cause : Cause
  slot : Slot
  fval : Word
  emul : Bool
deriving DecidableEq, Repr

/-- The state of the package. -/
structure State where
  mem : List Host.Cell
  hist : Store UnitHist
  poisoned : List Nat
  badCheck : List Nat
  strands : Store Strand
  cores : Store CoreSt
  dies : Store Die
  ctxs : Store Ctx
  launches : Store Launch
  jobs : Store Job
  xacts : Store Xact
  filters : Store Nat
  frags : Store Frag
  groups : Store RGroup
  bells : Store BellFly
  steals : Store Steal
  portHeld : List HeldHandler
  pkg : Package
  time : Nat
  -- the model's own fields
  agenda : List Turn
  mode : Mode
  found : List Finding
  stall : Bool
  cur : Nat
  laneDie : Nat
  laneNum : Nat
  nextId : Nat
  nfree : Nat
  stuck : Option Fault
deriving DecidableEq, Repr

/-! ## The values after reset (R10, R27, R105, R278, R334 to R342, R381) -/

/-- The Reset value of an accumulator element (R105). -/
def AccEl.reset : AccEl := ⟨0, 0, 0, false, false, false, false, false, false, false⟩

/-- An empty latch (R70). -/
def Latch.reset : Latch := ⟨0, false, none, false, 0⟩

/-- A strand as admission leaves it before the launch's values are set (R27, R76, R235): every register zero, SPINLIM 32,
IMAXRUN 4,096. -/
def Strand.reset : Strand where
  lid := 0
  num := 0
  die := 0
  tcid := 0
  image := 0
  supervisor := false
  ga := 0
  gb := 0
  nlatch := 0
  ntile := 0
  csu := 0
  cgrp := 0
  place := none
  home := none
  base := 0
  st := .filling
  sreg := []
  preg := 0
  va := []
  vb := []
  ma := []
  mb := []
  latches := []
  mpShadow := []
  mpActive := []
  ftab := []
  lay := []
  flags := 0
  tiles := []
  accBad := []
  planes := []
  rofmt := 0
  mq := []
  chain := []
  pos := 0
  eres := 0
  bres := 0
  next := .known
  bun := ⟨0, 0, false, 0⟩
  loops := []
  lres := 0
  parkStat := 0
  ldone := 0
  lbase := 0
  floor := 0
  shadow := []
  spilled := []
  runCount := 0
  hsave := none
  hq := []
  stopRq := false
  ckptRq := false
  drain := none
  parked := false
  skipped := false
  tokPaid := []
  tested := false
  resumed := false
  hndDue := false
  polls := 0
  pollAt := 0
  switchTo := none
  suppress := 0
  icyc := 0
  readySince := 0
  selectedAt := 0
  selectedIcyc := 0
  waiterSince := 0
  ftsel := 0
  spinlim := 32
  prioBase := 0
  prioCeil := 0
  pen := false
  gang := 0
  remt := 0
  imaxrun := 4096
  cause := 0
  fval := 0
  tbun := 0
  tslot := 0
  allowOut := []
  allowLim := []
  range := ⟨0, 0, false, false, none⟩
  wait := .none
  crewDone := false
  inflight := []
  causes := []
  reqs := []
  view := []
  ownAway := []
  ownLost := []
  lastAcq := none
  engOps := []
  fence := 0
  winPartial := []
  winPend := []
  winUsed := []
  saveKind := none
  serial := 0
  osCause := none
  osEmul := false
  emuData := 0
  emuLdh := none
  img := []
  area := none
  spill := none
  wasRetiring := false
  phased := false
  due := false

/-- A core with four free frames. -/
def CoreSt.reset : CoreSt := ⟨none, 3, false, [], [], [], [], none, 0, false⟩

/-- A memory slice: POOL 11,264, no weights, shrink level 0 (R340, R342). -/
def Slice.reset : Slice := ⟨11264, [], [], [], [], [], 0, [], [], 0⟩

/-- The charge table at die reset, classes 0 to 15 (R335). -/
def chgReset : List Nat := [31, 16, 126, 262, 4404, 3985, 4823, 6, 157, 3775, 64, 5243, 42, 0, 0, 0]

/-- A lane that serves no queue. -/
def Lane.reset : Lane := ⟨.idle, 0, [], 0, [], [], [], [], [], [], .none⟩

/-- A queue control block that was never written: DISABLED (R392). -/
def Qcb.reset : Qcb := ⟨0, 0, 0, 0, 0, 0, 0, 0, 0, 0, 0, 0, 0, 0, 0, 0, []⟩

/-- A physical queue that no QCREATE has taken. -/
def Queue.reset : Queue := ⟨Qcb.reset, Qcb.reset, [], 0, false, none⟩

/-- A hart after reset: machine mode, every register zero (PRESUMED, log entry 99). -/
def Hart.reset : Hart := ⟨.machine, 0, [], [], []⟩

/-- The harts once the device OS runs: the firmware in machine mode, the device OS in supervisor mode (R378). -/
def hartsUp : List Hart := Hart.reset :: List.replicate 3 { Hart.reset with mode := .supervisor }

/-- A compute die held in reset: clock at 1.8 GHz, cycle count 0, 4 start tokens, CF 1,024, nothing bound or loaded. -/
def Die.reset : Die where
  boot := .off
  bootSince := 0
  clock := 1800
  cycle := 0
  serviceAt := 0
  refillAt := 0
  lastDecay := 0
  lastGain := 0
  gangs := []
  bused := []
  ballow := []
  chg := chgReset
  cf := 1024
  echg := 0
  tokens := 4
  thermal := false
  slices := [Slice.reset, Slice.reset]
  shares := []
  crews := []
  tlb := []
  lanes := []
  pilots := []
  queues := []
  supTable := []
  candidates := []
  firstCand := none
  leader := none
  domain := none
  sessions := []
  measure := List.replicate 7 []
  algs := ⟨0, 0, 0, 0⟩
  harts := List.replicate 4 Hart.reset
  remtAt := 0
  watchdogAt := 0
  recovering := false
  recoverAt := 0
  bootBad := false
  bellDrops := 0
  bellHeld := []
  errors := 0
  tagDrops := 0
  lostEmits := []
  void := false
  nalloc := 0
  lastReconcile := 0
  lastStep := 0
  setPoint := 550
  lastTurn := none

/-- A window that the binding does not supply: every CSR reads zero (R278). -/
def Win.reset : Win := ⟨0, 0, 0, 0, [], 0, 0, 0, 0, 0, 0, 0, false, [], false, false, none⟩

/-- An unbound tenant context (R385); FAIRPM 50 and INC 4 by default (R326, R328). -/
def Ctx.reset : Ctx where
  bind := .unbound
  sess := 0
  tenant := 0
  resident := true
  keys := []
  lkeys := []
  saveKeys := none
  part := 0
  suite := 0
  qenr := false
  csize := 0
  dsize := 0
  bva := 0
  cbase := [0, 0, 0, 0]
  dbase := 0
  evictAt := none
  root := none
  quota := 0
  used := 0
  energy := ⟨0, 0, 0, 0, false⟩
  fairpm := 50
  inc := 4
  crewq := 0
  tokens := 0
  gangs := []
  wins := []
  qmax := 0
  sqva := 0
  notice := none
  nnext := 0
  nlost := 0
  deleg := ⟨none, 0⟩
  handlers := []
  faultpol := 0
  faultPages := []
  features := none
  negotiated := none
  items := []
  pages := []
  images := []
  pdrop := 0
  hdrop := 0
  cerr := 0
  bused := 0
  bhead := 0
  btail := 0
  berthL := []
  berthQ := []
  serial := 0
  critical := []

/-- A launch that does not exist. -/
def Launch.reset : Launch :=
  ⟨0, 0, 0, 0, 0, 0, 0, 0, 0, false, false, 0, 0, false, [], [], [], [], false, [], 0⟩

/-- The package as power-up leaves it: power good, reset still asserted, limit 6,000 W, no package number, ports down. -/
def Package.reset : Package where
  pwrgood := true
  thermtrip := false
  limit := 6000
  weights := []
  number := none
  tenants := []
  ports := List.replicate 16 .down
  uePorts := List.replicate 8 false
  permits := List.replicate 28 []
  pdrops := []
  portPart := List.replicate 16 0
  portKey := List.replicate 16 0
  groups := []
  quayKeys := []
  reports := []
  corrected := []
  tripAt := 0
  teleAt := 0
  tap := ⟨0, false⟩
  pageKeys := []

/-- The package right after reset: nothing bound, loaded, resident or under way. -/
def State.reset : State where
  mem := []
  hist := []
  poisoned := []
  badCheck := []
  strands := []
  cores := []
  dies := []
  ctxs := []
  launches := []
  jobs := []
  xacts := []
  filters := []
  frags := []
  groups := []
  bells := []
  steals := []
  portHeld := []
  pkg := Package.reset
  time := 0
  agenda := []
  mode := .whole
  found := []
  stall := false
  cur := 0
  laneDie := 0
  laneNum := 0
  nextId := 1
  nfree := 0
  stuck := none

end Sys2Proof.Machine
end

