-- ==== Sys2Proof/Machine/Memory.lean ====
section
/-! DEFINITION. Memory at its homes (R16, R18, R219): one list of bytes for every scratch and every HBM byte of the package,
the home order of each 8-byte unit, publication and views (spec/13_consistency.md). -/
namespace Sys2Proof.Machine

/-! ## Addresses of homes -/

/-- A byte of a die's HBM by its 46-bit physical address (R128). -/
def hbmAddr (d pa : Nat) : Nat := d * 2 ^ 46 + pa
/-- A byte of a core's scratch (R19). -/
def coreAddr (c off : Nat) : Nat := 2 ^ 50 + c * 2 ^ 20 + off
/-- A byte of a cluster's scratch, clusters numbered die × 4 + cluster (R18). -/
def clusterAddr (g off : Nat) : Nat := 2 ^ 51 + g * 2 ^ 23 + off
/-- A byte of a die's scratch (R18). -/
def dieAddr (d off : Nat) : Nat := 2 ^ 52 + d * 2 ^ 25 + off

/-- A byte of the private SRAM of a die's harbourmaster complex, 8 MiB, which no access of a core, engine, lane or port reaches (R18, R378). -/
def sramAddr (d off : Nat) : Nat := 2 ^ 53 + d * 2 ^ 23 + off

/-- The bytes of HBM a die has: two stacks of 48 GB (R6, R18). -/
def hbmBytes : Nat := 96000000000

/-- Where an address lies. -/
inductive HomeKind where
  | hbm (d : Nat) | core (c : Nat) | cluster (g : Nat) | die (d : Nat) | sram (d : Nat)
deriving DecidableEq, Repr

/-- The home of an address (R219). -/
def homeOf (a : Nat) : HomeKind :=
  if a < 2 ^ 50 then .hbm (a / 2 ^ 46)
  else if a < 2 ^ 51 then .core ((a - 2 ^ 50) / 2 ^ 20)
  else if a < 2 ^ 52 then .cluster ((a - 2 ^ 51) / 2 ^ 23)
  else if a < 2 ^ 53 then .die ((a - 2 ^ 52) / 2 ^ 25)
  else .sram ((a - 2 ^ 53) / 2 ^ 23)

/-- The die of a home. -/
def homeDie (a : Nat) : Nat :=
  match homeOf a with
  | .hbm d => d
  | .core c => c / 64
  | .cluster g => g / 4
  | .die d => d
  | .sram d => d

/-! ## Bytes -/

/-- What an unlisted byte reads as: scratch reads zero at admission (R114); the contents of HBM after power-up are not
given (log entry 1, DESIGN CHOICE). -/
def emptyByte : Byte := 0

/-- One byte at its home. -/
def State.byte (s : State) (a : Nat) : Byte := storeGet emptyByte s.mem a

/-- One byte written. -/
def setMem (m : List Host.Cell) (a : Nat) (b : Byte) : List Host.Cell := storePut emptyByte m a b

/-- Bytes written from an address up. -/
def writeBytes (m : List Host.Cell) (a : Nat) : List Byte → List Host.Cell
  | [] => m
  | b :: r => writeBytes (setMem m a b) (a + 1) r

/-- The n bytes from an address up. -/
def State.bytes (s : State) (a : Nat) : Nat → List Byte
  | 0 => []
  | n + 1 => s.byte a :: s.bytes (a + 1) n

/-- A little-endian number from bytes (R7). -/
def leNat : List Byte → Nat
  | [] => 0
  | b :: r => b.toNat + 256 * leNat r

/-- The n little-endian bytes of a number (R7). -/
def leBytes : Nat → Nat → List Byte
  | 0, _ => []
  | n + 1, v => BitVec.ofNat 8 (v % 256) :: leBytes n (v / 256)

/-- An n-byte number at its home. -/
def State.read (s : State) (a n : Nat) : Nat := leNat (s.bytes a n)

/-- An n-byte number written by the device outside any home order (page tables, save areas, core scratch). -/
def State.poke (s : State) (a n v : Nat) : State := { s with mem := writeBytes s.mem a (leBytes n v) }

/-- Bytes written by the device outside any home order. -/
def State.pokeBytes (s : State) (a : Nat) (bs : List Byte) : State := { s with mem := writeBytes s.mem a bs }

/-- Cells written in order. -/
def State.pokeCells (s : State) (cs : List Host.Cell) : State :=
  { s with mem := cs.foldl (fun m c => setMem m c.1 c.2) s.mem }

/-- The memory's canonical form. -/
def memWf (m : List Host.Cell) : Bool := storeWf emptyByte m

/-! ## Scopes and instances (R218) -/

/-- Writers are numbered by core, and a die's engines as 512 + die. -/
def engineOf (d : Nat) : Nat := 512 + d

/-- The die of a writer. -/
def writerDie (w : Nat) : Nat := if w < 512 then w / 64 else w - 512

/-- A writer of another package stands under 1,024 and its die's domain index: of the scopes only DOMAIN holds it and this package's homes
(R218). -/
def farWriter (w : Nat) : Bool := decide (1024 ≤ w)

/-- A core lies in a writer's instance of a scope (R218). -/
def coreInInst (scope w c : Nat) : Bool :=
  match scope with
  | 0 => if w < 512 then c == w else c / 64 == writerDie w
  | 1 => if w < 512 then c / 16 == w / 16 else c / 64 == writerDie w
  | 2 => c / 64 == writerDie w
  | 3 => !farWriter w
  | _ => true

/-- A home lies in a writer's instance of a scope (R218). -/
def homeInInst (scope w a : Nat) : Bool :=
  if w < 512 then
    match scope with
    | 0 => false
    | 1 => (match homeOf a with | .cluster g => g == w / 16 | _ => false)
    | 2 => homeDie a == writerDie w
    | _ => true
  else
    match scope with
    | 0 => homeDie a == writerDie w
    | 1 => homeDie a == writerDie w
    | 2 => homeDie a == writerDie w
    | 3 => !farWriter w
    | _ => true

/-- The narrowest scope whose instance contains the writer and the home (R220, R221). -/
def narrowest (w a : Nat) : Nat :=
  if homeInInst 0 w a then 0 else if homeInInst 1 w a then 1 else if homeInInst 2 w a then 2 else if homeInInst 3 w a then 3 else 4

/-! ## Home order (R219 to R222) -/

/-- Who performs a write: identity, strand, place, whether it is a store of that strand, and its publication. -/
structure Writer where
  wid : Nat
  sid : Option Nat
  core : Nat
  isStore : Bool
  pub : Option Nat
  win : Option Nat

/-- The unit an address lies in. -/
def unitOf (a : Nat) : Nat := a / 8

/-- The value of a unit at its home. -/
def State.unitVal (s : State) (u : Nat) : Word := BitVec.ofNat 64 (s.read (8 * u) 8)

/-- The bytes a w-byte write at an address covers in its unit. -/
def unitEn (a w : Nat) : BitVec 8 := BitVec.ofNat 8 ((2 ^ w - 1) * 2 ^ (a % 8))

/-- Bytes of `d` where enabled, of `v` elsewhere. -/
def overlay (en : BitVec 8) (d v : Word) : Word :=
  BitVec.ofNat 64 (leNat ((List.range 8).map (fun i =>
    if en.getLsbD i then BitVec.ofNat 8 (d.toNat / 256 ^ i) else BitVec.ofNat 8 (v.toNat / 256 ^ i))))

/-- A write of at most 8 bytes inside one unit, performed at its home and placed in the unit's home order (R219). -/
def State.perform (s : State) (wr : Writer) (a w d : Nat) : State :=
  let u := unitOf a
  let old := s.unitVal u
  let dat : Word := BitVec.ofNat 64 (d % 256 ^ w * 256 ^ (a % 8))
  let new := overlay (unitEn a w) dat old
  let h : UnitHist := storeGet ⟨old, []⟩ s.hist u
  let rec' : WriteRec := ⟨wr.wid, wr.sid, wr.win, wr.core, wr.isStore, unitEn a w, dat, new, wr.pub⟩
  { s with mem := writeBytes s.mem a (leBytes w d), hist := storeSet s.hist u { h with ws := h.ws ++ [rec'] } }

/-- Several elements performed in order. -/
def State.performEls (s : State) (wr : Writer) : List (Nat × Nat × Nat) → State
  | [] => s
  | (a, w, d) :: r => (s.perform wr a w d).performEls wr r

/-- Consecutive bytes as writes of whole or partial units, from an address up. -/
def chunkUnits : Nat → Nat → List Byte → List (Nat × Nat × Nat)
  | 0, _, _ => []
  | _, _, [] => []
  | fuel + 1, a, bs =>
    let n := 8 - a % 8
    (a, (bs.take n).length, leNat (bs.take n)) :: chunkUnits fuel (a + n) (bs.drop n)

/-- Maximal runs of consecutive addresses among cells, in their order. -/
def cellRuns (cs : List Host.Cell) : List (Nat × List Byte) :=
  (cs.foldl (fun (rs : List (Nat × List Byte)) c =>
    match rs with
    | (a, l) :: r => if a + l.length = c.1 then (a, l ++ [c.2]) :: r else (c.1, [c.2]) :: rs
    | [] => [(c.1, [c.2])]) []).reverse

/-- Cells as writes inside 8-byte units. -/
def cellUnits (cs : List Host.Cell) : List (Nat × Nat × Nat) := (cellRuns cs).flatMap (fun r => chunkUnits (r.2.length + 1) r.1 r.2)

/-- Bytes performed at their home. -/
def State.performBytes (s : State) (wr : Writer) (a : Nat) (bs : List Byte) : State :=
  s.performEls wr (chunkUnits (bs.length + 1) a bs)

/-- The widest of two publications. -/
def widest (a : Option Nat) (x : Nat) : Option Nat :=
  match a with
  | none => some x
  | some y => some (if y < x then x else y)

/-- Publish(scope): every performed store of a strand whose home lies in its instance of the scope (R220). -/
def State.publish (s : State) (sid scope : Nat) : State :=
  { s with hist := s.hist.map (fun e => (e.1, { e.2 with ws := e.2.ws.map (fun r =>
      if r.sid = some sid ∧ homeInInst scope r.core (8 * e.1) then { r with pub := widest r.pub scope } else r) })) }

/-- Publish by write identity, widened as R220 requires: atomics, copy jobs, fragments, device records (R221). -/
def State.publishWids (s : State) (wids : List Nat) (scope : Nat) : State :=
  { s with hist := s.hist.map (fun e => (e.1, { e.2 with ws := e.2.ws.map (fun r =>
      if wids.contains r.wid then
        { r with pub := widest r.pub (if scope < narrowest r.core (8 * e.1) then narrowest r.core (8 * e.1) else scope) }
      else r) })) }

/-- Performed writes of a request to given units count as published at the narrowest scope (R231). -/
def State.publishUnits (s : State) (wid : Nat) (us : List Nat) : State :=
  { s with hist := s.hist.map (fun e => if us.contains e.1 then
      (e.1, { e.2 with ws := e.2.ws.map (fun r => if r.wid = wid then { r with pub := widest r.pub (narrowest r.core (8 * e.1)) } else r) })
    else e) }

/-- The published writes whose publication reaches a core (R222). -/
def State.reaching (s : State) (c : Nat) : List WKey :=
  s.hist.flatMap (fun e => e.2.ws.filterMap (fun r =>
    match r.pub with
    | some x => if coreInInst x r.core c then some (r.wid, e.1) else none
    | none => none))

/-- Every performed unit write of given requests, as an engine event announces them (R222). -/
def State.keysOf (s : State) (wids : List Nat) : List WKey :=
  s.hist.flatMap (fun e => e.2.ws.filterMap (fun r => if wids.contains r.wid then some (r.wid, e.1) else none))

/-- A set union of write identities. -/
def viewAdd (v new : List WKey) : List WKey := v ++ (new.filter (fun w => !v.contains w)).eraseDups

/-- The values a read of a unit may return: the value just after the latest write the view holds, and every later home
value (R223). -/
def candidatesFrom (view : List WKey) (u : Nat) : Word → List WriteRec → List Word → List Word
  | _, [], acc => acc
  | v, r :: rs, acc =>
    if view.contains (r.wid, u) then candidatesFrom view u r.val rs [r.val]
    else candidatesFrom view u v rs (acc ++ [r.val])

/-- The candidates for a unit (R223). -/
def State.candidates (s : State) (view : List WKey) (u : Nat) : List Word :=
  match storeFind s.hist u with
  | none => [s.unitVal u]
  | some h => candidatesFrom view u h.base h.ws [h.base]

/-- One of several values, by the free choice; an only value is no choice (log entry 3). -/
def chooseFrom (n : Nat) (d : Word) (l : List Word) : Word := l.getD (Config.pick n % l.length) d

/-- A strand's own performed stores of a unit that its view does not hold and that were issued before `bound`, as
(issue number, bytes, data) (R223). -/
def State.ownDone (s : State) (sid : Nat) (view : List WKey) (bound u : Nat) : List (Nat × BitVec 8 × Word) :=
  match storeFind s.hist u with
  | none => []
  | some h => h.ws.filterMap (fun r =>
      if r.sid = some sid ∧ r.isStore = true ∧ r.wid < bound ∧ view.contains (r.wid, u) = false then some (r.wid, r.en, r.data) else none)

/-- Insertion by issue number, after equal ones. -/
def insertById (x : Nat × BitVec 8 × Word) : List (Nat × BitVec 8 × Word) → List (Nat × BitVec 8 × Word)
  | [] => [x]
  | y :: r => if x.1 < y.1 then x :: y :: r else y :: insertById x r

/-- Writes in issue order applied over a value. -/
def overlayAll (ws : List (Nat × BitVec 8 × Word)) (v : Word) : Word :=
  (ws.foldl (fun l x => insertById x l) []).foldl (fun x w => overlay w.2.1 w.2.2 x) v

/-! ## CRC-32C (R2, R288, R392) -/

/-- One bit step of the reflected Castagnoli polynomial. -/
def crcBit (c : Nat) : Nat := if c % 2 = 1 then (c / 2) ^^^ 0x82F63B78 else c / 2

/-- n applications. -/
def iter {α : Type} (f : α → α) : Nat → α → α
  | 0, x => x
  | n + 1, x => iter f n (f x)

/-- CRC-32C of bytes. -/
def crc32c (bs : List Byte) : Nat :=
  (bs.foldl (fun c b => iter crcBit 8 (c ^^^ b.toNat)) 0xFFFFFFFF) ^^^ 0xFFFFFFFF

end Sys2Proof.Machine
end

