-- ==== Sys2Proof/Machine/Access.lean ====
section
/-! DEFINITION. Reading and changing the parts of the state: strands, cores, dies, contexts, launches and registers. The
hard-wired registers are here: s0 reads zero, p0 reads true, m0 reads all ones, and writes to them are discarded (R69). -/
namespace Sys2Proof.Machine

/-! ## Parts of the state -/

def State.strand (s : State) (k : Nat) : Strand := storeGet Strand.reset s.strands k
def State.setStrand (s : State) (k : Nat) (t : Strand) : State := { s with strands := storeSet s.strands k t }
def State.modStrand (s : State) (k : Nat) (f : Strand → Strand) : State := s.setStrand k (f (s.strand k))
/-- Whether a strand of that identity exists. -/
def State.hasStrand (s : State) (k : Nat) : Bool := (storeFind s.strands k).isSome

def State.core (s : State) (c : Nat) : CoreSt := storeGet CoreSt.reset s.cores c
def State.modCore (s : State) (c : Nat) (f : CoreSt → CoreSt) : State := { s with cores := storeSet s.cores c (f (s.core c)) }

def State.die (s : State) (d : Nat) : Die := storeGet Die.reset s.dies d
def State.modDie (s : State) (d : Nat) (f : Die → Die) : State := { s with dies := storeSet s.dies d (f (s.die d)) }

/-- Tenant contexts are keyed by die and TCID. -/
def ctxKey (d t : Nat) : Nat := d * 1024 + t
def State.ctx (s : State) (d t : Nat) : Ctx := storeGet Ctx.reset s.ctxs (ctxKey d t)
def State.modCtx (s : State) (d t : Nat) (f : Ctx → Ctx) : State :=
  { s with ctxs := storeSet s.ctxs (ctxKey d t) (f (s.ctx d t)) }

def State.launch (s : State) (l : Nat) : Launch := storeGet Launch.reset s.launches l
def State.modLaunch (s : State) (l : Nat) (f : Launch → Launch) : State :=
  { s with launches := storeSet s.launches l (f (s.launch l)) }

/-- A fresh identity. Identities rise, so they order requests and writes by issue. -/
def State.fresh (s : State) : Nat × State := (s.nextId, { s with nextId := s.nextId + 1 })

/-- A report leaves the package. -/
def State.report (s : State) (r : Report) : State := { s with pkg := { s.pkg with reports := s.pkg.reports ++ [r] } }

/-- The first fault the model meets is kept. -/
def State.jam (s : State) (f : Fault) : State := { s with stuck := s.stuck.orElse (fun _ => some f) }

/-! ## The issuing strand -/

/-- The strand the current core issues for. -/
def State.self (s : State) : Option Nat := (s.core s.cur).issuing
/-- Its state. -/
def State.me (s : State) : Strand :=
  match s.self with
  | some k => s.strand k
  | none => Strand.reset
/-- A change of its state. -/
def State.onMe (s : State) (f : Strand → Strand) : State :=
  match s.self with
  | some k => s.modStrand k f
  | none => s
/-- The context of the issuing strand. -/
def State.myCtx (s : State) : Ctx := s.ctx s.me.die s.me.tcid

/-- The core that holds a strand, or the one that held it last. -/
def Strand.core (t : Strand) : Nat :=
  match t.place with
  | some f => f / 4
  | none => (t.home.getD 0) / 4

/-- The domain index of a die of the package (R274). What the package keeps of another package's die stands under 1,024 and its index. -/
def State.domainIdx (s : State) (d : Nat) : Nat := if d < 1024 then (s.die d).domain.getD d else d - 1024
/-- The die of the package with a domain index, if it is one. -/
def State.dieOfDomain (s : State) (x : Nat) : Option Nat :=
  let p := s.pkg.number.getD 0
  if 8 * p ≤ x ∧ x < 8 * p + 8 then some (x - 8 * p) else none

/-! ## Registers (R69) -/

/-- A scalar register. -/
def Strand.rs (t : Strand) (n : Nat) : Word := if n = 0 then 0 else storeGet 0 t.sreg n
/-- A scalar register written. -/
def Strand.ws (t : Strand) (n : Nat) (v : Word) : Strand := if n = 0 then t else { t with sreg := storePut 0 t.sreg n v }
/-- A predicate. -/
def Strand.rp (t : Strand) (n : Nat) : Bool := n == 0 || t.preg.getLsbD n
/-- One bit of a bit vector set to a value. -/
def setBit {w : Nat} (v : BitVec w) (n : Nat) (b : Bool) : BitVec w :=
  if b then v ||| (BitVec.ofNat w (2 ^ n)) else v &&& ~~~(BitVec.ofNat w (2 ^ n))
/-- A predicate written. -/
def Strand.wp (t : Strand) (n : Nat) (b : Bool) : Strand := if n = 0 then t else { t with preg := setBit t.preg n b }
/-- A vector register. -/
def Strand.rv (t : Strand) (f : VFile) (n : Nat) : Vec := storeGet 0 (match f with | .a => t.va | .b => t.vb) n
/-- A vector register written. -/
def Strand.wv (t : Strand) (f : VFile) (n : Nat) (v : Vec) : Strand :=
  match f with
  | .a => { t with va := storePut 0 t.va n v }
  | .b => { t with vb := storePut 0 t.vb n v }
/-- A lane mask. -/
def Strand.rm (t : Strand) (f : VFile) (n : Nat) : Mask :=
  if n = 0 then BitVec.allOnes 128 else storeGet 0 (match f with | .a => t.ma | .b => t.mb) n
/-- A lane mask written. -/
def Strand.wm (t : Strand) (f : VFile) (n : Nat) (v : Mask) : Strand :=
  if n = 0 then t
  else match f with
    | .a => { t with ma := storePut 0 t.ma n v }
    | .b => { t with mb := storePut 0 t.mb n v }
/-- A hold latch. -/
def Strand.rh (t : Strand) (n : Nat) : Latch := storeGet Latch.reset t.latches n
/-- A hold latch written. -/
def Strand.wh (t : Strand) (n : Nat) (l : Latch) : Strand := { t with latches := storePut Latch.reset t.latches n l }
/-- A sync flag. -/
def Strand.rf (t : Strand) (n : Nat) : Bool := t.flags.getLsbD n
/-- A sync flag written. -/
def Strand.wf (t : Strand) (n : Nat) (b : Bool) : Strand := { t with flags := setBit t.flags n b }
/-- A 64-bit word of a layout entry, entry × 4 + word (R365). -/
def Strand.layWord (t : Strand) (n : Nat) : Word := storeGet 0 t.lay n
/-- The four words of a layout entry. -/
def Strand.layEntry (t : Strand) (n : Nat) : List Word := (List.range 4).map (fun k => t.layWord (4 * n + k))
/-- The granules of a file (R25). -/
def Strand.granules (t : Strand) (f : VFile) : Nat := match f with | .a => t.ga | .b => t.gb
/-- The other vector file (R212). -/
def VFile.other : VFile → VFile
  | .a => .b | .b => .a

/-- The second operand of format SR, an immediate sign-extended (R55, R151). -/
def Strand.src (t : Strand) : Src → Word
  | .reg r => t.rs r
  | .imm v => (BitVec.ofNat 32 v).signExtend 64

/-- A guard's truth (R54). -/
def Strand.guard (t : Strand) (g : Guard) : Bool := t.rp g.p != g.n

/-- The loop depth (R72). -/
def Strand.ldepth (t : Strand) : Nat := t.loops.length

/-- The entries of the shadow stack, on chip and spilled (R167). -/
def Strand.held (t : Strand) : Nat := t.shadow.length + t.spilled.length

/-! ## Causes (R354) -/

/-- The code of a cause. -/
def Cause.code : Cause → Nat
  | .illegalBundle => 0x01 | .illegalOp => 0x02 | .regRange => 0x03 | .privOp => 0x04 | .misaligned => 0x05
  | .layoutBounds => 0x06 | .pageNotPresent => 0x07 | .pagePerm => 0x08 | .remoteAtomicPerm => 0x09
  | .windowFault => 0x0A | .partition => 0x0B | .linkUncertain => 0x0C | .multicastPartial => 0x0D
  | .controlIntegrity => 0x0E | .convertOverflow => 0x0F | .softwareTrap => 0x10 | .hail => 0x11 | .energyStop => 0x12
  | .eccUncorrectable => 0x13 | .checkValue => 0x14 | .accHeadroom => 0x15 | .runLimit => 0x16 | .shadowOverflow => 0x17

/-- Whether a cause may be delegated; MISALIGNED only in the kinds that are not emulated (R354). -/
def Cause.delegable (emulated : Bool) : Cause → Bool
  | .misaligned => !emulated
  | .pageNotPresent => false
  | .pagePerm => false
  | .hail => false
  | .eccUncorrectable => false
  | .checkValue => false
  | .runLimit => false
  | _ => true

/-- ESTOP: the context's balance is zero or below (R72, R334). -/
def Ctx.estop (c : Ctx) : Bool := decide (c.energy.enbal ≤ 0)

/-- StopPending of R172: a stop request or ESTOP, outside a handler (R38). -/
def stopPending (t : Strand) (c : Ctx) : Bool := (t.stopRq || c.estop) && t.hsave.isNone

/-! ## Gangs and effective priority (R325, R329) -/

/-- The boost of a gang on a die; 0 for gang 0. -/
def Die.boostOf (d : Die) (gid : Nat) : Nat :=
  if gid = 0 then 0
  else match d.gangs.find? (fun g => g.gid == gid) with
    | some g => g.boost
    | none => 0

/-- EFF (R329). -/
def effOf (base boost : Nat) (pen : Bool) : Nat :=
  let x := 4 * base + boost - (if pen then 16 else 0)
  if 127 < x then 127 else x

/-- The effective priority of a strand. -/
def State.eff (s : State) (t : Strand) : Nat := effOf t.prioBase ((s.die t.die).boostOf t.gang) t.pen

/-- A strand is resident while it has a frame, its resources and every row of its image (R28, R324): not in a FILLING frame. -/
def Strand.resident (t : Strand) : Bool := t.place.isSome && t.st != .filling

/-- The strands of a launch on a die, as (logical number, identity), ascending. -/
def State.launchStrands (s : State) (lid die : Nat) : List (Nat × Nat) :=
  (s.strands.filter (fun e => e.2.lid == lid && e.2.die == die)).map (fun e => (e.2.num, e.1))

/-- The strands of a context. -/
def State.ctxStrands (s : State) (die tcid : Nat) : List Nat :=
  (s.strands.filter (fun e => e.2.die == die && e.2.tcid == tcid)).map (fun e => e.1)

/-- A strand named by launch number and logical number in a context (R35, R356). -/
def State.namedStrand (s : State) (die tcid lnum num : Nat) : Option Nat :=
  (s.strands.find? (fun e => e.2.die == die && e.2.tcid == tcid && e.2.num == num && (s.launch e.2.lid).lnum == lnum)).map
    (fun e => e.1)

end Sys2Proof.Machine
end

