-- ==== Sys2Proof/Machine/Float.lean ====
section
/-! DEFINITION. Number formats and exact arithmetic (spec/05_formats.md): type codes, decoding of every format to an exact
value, RoundTo, the overflow results of R101, the policies of R102 and R103, and the functions of R192 to R194. -/
namespace Sys2Proof.Machine

/-! ## Types (R87, R88) -/

/-- Element width in bits of a type code (R87). -/
def tyWidth : Nat → Nat
  | 0 => 32 | 1 => 16 | 2 => 16 | 3 => 8 | 4 => 8 | 5 => 4 | 6 => 64
  | 7 => 32 | 8 => 16 | 9 => 8 | 10 => 32 | 11 => 16 | 12 => 8 | 13 => 64
  | _ => 8

/-- Integer type codes (R87). -/
def isIntTy (t : Nat) : Bool := decide (7 ≤ t) && decide (t ≤ 13)
/-- Signed integer type codes (R87). -/
def isSignedTy (t : Nat) : Bool := t == 7 || t == 8 || t == 9 || t == 13

/-- The lanes of a 1024-bit register (R87). -/
def tyLanes (t : Nat) : Nat := 1024 / tyWidth t

/-- The signed reading of the low w bits. -/
def signedOf (w n : Nat) : Int := if n % 2 ^ w < 2 ^ (w - 1) then (n % 2 ^ w : Nat) else ((n % 2 ^ w : Nat) : Int) - (2 ^ w : Nat)

/-- The low w bits of an integer, two's complement. -/
def lowBits (w : Nat) (x : Int) : Nat := (x % (2 ^ w : Nat)).toNat

/-- The integer a lane holds, by its type's kind (R94). -/
def intOf (t n : Nat) : Int := if isSignedTy t then signedOf (tyWidth t) n else ((n % 2 ^ tyWidth t : Nat) : Int)

/-- The least and greatest values of an integer type (R94). -/
def intMin (t : Nat) : Int := if isSignedTy t then -((2 ^ (tyWidth t - 1) : Nat) : Int) else 0
def intMax (t : Nat) : Int := if isSignedTy t then ((2 ^ (tyWidth t - 1) : Nat) : Int) - 1 else ((2 ^ tyWidth t : Nat) : Int) - 1
/-- The indefinite value (R94). -/
def intIndef (t : Nat) : Nat := if isSignedTy t then 2 ^ (tyWidth t - 1) else 2 ^ tyWidth t - 1

/-- A scalar register's value from an element (R88). -/
def extendTy (t n : Nat) : Word :=
  if isSignedTy t then BitVec.ofInt 64 (signedOf (tyWidth t) n) else BitVec.ofNat 64 (n % 2 ^ tyWidth t)

/-! ## Floating formats (R89 to R91). Type code 14 stands for E3M5 inside the model. -/

/-- How a format spends its top encodings (R89). -/
inductive FKind where
  | ieee | e4m3 | e2m1 | e3m5
deriving DecidableEq, Repr

/-- A floating format: exponent width, fraction width, bias and kind. -/
structure Fmt where
  ew : Nat
  fw : Nat
  bias : Nat
  kind : FKind
deriving DecidableEq, Repr

/-- The formats by type code (R89). -/
def fmtOf : Nat → Fmt
  | 0 => ⟨8, 23, 127, .ieee⟩
  | 1 => ⟨8, 7, 127, .ieee⟩
  | 2 => ⟨5, 10, 15, .ieee⟩
  | 3 => ⟨4, 3, 7, .e4m3⟩
  | 4 => ⟨5, 2, 15, .ieee⟩
  | 5 => ⟨2, 1, 1, .e2m1⟩
  | 6 => ⟨11, 52, 1023, .ieee⟩
  | _ => ⟨3, 5, 3, .e3m5⟩

/-- The type code the model gives E3M5 (R87 gives it none). -/
def tyE3M5 : Nat := 14

/-- Total width of a format's encodings. -/
def Fmt.width (f : Fmt) : Nat := match f.kind with | .e3m5 => 8 | _ => 1 + f.ew + f.fw

/-- The encoding of the largest finite magnitude (R91). -/
def Fmt.maxEnc (f : Fmt) : Nat :=
  match f.kind with
  | .ieee => (2 ^ f.ew - 1) * 2 ^ f.fw - 1
  | .e4m3 => 0x7E
  | .e2m1 => 0x7
  | .e3m5 => 0xFF

/-- The canonical NaN (R91); formats without one deliver +0 (R103). -/
def Fmt.nanEnc (f : Fmt) : Nat :=
  match f.kind with
  | .ieee => (2 ^ f.ew - 1) * 2 ^ f.fw + 2 ^ (f.fw - 1)
  | .e4m3 => 0x7F
  | .e2m1 => 0
  | .e3m5 => 0

/-- The sign bit's weight (R89). -/
def Fmt.signW (f : Fmt) : Nat := 2 ^ (f.ew + f.fw)

/-- A sign applied to a magnitude encoding. -/
def Fmt.withSign (f : Fmt) (neg : Bool) (mag : Nat) : Nat := if neg then f.signW + mag else mag

/-- An exact value: NaN, an infinity, or ± num / den; a zero keeps its sign. -/
inductive FVal where
  | nan
  | inf (neg : Bool)
  | fin (neg : Bool) (num den : Nat)
deriving DecidableEq, Repr

/-- The value m × 2^k as a fraction. -/
def dyadic (neg : Bool) (m : Nat) (k : Int) : FVal :=
  if 0 ≤ k then .fin neg (m * 2 ^ k.toNat) 1 else .fin neg m (2 ^ (-k).toNat)

/-- The value of an encoding (R89, R90). -/
def Fmt.decode (f : Fmt) (n : Nat) : FVal :=
  let neg := match f.kind with | .e3m5 => false | _ => n / f.signW % 2 == 1
  let x := n / 2 ^ f.fw % 2 ^ f.ew
  let fr := n % 2 ^ f.fw
  let special := match f.kind with
    | .ieee => x == 2 ^ f.ew - 1
    | .e4m3 => x == 15 && fr == 7
    | _ => false
  if special then (if f.kind = .ieee ∧ fr = 0 then .inf neg else .nan)
  else if x = 0 then dyadic neg fr (1 - (f.bias : Int) - f.fw)
  else dyadic neg (2 ^ f.fw + fr) ((x : Int) - f.bias - f.fw)

/-! ## RoundTo (R99) -/

/-- Floor of the base-2 logarithm of num / den, both positive. -/
def ilog2 (num den : Nat) : Int :=
  let e : Int := (Nat.log2 num : Int) - Nat.log2 den
  let ge : Bool := if 0 ≤ e then decide (den * 2 ^ e.toNat ≤ num) else decide (den ≤ num * 2 ^ (-e).toNat)
  if ge then e else e - 1

/-- Where an exact value lies between two grid points. -/
inductive Rel where
  | exact | lt | half | gt
deriving DecidableEq, Repr

/-- The grid point chosen by a rounding mode from the one below in magnitude (R99). -/
def roundMag (m : Nat) (r : Rel) (mode : Nat) (neg : Bool) : Nat :=
  if r = .exact then m
  else match mode with
    | 0 => if r = .gt ∨ (r = .half ∧ m % 2 = 1) then m + 1 else m
    | 1 => m
    | 2 => if neg then m + 1 else m
    | _ => if neg then m else m + 1

/-- num / den against the grid: quotient and position. -/
def gridDiv (num den : Nat) : Nat × Rel :=
  let q := num / den
  let r := num % den
  (q, if r = 0 then .exact else if 2 * r < den then .lt else if 2 * r = den then .half else .gt)

/-- num / den divided by 2^k. -/
def gridAt (num den : Nat) (k : Int) : Nat × Rel :=
  if 0 ≤ k then gridDiv num (den * 2 ^ k.toNat) else gridDiv (num * 2 ^ (-k).toNat) den

/-- A rounded value: sign, and magnitude m × 2^k. -/
structure Rounded where
  neg : Bool
  m : Nat
  k : Int
deriving DecidableEq, Repr

/-- The spacing exponent of a format's grid at a value whose logarithm is e (R99). -/
def Fmt.ulp (f : Fmt) (e : Int) : Int := (if e < 1 - (f.bias : Int) then 1 - (f.bias : Int) else e) - f.fw

/-- RoundTo for a floating format: ± num / den, den positive (R99). -/
def Fmt.round (f : Fmt) (mode : Nat) (neg : Bool) (num den : Nat) : Rounded :=
  if num = 0 then ⟨neg, 0, 0⟩
  else
    let k := f.ulp (ilog2 num den)
    let g := gridAt num den k
    ⟨neg, roundMag g.1 g.2 mode neg, k⟩

/-- RoundTo of the square root of num / den (R99, R192). -/
def Fmt.roundSqrt (f : Fmt) (mode num den : Nat) : Rounded :=
  if num = 0 then ⟨false, 0, 0⟩
  else
    let k := f.ulp ((ilog2 num den) / 2)
    -- num / den / 2^(2k), compared with squares
    let a := if 0 ≤ k then num else num * 2 ^ (2 * (-k).toNat)
    let b := if 0 ≤ k then den * 2 ^ (2 * k.toNat) else den
    let m := Nat.sqrt (a / b)
    let r : Rel := if m * m * b = a then .exact
      else if 4 * a < (2 * m + 1) * (2 * m + 1) * b then .lt
      else if 4 * a = (2 * m + 1) * (2 * m + 1) * b then .half else .gt
    ⟨false, roundMag m r mode false, k⟩

/-- The encoding of a magnitude m × 2^k on the grid, above the largest finite one when it overflows (R90). -/
def Fmt.encMag (f : Fmt) (m : Nat) (k : Int) : Nat :=
  if m = 0 then 0
  else
    let e : Int := (Nat.log2 m : Int) + k
    if e < 1 - (f.bias : Int) then (if 0 ≤ k - (1 - (f.bias : Int) - f.fw) then m * 2 ^ (k - (1 - (f.bias : Int) - f.fw)).toNat else m)
    else
      let sig := if f.fw ≤ Nat.log2 m then m / 2 ^ (Nat.log2 m - f.fw) else m * 2 ^ (f.fw - Nat.log2 m)
      (e + f.bias).toNat * 2 ^ f.fw + (sig - 2 ^ f.fw)

/-- The rounded value overflows: its magnitude exceeds the largest finite one, or it is below 0 in E3M5 (R99). -/
def Fmt.overflows (f : Fmt) (r : Rounded) : Bool :=
  (f.kind == .e3m5 && r.neg && r.m != 0) || decide (f.maxEnc < f.encMag r.m r.k)

/-- The encoding of a rounded value that does not overflow; E3M5 has no sign (R97, R99). -/
def Fmt.enc (f : Fmt) (r : Rounded) : Nat :=
  let mag := f.encMag r.m r.k
  match f.kind with
  | .e3m5 => mag
  | _ => f.withSign r.neg mag

/-- The infinity of a format that has one (R91). -/
def Fmt.infEnc (f : Fmt) (neg : Bool) : Nat := f.withSign neg ((2 ^ f.ew - 1) * 2 ^ f.fw)

/-- The overflow result of arithmetic (R101). -/
def Fmt.arithOverflow (f : Fmt) (mode : Nat) (neg : Bool) : Nat :=
  let toInf : Bool := match mode with | 0 => true | 1 => false | 2 => neg | _ => !neg
  if toInf then f.infEnc neg else f.withSign neg f.maxEnc

/-- FloatResult of an exact value (R188). -/
def floatResult (t mode : Nat) (x : FVal) : Nat :=
  let f := fmtOf t
  match x with
  | .nan => f.nanEnc
  | .inf neg => f.infEnc neg
  | .fin neg n d =>
    let r := f.round mode neg n d
    if f.overflows r then f.arithOverflow mode neg else f.enc r

/-! ## Overflow policies (R102, R103). `none` is CONVERT_OVERFLOW. -/

/-- ApplyPolicy to a floating destination (R102). -/
def policyFloat (t ovf : Nat) (neg : Bool) : Option Nat :=
  let f := fmtOf t
  match ovf with
  | 3 => none
  | _ =>
    match f.kind with
    | .ieee => some (match ovf with | 0 => f.withSign neg f.maxEnc | 1 => f.infEnc neg | _ => f.nanEnc)
    | .e4m3 => some (match ovf with | 0 => f.withSign neg f.maxEnc | _ => 0x7F)
    | .e2m1 => some (f.withSign neg f.maxEnc)
    | .e3m5 => some (if neg then 0 else 0xFF)

/-- ApplyPolicy to an integer destination (R102). -/
def policyInt (t ovf : Nat) (x : Int) : Option Nat :=
  match ovf with
  | 0 => some (lowBits (tyWidth t) (if x < intMin t then intMin t else intMax t))
  | 1 => some (lowBits (tyWidth t) x)
  | 2 => some (intIndef t)
  | _ => none

/-- An exact integer result under a policy (R102, R197). -/
def intResult (t ovf : Nat) (x : Int) : Option Nat :=
  if x < intMin t ∨ intMax t < x then policyInt t ovf x else some (lowBits (tyWidth t) x)

/-- RoundTo on the integer grid (R99). -/
def roundInt (mode : Nat) (neg : Bool) (n d : Nat) : Int :=
  let g := gridDiv n d
  let m := roundMag g.1 g.2 mode neg
  if neg then -(m : Int) else (m : Int)

/-- Convert a special value (R103). -/
def convSpecial (t ovf : Nat) (x : FVal) : Option Nat :=
  match x with
  | .fin _ _ _ => some 0
  | .nan =>
    if isIntTy t then (match ovf with | 0 => some 0 | 1 => some 0 | 2 => some (intIndef t) | _ => none)
    else
      match (fmtOf t).kind with
      | .ieee => some (fmtOf t).nanEnc
      | .e4m3 => some 0x7F
      | _ => if ovf = 3 then none else some 0
  | .inf neg =>
    if isIntTy t then
      (match ovf with
       | 0 => some (lowBits (tyWidth t) (if neg then intMin t else intMax t))
       | 1 => some (intIndef t)
       | 2 => some (intIndef t)
       | _ => none)
    else
      match (fmtOf t).kind with
      | .ieee => some ((fmtOf t).infEnc neg)
      | _ => policyFloat t ovf neg

/-- A value rounded to a destination type under a mode and a policy (R102, R103, R201). -/
def convert (t mode ovf : Nat) (x : FVal) : Option Nat :=
  match x with
  | .fin neg n d =>
    if isIntTy t then intResult t ovf (roundInt mode neg n d)
    else
      let r := (fmtOf t).round mode neg n d
      if (fmtOf t).overflows r then policyFloat t ovf neg else some ((fmtOf t).enc r)
  | y => convSpecial t ovf y

/-- The value of an element of any type (R90, R94). -/
def valueOf (t n : Nat) : FVal :=
  if isIntTy t then (let x := intOf t n; .fin (decide (x < 0)) x.natAbs 1) else (fmtOf t).decode n

/-! ## Exact arithmetic with the special rules of R95 and R97 -/

/-- A signed fraction. -/
def sgn (neg : Bool) (n : Nat) : Int := if neg then -(n : Int) else (n : Int)

/-- Whether a value is a zero. -/
def FVal.isZero : FVal → Bool
  | .fin _ n _ => n == 0
  | _ => false

/-- The negation. -/
def FVal.neg : FVal → FVal
  | .nan => .nan
  | .inf s => .inf (!s)
  | .fin s n d => .fin (!s) n d

/-- The exact sum; an exact zero sum of opposite signs takes its sign from the mode (R95, R97). -/
def FVal.add (mode : Nat) : FVal → FVal → FVal
  | .nan, _ => .nan
  | _, .nan => .nan
  | .inf a, .inf b => if a = b then .inf a else .nan
  | .inf a, _ => .inf a
  | _, .inf b => .inf b
  | .fin a n d, .fin b m e =>
    let x := sgn a (n * e) + sgn b (m * d)
    if x = 0 then .fin (if a = b then a else mode == 2) 0 1 else .fin (decide (x < 0)) x.natAbs (d * e)

/-- The exact product (R95, R97). -/
def FVal.mul : FVal → FVal → FVal
  | .nan, _ => .nan
  | _, .nan => .nan
  | .inf a, y => if y.isZero then .nan else .inf (a != (match y with | .inf b => b | .fin b _ _ => b | .nan => false))
  | .fin a n d, .inf b => if n = 0 then .nan else .inf (a != b)
  | .fin a n d, .fin b m e => .fin (a != b) (n * m) (d * e)

/-- The order of two values that are not NaN: a < b (real values, −0 equal to +0). -/
def FVal.lt : FVal → FVal → Bool
  | .nan, _ => false
  | _, .nan => false
  | .inf a, .inf b => a && !b
  | .inf a, _ => a
  | _, .inf b => !b
  | .fin a n d, .fin b m e => decide (sgn a (n * e) < sgn b (m * d))

/-- Equal real values. -/
def FVal.eq : FVal → FVal → Bool
  | .nan, _ => false
  | _, .nan => false
  | .inf a, .inf b => a == b
  | .inf _, _ => false
  | _, .inf _ => false
  | .fin a n d, .fin b m e => decide (sgn a (n * e) = sgn b (m * d))

/-- NaN test. -/
def FVal.isNan : FVal → Bool
  | .nan => true
  | _ => false

/-- VMIN and VMAX on encodings (R190): −0 is below +0; a NaN gives the canonical NaN. -/
def floatMinMax (t : Nat) (max : Bool) (a b : Nat) : Nat :=
  let f := fmtOf t
  let x := f.decode a
  let y := f.decode b
  if x.isNan || y.isNan then f.nanEnc
  else
    let aLess : Bool := if x.eq y then a / f.signW % 2 == 1 else x.lt y
    if aLess != max then a else b

/-! ## Square root, reciprocals, exponential and logarithm (R192 to R194) -/

/-- Fixed-point precision of the transcendental evaluation, in bits. -/
def fixBits : Nat := 320

/-- Terms of the series of ln 2 = Σ 1 / (k 2^k), scaled by 2^fixBits. -/
def ln2Series : Nat → Nat
  | 0 => 0
  | k + 1 => 2 ^ fixBits / ((k + 1) * 2 ^ (k + 1)) + ln2Series k

/-- ln 2, scaled by 2^fixBits. -/
def ln2Fix : Nat := ln2Series fixBits

/-- Terms of e^y from the k-th, y and the term scaled by 2^fixBits. -/
def expSeries (y : Nat) : Nat → Nat → Nat → Nat
  | 0, _, _ => 0
  | fuel + 1, k, term => term + expSeries y fuel (k + 1) (term * y / 2 ^ fixBits / (k + 1))

/-- 2^r for r = n / d in [0, 1), as a numerator over 2^fixBits. -/
def exp2Frac (n d : Nat) : Nat := expSeries (n * ln2Fix / d) 90 0 (2 ^ fixBits)

/-- Binary digits of log2 of y / 2^fixBits in [1, 2). -/
def log2Digits : Nat → Nat → Nat → Nat
  | 0, _, acc => acc
  | fuel + 1, y, acc =>
    let s := y * y / 2 ^ fixBits
    if 2 * 2 ^ fixBits ≤ s then log2Digits fuel (s / 2) (2 * acc + 1) else log2Digits fuel s (2 * acc)

/-- Digits of the logarithm that are kept. -/
def logBits : Nat := 128

/-- The functions of R192, by opcode. -/
inductive Approx where
  | rcp | rsq | sqrt | exp2 | log2
deriving DecidableEq, Repr

/-- Opcode number handed to the free error function. -/
def Approx.num : Approx → Nat
  | .rcp => 12 | .rsq => 13 | .sqrt => 14 | .exp2 => 15 | .log2 => 16

/-- A power of two, as a fraction. -/
def isPow2 (n d : Nat) : Bool := n != 0 && (let e := ilog2 n d; if 0 ≤ e then n == d * 2 ^ e.toNat else d == n * 2 ^ (-e).toNat)

/-- The magnitude bound of δ over 2^80, exclusive of the evaluation's own error (R193). -/
def deltaBound (op : Approx) (t : Nat) : Nat :=
  match op, t with
  | .rcp, 6 => 2 ^ 22 - 1
  | .rsq, 6 => 2 ^ 22 - 1
  | .rcp, 0 => 2 ^ 51 - 1
  | .rsq, 0 => 2 ^ 51 - 1
  | .exp2, 6 => 2 ^ 24 - 1
  | .log2, 6 => 2 ^ 24 - 1
  | .exp2, 0 => 2 ^ 53 - 1
  | .log2, 0 => 2 ^ 53 - 1
  | _, _ => 0

/-- An integer clamped to ± b. -/
def clampAbs (b : Nat) (x : Int) : Int := if x < -(b : Int) then -(b : Int) else if (b : Int) < x then (b : Int) else x

/-- A magnitude n / d scaled by 1 + δ, δ = c / 2^80 (R192). -/
def scaleDelta (n d : Nat) (c : Int) : Nat × Nat := (((n : Int) * ((2 ^ 80 : Nat) + c)).toNat, d * 2 ^ 80)

/-- The exact or evaluated magnitude of f at a positive argument n / d (sign of the argument given for exp2), with the
sign of the result. -/
def approxMag (op : Approx) (neg : Bool) (n d : Nat) : Bool × Nat × Nat :=
  match op with
  | .rcp => (neg, d, n)
  | .sqrt => (false, n, d)
  | .rsq => (false, Nat.sqrt (d * 2 ^ (2 * fixBits + 2 * Nat.log2 (n + 1)) / n), 2 ^ (fixBits + Nat.log2 (n + 1)))
  | .exp2 =>
    if neg then
      -- 2^(−n/d) = 2^(−(q+1)) × 2^(1 − r) with n/d = q + r, r in (0, 1); exact when r = 0
      let q := n / d
      let r := n % d
      if r = 0 then (false, 1, 2 ^ q) else (false, exp2Frac (d - r) d, 2 ^ (fixBits + q + 1))
    else
      let q := n / d
      let r := n % d
      if r = 0 then (false, 2 ^ q, 1) else (false, exp2Frac r d * 2 ^ q, 2 ^ fixBits)
  | .log2 =>
    let e := ilog2 n d
    let y := if 0 ≤ e then n * 2 ^ fixBits / (d * 2 ^ e.toNat) else n * 2 ^ (-e).toNat * 2 ^ fixBits / d
    let x : Int := e * (2 ^ (logBits + 1) : Nat) + (2 * log2Digits logBits y 0 + 1 : Nat)
    if isPow2 n d then (decide (e < 0), e.natAbs, 1) else (decide (x < 0), x.natAbs, 2 ^ (logBits + 1))

/-- The cases in which δ = 0 (R192). -/
def approxExact (op : Approx) (n d : Nat) : Bool :=
  match op with
  | .rcp => isPow2 n d
  | .rsq => isPow2 n d && (ilog2 n d) % 2 == 0
  | .sqrt => true
  | .exp2 => d != 0 && n % d == 0
  | .log2 => isPow2 n d

/-- The exponent beyond which VEXP2 overflows or rounds as zero in every format, used to bound the evaluation. -/
def exp2Limit : Nat := 2000

/-- VRCP, VRSQ, VSQRT, VEXP2 and VLOG2 on an encoding (R192 to R194). -/
def approxResult (op : Approx) (t mode x : Nat) : Nat :=
  let f := fmtOf t
  let one := f.bias * 2 ^ f.fw
  let go (neg : Bool) (n d : Nat) : Nat :=
    match op with
    | .sqrt => f.enc (f.roundSqrt mode n d)
    | _ =>
      if op = .rsq ∧ (t = 1 ∨ t = 2) then f.enc (f.roundSqrt mode d n)
      else
        let c := if approxExact op n d then 0 else clampAbs (deltaBound op t) (Config.approxDelta op.num t x)
        let m : Bool × Nat × Nat :=
          if op = .exp2 ∧ exp2Limit * d ≤ n then (false, if neg then 1 else 2 ^ exp2Limit, if neg then 2 ^ exp2Limit else 1)
          else if op = .rsq ∧ approxExact op n d then
            (false, if 0 ≤ ilog2 n d then 1 else 2 ^ ((-(ilog2 n d)).toNat / 2), if 0 ≤ ilog2 n d then 2 ^ ((ilog2 n d).toNat / 2) else 1)
          else approxMag op neg n d
        let s := scaleDelta m.2.1 m.2.2 c
        floatResult t mode (.fin m.1 s.1 s.2)
  match f.decode x with
  | .nan => f.nanEnc
  | .inf neg =>
    match op with
    | .sqrt => if neg then f.nanEnc else f.infEnc false
    | .rcp => f.withSign neg 0
    | .rsq => if neg then f.nanEnc else 0
    | .exp2 => if neg then 0 else f.infEnc false
    | .log2 => if neg then f.nanEnc else f.infEnc false
  | .fin neg n d =>
    if n = 0 then
      match op with
      | .sqrt => f.withSign neg 0
      | .rcp => f.infEnc neg
      | .rsq => f.infEnc neg
      | .exp2 => one
      | .log2 => f.infEnc true
    else if neg ∧ (op = .sqrt ∨ op = .rsq ∨ op = .log2) then f.nanEnc
    else
      match op with
      | .log2 => if n = d then 0 else go neg n d
      | .exp2 => (let r := go neg n d; if r % f.signW = 0 then 0 else r)
      | _ => go neg n d

/-! ## Vector arithmetic on encodings (R188 to R191, R205, R206) -/

/-- VADD, VSUB and VMUL (R188). -/
inductive FOp where
  | add | sub | mul
deriving DecidableEq, Repr

def floatBin (op : FOp) (t mode a b : Nat) : Nat :=
  let f := fmtOf t
  let x := f.decode a
  let y := f.decode b
  floatResult t mode (match op with
    | .add => x.add mode y
    | .sub => x.add mode y.neg
    | .mul => x.mul y)

/-- a × b ± c, or −(a × b) + c, rounded once (R189). -/
def floatFma (negProd subC : Bool) (t mode a b c : Nat) : Nat :=
  let f := fmtOf t
  let p := (f.decode a).mul (f.decode b)
  let z := f.decode c
  floatResult t mode ((if negProd then p.neg else p).add mode (if subC then z.neg else z))

/-- VEXPMAX (R205). -/
def expMax (t a b : Nat) : Nat :=
  let f := fmtOf t
  let mag : FVal → FVal := fun | .fin _ n d => .fin false n d | .inf _ => .inf false | .nan => .nan
  let x := mag (f.decode a)
  let y := mag (f.decode b)
  if x.isNan || y.isNan then f.nanEnc
  else
    match (if x.lt y then y else x) with
    | .nan => f.nanEnc
    | .inf _ => f.infEnc false
    | .fin _ n d =>
      if n = 0 then 0
      else
        match dyadic false 1 (ilog2 n d) with
        | .fin _ n' d' => f.enc (f.round 1 false n' d')
        | _ => 0

/-- VSCALE: x × 2^k (R206). Beyond every format's range the shift saturates without changing the result. -/
def scaleResult (t mode ovf x : Nat) (k : Int) : Option Nat :=
  let f := fmtOf t
  let k' := clampAbs 8192 k
  match f.decode x with
  | .nan => some f.nanEnc
  | .inf neg => some (f.infEnc neg)
  | .fin neg n d =>
    if n = 0 then some x
    else convert t mode ovf (if 0 ≤ k' then .fin neg (n * 2 ^ k'.toNat) d else .fin neg n (d * 2 ^ (-k').toNat))

/-- VCMP conditions on floating values (R195). -/
def floatCond (cond : Nat) (x y : FVal) : Bool :=
  let un := x.isNan || y.isNan
  match cond with
  | 0 => x.eq y
  | 1 => un || !x.eq y
  | 2 => x.lt y
  | 3 => !un && (x.lt y || x.eq y)
  | 4 => y.lt x
  | 5 => !un && (y.lt x || x.eq y)
  | 6 => un
  | _ => !un

/-- VCMP conditions on integers (R195). -/
def intCond (cond : Nat) (a b : Int) : Bool :=
  match cond with
  | 0 => decide (a = b)
  | 1 => decide (a ≠ b)
  | 2 => decide (a < b)
  | 3 => decide (a ≤ b)
  | 4 => decide (b < a)
  | _ => decide (b ≤ a)

/-- The reduction operations (R112, R215). -/
inductive RedOp where
  | sum | max | min
deriving DecidableEq, Repr

/-- Combine of R112 for a type (R215). -/
def combine (op : RedOp) (t a b : Nat) : Nat :=
  if isIntTy t then
    match op with
    | .sum => (a + b) % 2 ^ tyWidth t
    | .max => if intOf t a < intOf t b then b else a
    | .min => if intOf t b < intOf t a then b else a
  else
    match op with
    | .sum => floatBin .add t 0 a b
    | .max => floatMinMax t true a b
    | .min => floatMinMax t false a b

/-- One node of the tree: an empty node takes the other (R112). -/
def combineNode (op : RedOp) (t : Nat) : Option Nat → Option Nat → Option Nat
  | none, b => b
  | a, none => a
  | some a, some b => some (combine op t a b)

/-- A NaN that reaches the result untouched, a lone participant, is delivered as the canonical NaN (R95). -/
def quietNan (t x : Nat) : Nat := if isIntTy t then x else if ((fmtOf t).decode x).isNan then (fmtOf t).nanEnc else x

/-- One level of the fixed pairwise tree (R112). -/
def treeLevel (op : RedOp) (t : Nat) : List (Option Nat) → List (Option Nat)
  | a :: b :: r => combineNode op t a b :: treeLevel op t r
  | l => l

/-- The tree of R112 over `levels` levels. -/
def treeFold (op : RedOp) (t : Nat) : Nat → List (Option Nat) → List (Option Nat)
  | 0, l => l
  | n + 1, l => treeFold op t n (treeLevel op t l)

/-- The result of the tree: +0 when no leaf takes part (R112). -/
def treeReduce (op : RedOp) (t levels : Nat) (l : List (Option Nat)) : Nat :=
  match treeFold op t levels l with
  | some x :: _ => quietNan t x
  | _ => 0

/-! ## BK8 (R92, R93, R202 to R204) -/

/-- The value e × s × c of a BK8 element (R93). -/
def bk8Value (e s : Nat) (c : FVal) : FVal := (((fmtOf 5).decode e).mul ((fmtOf tyE3M5).decode s)).mul c

/-- A quotient of magnitudes, the divisor positive and finite. -/
def fdiv (x y : FVal) : FVal :=
  match x, y with
  | .fin a n d, .fin b m e => .fin (a != b) (n * e) (d * m)
  | z, _ => z

/-- The magnitude of a value. -/
def FVal.abs : FVal → FVal
  | .fin _ n d => .fin false n d
  | .inf _ => .inf false
  | .nan => .nan

/-- The greatest magnitude of a block; NaN when any element is NaN (R203). -/
def amaxOf (xs : List FVal) : FVal :=
  xs.foldl (fun m x => if m.isNan || x.isNan then .nan else if m.lt x.abs then x.abs else m) (.fin false 0 1)

/-- A block quantised by VQFP4 (R203): scale, elements, and the elements concerned in an overflow under TRAP. -/
structure QBlock where
  scale : Nat
  elems : List Nat
  bad : List Bool

/-- One block of VQFP4 with a positive finite band scale (R203). -/
def quantBlock (mode ovf : Nat) (c : FVal) (xs : List FVal) : QBlock :=
  let amax := amaxOf xs
  let six := FVal.fin false 6 1
  let sRes : Option Nat := match amax with
    | .fin _ n d =>
      let q := fdiv (.fin false n d) (six.mul c)
      convert tyE3M5 3 ovf q
    | y => convSpecial tyE3M5 ovf y
  match sRes with
  | none =>
    ⟨0, xs.map (fun _ => 0), xs.map (fun x => match amax with
      | .nan => x.isNan
      | y => x.abs.eq y)⟩
  | some s =>
    let sv := (fmtOf tyE3M5).decode s
    let es : List (Option Nat) := xs.map (fun x =>
      if s = 0 then some 0
      else match x with
        | .fin neg n d => convert 5 mode ovf (fdiv (.fin neg n d) (sv.mul c))
        | y => convSpecial 5 ovf y)
    ⟨s, es.map (fun e => e.getD 0), es.map (fun e => e.isNone)⟩

end Sys2Proof.Machine
end

