-- ==== Sys2Proof/Machine/Accum.lean ====
section
/-! DEFINITION. Accumulator elements (R105 to R110): their bits, normalisation, the step that adds a group, read-out, and
the value form of MWR (R255); tiles as stores of elements. -/
namespace Sys2Proof.Machine

/-! ## Bits (R105) -/

/-- The sticky flags G[7:1] as a number. -/
def AccEl.flags (x : AccEl) : Nat :=
  2 * x.eunf.toNat + 4 * x.eovf.toNat + 8 * x.ninf.toNat + 16 * x.pinf.toNat + 32 * x.inv.toNat + 64 * x.hdl.toNat + 128 * x.inx.toNat

/-- Flags set as well (R108). -/
def AccEl.orFlags (x : AccEl) (f : Nat) : AccEl :=
  { x with
    eunf := x.eunf || flg f 1, eovf := x.eovf || flg f 2, ninf := x.ninf || flg f 3, pinf := x.pinf || flg f 4
    inv := x.inv || flg f 5, hdl := x.hdl || flg f 6, inx := x.inx || flg f 7 }

/-- The 96 bits of an element. -/
def AccEl.bits (x : AccEl) : Nat := x.flags + 2 ^ 8 * x.step + 2 ^ 16 * lowBits 16 x.e + 2 ^ 32 * lowBits 64 x.m

/-- An element from its 96 bits; the reserved bit is ignored. -/
def AccEl.ofBits (n : Nat) : AccEl :=
  ({ AccEl.reset with m := signedOf 64 (fld n 32 64), e := signedOf 16 (fld n 16 16), step := fld n 8 8 }).orFlags (fld n 0 8)

/-! ## Truncating shifts and normalisation (R108) -/

/-- x / 2^n truncated toward zero, and whether a bit was lost. -/
def truncShift (x : Int) (n : Nat) : Int × Bool :=
  let q := x.natAbs / 2 ^ n
  (if x < 0 then -(q : Int) else (q : Int), decide (q * 2 ^ n ≠ x.natAbs))

/-- A normalised group with the flags it sets: INX, EUNF, EOVF. -/
structure Normed where
  m : Int
  e : Int
  flags : Nat

/-- Norm55 with the bounds 2^(b−1) and 2^b; b is 55, or 62 for FOLD (R108, R265). The loops of the manual are taken at
once: a truncation by several single bits loses what one shift loses. -/
def normTo (b : Nat) (m e : Int) : Normed :=
  if m = 0 then ⟨0, e, 0⟩
  else
    let len := Nat.log2 m.natAbs + 1
    let dn := len - b
    let t1 := truncShift m dn
    let e1 := e + dn
    let up : Nat := if len < b ∧ -32768 < e1 then min (b - len) (e1 + 32768).toNat else 0
    let m2 := t1.1 * (2 ^ up : Nat)
    let e2 := e1 - up
    let f1 := if t1.2 then 128 else 0
    let r : Normed :=
      if e2 < -32768 then
        let t2 := truncShift m2 (-32768 - e2).toNat
        ⟨t2.1, -32768, f1 ||| (if t2.2 then 128 else 0) ||| (if t2.1 = 0 then 2 else 0)⟩
      else ⟨m2, e2, f1⟩
    if 32767 < r.e then
      let top : Int := ((2 ^ b : Nat) : Int) - 1
      ⟨if 0 < r.m then top else -top, 32767, r.flags ||| 4⟩
    else r

/-- The greatest magnitude of M. -/
def accMax : Int := 2 ^ 63 - 1
def accMin : Int := -(2 ^ 63)

/-- A sum that saturates: the value and whether headroom was lost (R108). -/
def accClamp (s : Int) : Int × Bool :=
  if accMax < s then (accMax, true) else if s < accMin then (accMin, true) else (s, false)

/-- AccStep, or FoldStep with b = 62 (R108, R265). -/
def accStepB (b : Nat) (x0 : AccEl) (m e : Int) (fl : Nat) : AccEl :=
  let x := x0.orFlags fl
  if x.step = 255 then x
  else
    let n := normTo b m e
    let x := x.orFlags n.flags
    let x : AccEl :=
      if n.m = 0 then x
      else if x.m = 0 then { x with m := n.m, e := n.e }
      else
        let t := max x.e n.e
        let a := truncShift x.m (t - x.e).toNat
        let c := truncShift n.m (t - n.e).toNat
        let s := accClamp (a.1 + c.1)
        ({ x with m := s.1, e := t }).orFlags ((if a.2 || c.2 then 128 else 0) ||| (if s.2 then 64 else 0))
    let x : AccEl := { x with step := x.step + 1 }
    if x.step = 255 then { x with hdl := true, m := if 0 < x.m then accMax else if x.m < 0 then accMin else 0 } else x

def accStep (x : AccEl) (m e : Int) (fl : Nat) : AccEl := accStepB 55 x m e fl
def foldStep (x : AccEl) (m e : Int) (fl : Nat) : AccEl := accStepB 62 x m e fl

/-- AccNorm (R109), which MNORM applies to every element, to one that STEP = 255 has saturated too (DESIGN CHOICE, log entry 88). -/
def accNorm (x : AccEl) : AccEl :=
  if x.m = 0 then { x with step := 0 }
  else
    let n := normTo 55 x.m x.e
    ({ x with m := n.m, e := n.e, step := 0 }).orFlags n.flags

/-- AccValue: the encoding, or `none` where the policy TRAP applies (R110). -/
def accValue (x : AccEl) (t rnd ovf : Nat) : Option Nat :=
  if x.inv || (x.pinf && x.ninf) then convert t rnd ovf .nan
  else if x.pinf then convert t rnd ovf (.inf false)
  else if x.ninf then convert t rnd ovf (.inf true)
  else if x.m = 0 then some 0
  else convert t rnd ovf (dyadic (decide (x.m < 0)) x.m.natAbs x.e)

/-- The element that the value form of MWR writes (R255). -/
def accOfValue (v : FVal) : AccEl :=
  match v with
  | .nan => { AccEl.reset with inv := true }
  | .inf neg => if neg then { AccEl.reset with ninf := true } else { AccEl.reset with pinf := true }
  | .fin neg n d =>
    if n = 0 then AccEl.reset
    else
      -- the denominators of encodings are powers of two
      let k := Nat.log2 d
      let r := normTo 55 (if neg then -(n : Int) else (n : Int)) (-(k : Int))
      ({ AccEl.reset with m := r.m, e := r.e }).orFlags (r.flags &&& 128)

/-! ## Tiles (R105, R238) -/

/-- The key of an element: tile, row, column. -/
def tileKey (t row col : Nat) : Nat := t * 16384 + row * 128 + col

/-- An element of a tile. -/
def Strand.acc (s : Strand) (t row col : Nat) : AccEl := storeGet AccEl.reset s.tiles (tileKey t row col)
/-- An element of a tile written. -/
def Strand.setAcc (s : Strand) (t row col : Nat) (x : AccEl) : Strand :=
  { s with tiles := storePut AccEl.reset s.tiles (tileKey t row col) x }

/-- The fields of a format word (R243). -/
def ftAtype (w : BitVec 32) : Nat := fld w.toNat 28 4
def ftBtype (w : BitVec 32) : Nat := fld w.toNat 24 4
def ftOtype (w : BitVec 32) : Nat := fld w.toNat 20 4
def ftRnd (w : BitVec 32) : Nat := fld w.toNat 18 2
def ftOvf (w : BitVec 32) : Nat := fld w.toNat 16 2
def ftHtrap (w : BitVec 32) : Bool := flg w.toNat 15
/-- A malformed format word (R243). -/
def ftBad (w : BitVec 32) : Bool :=
  fld w.toNat 0 15 != 0 || 13 < ftAtype w || 13 < ftBtype w || 13 < ftOtype w || ftOtype w == 5

/-- A lane of a vector by type (R87). -/
def laneOf (v : Vec) (t i : Nat) : Nat := v.toNat / 2 ^ (i * tyWidth t) % 2 ^ tyWidth t

/-- A vector from lanes of a width, lane 0 lowest. -/
def packLanes (w : Nat) : List Nat → Nat
  | [] => 0
  | x :: r => x % 2 ^ w + 2 ^ w * packLanes w r

/-- The element that lane q of MWR gives (R255). -/
def mwrEl (v : Vec) (raw : Bool) (ot q : Nat) : AccEl :=
  if raw then AccEl.ofBits (v.toNat / 2 ^ (128 * q) % 2 ^ 96) else accOfValue (valueOf ot (laneOf v ot q))

/-- The number of elements in a segment of MRD and MWR (R254). -/
def segLen (raw : Bool) (ot : Nat) : Nat := if raw then 8 else tyLanes ot

/-- The landing of MWR (R255). -/
def Strand.bandWrite (s : Strand) (t row seg : Nat) (raw : Bool) (fmt : BitVec 32) (v : Vec) : Strand :=
  let n := segLen raw (ftOtype fmt)
  (List.range n).foldl (fun s q => s.setAcc t row (seg * n + q) (mwrEl v raw (ftOtype fmt) q)) s

/-- What MRD reads, with the trap its landing raises (R254). -/
def Strand.bandRead (s : Strand) (t row seg : Nat) (raw : Bool) (fmt : BitVec 32) : Vec × Option (Cause × Word) :=
  let n := segLen raw (ftOtype fmt)
  let els := (List.range n).map (fun q => s.acc t row (seg * n + q))
  if raw then (BitVec.ofNat 1024 (packLanes 128 (els.map AccEl.bits)), none)
  else
    let vals := els.map (fun x => accValue x (ftOtype fmt) (ftRnd fmt) (ftOvf fmt))
    let first (p : List Bool) : Option Nat := p.findIdx? id
    let v : Vec := BitVec.ofNat 1024 (packLanes (tyWidth (ftOtype fmt)) (vals.map (fun x => x.getD 0)))
    match first (vals.map Option.isNone) with
    | some i => (v, some (.convertOverflow, BitVec.ofNat 64 i))
    | none =>
      match first (els.map (fun x => ftHtrap fmt && x.hdl)) with
      | some i => (v, some (.accHeadroom, BitVec.ofNat 64 i))
      | none => (v, none)

end Sys2Proof.Machine
end

