-- ==== Sys2Proof/Machine/Translate.lean ====
section
/-! DEFINITION. Translation and permission (R128 to R132), the berth and the windows' destinations (R130, R282), and what a
strand's access meets at its home: translation, permission, check values and poison (R133, R285, R298, R420). -/
namespace Sys2Proof.Machine

/-! ## Blocks with their check values and poison (R298, R419, R420) -/

/-- The location field of CHECK_VALUE by home (R298). -/
def chkLoc (a : Nat) : Nat := match homeOf a with | .hbm _ => 0 | _ => 1

/-- The 64-byte block of an address. -/
def blockOf (a : Nat) : Nat := a / 64

/-- The unit that ECC protects at an address: a 64-byte block of HBM, numbered from 0, or a 32-byte row of a scratch or an SRAM, by its
address over 32 (R419). -/
def eccUnit (a : Nat) : Nat := if a < 2 ^ 50 then a / 64 else a / 32
/-- The address of a unit, and its length. -/
def eccAddr (u : Nat) : Nat := if u < 2 ^ 44 then 64 * u else 32 * u
def eccSize (u : Nat) : Nat := if u < 2 ^ 44 then 64 else 32
/-- A byte lies in a unit that is marked poisoned. -/
def State.poisonAt (s : State) (a : Nat) : Bool := s.poisoned.contains (eccUnit a)

/-! ## Page tables (R128 to R130) -/

/-- The fields of a page-table entry (R129). -/
structure Pte where
  v : Bool
  leaf : Bool
  rd : Bool
  wr : Bool
  rap : Bool
  aper : Nat
  c64 : Bool
  a : Bool
  d : Bool
  pa : Nat
  keyid : Nat
  part : Nat
  home : Nat
  reserved : Bool
deriving DecidableEq, Repr

/-- An entry from its 128 bits (R129). -/
def Pte.ofNat (n : Nat) : Pte where
  v := flg n 0
  leaf := flg n 1
  rd := flg n 2
  wr := flg n 3
  rap := flg n 5
  aper := fld n 6 2
  c64 := flg n 9
  a := flg n 10
  d := flg n 11
  pa := fld n 12 34 * 4096
  keyid := fld n 64 10
  part := fld n 74 8
  home := fld n 82 10
  reserved := flg n 4 || flg n 8 || fld n 46 18 != 0 || fld n 92 36 != 0

/-- The bytes a leaf at a level maps (R128). -/
def levelSize : Nat → Nat
  | 1 => 2 ^ 30
  | 2 => 2 ^ 21
  | _ => 2 ^ 12

/-- A failed walk: level, and whether the entry was malformed (R130, R131). -/
structure WalkFail where
  level : Nat
  mal : Bool
deriving DecidableEq, Repr

/-- A found leaf: the address of its entry, its 128 bits and its level. -/
structure Leaf where
  at_ : Nat
  bits : Nat
  level : Nat
deriving DecidableEq, Repr

/-- The index into the table of a level (R128). -/
def vaIndex (va level : Nat) : Nat := va / 2 ^ (39 - 9 * level) % 512

/-- A non-leaf entry holds the next table's address and zeros elsewhere (R129). -/
def nonLeafOk (n : Nat) : Bool := n % 2 ^ 13 == 1 && n / 2 ^ 46 == 0

/-- An entry that may stand as a leaf at a level (R130): aligned PA bits, no reserved bit, C64 only at level 3, and
APER 0 only on its own die. -/
def leafOk (e : Pte) (level self : Nat) : Bool :=
  level != 0 && !e.reserved && e.pa % levelSize level == 0 && (!e.c64 || level == 3) && (e.aper != 0 || e.home == self)

/-- The walk from a table (R128, R130). -/
def walkFrom (s : State) (die va : Nat) : Nat → Nat → Nat → Except WalkFail Leaf
  | 0, level, _ => .error ⟨level, true⟩
  | fuel + 1, level, table =>
    let a := hbmAddr die (table + 16 * vaIndex va level)
    let n := s.read a 16
    let e := Pte.ofNat n
    if !e.v then .error ⟨level, false⟩
    else if e.leaf then (if leafOk e level (s.domainIdx die) then .ok ⟨a, n, level⟩ else .error ⟨level, true⟩)
    else if level = 3 ∨ nonLeafOk n = false then .error ⟨level, true⟩
    else walkFrom s die va fuel (level + 1) e.pa

/-- A cached translation of a context (R132). -/
def tlbFind (s : State) (die tcid va : Nat) : Option Tlb :=
  (s.die die).tlb.find? (fun e => e.tcid == tcid && e.vpage == va / e.size)

/-- The first entry on the way of a walk whose block is poisoned (R420). -/
def walkPoison (s : State) (die va : Nat) : Nat → Nat → Nat → Option Nat
  | 0, _, _ => none
  | fuel + 1, level, table =>
    let a := hbmAddr die (table + 16 * vaIndex va level)
    let e := Pte.ofNat (s.read a 16)
    if s.poisonAt a then some (eccUnit a)
    else if e.v && !e.leaf then walkPoison s die va fuel (level + 1) e.pa
    else none

/-- The poisoned block that a translation would read: none where a cached one is used (R132, R420). -/
def poisonedWalk (s : State) (die tcid va : Nat) : Option Nat :=
  match tlbFind s die tcid va with
  | some _ => none
  | none => (s.ctx die tcid).root.bind (fun r => walkPoison s die va 4 0 r)

/-- The walk of a context's table, from its root; a context without a root has no page present. -/
def walk (s : State) (die tcid va : Nat) : Except WalkFail Leaf :=
  match (s.ctx die tcid).root with
  | none => .error ⟨0, false⟩
  | some r => walkFrom s die va 4 0 r

/-- The leaf in force for a virtual address: a cached one is used until it is invalidated (R132). -/
def leafOf (s : State) (die tcid va : Nat) : Except WalkFail (Nat × Nat) :=
  match tlbFind s die tcid va with
  | some e => .ok (e.leaf.toNat, e.level)
  | none =>
    match walk s die tcid va with
    | .ok l => .ok (l.bits, l.level)
    | .error w => .error w

/-- A successful walk sets A, and D for a write, in the entry, and caches the translation (R130, R132). -/
def touchLeaf (s : State) (die tcid va : Nat) (write : Bool) : State :=
  match walk s die tcid va with
  | .error _ => s
  | .ok l =>
    let bits := l.bits ||| (if write then 0xC00 else 0x400)
    let s1 := s.poke l.at_ 16 bits
    match tlbFind s die tcid va with
    | some _ => s1
    | none => s1.modDie die (fun d =>
        { d with tlb := d.tlb ++ [⟨tcid, va / levelSize l.level, levelSize l.level, BitVec.ofNat 128 bits, l.level⟩] })

/-- The address that the device reads or writes at a virtual address of a context, whatever WR holds, and the state with A, and D for a
write, set in the leaf (R130, R390). -/
def State.deviceTouch (s : State) (die tcid va : Nat) (write : Bool) (a : Option Nat) : State :=
  match a with
  | some _ => touchLeaf s die tcid va write
  | none => s

/-- The kinds of access a leaf permits or denies (R130). -/
inductive Acc where
  | load | store | atomic
deriving DecidableEq, Repr

/-- Whether an access writes. -/
def Acc.writes : Acc → Bool
  | .load => false
  | _ => true

/-- FVAL of the page causes (R131). -/
def pageFval (mal : Bool) (acc : Acc) (level va : Nat) : Word :=
  BitVec.ofNat 64 (va % 2 ^ 48 + level * 2 ^ 48 + (if acc = .store then 2 ^ 51 else 0) + (if acc = .atomic then 2 ^ 52 else 0) +
    (if mal then 2 ^ 53 else 0))

/-- Where a translated byte lives: an address of the package, or a byte of a die outside it. -/
inductive Loc where
  | here (a : Nat)
  | away (ddie : Nat)
deriving DecidableEq, Repr

/-- The physical place a leaf gives an address (R128, R129). -/
def leafLoc (s : State) (bits level va : Nat) : Loc :=
  let e := Pte.ofNat bits
  let size := levelSize level
  match s.dieOfDomain e.home with
  | some d => .here (hbmAddr d (e.pa / size * size + va % size))
  | none => .away e.home

/-- An access at a virtual address under a leaf: permission (R130). `aper` is the aperture the access needs. -/
def leafPerm (c : Ctx) (acc : Acc) (berth : Bool) (needLocal : Bool) (bits : Nat) : Option Cause :=
  let e := Pte.ofNat bits
  let keyOk := c.keys.any (fun k => k.1 == e.keyid)
  let aperOk := if berth then e.aper == 2 else e.aper == 0 || (e.aper == 1 && !needLocal)
  let rw := match acc with
    | .load => e.rd
    | .store => e.wr
    | .atomic => e.rd && e.wr
  if !rw || !aperOk || !keyOk then some .pagePerm
  else if acc = .atomic ∧ e.aper = 1 ∧ e.rap = false then some .remoteAtomicPerm
  else none

/-- What an access meets (R130, R131, R285, R298): a place, or a cause with its FVAL. -/
abbrev Met := Except (Cause × Word) Loc

/-- Poison and check values at a home, before the bytes are used (R133, R298, R419, R420). `va` is what the FVAL of
CHECK_VALUE reports. Core scratch has no check of its blocks' values when they are read (R298). -/
def blockCheck (s : State) (a va : Nat) (reads : Bool) : Met :=
  if reads && s.poisonAt a then .error (.eccUncorrectable, Config.eccFval (eccUnit a))
  else if reads && s.badCheck.contains (blockOf a) && (match homeOf a with | .core _ => false | _ => true) then
    .error (.checkValue, BitVec.ofNat 64 (chkLoc a * 2 ^ 62 + va % 2 ^ 48 / 64 * 64))
  else .ok (.here a)

/-- Bytes that exist: below the 96 GB of a die (R18). -/
def locExists (l : Loc) : Bool :=
  match l with
  | .here a => (match homeOf a with | .hbm d => decide (a - hbmAddr d 0 < hbmBytes) | _ => true)
  | .away _ => true

/-! ## The extension word and the check points (R17, R275 to R277, R295, R296) -/

/-- The extension word (R276). -/
def extWord (gang part : Nat) (hnd : Option Nat) (lkey : Nat) : BitVec 32 :=
  BitVec.ofNat 32 (gang % 65536 * 65536 + part % 256 * 256 + (match hnd with | some h => 128 + h % 16 * 8 | none => 0) + lkey % 8)
/-- Its partition. -/
def wordPart (w : BitVec 32) : Nat := fld w.toNat 8 8
/-- Its link key index. -/
def wordLkey (w : BitVec 32) : Nat := fld w.toNat 0 3

/-- The quay dies from a die to a quay die: the quay itself when the die attaches to it, else an attached one first (R17). -/
def quayPath (d q : Nat) : List Nat := if d % 4 = q ∨ (d + 1) % 4 = q then [q] else [d % 4, q]

/-- The quay dies between two dies of the package: a shared one, or one of each (R17). Where the quay layer has a choice (R274), the
first die's own number decides (log entry 16). -/
def crossPath (d e : Nat) : List Nat :=
  if d = e then []
  else if e % 4 = d % 4 ∨ (e + 1) % 4 = d % 4 then [d % 4]
  else if e % 4 = (d + 1) % 4 ∨ (e + 1) % 4 = (d + 1) % 4 then [(d + 1) % 4]
  else [d % 4, e % 4]

/-- The link port that traffic out of the package takes: the lowest working one of its kind, one that negotiates the extension word before
one that does not (R274, R275). -/
def State.linkPort (s : State) (ue : Bool) : Option Nat :=
  if ue then ((List.range 8).find? (fun p => s.pkg.uePorts.getD p false)).map (fun p => 16 + p)
  else
    match (List.range 16).find? (fun p => s.pkg.ports.getD p .down == .extended) with
    | some p => some p
    | none => (List.range 16).find? (fun p => s.pkg.ports.getD p .down == .plain)

/-- The word that a transaction carries on a port: one that does not negotiate the word gives its own defaults (R275). -/
def State.portWord (s : State) (p : Nat) (w : BitVec 32) : BitVec 32 :=
  if p < 16 ∧ s.pkg.ports.getD p .down = .plain then extWord 0 (s.pkg.portPart.getD p 0) none (s.pkg.portKey.getD p 0) else w

/-- The check points that a transaction passes, with the partition judged at each: the quay dies, and the link port on the way out
(R295). Four link ports belong to a quay die, and two Ultra Ethernet ports (R273). What comes in passes them at its port. -/
def State.checkPoints (s : State) (die ddie : Nat) (ue : Bool) (w : BitVec 32) : List (Nat × Nat) :=
  match s.dieOfDomain ddie with
  | some e => if die < 1024 then (crossPath die e).map (fun q => (q, wordPart w)) else []
  | none =>
    match s.linkPort ue with
    | some p =>
      (quayPath die (if p < 16 then p / 4 else (p - 16) / 2)).map (fun q => (q, wordPart w)) ++ [(4 + p, wordPart (s.portWord p w))]
    | none => []

/-- The check point that drops a transaction, if any (R295). -/
def State.dropPoint (s : State) (die ddie : Nat) (ue : Bool) (w : BitVec 32) : Option Nat :=
  ((s.checkPoints die ddie ue w).find? (fun x => !(s.pkg.permits.getD x.1 []).contains x.2)).map (fun x => x.1)

/-- A drop for a partition is counted at its check point and in the sender's PDROP (R295). -/
def State.partDrop (s : State) (point : Option Nat) (die tcid : Nat) : State :=
  let s : State := match point with
    | some p => { s with pkg := { s.pkg with pdrops := storePut 0 s.pkg.pdrops p ((storeGet 0 s.pkg.pdrops p + 1) % 2 ^ 32) } }
    | none => s
  s.modCtx die tcid (fun c => { c with pdrop := (c.pdrop + 1) % 2 ^ 32 })

/-- A link key index is usable for traffic on links: the context has it installed, or the port puts its own in (R275, R296; log
entry 60). -/
def State.lkeyOk (s : State) (c : Ctx) (ue : Bool) (w : BitVec 32) : Bool :=
  match s.linkPort ue with
  | some p => s.portWord p w != w || (storeFind c.lkeys (wordLkey w)).isSome
  | none => true

/-- The extension word of a peer-HBM access (R277). -/
def peerWord (gang bits : Nat) : BitVec 32 := extWord gang (Pte.ofNat bits).part none 0

/-- Where a peer access through a leaf is dropped (R130, R295). -/
def peerDrop (s : State) (die gang bits : Nat) : Option Nat :=
  let e := Pte.ofNat bits
  if e.aper = 1 then s.dropPoint die e.home false (peerWord gang bits) else none

/-- The partition of a peer access is permitted at every check point (R130, R295). -/
def partOk (s : State) (die gang bits : Nat) : Bool := (peerDrop s die gang bits).isNone

/-- An HBM or BERTH access by a context, for a strand or a job of a gang (R130, R131, R420). -/
def accessVa (s : State) (die tcid gang : Nat) (acc : Acc) (berth needLocal : Bool) (va fva : Nat) : Met :=
  match poisonedWalk s die tcid va, leafOf s die tcid va with
  | some u, _ => .error (.eccUncorrectable, Config.eccFval u)
  | none, .error w => .error (.pageNotPresent, pageFval w.mal acc w.level fva)
  | none, .ok (bits, level) =>
    match leafPerm (s.ctx die tcid) acc berth needLocal bits with
    | some c => .error (c, pageFval false acc level fva)
    | none =>
      if partOk s die gang bits = false then .error (.partition, BitVec.ofNat 64 (fva % 2 ^ 48))
      else match leafLoc s bits level va with
        | .here a => blockCheck s a fva (acc != .store)
        | .away d => .ok (.away d)

/-- The device reads or writes a context's memory through its table, whatever WR holds (R130, R390). -/
def deviceVa (s : State) (die tcid va : Nat) : Option Nat :=
  match poisonedWalk s die tcid va, leafOf s die tcid va with
  | none, .ok (bits, level) =>
    match leafLoc s bits level va with
    | .here a => some a
    | .away _ => none
  | _, _ => none

/-! ## Windows (R278 to R285) -/

/-- A window of a context. -/
def Ctx.win (c : Ctx) (n : Nat) : Win := storeGet Win.reset c.wins n
def State.modWin (s : State) (die tcid n : Nat) (f : Win → Win) : State :=
  s.modCtx die tcid (fun c => { c with wins := storeSet c.wins n (f (c.win n)) })

def Win.en (w : Win) : Bool := w.cfg.getLsbD 63
def Win.mc (w : Win) : Bool := w.cfg.getLsbD 62
def Win.mpm (w : Win) : Bool := w.cfg.getLsbD 60
def Win.hok (w : Win) : Bool := w.cfg.getLsbD 59
def Win.ue (w : Win) : Bool := w.cfg.getLsbD 58
def Win.lkey (w : Win) : Nat := fld w.cfg.toNat 55 3
def Win.dspace (w : Win) : Nat := fld w.cfg.toNat 52 3
def Win.ddie (w : Win) : Nat := fld w.cfg.toNat 42 10
def Win.dtcid (w : Win) : Nat := fld w.cfg.toNat 32 10
def Win.dcl (w : Win) : Nat := fld w.cfg.toNat 0 2

/-- A destination of a window: domain die, context and base (R280, R282). -/
structure Dest' where
  ddie : Nat
  tcid : Nat
  base : Nat
deriving DecidableEq, Repr

/-- The members of a window's destination by number: one for a unicast window (R278, R280). -/
def State.members (s : State) (w : Win) : List (Nat × Dest') :=
  if w.mc then
    match storeFind s.pkg.groups w.ddie with
    | none => []
    | some g => (List.range g.members.length).map (fun i =>
        let m := g.members.getD i (0, 0, 0)
        (i, ⟨m.1, m.2.1, m.2.2⟩))
  else [(0, ⟨w.ddie, w.dtcid, w.base⟩)]

/-- The base of a context's region in a space: CLUSTER by cluster, DIE (R114). -/
def Ctx.regionBase (c : Ctx) (die space cl : Nat) : Nat :=
  if space = 1 then clusterAddr (die * 4 + cl) (c.cbase.getD cl 0) else dieAddr die c.dbase
/-- Its size. -/
def Ctx.regionSize (c : Ctx) (space : Nat) : Nat := if space = 1 then c.csize else c.dsize

/-- Whether a path to a domain die exists: inside the package always, outside through a port of the window's kind that works (R279,
R292). -/
def State.pathTo (s : State) (ue : Bool) (ddie : Nat) : Bool :=
  match s.dieOfDomain ddie with
  | some _ => true
  | none => if ue then s.pkg.uePorts.any id else s.pkg.ports.any (fun p => p != .down)

/-- FVAL of WINDOW_FAULT and of PARTITION on a window (R283, R285). -/
def winFval (reason win off : Nat) : Word := BitVec.ofNat 64 (reason * 2 ^ 56 + win * 2 ^ 52 + off % 2 ^ 48)

/-- The extension word of traffic through a window (R277). -/
def winWord (c : Ctx) (win gang : Nat) (hnd : Option Nat) : BitVec 32 := extWord gang c.part hnd (c.win win).lkey

/-- How a destination treats one byte of a window access that carries an extension word and whose element begins at `eoff` (R276, R282,
R285, R295, R296): the reason, or the byte's place. -/
def windowByte (s : State) (die : Nat) (c : Ctx) (win : Nat) (word : BitVec 32) (acc : Acc) (dst : Dest') (eoff off : Nat) : Met :=
  let wr := c.win win
  let dropped : Bool := (s.dropPoint die dst.ddie wr.ue word).isSome
  match s.dieOfDomain dst.ddie with
  | none =>
    if s.pathTo wr.ue dst.ddie = false then .error (.windowFault, winFval 11 win eoff)
    else if dropped || !s.lkeyOk c wr.ue word then .error (.partition, winFval 0 win eoff)
    else .ok (.away dst.ddie)
  | some d =>
    if dropped then .error (.partition, winFval 0 win eoff)
    else
      let dc := s.ctx d dst.tcid
      if dc.bind = .unbound then .error (.windowFault, winFval 8 win eoff)
      else if wr.dspace = 3 then
        match accessVa s d dst.tcid 0 acc false true (dst.base + off) eoff with
        | .ok l => .ok l
        | .error (.pageNotPresent, _) => .error (.windowFault, winFval 9 win eoff)
        | .error (.pagePerm, _) => .error (.windowFault, winFval 10 win eoff)
        | .error e => .error e
      else if dc.regionSize wr.dspace ≤ dst.base + off then .error (.windowFault, winFval 12 win eoff)
      else
        let a := dc.regionBase d wr.dspace wr.dcl + dst.base + off
        blockCheck s a eoff (acc != .store)

/-- How a destination treats a window access of at most 64 bytes: the first failure at its first or its last byte, or the first byte's
place (R282, R285). -/
def windowTarget (s : State) (die : Nat) (c : Ctx) (win : Nat) (word : BitVec 32) (acc : Acc) (dst : Dest') (off w : Nat) : Met :=
  match windowByte s die c win word acc dst off off with
  | .error e => .error e
  | .ok l =>
    if w ≤ 1 then .ok l
    else
      match windowByte s die c win word acc dst off (off + w - 1) with
      | .ok _ => .ok l
      | .error e => .error e

/-- An element as single bytes. -/
def El.bytes (e : El) : List El := (List.range e.w).map (fun i => ⟨e.off + i, 1, e.data / 256 ^ i % 256, e.exp / 256 ^ i % 256⟩)

/-- The elements of an access as they meet a destination: byte by byte where the window's base puts them across 8-byte units (R282;
log entry 85). -/
def destEls (dst : Dest') (els : List El) : List El := if dst.base % 8 = 0 then els else els.flatMap El.bytes

/-! ## What a strand's element meets -/

/-- The cluster of a strand, 0 to 3 on its die (R21). -/
def Strand.cluster (t : Strand) : Nat := t.core % 64 / 16

/-- The address of a byte of a scratch space by its offset in the region (R113, R114, R119). -/
def State.scratchAddr (s : State) (t : Strand) (space off : Nat) : Nat :=
  if space = 0 then coreAddr t.core (t.base + off)
  else (s.ctx t.die t.tcid).regionBase t.die space t.cluster + off

/-- The place of a byte of a strand's access (R130, R133, R282). Elements hold offsets: in the scratch spaces after the
bank permutation, elsewhere as Locate gives them; translation happens when the access is performed. -/
def elemMet (s : State) (k : Nat) (acc : Acc) (space win : Nat) (e : El) : Met :=
  let t := s.strand k
  let c := s.ctx t.die t.tcid
  match space with
  | 3 => accessVa s t.die t.tcid t.gang acc false false e.off e.off
  | 5 => accessVa s t.die t.tcid t.gang acc true false (c.bva + e.off) e.off
  | 4 =>
    match s.members (c.win win) with
    | (_, dst) :: _ => windowTarget s t.die c win (winWord c win t.gang none) acc dst e.off e.w
    | [] => .error (.windowFault, winFval 11 win e.off)
  | _ => blockCheck s (s.scratchAddr t space e.off) e.off (acc != .store)

/-- The access kind of a request (R130). -/
def ReqKind.acc : ReqKind → Acc
  | .load => .load
  | .store => .store
  | .atomic _ _ => .atomic
  | .vred _ => .atomic

/-- The first failure among the elements of an access, in element order. -/
def elsMet (s : State) (k : Nat) (acc : Acc) (space win : Nat) : List El → Option (Cause × Word)
  | [] => none
  | e :: r =>
    match elemMet s k acc space win e with
    | .ok _ => elsMet s k acc space win r
    | .error x => some x

/-- Whether a request may be performed now, or what it fails with: a destination outside the package has reported it, or it meets it
here. -/
def reqMet (s : State) (k : Nat) (r : Req) : Option (Cause × Word) := r.flt.orElse (fun _ => elsMet s k r.kind.acc r.space r.win r.els)

/-- Whether a space is one whose accesses are translated and checked after issue (R133). -/
def heldSpace (space : Nat) : Bool := space == 3 || space == 4 || space == 5

/-- The address of an element that its access may reach; `none` outside the package or when it fails. -/
def elemAddr (s : State) (k : Nat) (acc : Acc) (space win : Nat) (e : El) : Option Nat :=
  match elemMet s k acc space win e with
  | .ok (.here a) => some a
  | _ => none

/-- Translations that an access at a destination of a window in HBM uses, in the destination context's table (R130, R282). -/
def touchDest (s : State) (w : Win) (dst : Dest') (acc : Acc) : List El → State
  | [] => s
  | e :: r =>
    match s.dieOfDomain dst.ddie with
    | some d =>
      if w.dspace = 3 then
        touchDest (touchLeaf (touchLeaf s d dst.tcid (dst.base + e.off) acc.writes) d dst.tcid (dst.base + e.off + e.w - 1) acc.writes) w dst acc r
      else s
    | none => s

/-- Every translation that an access uses is cached and its A and D bits set (R130). -/
def touchEls (s : State) (k : Nat) (acc : Acc) (space : Nat) : List El → State
  | [] => s
  | e :: r =>
    let t := s.strand k
    let c := s.ctx t.die t.tcid
    match space with
    | 3 => touchEls (touchLeaf s t.die t.tcid e.off acc.writes) k acc space r
    | 5 => touchEls (touchLeaf s t.die t.tcid (c.bva + e.off) acc.writes) k acc space r
    | _ => s

/-- The elements of an access up to the first that fails: the device has walked for these. -/
def metUpTo (s : State) (k : Nat) (acc : Acc) (space win : Nat) : List El → List El
  | [] => []
  | e :: r => match elemMet s k acc space win e with | .ok _ => e :: metUpTo s k acc space win r | .error _ => [e]

/-- The translations of a load through a window. -/
def touchWin (s : State) (k win : Nat) (acc : Acc) (els : List El) : State :=
  let w := (s.ctx (s.strand k).die (s.strand k).tcid).win win
  match s.members w with
  | (_, dst) :: _ => touchDest s w dst acc els
  | [] => s

/-- Whether an access would need a byte beyond the HBM of its die. -/
def beyondHbm (s : State) (k : Nat) (acc : Acc) (space win : Nat) (els : List El) : Bool :=
  els.any (fun e => match elemMet s k acc space win e with | .ok l => !locExists l | .error _ => false)

end Sys2Proof.Machine
end

