-- ==== Sys2Proof/Machine/CsrFile.lean ====
section
/-! DEFINITION. The control and status registers: what a read returns and what a write leaves in the RW fields (R9, R71 to
R76, R159, R278, R279, R281). -/
namespace Sys2Proof.Machine

/-- A word from fields given as (low bit, value). -/
def wordOf (l : List (Nat × Nat)) : Word := BitVec.ofNat 64 (l.foldl (fun x f => x + 2 ^ f.1 * f.2) 0)

/-- SEQSTAT (R72). -/
def seqstat (t : Strand) (c : Ctx) (baddr : Nat) : Word :=
  wordOf [(36, t.hq.length), (35, t.hsave.isSome.toNat), (34, t.stopRq.toNat), (33, c.estop.toNat), (29, t.eres % 16),
    (26, t.ldepth), (19, t.shadow.length), (17, t.bres), (0, baddr % 65536)]

/-- A loop-stack entry (R73). -/
def Loop.word (l : Loop) : Word :=
  wordOf [(48, l.start % 65536), (36, l.endl % 4096), (33, l.depth), (32, l.f.toNat), (0, l.count % 2 ^ 32)]

/-- LSTK k: level 0 is the outermost; entries at or above LDEPTH read zero (R73). -/
def Strand.lstk (t : Strand) (k : Nat) : Word :=
  match t.loops.reverse[k]? with
  | some l => l.word
  | none => 0

/-- The window CSRs (R278, R279). ACKED of a multicast window of which no member counts any more reads 0 (DESIGN CHOICE, log entry 96). -/
def Win.csr (w : Win) (k : Nat) : Word :=
  match k with
  | 0 => setBit w.cfg 61 w.unc
  | 1 => BitVec.ofNat 64 (w.base % 2 ^ 48)
  | 2 => BitVec.ofNat 64 (w.size % 2 ^ 48)
  | 3 =>
    let acked := match w.acks.map (fun e => e.2) with
      | [] => 0
      | a :: r => r.foldl min a
    wordOf [(32, w.next % 2 ^ 32), (0, acked % 2 ^ 32)]
  | 4 => w.comp
  | 5 => w.memb
  | 6 => w.flt
  | _ => wordOf [(32, w.sent % 2 ^ 32), (0, w.retx % 2 ^ 32)]

/-- The partition CSRs (R281). USED of a berth filled to all its 65,536 bytes does not fit its 16 bits and reads 0 (DESIGN CHOICE, log
entry 89). -/
def Ctx.partCsr (c : Ctx) (k : Nat) : Word :=
  match k with
  | 0 => wordOf [(16, c.qenr.toNat), (8, c.suite % 4), (0, c.part % 256)]
  | 9 => BitVec.ofNat 64 (c.pdrop % 2 ^ 32)
  | 10 => BitVec.ofNat 64 (c.hdrop % 2 ^ 32)
  | 11 => BitVec.ofNat 64 (c.cerr % 2 ^ 32)
  | 12 => wordOf [(32, c.bused % 65536), (16, c.bhead % 65536), (0, c.btail % 65536)]
  | k =>
    if 1 ≤ k ∧ k ≤ 8 then
      match storeFind c.lkeys (k - 1) with
      | some (id, _) => wordOf [(63, 1), (0, id % 1024)]
      | none => 0
    else 0

/-- The boost of a strand's gang on its die (R325). -/
def State.boost (s : State) (t : Strand) : Nat := (s.die t.die).boostOf t.gang

/-- PRIO (R74). -/
def State.prio (s : State) (t : Strand) : Word :=
  wordOf [(32, s.eff t), (24, t.pen.toNat), (16, s.boost t), (8, t.prioCeil % 16), (0, t.prioBase % 16)]

/-- A CSR of a strand by number; unassigned numbers read zero and raise ILLEGAL_OP before issue (R71, R159). -/
def State.csr (s : State) (t : Strand) (n : Nat) : Word :=
  let c := s.ctx t.die t.tcid
  match n with
  | 0x000 => seqstat t c t.bun.addr
  | 0x001 => BitVec.ofNat 64 (t.lres % 65536)
  | 0x002 => BitVec.ofNat 64 (t.ldone % 2 ^ 32)
  | 0x003 => BitVec.ofNat 64 (t.lbase % 2 ^ 32)
  | 0x004 => BitVec.ofNat 64 (t.ftsel % 16)
  | 0x005 => BitVec.ofNat 64 (t.spinlim % 65536)
  | 0x006 => s.prio t
  | 0x007 => BitVec.ofNat 64 (t.gang % 65536)
  | 0x008 => BitVec.ofNat 64 (t.tcid % 1024)
  | 0x009 => BitVec.ofNat 64 (t.remt % 2 ^ 32)
  | 0x00A => BitVec.ofInt 64 c.energy.enbal
  | 0x020 => t.cause.setWidth 64
  | 0x021 => t.fval
  | 0x022 => BitVec.ofNat 64 (t.tbun % 65536)
  | 0x023 => BitVec.ofNat 64 (t.tslot % 256)
  | 0x1F0 => BitVec.ofNat 64 (t.imaxrun % 8192)
  | n =>
    if 0x010 ≤ n ∧ n ≤ 0x015 then t.lstk (n - 0x010)
    else if 0x040 ≤ n ∧ n ≤ 0x04F then
      wordOf [(16, storeGet 0 t.allowOut (n - 0x040) % 65536), (0, storeGet 0 t.allowLim (n - 0x040) % 65536)]
    else if 0x080 ≤ n ∧ n ≤ 0x0FF then (c.win ((n - 0x080) / 8)).csr ((n - 0x080) % 8)
    else if 0x100 ≤ n ∧ n ≤ 0x10F then c.partCsr (n - 0x100)
    else 0

/-- A CSR that raises PRIV_OP when a tenant strand writes it (R71). -/
def csrPriv (n : Nat) : Bool := (decide (0x080 ≤ n) && decide (n ≤ 0x10F)) || n == 0x1F0

/-- The RW bits of a CSR (R71 to R76). -/
def csrRw (n : Nat) : Nat :=
  match n with
  | 0x004 => 0xF
  | 0x005 => 0xFFFF
  | 0x006 => 0xF
  | 0x009 => 0xFFFFFFFF
  | 0x1F0 => 0x1FFF
  | n => if 0x040 ≤ n ∧ n ≤ 0x04F then 0xFFFF else 0

/-- The kinds of CSR write (R159). -/
inductive CsrOp where
  | w | s | c
deriving DecidableEq, Repr

/-- The RW bits that a write produces from the old value and the operand (R159). -/
def csrMix (op : CsrOp) (mask : Nat) (old a : Word) : Word :=
  let m : Word := BitVec.ofNat 64 mask
  match op with
  | .w => a &&& m
  | .s => (old ||| a) &&& m
  | .c => (old &&& ~~~a) &&& m

/-- The adjusting rule of a field applied to the value written (R74, R75, R76). `ceil` is the ceiling that the window's
binding sets. -/
def csrAdjust (t : Strand) (ceil n v : Nat) : Nat :=
  match n with
  | 0x006 => min v t.prioCeil
  | 0x1F0 => if v < 16 then 16 else if 4096 < v then 4096 else v
  | n => if 0x040 ≤ n ∧ n ≤ 0x04F then (if ceil < v then ceil else if v = 0 then min 1 ceil else v) else v

/-- The value that a CSR write lands (R159). -/
def State.csrNew (s : State) (t : Strand) (op : CsrOp) (n : Nat) (a : Word) : Word :=
  let c := s.ctx t.die t.tcid
  BitVec.ofNat 64 (csrAdjust t (c.win (n - 0x040)).ceil n (csrMix op (csrRw n) (s.csr t n) a).toNat)

/-- A landed CSR write. -/
def Strand.csrSet (t : Strand) (n v : Nat) : Strand :=
  match n with
  | 0x004 => { t with ftsel := v }
  | 0x005 => { t with spinlim := v }
  | 0x006 => { t with prioBase := v }
  | 0x009 => { t with remt := v }
  | 0x1F0 => { t with imaxrun := v }
  | n => if 0x040 ≤ n ∧ n ≤ 0x04F then { t with allowLim := storePut 0 t.allowLim (n - 0x040) v } else t

end Sys2Proof.Machine
end

