-- ==== Sys2Proof/Machine/Layout.lean ====
section
/-! DEFINITION. Layout entries (R116), and the parameters and the timing of queued matrix operations (R236 to R238, R246). -/
namespace Sys2Proof.Machine

/-! ## Layout entries (R116, R117) -/

/-- The fields of a layout entry. -/
structure Lay where
  base : Nat
  win : Nat
  ty : Nat
  dims : Nat
  byte : Bool
  space : Nat
  ext : List Nat
  str : List Nat
  swzd : Nat
  swzs : Nat
  swzm : Nat
  reserved : Bool
deriving DecidableEq, Repr

/-- An entry from its four words (R116). -/
def Lay.ofWords (ws : List Word) : Lay :=
  let w (k : Nat) : Nat := (ws.getD k 0).toNat
  let dims := fld (w 0) 6 2
  { base := fld (w 0) 16 48
    win := fld (w 0) 12 4
    ty := fld (w 0) 8 4
    dims := dims
    byte := flg (w 0) 5
    space := fld (w 0) 0 4
    ext := if dims = 0 then [fld (w 1) 0 48, 0, 0, 0]
      else [fld (w 1) 0 16, fld (w 1) 16 16, fld (w 1) 32 16, fld (w 1) 48 16]
    str := [0, fld (w 2) 0 32, fld (w 2) 32 32, fld (w 3) 32 32]
    swzd := fld (w 3) 14 2
    swzs := fld (w 3) 10 4
    swzm := fld (w 3) 0 5
    reserved := flg (w 0) 4 || fld (w 3) 16 16 != 0 || fld (w 3) 5 5 != 0 || (dims == 0 && fld (w 1) 48 16 != 0) }

/-- The extent field of a dimension, 0 for an unused one (R118). -/
def Lay.extOf (l : Lay) (d : Nat) : Nat := if d ≤ l.dims then l.ext.getD d 0 else 0
/-- The byte stride of dimension 1, 2 or 3. -/
def Lay.strOf (l : Lay) (d : Nat) : Nat := l.str.getD d 0

/-! ## Parameters (R246) -/

/-- The parameter words of a routine, by field. -/
structure MPar where
  opa : Nat
  opb : Nat
  m : Nat
  n : Nat
  kb : Nat
  row0 : Nat
  col0 : Nat
  clr : Bool
  bsrc : Bool
  a0 : Nat
  a1 : Nat
  b0 : Nat
  b1 : Nat
  ati : Nat
  bti : Nat
  ks : Nat
  dg : Nat
  extra : Nat
deriving DecidableEq, Repr

/-- The fields of the captured words (R246). M and N are counts. -/
def MPar.ofWords (ws : List Word) : MPar :=
  let w (k : Nat) : Nat := (ws.getD k 0).toNat
  { opa := fld (w 0) 58 6, opb := fld (w 0) 52 6, m := fld (w 0) 45 7 + 1, n := fld (w 0) 38 7 + 1, kb := fld (w 0) 22 16
    row0 := fld (w 0) 15 7, col0 := fld (w 0) 8 7, clr := flg (w 0) 7, bsrc := flg (w 0) 6
    a0 := fld (w 1) 48 16, a1 := fld (w 1) 32 16, b0 := fld (w 1) 16 16, b1 := fld (w 1) 0 16
    ati := fld (w 2) 48 16, bti := fld (w 2) 32 16, ks := fld (w 2) 28 4, dg := fld (w 2) 24 4, extra := fld (w 2) 0 24 }

/-- The operation's parameters. -/
def MOp.p (o : MOp) : MPar := MPar.ofWords o.par

/-- The number of parameter words a routine reads (R246). -/
def MKind.words : MKind → Nat
  | .mcopy => 1
  | _ => 3

/-- The routine index, or 0xFF for the other queued operations (R258, R259). -/
def MKind.rtn : MKind → Nat
  | .mma => 0 | .mmat => 1 | .mmab => 2 | .split => 4 | .slmma => 5 | .fold => 6 | .trans => 8 | .mcopy => 9
  | _ => 0xFF

/-- Routines that stream rows through the array (R238). -/
def MKind.isArray : MKind → Bool
  | .mma => true | .mmat => true | .mmab => true | .slmma => true | .fold => true | .mcopy => true
  | _ => false

/-! ## Timing (R237) -/

/-- Kb for a type pair (R237). -/
def kbOf (atype : Nat) : Nat := if atype = 1 ∨ atype = 2 then 32 else 128

/-- The contraction length of one step. -/
def MOp.kbLen (o : MOp) : Nat :=
  match o.kind with
  | .mma => kbOf (ftAtype o.fmt)
  | .mmat => kbOf (ftAtype o.fmt)
  | _ => 128

/-- The prologue of a routine that loads operand B from core scratch (R237). -/
def MOp.l0 (o : MOp) : Nat :=
  match o.kind with
  | .mma => if o.p.bsrc then 0 else 16
  | .mmat => if o.p.bsrc then 0 else 16
  | .mmab => 16
  | .slmma => 16
  | _ => 0

/-- A quotient rounded up. -/
def ceilDiv (a b : Nat) : Nat := (a + b - 1) / b

/-- The duration of a step of a routine whose steps are equal (R237). -/
def MOp.tstep (o : MOp) : Nat :=
  match o.kind with
  | .mmab => max 16 (ceilDiv o.p.m 2)
  | .trans => max 1 (ceilDiv (o.p.n * tyWidth (Lay.ofWords (o.opnds.getD 0 [])).ty) 512)
  | .mclr => 8
  | .mnorm => 8
  | .mlds _ _ _ => 1
  | .mplane _ _ => 16
  | _ => max 16 o.p.m

/-- The number of steps (R237). -/
def MOp.steps (o : MOp) : Nat :=
  match o.kind with
  | .mma => o.p.kb
  | .mmat => o.p.kb
  | .mmab => o.p.kb
  | .slmma => (o.p.dg - 1) * o.p.kb
  | .split => 2 * o.p.m * o.p.kb
  | .trans => ceilDiv o.p.m 8
  | _ => 1

/-- D: the prologue and every step (R237). -/
def MOp.dur (o : MOp) : Nat :=
  match o.kind with
  | .split => 3 * o.p.m * o.p.kb
  | _ => o.l0 + o.steps * o.tstep

/-- ρ(i): the cycle of the step at which region row i enters (R237). -/
def MOp.rho (o : MOp) (i : Nat) : Nat := match o.kind with | .mmab => i / 2 | _ => i

/-- The region-relative index of the last region row in the band of row i (R238). -/
def MOp.lastInBand (o : MOp) (i : Nat) : Nat := min (o.p.m - 1) ((o.p.row0 + i) / 8 * 8 + 7 - o.p.row0)

/-- The commit cycle of row i in step q (R238). -/
def MOp.commitAt (o : MOp) (q i : Nat) : Nat := o.start + o.l0 + q * o.tstep + o.rho (o.lastInBand i) + 16

/-- The tiles an operation writes, and the latest commit cycle. -/
def MOp.lastCommit (o : MOp) : Option Nat :=
  match o.kind with
  | .mclr => some (o.start + 8)
  | .mnorm => some (o.start + 8)
  | k => if k.isArray then some (o.commitAt (o.steps - 1) (o.p.m - 1)) else none

/-- The step in progress x cycles after the start, counting steps alone, and the cycle within it (R237). -/
def MOp.stepAt (o : MOp) (x : Nat) : Nat × Nat :=
  match o.kind with
  | .split =>
    let n := o.p.m * o.p.kb
    if x < n then (x, 0) else (n + (x - n) / 2, (x - n) % 2)
  | _ => ((x - o.l0) / o.tstep, (x - o.l0) % o.tstep)

/-- The operation in progress in an issue cycle (R236). -/
def Strand.mxBusy (t : Strand) (c : Nat) : Option MOp := t.mq.find? (fun o => decide (o.start ≤ c) && decide (c < o.ends))
/-- Queued operations not yet started (R236). -/
def Strand.mxWaiting (t : Strand) : Nat := (t.mq.filter (fun o => decide (t.icyc < o.start))).length
/-- An operation is incomplete until its end and its last commit have passed (R236). -/
def Strand.mxIncomplete (t : Strand) : Bool := t.mq.any (fun o => decide (t.icyc < o.done))

/-- The matrix unit is at a step boundary at the start of the next issue cycle (R241). -/
def Strand.mxBoundary (t : Strand) : Bool :=
  t.mq.all (fun o =>
    let x := t.icyc + 1 - o.start
    decide (t.icyc + 1 ≤ o.start) || decide (o.ends ≤ t.icyc + 1) ||
      (decide (o.l0 ≤ x) && (o.stepAt x).2 == 0))

end Sys2Proof.Machine
end

