-- ==== Sys2Proof/Machine/SaveImage.lean ====
section
/-! DEFINITION. The supervisor region of a die's HBM (R379) and the save images in it (R362 to R365): their sections as bytes, their
tags (R371), and the check that a restore makes of them (R372). The places of fields inside a section that the manual only lists are in
the order of its list (log entry 91). -/
namespace Sys2Proof.Machine

/-! ## The supervisor region (R379) -/

/-- The device OS's own part of a die's HBM: tables and the pages it hands out itself lie from here up (R379; log entry 12). -/
def osBase : Nat := 2 ^ 36

/-- Bytes set to zero, with what was recorded of them. -/
def State.zeroRange (s : State) (a n : Nat) : State :=
  let out (x w : Nat) : Bool := decide (x + w ≤ a) || decide (a + n ≤ x)
  { s with
    mem := s.mem.filter (fun (c : Host.Cell) => out c.1 1)
    hist := s.hist.filter (fun (e : Nat × UnitHist) => out (8 * e.1) 8)
    poisoned := s.poisoned.filter (fun u => out (eccAddr u) (eccSize u)), badCheck := s.badCheck.filter (fun b => out (64 * b) 64) }

/-- Bytes of the device OS's part that it takes next, on a boundary of their size. -/
def State.allocOs (s : State) (die n : Nat) : Option (Nat × State) :=
  let a := (osBase + (s.die die).nalloc + n - 1) / n * n
  if a + n ≤ hbmBytes then
    some (a, (s.modDie die (fun d => { d with nalloc := a + n - osBase })).zeroRange (hbmAddr die a) n)
  else none

/-! ## Fields -/

/-- A field of a save image: its offset in the image, its bytes and its value. -/
structure ImgField where
  off : Nat
  n : Nat
  val : Nat
deriving DecidableEq, Repr

/-- Consecutive fields of n bytes. -/
def imgRun (off n : Nat) (vs : List Nat) : List ImgField := vs.zipIdx.map (fun v => ⟨off + n * v.2, n, v.1⟩)
/-- The stored values of a store, n bytes each: what is not stored is zero. -/
def imgStore {α : Type} (off n : Nat) (m : Store α) (f : α → Nat) : List ImgField := m.map (fun e => ⟨off + n * e.1, n, f e.2⟩)

/-- The next 64-byte boundary. -/
def pad64 (n : Nat) : Nat := (n + 63) / 64 * 64

/-! ## In-flight entries (R365) -/

/-- KIND and NUM of an in-flight destination. -/
def Dest.kindNum : Dest → Nat × Nat
  | .sreg n => (1, n)
  | .vreg .a n => (2, n)
  | .vreg .b n => (3, n)
  | .preg n => (4, n)
  | .mask .a n => (5, n)
  | .mask .b n => (6, n)
  | .flag n => (7, n)
  | .csr n => (8, n)
  | .lay n => (9, n)
  | .mpShadow n => (10, n)
  | .rofmt => (11, 0)
  | .band _ row _ _ _ => (12, row)
  | .core _ => (13, 0)
  | .coreRed _ _ => (13, 0)

/-- The first address of the cells of a core-scratch store. -/
def firstCell (cs : List Host.Cell) : Nat := cs.foldl (fun m c => if c.1 < m then c.1 else m) (cs.headD (0, 0)).1

/-- The payload of an entry: data and enable; those of a core-scratch store from its first byte up (R365). -/
def InFlight.payload (e : InFlight) : Nat × Nat :=
  match e.dest with
  | .core cs =>
    cs.foldl (fun p c => (p.1 + c.2.toNat * 256 ^ (c.1 - firstCell cs), p.2 + 2 ^ (c.1 - firstCell cs))) (0, 0)
  | _ => (e.data.toNat, e.en.toNat)

/-- A store on core scratch as stores of at most 128 bytes, each within 128 aligned bytes of the region: an entry has no more room (R365). -/
def InFlight.split (e : InFlight) : List InFlight :=
  match e.dest with
  | .core cs => ((cs.map (fun c => c.1 / 128)).eraseDups).map (fun b => { e with dest := .core (cs.filter (fun c => c.1 / 128 == b)) })
  | _ => [e]

/-- The in-flight list of a strand (R365). -/
def Strand.flight (t : Strand) : List InFlight := t.inflight.flatMap InFlight.split

/-- The issue cycle as the image counts it: one that has begun and whose bundle has not issued is still to come (R183). -/
def Strand.begun (t : Strand) : Nat := t.skipped.toNat

/-- AUX: FVAL of a landing trap, the region offset of a store, or the tile, row and segment of a band. -/
def InFlight.aux (e : InFlight) : Nat :=
  match e.trap with
  | some c => c.2.toNat
  | none =>
    match e.dest with
    | .core cs => firstCell cs
    | .band t row seg _ _ => t * 2 ^ 16 + row * 2 ^ 8 + seg
    | _ => 0

/-- An entry at an offset, the ord-th in issue order, with its size; `more` issue cycles are added to its REM. -/
def InFlight.fields (e : InFlight) (off ord more : Nat) : List ImgField × Nat :=
  let kn := e.dest.kindNum
  let w0 := kn.1 * 2 ^ 56 + (e.rem + more) % 256 * 2 ^ 48 + e.poison.toNat * 2 ^ 47 + e.trap.isSome.toNat * 2 ^ 46 + kn.2 % 4096 * 2 ^ 32 +
    (match e.trap with | some c => c.1.code | none => 0) * 2 ^ 24 + ord % 65536 * 2 ^ 8
  let head : List ImgField := [⟨off, 8, w0⟩, ⟨off + 8, 8, e.aux⟩]
  let p := e.payload
  if kn.1 = 1 ∨ kn.1 = 4 ∨ (7 ≤ kn.1 ∧ kn.1 ≤ 11) then (head ++ [⟨off + 16, 8, p.1 % 2 ^ 64⟩], 24)
  else (head ++ [⟨off + 16, 128, p.1⟩, ⟨off + 144, 16, p.2⟩], 160)

/-- The in-flight list from an offset up, with its size. -/
def flightFields (off ord more : Nat) : List InFlight → List ImgField × Nat
  | [] => ([], 0)
  | e :: r =>
    let x := e.fields off ord more
    let y := flightFields (off + x.2) (ord + 1) more r
    (x.1 ++ y.1, x.2 + y.2)

/-! ## Sections (R363) -/

/-- The code of a frame state in the Sequencer section. -/
def FState.code : FState → Nat
  | .filling => 0 | .held => 1 | .ready => 2 | .issuing => 3 | .waiting => 4 | .energy => 5 | .saving => 6 | .saved => 7 | .retiring => 8
/-- A wait in a word: its kind, then what it names (R353). -/
def Wait.word : Wait → Nat
  | .none => 0
  | .flag n c => 1 + 256 * n + 2 ^ 16 * c.toNat
  | .crew c => 2 + 256 * c
  | .phase sc b _ => 3 + 256 * sc + 2 ^ 16 * b
  | .spin u => 4 + 256 * u

/-- The frame state that a saved strand resumes in: RETIRING, WAITING where a wait stands, else READY (R353, R363). -/
def Strand.savedState (t : Strand) : FState := if t.wasRetiring then .retiring else if t.wait = .none then .ready else .waiting

/-- What a drain leads to, as a code, and the wait that it leads to. -/
def drainCode : Option DrainTo → Nat
  | none => 0 | some (.wait _) => 1 | some .yield => 2 | some .park => 3 | some .ended => 4
def drainWait : Option DrainTo → Nat
  | some (.wait w) => w.word
  | _ => 0

/-- A pending cause but for its FVAL: its code, TSLOT and TBUN, and whether the handler save holds it. -/
def Pending.head (h : Bool) (p : Pending) : Nat := p.cause.code + 2 ^ 5 * h.toNat + 2 ^ 8 * (p.tslot % 256) + 2 ^ 16 * (p.tbun % 65536)

/-- The pending causes of a strand and of its handler save. -/
def Strand.allCauses (t : Strand) : List (Bool × Pending) :=
  t.causes.map (fun p => (false, p)) ++ ((t.hsave.map (fun h => h.causes)).getD []).map (fun p => (true, p))

/-- KIND of the header (R364). -/
def saveCode : Option SaveKind → Nat
  | some .park => 1
  | some .checkpoint => 2
  | _ => 0

/-- The Sequencer section: the state of R182, the wait, and PEN. -/
def sequencerFields (t : Strand) (off : Nat) : List ImgField :=
  let h : List Nat := match t.hsave with
    | some h => [1 + 2 ^ 8 * (h.pos % 65536) + 2 ^ 24 * h.preds.toNat + 2 ^ 40 * (h.floor % 65536) + 2 ^ 56 * h.depth, h.wait.word]
    | none => [0, 0]
  let cs := t.allCauses.take 12
  imgRun off 8 ([t.pos % 65536 + 2 ^ 16 * t.eres + 2 ^ 24 * t.bres + 2 ^ 32 * t.ldepth + 2 ^ 40 * cs.length,
      t.ldone % 2 ^ 32 + 2 ^ 32 * (t.lbase % 2 ^ 32), t.lres % 65536 + 2 ^ 16 * (t.floor % 65536) + 2 ^ 32 * t.spilled.length] ++
    (List.range 6).map (fun k => (t.lstk k).toNat) ++ h ++
    [t.runCount % 65536 + 2 ^ 16 * t.savedState.code + 2 ^ 24 * t.parked.toNat + 2 ^ 25 * t.stopRq.toNat + 2 ^ 26 * t.pen.toNat +
      2 ^ 32 * drainCode t.drain + 2 ^ 36 * drainCode t.switchTo + 2 ^ 40 * ((t.hsave.map (fun h => h.shadow)).getD 0),
     t.wait.word, drainWait t.drain + drainWait t.switchTo] ++
    (List.range 6).map (fun i =>
      let f (j : Nat) : Nat := ((cs[j]?).map (fun p => p.2.head p.1)).getD 0
      f (2 * i) + 2 ^ 32 * f (2 * i + 1)) ++ cs.map (fun p => p.2.fval.toNat))

/-- A bit for each crew of a context that a list of strands holds a strand in. -/
def crewBits (d : Die) (tcid k : Nat) (f : Crew → List Nat) : Nat :=
  d.crews.foldl (fun n e => if e.1 / 256 = tcid ∧ (f e.2).contains k = true then n + 2 ^ (e.1 % 256) else n) 0

/-- The Control section. -/
def controlFields (s : State) (k : Nat) (off : Nat) : List ImgField :=
  let t := s.strand k
  let d := s.die t.die
  imgStore off 8 t.sreg (fun w => w.toNat) ++ [⟨off + 512, 8, (t.preg ||| 1#16).toNat⟩, ⟨off + 520, 16, 2 ^ 128 - 1⟩, ⟨off + 648, 16, 2 ^ 128 - 1⟩] ++
  imgStore (off + 520) 16 (storeErase t.ma 0) (fun w => w.toNat) ++ imgStore (off + 648) 16 (storeErase t.mb 0) (fun w => w.toNat) ++
  imgRun (off + 776) 8 [t.flags.toNat, t.ftsel, t.spinlim, t.prioBase + 2 ^ 8 * t.prioCeil + 2 ^ 16 * t.pen.toNat, t.remt] ++
  imgRun (off + 816) 8 ((List.range 16).map (fun i => storeGet 0 t.allowOut i + 2 ^ 32 * storeGet 0 t.allowLim i)) ++
  imgRun (off + 944) 8 [t.cause.toNat, t.fval.toNat, t.tbun, t.tslot, t.range.next, t.range.limit,
    t.range.outstanding.toNat + 2 * t.range.exhausted.toNat +
      (match t.range.slot with | some r => 4 + 2 ^ 8 * r | none => 0)] ++
  [⟨off + 1000, 32, crewBits d t.tcid k (fun c => c.members)⟩, ⟨off + 1032, 32, crewBits d t.tcid k (fun c => c.arrived ++ c.nextArr)⟩] ++
  imgRun (off + 1064) 8 (t.hq.map (fun h => h.entry + 1)) ++
  [⟨off + 1128, 32, crewBits d t.tcid k (fun c => c.joining)⟩, ⟨off + 1160, 32, crewBits d t.tcid k (fun c => c.leaving)⟩]

/-- A queued or running operation: RTN and T, captured words and format, step and position in it, and its layout entries; MLDS keeps its
register in their place. -/
def MOp.fields (o : MOp) (icyc off : Nat) : List ImgField :=
  let x := icyc - o.start
  let st := if icyc < o.start then (0, 0) else if x < o.l0 then (0, x) else let y := o.stepAt x; (y.1 + (if 0 < o.l0 then 1 else 0), y.2)
  imgRun off 8 ([o.kind.rtn + 256 * o.t] ++ (List.range 3).map (fun i => (o.par.getD i 0).toNat) ++ [o.fmt.toNat, st.1, st.2]) ++
  (match o.kind with
   | .mlds p row d => [⟨off + 64, 8, p + 256 * row⟩, ⟨off + 72, 128, d.toNat⟩]
   | .mplane p tile => [⟨off + 56, 8, p + 256 * tile⟩] ++ imgRun (off + 64) 8 ((o.opnds.take 8).flatMap (fun e => e.map (fun w => w.toNat)))
   | _ => imgRun (off + 64) 8 ((o.opnds.take 8).flatMap (fun e => e.map (fun w => w.toNat))))

/-- The Matrix control section: 320 bytes for each of up to five operations. -/
def matrixFields (t : Strand) (off : Nat) : List ImgField :=
  imgStore off 8 t.mpShadow (fun w => w.toNat) ++ imgStore (off + 64) 8 t.mpActive (fun w => w.toNat) ++
  imgStore (off + 128) 4 t.ftab (fun w => w.toNat) ++ [⟨off + 192, 8, t.rofmt.toNat⟩] ++
  ((t.mq.filter (fun o => decide (t.icyc < o.ends))).take 5).zipIdx.flatMap (fun o => o.1.fields (t.icyc - t.begun) (off + 200 + 320 * o.2))

/-- An entry of the commit chain, with the index of its operation in the queue. -/
def chainFields (t : Strand) (off : Nat) : List ImgField :=
  t.chain.zipIdx.flatMap (fun e =>
    let c := e.1
    let b := off + 16 * e.2
    [⟨b, 8, lowBits 64 c.m⟩, ⟨b + 8, 2, lowBits 16 c.e⟩, ⟨b + 10, 1, c.flags % 256⟩, ⟨b + 11, 1, c.tile * 128 + c.row⟩, ⟨b + 12, 1, c.col⟩,
     ⟨b + 13, 1, c.due + t.begun - t.icyc⟩, ⟨b + 14, 1, (t.mq.findIdx (fun o => o.id == c.op))⟩])

/-- A hold latch: its bits, then full, fill pending, lost and kind (R363). -/
def latchFields (off : Nat) (e : Nat × Latch) : List ImgField :=
  let l := e.2
  [⟨off + 136 * e.1, 128, l.data.toNat⟩,
   ⟨off + 136 * e.1 + 128, 8, l.full.toNat + 2 * l.pend.isSome.toNat + 4 * l.lost.toNat + 8 * (l.kind % 8)⟩]

/-- The code of what a replayed access does. -/
def ReqKind.code : ReqKind → Nat
  | .load => 0
  | .store => 1
  | .atomic op ty => 2 + (match op with
    | .add => 0 | .addf => 1 | .min => 2 | .max => 3 | .and => 4 | .or => 5 | .xor => 6 | .swp => 7 | .cas => 8) + 16 * ty
  | .vred ty => 11 + 16 * ty

/-- The replay list: an entry for each located element of each held access, in issue order. -/
def replayEntries (t : Strand) : List (List Nat) :=
  (t.reqs.filter (fun r => r.held)).flatMap (fun r => r.els.map (fun e =>
    [r.kind.code + 2 ^ 16 * r.space + 2 ^ 20 * r.win + 2 ^ 24 * e.w + 2 ^ 32 * (match r.latch with | some l => l + 1 | none => 0),
     e.off, e.data % 2 ^ 64, e.exp % 2 ^ 64]))

/-- The offsets of the sections from the Commit chain on, and LEN. -/
structure ImgPlan where
  chain : Nat
  vec : Nat
  latch : Nat
  tiles : Nat
  planes : Nat
  flight : Nat
  replay : Nat
  core : Nat
  len : Nat
deriving DecidableEq, Repr

/-- The place of every section: those before the Commit chain have fixed sizes (R363). -/
def imgPlan (t : Strand) : ImgPlan :=
  let chain := 256 + 256 + 1536 + 512 + 2048 + 2048
  let vec := pad64 (chain + 16 * t.chain.length)
  let latch := vec + 4096 * (t.ga + t.gb)
  let tiles := pad64 (latch + 136 * t.nlatch)
  let planes := tiles + 196608 * t.ntile
  let flight := planes + 32768
  let replay := pad64 (flight + (flightFields 0 0 0 t.flight).2)
  let core := pad64 (replay + 32 * (replayEntries t).length)
  ⟨chain, vec, latch, tiles, planes, flight, replay, core, core + (if t.saveKind = some .checkpoint then 32768 * t.csu else 0)⟩

/-- The header (R364). -/
def headerFields (s : State) (t : Strand) : List ImgField :=
  imgRun 0 8 [t.serial % 2 ^ 64,
    t.tcid * 2 ^ 54 + t.num % 2048 * 2 ^ 43 + t.die * 2 ^ 40 + saveCode t.saveKind * 2 ^ 32 + t.image % 2 ^ 32,
    t.ga * 2 ^ 60 + t.gb * 2 ^ 56 + t.nlatch * 2 ^ 51 + t.ntile * 2 ^ 49 + t.csu * 2 ^ 43 + t.cgrp * 2 ^ 39 + t.chain.length * 2 ^ 26,
    t.flight.length * 2 ^ 48 + (replayEntries t).length * 2 ^ 32 + (s.launch t.lid).lnum % 2 ^ 32, (imgPlan t).len, t.base]

/-- The save image before its tags, as the fields that are not zero by omission (R363). -/
def saveImage (s : State) (k : Nat) : List ImgField :=
  let t := s.strand k
  let p := imgPlan t
  headerFields s t ++ sequencerFields t 256 ++ controlFields s k 512 ++
  imgRun 2048 8 (t.shadow.reverse.map (fun e => e.ret + 2 ^ 16 * e.depth)) ++ imgStore 2560 8 t.lay (fun w => w.toNat) ++ matrixFields t 4608 ++
  chainFields t p.chain ++ imgStore p.vec 128 t.va (fun w => w.toNat) ++ imgStore (p.vec + 4096 * t.ga) 128 t.vb (fun w => w.toNat) ++
  t.latches.flatMap (latchFields p.latch) ++ imgStore p.tiles 12 t.tiles AccEl.bits ++ imgStore p.planes 1 t.planes (fun b => b.toNat) ++
  (flightFields p.flight 0 t.begun t.flight).1 ++
  (replayEntries t).zipIdx.flatMap (fun e => imgRun (p.replay + 32 * e.2) 8 e.1) ++
  (if t.saveKind = some .checkpoint then t.img.map (fun c => ⟨p.core + c.1, 1, c.2.toNat⟩) else [])

/-! ## Save areas (R362, R371) -/

/-- The size of a save area: one 2 MiB page (R362). -/
def areaSize : Nat := 2 ^ 21

/-- The tags of the first n 64-byte blocks of an image that stands in memory (R371). -/
def State.imageTags (s : State) (k n : Nat) : List Word :=
  let t := s.strand k
  let c := s.ctx t.die t.tcid
  match t.area with
  | none => []
  | some a =>
    (List.range n).map (fun i => Config.saveTag c.suite ((c.saveKeys.map (fun x => x.2)).getD 0) (s.bytes (a + 64 * i) 64) (64 * i) t.serial)

/-- The strand's save area: the one that it has on its die, or one that the device OS assigns now (R362). -/
def State.assignArea (s : State) (k : Nat) : State :=
  let t := s.strand k
  let here := match t.area with | some a => a / 2 ^ 46 == t.die | none => false
  if here then s
  else
    match s.allocOs t.die areaSize with
    | some x => x.2.modStrand k (fun u => { u with area := some (hbmAddr t.die x.1) })
    | none => s.modStrand k (fun u => { u with area := none })

/-- The save engine writes the image and its tags into the save area (R363, R371). -/
def State.writeImage (s : State) (k : Nat) : State :=
  let t := s.strand k
  match t.area with
  | none => s
  | some a =>
    let s := (saveImage s k).foldl (fun s f => s.poke (a + f.off) f.n f.val) (s.zeroRange a areaSize)
    let len := (imgPlan t).len
    (s.imageTags k (len / 64)).zipIdx.foldl (fun s g => s.poke (a + len + 8 * g.2) 8 g.1.toNat) s

/-- The check of an image before any of it is loaded: no block has an uncorrectable error, every tag matches, and the header's SERIAL is
the one named (R371, R372). -/
def imageGood (s : State) (k serial : Nat) : Bool :=
  let t := s.strand k
  match t.area with
  | none => t.serial == serial
  | some a =>
    let n := min (s.read (a + 32) 8 / 64) (areaSize / 72)
    !(List.range (n + (n + 7) / 8)).any (fun i => s.poisonAt (a + 64 * i)) &&
    (s.imageTags k n).zipIdx.all (fun g => s.read (a + 64 * n + 8 * g.2) 8 == g.1.toNat) && s.read a 8 == serial

/-- What reaches a saved strand is applied to its saved state: an image that is intact is written anew (R344, R361). -/
def State.resave (s : State) (k : Nat) : State :=
  if (s.strand k).st = .saved ∧ imageGood s k (s.strand k).serial = true then s.writeImage k else s

/-- The save area and the spill page of a strand are discarded: they read zero (R375). -/
def State.dropArea (s : State) (k : Nat) : State :=
  let z (p : Option Nat) (n : Nat) (s : State) : State := match p with | some a => s.zeroRange a n | none => s
  z (s.strand k).spill 4096 (z (s.strand k).area areaSize s)

/-! ## Spill pages (R167) -/

/-- The spill page is assigned at admission (R167). -/
def State.assignSpill (s : State) (k : Nat) : State :=
  match s.allocOs (s.strand k).die 4096 with
  | some x => x.2.modStrand k (fun t => { t with spill := some (hbmAddr t.die x.1) })
  | none => s

/-- Entries of the shadow stack from the n-th spilled one up are written to the page, the oldest first, 8 bytes each (R167). -/
def State.writeSpill (s : State) (k n : Nat) : State :=
  let t := s.strand k
  match t.spill with
  | none => s
  | some a => (t.spilled.reverse.zipIdx.drop n).foldl (fun s e => s.poke (a + 8 * e.2) 8 (e.1.ret + 2 ^ 16 * e.1.depth)) s

end Sys2Proof.Machine
end

