-- ==== Sys2Proof/Machine/Ops.lean ====
section
/-! DEFINITION. The named operations that meanings share: landing results (R14, R79), taking a trap and returning from one
(R183, R355 to R360, R366), engine flag events (R344), waking waiting strands (R347, R353), and how one operation of a
bundle is run: its checks before issue, its stall and its effect (R51, R52, R54, R81). -/
namespace Sys2Proof.Machine

/-! ## Charges (R335, R336) -/

/-- n events of a class charged to a context: the account loses whole units of 1/256 BU, and the die keeps the sum of the
interval at CF = 1,024. -/
def State.charge (s : State) (die tcid cls n : Nat) : State :=
  let d := s.die die
  let chg := d.chg.getD cls 0 * n
  if chg = 0 then s
  else
    let s := s.modDie die (fun d => { d with echg := d.echg + chg * 1024 })
    s.modCtx die tcid (fun c =>
      let acc := c.energy.acc + chg * d.cf
      { c with energy := { c.energy with acc := acc % 4194304, enbal := c.energy.enbal - ((acc / 4194304 : Nat) : Int) } })

/-- Events charged to a strand's context. -/
def State.chargeOf (s : State) (t : Strand) (cls n : Nat) : State := s.charge t.die t.tcid cls n

/-! ## Landing (R79) -/

/-- Every byte or mask bit. -/
def fullEn : Mask := BitVec.allOnes 128

/-- An in-flight result of the issuing strand. -/
def State.pushIn (s : State) (e : InFlight) : State := s.onMe (fun t => { t with inflight := t.inflight ++ [e] })

/-- Land(dest, value, L) for a destination written whole (R14). -/
def State.land (s : State) (d : Dest) (l : Nat) (v : Vec) (slot : Slot) : State :=
  s.pushIn ⟨d, l, v, fullEn, false, none, slot, s.me.bun.addr⟩

/-- Land of a 64-bit value. -/
def State.landWord (s : State) (d : Dest) (l : Nat) (v : Word) (slot : Slot) : State := s.land d l (v.setWidth 1024) slot

/-- Land of one bit. -/
def State.landBit (s : State) (d : Dest) (l : Nat) (b : Bool) (slot : Slot) : State :=
  s.land d l (if b then 1 else 0) slot

/-- The 1,024-bit mask of enabled bytes. -/
def byteMask (en : Mask) : Vec :=
  BitVec.ofNat 1024 ((List.range 128).foldl (fun x i => if en.getLsbD i then x + 255 * 2 ^ (8 * i) else x) 0)

/-- Enabled bytes of a new value over an old one (R58, R365). -/
def blend (en : Mask) (new old : Vec) : Vec := (new &&& byteMask en) ||| (old &&& ~~~byteMask en)

/-- The byte enables that a lane mask gives lanes of w bits; for 4-bit lanes bit i governs byte i (R58, R185). -/
def laneEn (m : Mask) (w : Nat) : Mask :=
  BitVec.ofNat 128 ((List.range 128).foldl (fun x i => if m.getLsbD (i / (if w < 8 then 1 else w / 8)) then x + 2 ^ i else x) 0)

/-- A result landing in a register, mask, flag or control register (R69, R79). -/
def Strand.landReg (t : Strand) (e : InFlight) : Strand :=
  match e.dest with
  | .sreg n => t.ws n (e.data.setWidth 64)
  | .vreg f n => t.wv f n (blend e.en e.data (t.rv f n))
  | .preg n => t.wp n (e.data.getLsbD 0)
  | .mask f n => t.wm f n ((e.data.setWidth 128 &&& e.en) ||| (t.rm f n &&& ~~~e.en))
  | .flag n => t.wf n (e.data.getLsbD 0)
  | .csr n => t.csrSet n (e.data.setWidth 64).toNat
  | .lay n => { t with lay := storePut 0 t.lay n (e.data.setWidth 64) }
  | .mpShadow n =>
    -- mp0 can only be a word 0, whose bits [5:0] are reserved (R11, R246)
    let w : Word := e.data.setWidth 64
    { t with mpShadow := storePut 0 t.mpShadow n (if n = 0 then w / 64 * 64 else w) }
  | .rofmt => { t with rofmt := e.data.setWidth 32 }
  | .band tile row seg raw fmt => t.bandWrite tile row seg raw fmt e.data
  | .core _ => t
  | .coreRed _ _ => t

/-- A cause that falls due (R183). -/
def Strand.addCause (t : Strand) (p : Pending) : Strand := { t with causes := t.causes ++ [p] }

/-! ## Writes and the strands that wait on them (R347, R420) -/

/-- A byte lies in one of several writes, given as (address, width). -/
def covered (ws : List (Nat × Nat)) (a : Nat) : Bool := ws.any (fun e => decide (e.1 ≤ a) && decide (a < e.1 + e.2))

/-- A write that replaces a whole protected unit ends its poison (R419, R420). Any write of a block computes its check value anew (R298). -/
def State.clearPoison (s : State) (ws : List (Nat × Nat)) : State :=
  { s with
    poisoned := s.poisoned.filter (fun u => !(List.range (eccSize u)).all (fun i => covered ws (eccAddr u + i)))
    badCheck := s.badCheck.filter (fun b => !(List.range 64).any (fun i => covered ws (64 * b + i))) }

/-- The strand is a SPIN waiter, in the drain or WAITING, on a unit of a kind (R346, R347). -/
def Strand.spinsOn (t : Strand) (p : Nat → Bool) : Bool :=
  match t.st, t.wait, t.switchTo, t.drain with
  | .waiting, .spin u, _, _ => p u
  | .issuing, _, some (.wait (.spin u)), _ => p u
  | .issuing, _, _, some (.wait (.spin u)) => p u
  | _, _, _, _ => false

/-- The wait of a SPIN waiter ends: it becomes READY, at once or at the end of its drain (R347). -/
def Strand.endSpin (t : Strand) (now : Nat) : Strand :=
  if t.st = .waiting then { t with st := .ready, readySince := now }
  else { t with switchTo := t.switchTo.map (fun _ => .yield), drain := t.drain.map (fun _ => .yield) }

/-- SPIN waiters on a written 128-byte unit become READY (R347). -/
def State.wakeSpin (s : State) (ws : List (Nat × Nat)) : State :=
  let hit (u : Nat) : Bool := ws.any (fun x => decide (x.1 / 128 ≤ u) && decide (u ≤ (x.1 + x.2 - 1) / 128))
  { s with strands := s.strands.map (fun e => (e.1, if e.2.spinsOn hit then e.2.endSpin s.time else e.2)) }

/-- Elements (address, width, data) performed at their homes by one writer, with all that a write at a home does. -/
def State.homeWrite (s : State) (wr : Writer) (els : List (Nat × Nat × Nat)) : State :=
  let ws := els.map (fun e => (e.1, e.2.1))
  ((s.performEls wr els).clearPoison ws).wakeSpin ws

/-- Bytes performed at their homes by a die's engines, published at a scope (R221, R356). -/
def State.deviceWrite (s : State) (die a : Nat) (bs : List Byte) (scope : Nat) : Nat × State :=
  let f := s.fresh
  let x := if scope < narrowest (engineOf die) a then narrowest (engineOf die) a else scope
  (f.1, f.2.homeWrite ⟨f.1, none, engineOf die, false, some x, none⟩ (chunkUnits (bs.length + 1) a bs))

/-- Bytes of core scratch written: they take no part in any home order (R219). -/
def State.scratchWrite (s : State) (cells : List Host.Cell) : State :=
  let ws := cells.map (fun c => (c.1, 1))
  ((s.pokeCells cells).clearPoison ws).wakeSpin ws

/-! ## Fault records and energy reports (R356, R357, R368) -/

/-- A fault record (R357); BADDR of its SEQSTAT is TBUN. An ENERGY_STOP gives the SEQSTAT of the park (R368). -/
def faultRecord (t : Strand) (c : Ctx) (lnum : Nat) (p : Pending) (pos serial : Nat) : List Byte :=
  leBytes 1 p.cause.code ++ leBytes 1 p.tslot ++ leBytes 2 t.num ++ leBytes 4 lnum ++ leBytes 8 p.fval.toNat ++
  leBytes 8 (if p.cause = .energyStop then t.parkStat else seqstat t c p.tbun).toNat ++ (List.range 6).flatMap (fun k => leBytes 8 (t.lstk k).toNat) ++
  leBytes 4 t.ldone ++ leBytes 4 t.lbase ++ leBytes 2 t.lres ++ leBytes 2 pos ++ leBytes 2 p.tbun ++ leBytes 2 t.die ++
  leBytes 8 serial ++ leBytes 32 0

/-- A waiting strand whose condition holds becomes READY, or enters ENERGY when it was parked at its wait and the balance is
zero or below (R176, R324). -/
def State.wakePlain (s : State) (k : Nat) : State :=
  s.modStrand k (fun t =>
    if t.st = .waiting then
      { t with st := if t.parked && (s.ctx t.die t.tcid).estop then .energy else .ready, readySince := s.time }
    else t)

/-- An engine or arrival event sets a flag, in the frame or in the saved state, and a WAITF on it ends (R344, R345). -/
def State.flagEvent (s : State) (k n : Nat) (wids : List Nat) : State :=
  let s := s.modStrand k (fun t => { t.wf n true with view := viewAdd t.view (s.keysOf wids) })
  (match (s.strand k).wait with
   | .flag m _ => if m = n then s.wakePlain k else s
   | _ => s).resave k

/-- The virtual address of the next slot of the fault ring (R356). -/
def Deleg.va (d : Deleg) : Nat := match d.entry with | some r => r.frva + 128 * d.frnext | none => 0

/-- The slot of the fault ring that a cause of a strand may be written to (R356): the fault strand, its flag, and the
slot's address. -/
def State.faultSlot (s : State) (k : Nat) (code : Nat) : Option (Nat × Nat × Nat) :=
  let t := s.strand k
  let c := s.ctx t.die t.tcid
  match c.deleg.entry with
  | none => none
  | some r =>
    match s.namedStrand t.die t.tcid r.flaunch r.fstrand, deviceVa s t.die t.tcid (r.frva + 128 * c.deleg.frnext) with
    | some f, some a =>
      if r.dmask.getLsbD code && ((s.strand f).resident || (s.strand f).parked) && f != k && !s.poisonAt a && s.byte a == 0 then some (f, r.fflag, a) else none
    | _, _ => none

/-- A fault record is written, published at DIE scope and announced; `false` when a condition of R356 fails. A fault strand that the
flag brings into ENERGY makes the context's ENERGY_STOP report, which goes to the device OS since it is its own (R356, R368). -/
def State.sendFault (s : State) (k : Nat) (p : Pending) (pos serial : Nat) : Bool × State :=
  match s.faultSlot k p.cause.code with
  | none => (false, s)
  | some (f, flag, a) =>
    let t := s.strand k
    let s := touchLeaf s t.die t.tcid ((s.ctx t.die t.tcid).deleg.va) true
    let r := s.deviceWrite t.die a (faultRecord t (s.ctx t.die t.tcid) (s.launch t.lid).lnum p pos serial) 2
    let s := r.2.modCtx t.die t.tcid (fun c => { c with deleg := { c.deleg with frnext := (c.deleg.frnext + 1) % 256 } })
    let s' := s.flagEvent f flag [r.1]
    (true, if (s.strand f).st = .waiting ∧ (s'.strand f).st = .energy then
        s'.modCtx t.die t.tcid (fun c => { c with energy := { c.energy with reported := true } })
      else s')

/-- A strand enters ENERGY; the first of its context in a refill window makes the ENERGY_STOP report (R337, R368). A report that is not
delegated reaches the device OS, which does nothing about it, since R368 makes it a report and no fault (DESIGN CHOICE, log entry 97). -/
def State.toEnergy (s : State) (k : Nat) : State :=
  let s := s.modStrand k (fun t => { t with st := .energy })
  let t := s.strand k
  if (s.ctx t.die t.tcid).energy.reported then s
  else
    let s := s.modCtx t.die t.tcid (fun c => { c with energy := { c.energy with reported := true } })
    (s.sendFault k ⟨.energyStop, 0, 0, 0⟩ t.lres 0).2

/-- A waiting strand whose condition holds (R324), with the report of R368. -/
def State.wake (s : State) (k : Nat) : State :=
  let s' := s.wakePlain k
  if (s.strand k).st = .waiting ∧ (s'.strand k).st = .energy then s'.toEnergy k else s'

/-- A flag event with the report of R368. -/
def State.setFlag (s : State) (k n : Nat) (wids : List Nat) : State :=
  let s' := s.flagEvent k n wids
  if (s.strand k).st = .waiting ∧ (s'.strand k).st = .energy then s'.toEnergy k else s'

/-! ## Taking a trap (R183, R355, R356, R359) -/

/-- A cause is delivered: as a fault record when it is delegated and the ring can take it, else to the device OS, which
acts when the save is complete (R356, R358). -/
def State.deliver (s : State) (k : Nat) (p : Pending) (emul : Bool) : State :=
  let t := s.strand k
  let r := if p.cause.delegable emul then s.sendFault k p t.pos t.serial else (false, s)
  if r.1 then r.2 else s.modStrand k (fun t => { t with osCause := some p, osEmul := emul })

/-- Whether a strand has executed END: it retires, or its drain leads there (R35, R180). -/
def Strand.ending (t : Strand) : Bool :=
  t.st == .retiring || t.wasRetiring || t.drain == some .ended || t.switchTo == some .ended

/-- A trap of a strand: CAUSE, FVAL, TBUN and TSLOT take the delivered values, the frame enters SAVING with the next save
serial, every unit of its core freezes until the capture is complete, and the cause is delivered (R355, R359). The saved
position is the strand's position, which the caller has set (R183). A trap after END is delivered as if the END bundle had
raised it (R44). -/
def State.takeTrap (s : State) (k : Nat) (p : Pending) (emul : Bool) : State :=
  let t := s.strand k
  let p := if t.ending then { p with tbun := t.bun.addr } else p
  let ser := (s.ctx t.die t.tcid).serial + 1
  let s := s.modCtx t.die t.tcid (fun c => { c with serial := ser })
  let s := s.modStrand k (fun t =>
    { t with
      cause := BitVec.ofNat 8 p.cause.code, fval := p.fval, tbun := p.tbun, tslot := p.tslot
      st := .saving, saveKind := some .trap, serial := ser, wasRetiring := t.st == .retiring, osCause := none, osEmul := false })
  let s := s.modCore t.core (fun c =>
    { c with frozen := true, issuing := if c.issuing = some k then none else c.issuing })
  s.deliver k p emul

/-- The clear of a flag by an engine operation of a slot is still in flight: the operation has only just issued, and its engine takes it
after the clear has landed (R344). -/
def Strand.clearing (t : Strand) (n : Nat) (slot : Slot) : Bool := t.inflight.any (fun e => e.slot == slot && e.dest == .flag n)

/-- The clear lands early, for an operation that is completed before a save (R149). -/
def Strand.landClear (t : Strand) (n : Nat) (slot : Slot) : Strand :=
  { t with inflight := t.inflight.filter (fun e => !(e.slot == slot && e.dest == .flag n)) }

/-- A SPIN of the strand is polling: no trap is taken until the attempt ends (R353). -/
def Strand.polling (t : Strand) : Bool := t.st == .issuing && decide (0 < t.polls)

/-! ## One landing (R79, R104, R367) -/

/-- Bytes of core scratch that a store of the strand is about to overwrite, kept for its LDHs that are still to read them: those were
issued earlier, or in the store's own bundle (R136). -/
def State.keepBytes (s : State) (k : Nat) (as_ : List Nat) : State :=
  s.modStrand k (fun t => { t with reqs := t.reqs.map (fun r =>
    if r.kind = .load ∧ r.space = 0 then
      { r with kept := r.kept ++ (as_.filter (fun a => !r.kept.any (fun c => c.1 == a))).map (fun a => (a, s.byte a)) }
    else r) })

/-- A result lands: a landing trap or poison raises its cause and writes nothing, as does an uncorrectable error in the elements that a
VRED on core scratch reads (R420); otherwise the destination is written. -/
def State.landOne (s : State) (k : Nat) (e : InFlight) : State :=
  let due (c : Cause) (v : Word) : State := s.modStrand k (fun t => t.addCause ⟨c, v, e.tbun, 2 ^ e.slot.bit⟩)
  match e.trap with
  | some (c, v) => due c v
  | none =>
    if e.poison then { due .eccUncorrectable (Config.eccFval s.nfree) with nfree := s.nfree + 1 }
    else
      let t := s.strand k
      let at_ (off : Nat) : Nat := s.scratchAddr t 0 off
      match e.dest with
      | .core cells => (s.keepBytes k (cells.map (fun c => at_ c.1))).scratchWrite (cells.map (fun c => (at_ c.1, c.2)))
      | .coreRed ty lanes =>
        let w := tyWidth ty / 8
        if lanes.any (fun l => (List.range w).any (fun i => s.poisonAt (at_ l.1 + i))) then
          { due .eccUncorrectable (Config.eccFval s.nfree) with nfree := s.nfree + 1 }
        else lanes.foldl (fun s l =>
          let new := combine .sum ty (s.read (at_ l.1) w) l.2
          (s.keepBytes k ((List.range w).map (fun i => at_ l.1 + i))).scratchWrite
            ((List.range w).map (fun i => (at_ l.1 + i, BitVec.ofNat 8 (new / 256 ^ i))))) s
      | _ => s.modStrand k (fun t => t.landReg e)

/-- Whether a result is an MWR landing, which follows the commits of its cycle (R238). -/
def InFlight.isBand (e : InFlight) : Bool :=
  match e.dest with
  | .band _ _ _ _ _ => true
  | _ => false

/-- Every due result of one kind lands, in issue order (R79, R238, R344). -/
def State.landDue (s : State) (k : Nat) (bands : Bool) : State :=
  let t := s.strand k
  let due := t.inflight.filter (fun e => e.rem == 0 && e.isBand == bands)
  let s := s.modStrand k (fun t => { t with inflight := t.inflight.filter (fun e => !(e.rem == 0 && e.isBand == bands)) })
  due.foldl (fun s e => s.landOne k e) s

/-- An issue cycle of a strand begins: its count and its run counter advance, every in-flight result comes one cycle nearer,
and a load that read a poisoned row in its read cycle makes its cause due (R6, R79, R150, R177). -/
def State.tick (s : State) (k : Nat) (run : Bool) : State :=
  let t := s.strand k
  let ecc := t.inflight.filter (fun e => e.poison && e.rem == 6)
  let s := s.modStrand k (fun t =>
    { t with
      icyc := t.icyc + 1, runCount := if run then t.runCount + 1 else t.runCount
      inflight := t.inflight.map (fun e => { e with rem := e.rem - 1 }) })
  ecc.foldl (fun s e =>
    { s.modStrand k (fun t => t.addCause ⟨.eccUncorrectable, Config.eccFval s.nfree, e.tbun, 2 ^ e.slot.bit⟩) with
      nfree := s.nfree + 1 }) s

/-! ## One operation of a bundle -/

/-- An operation in its bundle: `chk` are the conditions of R51 that it meets, whatever its guard; `dyn` is the precise
trap that it raises when its guard is true, with FVAL (R183); `stall` says that it must wait (R81); `eff` is its effect. -/
structure Op where
  i : Instr
  slot : Slot
  g : Guard
  chk : List Cause
  dyn : Option (Cause × Word)
  emul : Bool
  stall : Bool
  eff : State → State

/-- FVAL of a condition of R51: the syllable, zero-extended (R52). -/
def syllableOf (i : Instr) : Word := BitVec.ofNat 64 (encodeSyllable i)

/-- What the operation meets before issue (R51, R52, R54). -/
def Op.findings (o : Op) (t : Strand) : List Finding :=
  o.chk.map (fun c => ⟨c, o.slot, syllableOf o.i, false⟩) ++
  (match o.dyn with
   | some (c, v) => if t.guard o.g then [⟨c, o.slot, v, o.emul⟩] else []
   | none => [])

/-- The slots of a TSLOT value, from those that meet a cause. -/
def tslotOf (fs : List Finding) : Nat := (Slot.all.filter (fun sl => fs.any (fun f => f.slot == sl))).foldl (fun x sl => x + 2 ^ sl.bit) 0

/-- The cause that several findings raise: the smallest code, the slots that meet it, the FVAL of the first in slot order, and
whether every one of them is emulated (R52, R121). -/
def worst (fs : List Finding) (tbun : Nat) : Option (Pending × Bool) :=
  match fs with
  | [] => none
  | f :: r =>
    let c := r.foldl (fun c g => if g.cause.code < c.code then g.cause else c) f.cause
    let ms := fs.filter (fun g => g.cause == c)
    let v := (Slot.all.findSome? (fun sl => (ms.find? (fun g => g.slot == sl)).map (fun g => g.fval))).getD 0
    some (⟨c, v, tbun, tslotOf ms⟩, ms.all (fun g => g.emul))

/-- The trap before issue that findings raise for the issuing strand (R52). -/
def State.raise (s : State) (fs : List Finding) : State :=
  match s.self, worst fs s.me.bun.addr with
  | some k, some (p, emul) => s.takeTrap k p emul
  | _, _ => s

/-- One operation run as the bundle's mode asks: alone, its checks only, or its effect only. A core that issues for no strand
does nothing. -/
def Op.apply (o : Op) (s : State) : State :=
  if s.self = none then s
  else
    let t := s.me
    let fs := o.findings t
    let on := t.guard o.g
    match s.mode with
    | .check => { s with found := s.found ++ fs, stall := s.stall || (on && o.stall) }
    | .commit => if on then o.eff s else s
    | .whole =>
      if fs.isEmpty = false then s.raise fs
      else if on && o.stall then { s with stall := true }
      else if on then o.eff s else s

/-- The outcome of an operation: always a next state. -/
def Op.run (o : Op) (s : State) : Host.Outcome State Fault Refusal := .next (o.apply s)

/-- An operation without checks, traps or stalls. -/
def Op.plain (i : Instr) (slot : Slot) (g : Guard) (eff : State → State) : Op := ⟨i, slot, g, [], none, false, false, eff⟩

/-! ## Conditions of R51 and R77 -/

/-- A condition as a list of causes. -/
def cond (b : Bool) (c : Cause) : List Cause := if b then [c] else []

/-- A vector register beyond the allocation of its file (R77). -/
def vreg (t : Strand) (f : VFile) (n : Nat) : List Cause := cond (decide (32 * t.granules f ≤ n)) .regRange
/-- A hold latch beyond the allocation (R77). -/
def hreg (t : Strand) (n : Nat) : List Cause := cond (decide (t.nlatch ≤ n)) .regRange
/-- An accumulator tile beyond the allocation (R77). -/
def treg (t : Strand) (tile : Nat) : List Cause := cond (decide (t.ntile ≤ tile)) .regRange
/-- An operation that a handler does not issue (R38). -/
def noHandler (t : Strand) : List Cause := cond t.hsave.isSome .illegalOp

/-- A latch read (R51, R70, R77): beyond the allocation, or empty with no fill pending. -/
def latchChk (t : Strand) (n : Nat) : List Cause :=
  hreg t n ++ cond (let h := t.rh n; decide (n < t.nlatch) && !h.full && h.pend.isNone && !h.lost) .illegalOp
/-- A read of a latch whose fill was lost with its link (R231). FVAL holds the syllable (R52). -/
def latchDyn (i : Instr) (t : Strand) (n : Nat) : Option (Cause × Word) :=
  let h := t.rh n
  if h.lost && !h.full && h.pend.isNone then some (.linkUncertain, syllableOf i) else none
/-- A read waits while a fill is pending (R70, R81). -/
def latchStall (t : Strand) (n : Nat) : Bool := (t.rh n).pend.isSome

/-- A latch read without K clears the full bit (R70). -/
def Strand.takeLatch (t : Strand) (n : Nat) (keep : Bool) : Strand :=
  if keep then t else t.wh n { t.rh n with full := false }
/-- A latch bound by a request: the full bit clears and a fill is pending; an earlier pending fill is superseded (R70). -/
def Strand.bindLatch (t : Strand) (n id : Nat) : Strand := t.wh n { t.rh n with full := false, pend := some id, lost := false }
/-- A fill arrives: it is taken by the latch that still waits for it, and discarded otherwise (R70). -/
def Strand.fillLatch (t : Strand) (n id kind : Nat) (v : Vec) : Strand :=
  if (t.rh n).pend = some id then t.wh n ⟨v, true, none, false, kind⟩ else t

end Sys2Proof.Machine
end

