-- ==== Sys2Proof/Machine/Flags.lean ====
section
/-! DEFINITION. The conditions: the scalar conditions of CMP and CMPI (R56), the predicate operations (R157) and the
conditions of SPIN (R346). Vector conditions are in Float.lean (R195). -/
namespace Sys2Proof.Machine

/-- The truth of a scalar condition code on a and b (R56). -/
def scalarCond (cc : Nat) (a b : Word) : Bool :=
  match cc with
  | 0 => a == b
  | 1 => a != b
  | 2 => a.slt b
  | 3 => !a.slt b
  | 4 => a.ult b
  | 5 => !a.ult b
  | 6 => (a &&& b) != 0
  | _ => (a &&& b) == 0

/-- The predicate operations (R157). -/
inductive POp where
  | and | or | xor
deriving DecidableEq, Repr

/-- Their truth. -/
def POp.eval (op : POp) (x y : Bool) : Bool :=
  match op with
  | .and => x && y
  | .or => x || y
  | .xor => x != y

/-- The condition of a SPIN on the element and the compare value, both unsigned (R346). -/
def spinCond (cond v x : Nat) : Bool :=
  match cond with
  | 0 => v == x
  | 1 => v != x
  | 2 => decide (x ≤ v)
  | 3 => decide (v < x)
  | _ => (v &&& x) != 0

end Sys2Proof.Machine
end

