-- ==== Sys2Proof/Machine/Control.lean ====
section
/-! DEFINITION. Branches, calls and loops (R161 to R175), and YIELD, END and HRET (R179 to R181). A taken transfer sets the
position and owes two empty issue cycles; every other bundle's next position is found by `edgeWalk` (R172). The loop stack
is a list with the innermost level first, and the shadow stack likewise with the newest entry first. -/
namespace Sys2Proof.Machine

/-! ## Popping levels -/

/-- LBASE after a level is popped by a branch, RET or LBRK, or exits (R175). -/
def Loop.lbaseAfter (l : Loop) (lbase : Nat) : Nat := if 0 < l.depth then 0 else lbase

/-- The pops of a taken branch to a target: levels above the floor whose body does not hold it (R173). -/
def popOutside (floor target : Nat) : List Loop → Nat → List Loop × Nat
  | [], lb => ([], lb)
  | l :: r, lb =>
    if floor < (l :: r).length ∧ (target < l.start ∨ (l.endl + 1) * 16 ≤ target) then
      popOutside floor target r (l.lbaseAfter lb)
    else (l :: r, lb)

/-- Pops of a number of levels (R166, R174). -/
def popLevels : Nat → List Loop → Nat → List Loop × Nat
  | 0, ls, lb => (ls, lb)
  | _, [], lb => ([], lb)
  | n + 1, l :: r, lb => popLevels n r (l.lbaseAfter lb)

/-- What the search for the next position leaves (R172, R175). -/
structure EdgeRes where
  loops : List Loop
  pos : Nat
  lbase : Nat
  ldone : Nat
  edge : Bool
  forced : Bool
deriving DecidableEq, Repr

/-- The procedure of R172 for a bundle with sequential successor `succ` that ends line `line`: levels above the floor that end
on the line take their back edge, exit, or are forced to exit while a stop is pending. -/
def edgeWalk (floor line succ : Nat) (stop : Bool) : List Loop → Nat → Nat → Bool → EdgeRes
  | [], lb, ld, e => ⟨[], succ, lb, ld, e, false⟩
  | l :: r, lb, ld, e =>
    if floor < (l :: r).length ∧ l.endl = line then
      if 0 < l.count ∧ 0 < l.depth ∧ stop = true then
        ⟨r, succ, lb + (ld + 1 + (l.depth - 1)), ld + 1 + (l.depth - 1), true, true⟩
      else if 0 < l.count then
        ⟨{ l with count := l.count - 1 } :: r, l.start, lb, if 0 < l.depth then ld + 1 else ld, true, false⟩
      else edgeWalk floor line succ stop r (l.lbaseAfter lb) (if 0 < l.depth then ld + 1 else ld) true
    else ⟨l :: r, succ, lb, ld, e, false⟩

/-- The next position of a bundle (R172): `line` is the fetch line it ends, if it ends one. -/
def nextPos (t : Strand) (stop : Bool) (succ : Nat) (line : Option Nat) : EdgeRes :=
  match line with
  | none => ⟨t.loops, succ, t.lbase, t.ldone, false, false⟩
  | some l => edgeWalk t.floor l succ stop t.loops t.lbase t.ldone false

/-- The strand after the search. -/
def Strand.withEdge (t : Strand) (r : EdgeRes) : Strand :=
  { t with loops := r.loops, pos := r.pos, lbase := r.lbase, ldone := r.ldone, next := .known }

/-- The position is found, without the stop test of its cycle (R183). -/
def State.settlePos (s : State) (k : Nat) : State :=
  s.modStrand k (fun t =>
    match t.next with
    | .known => t
    | .eval succ line => t.withEdge (nextPos t (stopPending t (s.ctx t.die t.tcid)) succ line))

/-- The position of the bundle due to issue (R172, R177). -/
def State.duePos (s : State) (k : Nat) : Nat :=
  let t := s.strand k
  match t.next with
  | .known => t.pos
  | .eval succ line => (nextPos t (stopPending t (s.ctx t.die t.tcid)) succ line).pos

/-- The empty issue cycles that a strand owes (R163). -/
def Strand.residue (t : Strand) : Nat := t.eres + t.bres

/-- The switch point of the bundle, once its empty cycles and its back edge are done: the drain begins (R163, R176). -/
def Strand.startDrain (t : Strand) : Strand :=
  match t.switchTo with
  | none => t
  | some d => { t with drain := some d, switchTo := none, runCount := 0 }

/-- A trap at the end of an issue cycle, or of a frame that is not issuing: the saved position is the next one, and a switch
point whose empty cycles have issued takes effect before any further bundle (R163, R183, R360). -/
def State.endTrap (s : State) (k : Nat) (p : Pending) : State :=
  ((s.settlePos k).modStrand k (fun t => if t.residue = 0 then t.startDrain else t)).takeTrap k p false

/-- The cause of an engine operation or a TMOV that failed (R298, R312): at the end of the issue cycle, or pending for a strand that is
being saved. -/
def State.raiseCe (s : State) (k : Nat) (p : Pending) : State :=
  let t := s.strand k
  if t.resident = false ∨ t.st = .saving ∨ t.polling = true then s.modStrand k (fun t => t.addCause p) else s.endTrap k p

/-! ## Branches and calls (R161 to R168) -/

/-- A taken transfer to a target: it is the next position after two empty issue cycles (R162, R163). -/
def Strand.transfer (t : Strand) (target : Nat) : Strand := { t with pos := target, bres := 2, next := .known }

/-- A taken BR or BRI (R173). -/
def Strand.branchTo (t : Strand) (target : Nat) : Strand :=
  let p := popOutside t.floor target t.loops t.lbase
  ({ t with loops := p.1, lbase := p.2 } : Strand).transfer target

/-- The target of BR and CALL (R161). -/
def Strand.regTarget (t : Strand) (sa : Nat) : Nat := (t.rs sa).toNat % 65536
/-- The target of BRI and CALLI (R161). -/
def Strand.relTarget (t : Strand) (imm : Nat) : Nat := (t.bun.addr + (t.src (.imm imm)).toNat) % 65536

/-- BR (R161). -/
def execBr (o : BrOps) (s : State) : Host.Outcome State Fault Refusal :=
  (Op.plain (.br o) .s o.g (fun s => s.onMe (fun t => t.branchTo (t.regTarget o.sa)))).run s
/-- BRI (R161). -/
def execBri (o : BriOps) (s : State) : Host.Outcome State Fault Refusal :=
  (Op.plain (.bri o) .s o.g (fun s => s.onMe (fun t => t.branchTo (t.relTarget o.imm)))).run s

/-- The shadow stack's capacity (R167). -/
def shadowMax : Nat := 576

/-- A call (R165, R167): the link lands in s62, an entry is pushed, and the floor becomes the loop depth. -/
def opCall (i : Instr) (g : Guard) (target : Strand → Nat) (s : State) : Op :=
  let t := s.me
  { i := i, slot := .s, g := g, chk := []
    dyn := if shadowMax ≤ t.held then some (.shadowOverflow, BitVec.ofNat 64 shadowMax) else none
    emul := false
    stall := decide (64 ≤ t.shadow.length)
    eff := fun s =>
      (s.landWord (.sreg 62) 1 (BitVec.ofNat 64 s.me.bun.succ) .s).onMe (fun t =>
        ({ t with shadow := ⟨t.bun.succ % 65536, t.ldepth⟩ :: t.shadow, floor := t.ldepth } : Strand).transfer (target t)) }

/-- CALL (R165). -/
def execCall (o : BrOps) (s : State) : Host.Outcome State Fault Refusal :=
  (opCall (.call o) o.g (fun t => t.regTarget o.sa) s).run s
/-- CALLI (R165). -/
def execCalli (o : BriOps) (s : State) : Host.Outcome State Fault Refusal :=
  (opCall (.calli o) o.g (fun t => t.relTarget o.imm) s).run s

/-- The shadow-stack depth below which entries belong to the code outside the handler (R166, R168). -/
def Strand.shadowBase (t : Strand) : Nat :=
  match t.hsave with
  | some h => h.shadow
  | none => 0

/-- The loop floor once the newest entry is gone: the depth that the innermost outstanding CALL or handler entry recorded
(R168). -/
def Strand.floorOf (t : Strand) : Nat :=
  if t.shadowBase < t.held then
    match t.shadow ++ t.spilled with
    | e :: _ => e.depth
    | [] => 0
  else
    match t.hsave with
    | some h => h.depth
    | none => 0

/-- The trap of RET (R166). -/
def retDyn (t : Strand) : Option (Cause × Word) :=
  if t.held ≤ t.shadowBase then some (.controlIntegrity, t.rs 62)
  else
    match t.shadow with
    | e :: _ => if t.rs 62 = BitVec.ofNat 64 e.ret then none else some (.controlIntegrity, t.rs 62)
    | [] => none

/-- What RET does to the strand (R166). -/
def Strand.doRet (t : Strand) : Strand :=
  match t.shadow with
  | [] => t
  | e :: r =>
    let p := popLevels (t.ldepth - e.depth) t.loops t.lbase
    let t := { t with shadow := r, loops := p.1, lbase := p.2 }
    ({ t with floor := t.floorOf } : Strand).branchTo e.ret

/-- RET (R166); it stalls while the page holds the entries (R167). -/
def opRet (g : Guard) (s : State) : Op :=
  let t := s.me
  { i := .ret g, slot := .s, g := g, chk := [], dyn := retDyn t, emul := false
    stall := t.shadow.isEmpty && !t.spilled.isEmpty
    eff := fun s => s.onMe Strand.doRet }
def execRet (g : Guard) (s : State) : Host.Outcome State Fault Refusal := (opRet g s).run s

/-- The hardware's spills and fills: at most 48 entries on chip while the page has room for 512, and at least 16 while the page holds
entries (R167). -/
def Strand.settleShadow (t : Strand) : Strand :=
  let n := min (t.shadow.length - 48) (512 - t.spilled.length)
  if 0 < n then { t with shadow := t.shadow.take (t.shadow.length - n), spilled := t.shadow.drop (t.shadow.length - n) ++ t.spilled }
  else if t.shadow.length < 16 ∧ t.spilled ≠ [] then
    let n := 16 - t.shadow.length
    { t with shadow := t.shadow ++ t.spilled.take n, spilled := t.spilled.drop n }
  else t

/-! ## The loop unit (R169 to R175) -/

/-- The count that an LSET takes: an immediate, or a register clamped to 0 and 2^32 − 1 as signed (R170). -/
def lsetCount (t : Strand) : Src → Nat
  | .imm v => v
  | .reg r =>
    let x := (t.rs r).toInt
    if x < 0 then 0 else if 2 ^ 32 ≤ x then 2 ^ 32 - 1 else x.toNat

/-- The end line of an LSET's body (R169). -/
def lsetEnd (t : Strand) (o : LsetOps) : Nat := t.bun.addr / 16 + o.e

/-- The conditions under which an LSET raises ILLEGAL_OP (R170). -/
def lsetBad (t : Strand) (o : LsetOps) : Bool :=
  let endl := lsetEnd t o
  decide (endl < t.bun.succ / 16) || t.ldepth == 6 ||
  (match t.loops with
   | l :: _ => decide (t.floor < t.ldepth) && decide (l.endl < endl)
   | [] => false) ||
  (decide (0 < o.depth) && t.loops.any (fun l => decide (0 < l.depth)))

/-- What an LSET does to the strand (R170, R175). -/
def Strand.doLset (t : Strand) (o : LsetOps) : Strand :=
  let n := lsetCount t o.cnt
  let endl := lsetEnd t o
  if n = 0 then { t with bres := 2, next := .eval ((endl + 1) * 16) (some endl) }
  else
    { t with
      loops := ⟨t.bun.succ, endl, o.depth, o.f, n - 1⟩ :: t.loops
      ldone := if 0 < o.depth then 0 else t.ldone, pos := t.bun.succ, next := .known }

/-- LSET (R169, R170). -/
def opLset (o : LsetOps) (s : State) : Op :=
  let t := s.me
  { i := .lset o, slot := .sy, g := o.g, chk := []
    dyn := if lsetBad t o then some (.illegalOp, syllableOf (.lset o)) else none
    emul := false, stall := false, eff := fun s => s.onMe (fun t => t.doLset o) }
def execLset (o : LsetOps) (s : State) : Host.Outcome State Fault Refusal := (opLset o s).run s

/-- What an LBRK does to the strand (R174). -/
def Strand.doLbrk (t : Strand) (n : Nat) : Strand :=
  let e := match t.loops[n - 1]? with
    | some l => l.endl
    | none => 0
  let p := popLevels n t.loops t.lbase
  { t with loops := p.1, lbase := p.2, bres := 2, next := .eval ((e + 1) * 16) (some e) }

/-- LBRK (R174). -/
def opLbrk (o : NumOps) (s : State) : Op :=
  let t := s.me
  { i := .lbrk o, slot := .sy, g := o.g, chk := []
    dyn := if t.ldepth - t.floor < o.n then some (.illegalOp, syllableOf (.lbrk o)) else none
    emul := false, stall := false, eff := fun s => s.onMe (fun t => t.doLbrk o.n) }
def execLbrk (o : NumOps) (s : State) : Host.Outcome State Fault Refusal := (opLbrk o s).run s

/-! ## YIELD, END and HRET (R179 to R181) -/

/-- YIELD: a switch point (R179). -/
def opYield (g : Guard) (s : State) : Op :=
  { Op.plain (.yield g) .sy g (fun s => s.onMe (fun t => { t with switchTo := some .yield })) with chk := noHandler s.me }
def execYield (g : Guard) (s : State) : Host.Outcome State Fault Refusal := (opYield g s).run s

/-- END: fetch stops, no back edge is evaluated, and the strand retires once R44 holds (R180). -/
def opEnd (g : Guard) (s : State) : Op :=
  { Op.plain (.endStrand g) .sy g (fun s => s.onMe (fun t => { t with switchTo := some .ended, next := .known })) with
    chk := noHandler s.me }
def execEndStrand (g : Guard) (s : State) : Host.Outcome State Fault Refusal := (opEnd g s).run s

/-- The trap of HRET (R181). -/
def hretDyn (g : Guard) (t : Strand) : Option (Cause × Word) :=
  match t.hsave with
  | none => some (.illegalOp, syllableOf (.hret g))
  | some h => if h.shadow < t.held then some (.controlIntegrity, 0) else none

/-- The return of R37: levels that the handler pushed are popped, p0 to p15, the floor and the position are restored, and a
strand that was waiting resumes its wait. A SPIN waiter makes a new attempt at its bundle (R347). -/
def Strand.doHret (t : Strand) : Strand :=
  match t.hsave with
  | none => t
  | some h =>
    let t := { t with
      loops := t.loops.drop (t.ldepth - h.depth), preg := h.preds, floor := h.floor, hsave := none
      causes := t.causes ++ h.causes }
    let t := t.transfer h.pos
    match h.wait with
    | .none => t
    | .spin _ => t
    | w => { t with switchTo := some (.wait w) }

/-- HRET (R37, R181). -/
def opHret (g : Guard) (s : State) : Op :=
  { Op.plain (.hret g) .sy g (fun s => s.onMe Strand.doHret) with dyn := hretDyn g s.me }
def execHret (g : Guard) (s : State) : Host.Outcome State Fault Refusal := (opHret g s).run s

end Sys2Proof.Machine
end

