-- ==== Sys2Proof/Machine/Operands.lean ====
section
/-! DEFINITION. The operand forms: the checks of layout entries (R117), Locate and the bank permutation (R118,
R119), the elements a memory operation touches and the checks made before issue in their order (R120, R121, R126, R283),
lanes of vectors, and the bank demands of a bundle (R123). -/
namespace Sys2Proof.Machine

/-! ## Layout entries (R117) -/

/-- A malformed entry (R117). -/
def Lay.bad (l : Lay) : Bool :=
  decide (5 < l.space) || decide (13 < l.ty) || l.reserved || (l.win != 0 && l.space != 4) || (l.byte && l.ty == 5) ||
  (List.range 4).any (fun d => decide (l.dims < d) && (l.ext.getD d 0 != 0 || l.strOf d != 0)) ||
  decide (l.dims < l.swzd) ||
  ((l.swzd != 0 || l.swzs != 0 || l.swzm != 0) && (l.space == 3 || l.space == 4 || l.space == 5))

/-- The width in bits of one step of coordinate 0 (R118). -/
def Lay.unit (l : Lay) : Nat := if l.byte then 8 else tyWidth l.ty

/-- Four coordinates. -/
structure C4 where
  c0 : Nat
  c1 : Nat
  c2 : Nat
  c3 : Nat
deriving DecidableEq, Repr

/-- One coordinate. -/
def C4.get (c : C4) (d : Nat) : Nat :=
  match d with
  | 0 => c.c0 | 1 => c.c1 | 2 => c.c2 | _ => c.c3

/-- A reason of LAYOUT_BOUNDS with its detail (R120). -/
abbrev LayErr := Nat × Nat

/-- FVAL of LAYOUT_BOUNDS (R120). -/
def layFval (e : LayErr) : Word := BitVec.ofNat 64 (256 * e.1 + e.2 % 256)

/-- The offset that the coordinates give, exactly (R118). -/
def Lay.off (l : Lay) (c : C4) : Nat :=
  l.base + c.c0 * l.unit / 8 + c.c1 * l.strOf 1 + c.c2 * l.strOf 2 + c.c3 * l.strOf 3

/-- The checks of Locate on coordinates: reasons 2 and 1 by dimension, then 8, then 11 (R118, R121). -/
def Lay.coordErr (l : Lay) (c : C4) : Option LayErr :=
  match (List.range 4).findSome? (fun d =>
    if l.dims < d ∧ c.get d ≠ 0 then some (2, d)
    else if d ≤ l.dims ∧ l.extOf d < c.get d then some (1, d) else none) with
  | some e => some e
  | none =>
    if l.unit = 4 ∧ c.c0 % 2 ≠ 0 then some (8, 0)
    else if l.unit = 4 ∧ (l.extOf 0 + 1) % 8 ≠ 0 then some (11, 0)
    else none

/-- The offset after the bank permutation, by the element's own coordinates (R119). -/
def Lay.phys (l : Lay) (off : Nat) (c : C4) : Nat :=
  if l.swzd = 0 then off else off ^^^ (((c.get l.swzd / 2 ^ l.swzs) &&& l.swzm) * 32)

/-- The checks of an entry that precede Locate: malformed, space, handler index, type (R115, R121). -/
def Lay.entryErr (l : Lay) (spaces types : Nat → Bool) (h : Bool) : Option LayErr :=
  if l.bad then some (6, 0)
  else if spaces l.space = false then some (3, l.space)
  else if h ∧ l.space ≠ 4 then some (7, 0)
  else if types l.ty = false then some (4, l.ty)
  else none

/-- The extent of a space, in bytes, for a strand (R113). -/
def State.spaceSize (s : State) (t : Strand) (l : Lay) : Nat :=
  let c := s.ctx t.die t.tcid
  match l.space with
  | 0 => t.csu * 32768
  | 1 => c.csize
  | 2 => c.dsize
  | 3 => 2 ^ 48
  | 4 => (c.win l.win).size
  | _ => 65536

/-! ## The elements of an access -/

/-- One located element: lane, offset before the permutation, offset after it, bytes. -/
structure Loc1 where
  lane : Nat
  off : Nat
  phys : Nat
  w : Nat
deriving DecidableEq, Repr

/-- The element of a type's width at a coordinate: LDS, STS, atomics, SPIN and the BYTE forms (R134, R135, R140). -/
def Lay.one (l : Lay) (c : C4) : List Loc1 := [⟨0, l.off c, l.phys (l.off c) c, tyWidth l.ty / 8⟩]

/-- The lanes of a vector access along dimension 0, those beyond the extent clipped; E2M1 moves byte pairs (R92, R126, R134,
R140). -/
def Lay.lanes (l : Lay) (c : C4) : List Loc1 :=
  let w := if l.unit < 8 then 8 else l.unit
  let step := w / l.unit
  (List.range (1024 / w)).filterMap (fun i =>
    if c.c0 + i * step ≤ l.extOf 0 then
      let off := l.off c + i * (w / 8)
      some ⟨i, off, l.phys off c, w / 8⟩
    else none)

/-- The lanes of STVS along dimension 1 (R140). -/
def Lay.lanes1 (l : Lay) (c : C4) : List Loc1 :=
  (List.range (1024 / l.unit)).filterMap (fun i =>
    let ci := { c with c1 := c.c1 + i }
    if ci.c1 ≤ l.extOf 1 then some ⟨i, l.off ci, l.phys (l.off ci) ci, l.unit / 8⟩ else none)

/-- The lanes of VRED: elements of the entry's type at the coordinates that STV gives (R142); with BYTE = 1 coordinate 0 of
lane i lies i widths in bytes further (log entry 10). -/
def Lay.redLanes (l : Lay) (c : C4) : List Loc1 :=
  let w := tyWidth l.ty / 8
  let step := if l.byte then w else 1
  (List.range (tyLanes l.ty)).filterMap (fun i =>
    if c.c0 + i * step ≤ l.extOf 0 then
      let off := l.off c + i * w
      some ⟨i, off, l.phys off c, w⟩
    else none)

/-- The lanes of LDVG from the index lanes (R134). -/
def Lay.gather (l : Lay) (c : C4) (xs : List Nat) : List Loc1 :=
  (List.range xs.length).map (fun i =>
    let off := l.off c + xs.getD i 0 * (l.unit / 8)
    ⟨i, off, l.phys off c, l.unit / 8⟩)

/-- The first LDVG index beyond the extent (R121, R134). -/
def Lay.gatherErr (l : Lay) (c : C4) (xs : List Nat) : Option LayErr :=
  (List.range xs.length).findSome? (fun i => if l.extOf 0 < c.c0 + xs.getD i 0 then some (10, i) else none)

/-- A byte beyond the space (R118, R121). -/
def sizeErr (size : Nat) (els : List Loc1) : Option LayErr :=
  if els.any (fun e => decide (size < e.off + e.w)) then some (5, 0) else none

/-- The first unaligned element's offset (R126, R127). -/
def unaligned (els : List Loc1) : Option Nat := (els.find? (fun e => e.off % e.w != 0)).map (fun e => e.off)

/-- The first error of several checks. -/
def firstErr {α : Type} : List (Option α) → Option α
  | [] => none
  | some e :: _ => some e
  | none :: r => firstErr r

/-- Whether a window's destinations are reached with the extension word: not where they lie only behind UALink ports that do not negotiate it
(R275). Ultra Ethernet and ports that are down are no such ports. -/
def State.carriesExt (s : State) (w : Win) : Bool :=
  w.ue || s.pkg.ports.any (fun p => p == .extended) || !s.pkg.ports.any (fun p => p == .plain) ||
  (s.members w).all (fun m => (s.dieOfDomain m.2.ddie).isSome)

/-- The window conditions at issue (R283): `h` a handler index, `single` an atomic, VRED, LDH, CRED or CBELL, `slot` an LD- or
ST-slot access or a CBELL. -/
def State.winErr (s : State) (c : Ctx) (n : Nat) (h single slot : Bool) : Option Nat :=
  let w := c.win n
  if w.en = false then some 1
  else if h && (w.hok = false || s.carriesExt w = false) then some 2
  else if single && w.mc then some 3
  else if slot && w.ue then some 4
  else none

/-- The checks of one memory operand in the order of R121: LAYOUT_BOUNDS, then alignment, then the window. `els` are the
elements touched once Locate has passed. -/
structure MemChk where
  lay : Lay
  c : C4
  spaces : Nat → Bool
  types : Nat → Bool
  h : Bool
  single : Bool
  gather : Option LayErr
  els : List Loc1

/-- The precise trap of a memory operand, with FVAL, and whether the device OS may emulate it (R120, R121, R127, R283). -/
def MemChk.trap (s : State) (t : Strand) (m : MemChk) : Option (Cause × Word) :=
  match firstErr [m.lay.entryErr m.spaces m.types m.h, m.lay.coordErr m.c, m.gather, sizeErr (s.spaceSize t m.lay) m.els] with
  | some e => some (.layoutBounds, layFval e)
  | none =>
    match unaligned m.els with
    | some off => some (.misaligned, BitVec.ofNat 64 off)
    | none =>
      if m.lay.space = 4 then
        match s.winErr (s.ctx t.die t.tcid) m.lay.win m.h m.single true with
        | some r => some (.windowFault, winFval r m.lay.win (m.lay.off m.c))
        | none => none
      else none

/-! ## Coordinates and lanes -/

/-- The value of a coordinate field (R60). -/
def Strand.coord (t : Strand) (c : Coord) : Nat := if c.i then c.v else (t.rs c.v).toNat

/-- Four coordinate fields. -/
def Strand.coords (t : Strand) (a b c d : Coord) : C4 := ⟨t.coord a, t.coord b, t.coord c, t.coord d⟩

/-- A layout entry of a strand, located at issue (R148). -/
def Strand.layOf (t : Strand) (n : Nat) : Lay := Lay.ofWords (t.layEntry n)

/-- The tile coordinates of a tile index (R137). -/
def Lay.tile (l : Lay) (ti : Nat) : Nat × Nat := (ti % (l.extOf 2 + 1), ti / (l.extOf 2 + 1))

/-- The lanes of w bits of a vector, lane 0 first. -/
def lanesOf (v : Vec) (w : Nat) : List Nat := (List.range (1024 / w)).map (fun i => v.toNat / 2 ^ (i * w) % 2 ^ w)

/-- A vector from lanes of w bits, lane 0 lowest. -/
def vecOf (w : Nat) (l : List Nat) : Vec := BitVec.ofNat 1024 (packLanes w l)

/-- A vector from values placed at lanes of a byte width, others zero. -/
def placeLanes (els : List (Nat × Nat × Nat)) : Vec :=
  BitVec.ofNat 1024 (els.foldl (fun x e => x + (e.2.2 % 256 ^ e.2.1) * 256 ^ (e.1 * e.2.1)) 0)

/-! ## Core-scratch banks (R122, R123) -/

/-- The demands of located core-scratch elements: (bank, row, write). -/
def bankDemands (t : Strand) (els : List Loc1) (reads writes : Bool) : List (Nat × Nat × Bool) :=
  (els.flatMap (fun e =>
    let a := t.base + e.phys
    let b := a / 32 % 32
    let r := a / 1024
    (if reads then [(b, r, false)] else []) ++ (if writes then [(b, r, true)] else []))).eraseDups

/-- The stall cycles that a set of demands costs: the most on one bank, less one (R123). -/
def bankStalls (ds : List (Nat × Nat × Bool)) : Nat :=
  let n := (List.range 32).foldl (fun m b => max m ((ds.eraseDups.filter (fun d => d.1 == b)).length)) 0
  n - 1

end Sys2Proof.Machine
end

