-- ==== Sys2Proof/Machine/Arrival.lean ====
section
/-! DEFINITION. What an arrival does on its die besides its bytes: gang boosts (R325 to R328), handler arrivals (R35, R36)
and notices (R390). -/
namespace Sys2Proof.Machine

/-! ## Gangs (R325, R326) -/

/-- A context of a die that is bound. -/
def Ctx.bound (c : Ctx) : Bool := c.bind != .unbound

/-- The package tenant that holds a gang: the one to whose contexts binding assigned it (R325). -/
def State.gangTenant (s : State) (gid : Nat) : Option Nat :=
  (s.ctxs.find? (fun e => e.2.bound && e.2.gangs.contains gid)).map (fun e => e.2.tenant)

/-- The TCID of a bound context of a tenant on a die. -/
def State.tenantCtx (s : State) (die tenant : Nat) : Option Nat :=
  (s.ctxs.find? (fun e => e.1 / 1024 == die && e.2.bound && e.2.tenant == tenant)).map (fun e => e.1 % 1024)

/-- An entry for a gang is allocated if the table has none and is not full (R325). -/
def Die.gangAlloc (d : Die) (gid tenant : Nat) : Die :=
  if gid = 0 ∨ d.gangs.any (fun g => g.gid == gid) = true ∨ 256 ≤ d.gangs.length then d
  else { d with gangs := d.gangs ++ [⟨gid, tenant, 0⟩] }

/-- Entries of gangs with no resident strand and no boost are freed (R325). -/
def State.gangTidy (s : State) (die : Nat) : State :=
  let used (gid : Nat) : Bool := s.strands.any (fun e => e.2.die == die && e.2.resident && e.2.gang == gid)
  s.modDie die (fun d => { d with gangs := d.gangs.filter (fun g => g.boost != 0 || used g.gid) })

/-- An arrival that carries a gang boosts its entry on the die, and SPIN waiters of the gang become READY (R326, R347). -/
def State.gangArrive (s : State) (die gid : Nat) : State :=
  match s.gangTenant gid with
  | none => s
  | some tenant =>
    match s.tenantCtx die tenant with
    | none => s
    | some tc =>
      let d := (s.die die).gangAlloc gid tenant
      if gid = 0 ∨ d.gangs.any (fun g => g.gid == gid) = false ∨ storeGet 0 d.ballow tenant ≤ storeGet 0 d.bused tenant then s
      else
        let inc := (s.ctx die tc).inc
        let s := (s.modDie die (fun _ => { d with gangs := d.gangs.map (fun g =>
          if g.gid = gid then { g with boost := min 63 (g.boost + inc) } else g) })).gangTidy die
        { s with strands := s.strands.map (fun e =>
            (e.1, if e.2.die = die ∧ e.2.gang = gid ∧ e.2.spinsOn (fun _ => true) = true then e.2.endSpin s.time else e.2)) }

/-! ## Handler arrivals (R35, R36) -/

/-- The strand that a handler-table entry names, if it was placed and has not ended (R35). -/
def State.handlerTarget (s : State) (die tcid hidx : Nat) : Option (Nat × Nat) :=
  match storeFind (s.ctx die tcid).handlers hidx with
  | none => none
  | some h =>
    match s.namedStrand die tcid h.launch h.strand with
    | none => none
    | some k => if (s.strand k).ending then none else some (k, h.entry)

/-- A pending handler is queued; a waiting strand becomes READY and keeps its wait (R35). -/
def State.queueHandler (s : State) (k entry : Nat) (wids : List WKey) : State :=
  s.modStrand k (fun t =>
    let t := { t with hq := t.hq ++ [⟨entry, wids⟩] }
    if t.st = .waiting then { t with st := .ready, readySince := s.time } else t)

/-- A handler arrival whose payload is in place: `none` when the strand's queue of eight is full and the port must hold the
arrival (R36). -/
def State.handlerArrive (s : State) (die tcid hidx : Nat) (wids : List WKey) : Option State :=
  match s.handlerTarget die tcid hidx with
  | none => some (s.modCtx die tcid (fun c => { c with hdrop := (c.hdrop + 1) % 2 ^ 32 }))
  | some (k, entry) => if 8 ≤ (s.strand k).hq.length then none else some (s.queueHandler k entry wids)

/-- The handlers that ports hold enter their strands' queues as far as there is room (R36). -/
def State.portRetry (s : State) : State :=
  s.portHeld.foldl (fun s h =>
    match s.handlerArrive h.die h.tcid h.hidx h.wids with
    | some s => s
    | none => { s with portHeld := s.portHeld ++ [h] }) { s with portHeld := [] }

/-- The writes that a handler's payload makes visible: the payload, and every earlier store of the sending strand through the
same window to this die (R222). -/
def State.payloadWids (s : State) (die sid win wid : Nat) : List WKey :=
  s.hist.flatMap (fun e => if homeDie (8 * e.1) = die then
    e.2.ws.filterMap (fun r => if r.sid = some sid ∧ r.win = some win ∧ r.wid ≤ wid then some (r.wid, e.1) else none) else [])

/-! ## Notices (R390) -/

/-- A notice of a kind: the queue state, QSLOT and the number in bytes 4 to 7. A slot that is occupied or cannot be reached or read
counts the notice as lost; a context without a ring has none. The access takes A, and D as it writes (R130). -/
def State.noticeWrite (s : State) (die tcid kind st qslot num : Nat) : State :=
  let c := s.ctx die tcid
  match c.notice with
  | none => s
  | some base =>
    let lost := s.modCtx die tcid (fun c => { c with nlost := (c.nlost + 1) % 2 ^ 32 })
    match deviceVa s die tcid (base + 32 * c.nnext) with
    | none => lost
    | some a =>
      let use (write : Bool) (s : State) : State := touchLeaf s die tcid (base + 32 * c.nnext) write
      if s.poisonAt a ∨ s.byte a ≠ 0 then use false lost
      else
        let bs := leBytes 1 kind ++ leBytes 1 st ++ leBytes 2 qslot ++ leBytes 4 num ++ leBytes 4 c.nlost ++ leBytes 20 0
        (((use true s).deviceWrite die a bs 4).2).modCtx die tcid (fun c => { c with nnext := (c.nnext + 1) % 256, nlost := 0 })

end Sys2Proof.Machine
end

