-- ==== Sys2Proof/Machine/Requests.lean ====
section
/-! DEFINITION. Outstanding requests: what a load reads (R135, R136, R223), how a buffered store, an atomic or a VRED is
performed at its home (R144, R145, R219 to R221), how a window transaction leaves (R284, R290 to R293), what a PHASE waits for
and does (R230 to R233), and how a failed access is held (R133). -/
namespace Sys2Proof.Machine

/-! ## Requests of a strand -/

/-- A request of a strand by identity. -/
def Strand.req (t : Strand) (rid : Nat) : Option Req := t.reqs.find? (fun r => r.id == rid)
/-- A change of one request. -/
def Strand.modReq (t : Strand) (rid : Nat) (f : Req → Req) : Strand :=
  { t with reqs := t.reqs.map (fun r => if r.id = rid then f r else r) }
/-- A request that is finished. -/
def Strand.dropReq (t : Strand) (rid : Nat) : Strand := { t with reqs := t.reqs.filter (fun r => r.id != rid) }

/-- A request whose latch waits has kind load or atomic; the others occupy the publication buffer (R125). -/
def Req.isLatch (r : Req) : Bool :=
  match r.kind with
  | .load => true
  | .atomic _ _ => true
  | _ => false

/-- A VRED or an atomic (R145). -/
def Req.isRmw (r : Req) : Bool :=
  match r.kind with
  | .atomic _ _ => true
  | .vred _ => true
  | _ => false

/-- Two requests of one strand touch a common byte of one space and window. -/
def Req.overlaps (a b : Req) : Bool :=
  a.space == b.space && a.win == b.win &&
  a.els.any (fun x => b.els.any (fun y => decide (x.off < y.off + y.w) && decide (y.off < x.off + x.w)))

/-- The members a request's store goes to, with their destinations. -/
def State.reqMembers (s : State) (t : Strand) (r : Req) : List (Nat × Dest') := s.members ((s.ctx t.die t.tcid).win r.win)

/-- The parts of a request's elements as they meet their home or their window's one destination. -/
def State.reqParts (s : State) (k : Nat) (r : Req) : List El :=
  if r.space = 4 then
    match s.reqMembers (s.strand k) r with
    | (_, dst) :: _ => destEls dst r.els
    | [] => r.els
  else r.els

/-- The extension word of a request through its window (R276, R277). -/
def State.reqWord (s : State) (t : Strand) (r : Req) : BitVec 32 := winWord (s.ctx t.die t.tcid) r.win t.gang r.hnd

/-- The parts of a store's elements with the addresses of the package that they reach. -/
def storeParts (s : State) (k : Nat) (r : Req) : List (Nat × El) :=
  let t := s.strand k
  if r.space = 4 then
    (s.reqMembers t r).flatMap (fun m => (destEls m.2 r.els).filterMap (fun e =>
      match windowTarget s t.die (s.ctx t.die t.tcid) r.win (s.reqWord t r) .store m.2 e.off e.w with
      | .ok (.here a) => some (a, e)
      | _ => none))
  else r.els.filterMap (fun e => (elemAddr s k .store r.space r.win e).map (fun a => (a, e)))

/-- The place of the first byte of an element outside the package: a window's destination with its offset, or a home with the physical
address that the leaf gives. -/
def State.awayPlaces (s : State) (k : Nat) (r : Req) (e : El) : List (Nat × Nat) :=
  let t := s.strand k
  let c := s.ctx t.die t.tcid
  match r.space with
  | 4 =>
    let w := c.win r.win
    (s.reqMembers t r).filterMap (fun m =>
      if (s.dieOfDomain m.2.ddie).isNone then some (((m.2.ddie * 1024 + m.2.tcid) * 8 + w.dspace) * 4 + w.dcl, m.2.base + e.off) else none)
  | 3 =>
    match leafOf s t.die t.tcid e.off with
    | .ok (bits, level) =>
      let p := Pte.ofNat bits
      if (s.dieOfDomain p.home).isNone then [(2 ^ 40 + p.home, p.pa / levelSize level * levelSize level + e.off % levelSize level)] else []
    | .error _ => []
  | _ => []

/-- The places that a request's elements reach, in the package or outside it, each with its width: what two requests must share to
overlap, whatever space, window or virtual page names them (R145). -/
def State.placesOf (s : State) (k : Nat) (r : Req) : List ((Nat × Nat) × Nat) :=
  let here := if r.kind = .store then storeParts s k r
    else r.els.filterMap (fun e => (elemAddr s k .atomic r.space r.win e).map (fun a => (a, e)))
  here.map (fun x => ((2 ^ 41, x.1), x.2.w)) ++ r.els.flatMap (fun e => (s.awayPlaces k r e).map (fun p => (p, e.w)))

/-- Two places with widths share a byte. -/
def placesMeet (a b : (Nat × Nat) × Nat) : Bool :=
  a.1.1 == b.1.1 && decide (a.1.2 < b.1.2 + b.2) && decide (b.1.2 < a.1.2 + a.2)

/-! ## Charges for requests (R335) -/

/-- The requests of a writer's context on homes of the package: 32-byte accesses of core scratch, and 128-byte requests of cluster and die
scratch, of HBM, and across dies. -/
def State.chargeHomes (s : State) (die tcid : Nat) (addrs : List Nat) : State :=
  let core (a : Nat) : Bool := decide (2 ^ 50 ≤ a) && decide (a < 2 ^ 51)
  let us := ((addrs.filter (fun a => !core a)).map (fun a => a / 128)).eraseDups
  let s := s.charge die tcid 7 ((addrs.filter core).map (fun a => a / 32)).eraseDups.length
  let n (p : Nat → Bool) : Nat := (us.filter p).length
  let isHbm (u : Nat) : Bool := decide (128 * u < 2 ^ 50)
  let s := s.charge die tcid 8 (n (fun u => !isHbm u))
  let s := s.charge die tcid 9 (n isHbm)
  s.charge die tcid 10 (n (fun u => homeDie (128 * u) != die))

/-- 128-byte requests that leave the package: they cross the die's boundary and go out on a link port. -/
def State.chargeAway (s : State) (die tcid n : Nat) : State := (s.charge die tcid 10 n).charge die tcid 11 n

/-- The 128-byte requests of an access that go outside the package. -/
def awayUnits (s : State) (k : Nat) (r : Req) : Nat :=
  ((r.els.filter (fun e => !(s.awayPlaces k r e).isEmpty)).map (fun e => e.off / 128)).eraseDups.length

/-! ## What a load reads (R135, R136, R223) -/

/-- The strand's stores to a unit that ended without being performed, issued before number `bound`: their bytes, but for those that a
later store of the strand in its view has written (R136, R223). -/
def State.ownGone (s : State) (k bound u : Nat) : List (Nat × BitVec 8 × Word) :=
  let t := s.strand k
  let ws := ((storeFind s.hist u).map (fun h => h.ws)).getD []
  (t.ownLost.filter (fun x => decide (x.1 < bound) && x.2.1 == u)).map (fun x =>
    (x.1, (ws.filter (fun w => w.sid == some k && w.isStore && decide (x.1 ≤ w.wid) && t.view.contains (w.wid, u))).foldl
      (fun en w => en &&& ~~~w.en) x.2.2.1, x.2.2.2))

/-- The strand's own stores to a unit that a load issued as number `bound` is bound to return: performed ones outside its view,
lost ones, and buffered ones. -/
def State.ownWrites (s : State) (k bound u : Nat) : List (Nat × BitVec 8 × Word) :=
  let t := s.strand k
  let pend := t.reqs.filter (fun r => r.kind == .store && decide (r.id < bound) && !t.view.contains (r.id, u))
  s.ownDone k t.view bound u ++ s.ownGone k bound u ++
  pend.flatMap (fun r => (storeParts s k r).filterMap (fun x =>
    if unitOf x.1 = u then some (r.id, unitEn x.1 x.2.w, BitVec.ofNat 64 (x.2.data % 256 ^ x.2.w * 256 ^ (x.1 % 8))) else none))

/-- LoadUnit of R223: the choice is the n-th free one. -/
def State.loadUnit (s : State) (k bound u n : Nat) : Word :=
  overlayAll (s.ownWrites k bound u) (chooseFrom n (s.unitVal u) (s.candidates (s.strand k).view u))

/-- The units that located elements lie in, each once. -/
def unitsOf (ls : List Loc) : List Nat :=
  (ls.filterMap (fun l => match l with | .here a => some (unitOf a) | .away _ => none)).eraseDups

/-- The value of an element of w bytes from the units read; data from outside the package is free (log entry 7) but for the bytes `own`
that the strand itself has stored there. -/
def elemValue (vals : List (Nat × Word)) (n : Nat) (own : List (Option Byte)) (l : Loc) (w : Nat) : Nat :=
  match l with
  | .here a => ((vals.find? (fun v => v.1 == unitOf a)).map (fun v => v.2.toNat / 256 ^ (a % 8) % 256 ^ w)).getD 0
  | .away d => leNat ((leBytes w (Config.remoteData d n).toNat).zipIdx.map (fun b => (own.getD b.2 none).getD b.1))

/-- A unit of core scratch for an LDH: bytes that later stores of the strand overwrote read as they were (R136). -/
def State.keptUnit (s : State) (r : Req) (u : Nat) : Word :=
  BitVec.ofNat 64 (leNat ((List.range 8).map (fun i => (storeFind r.kept (8 * u + i)).getD (s.byte (8 * u + i)))))

/-- The bytes that a store of the strand puts at places outside the package. -/
def State.awayStored (s : State) (k : Nat) (r : Req) (els : List El) (lost : Bool) : List OwnByte :=
  els.flatMap (fun e => (s.awayPlaces k r e).flatMap (fun p =>
    (leBytes e.w e.data).zipIdx.map (fun b => ⟨r.id, (p.1, p.2 + b.2), b.1, lost⟩)))

/-- A byte kept for the strand's loads takes the place of an earlier one there. -/
def ownPut (l : List OwnByte) (b : OwnByte) : List OwnByte :=
  if l.any (fun x => x.place == b.place && decide (b.id < x.id)) then l else l.filter (fun x => x.place != b.place) ++ [b]

/-- Elements of a store that have left for a place outside the package are kept for the strand's own loads, until they are in its view
(R136, R223). -/
def State.keepAway (s : State) (k : Nat) (r : Req) (els : List El) (lost : Bool) : State :=
  let bs := s.awayStored k r els lost
  s.modStrand k (fun t => { t with ownAway := bs.foldl ownPut t.ownAway })

/-- The bytes of an element beyond the package that the strand stored there before a load and that are not in its view: kept ones, and
those of stores that are still outstanding (R136, R223). -/
def State.awayBytes (s : State) (k : Nat) (r : Req) (e : El) : List (Option Byte) :=
  let t := s.strand k
  let own := (t.reqs.filter (fun q => q.kind == .store && decide (q.id < r.id))).flatMap (fun q => s.awayStored k q q.els false)
  let all := (own.foldl ownPut t.ownAway).filter (fun x => decide (x.id < r.id))
  (List.range e.w).map (fun i =>
    (all.find? (fun x => (s.awayPlaces k r e).any (fun p => x.place == (p.1, p.2 + i)))).map (fun x => x.byte))

/-- The data of a load, its elements side by side from lane 0, and the state after its choices. -/
def State.loadData (s : State) (k : Nat) (r : Req) : Vec × State :=
  let ls := (s.reqParts k r).map (fun e => (e, (elemMet s k r.kind.acc r.space r.win e).toOption.getD (.away 1024)))
  let us := unitsOf (ls.map (fun l => l.2))
  let n := s.nfree
  let vals := if r.space = 0 then us.map (fun u => (u, s.keptUnit r u))
    else us.zipIdx.map (fun u => (u.1, s.loadUnit k r.id u.1 (n + u.2)))
  let m := n + us.length
  let out := (ls.zipIdx.foldl (fun (p : Nat × Nat) l => (p.1 + elemValue vals (m + l.2) (s.awayBytes k r l.1.1) l.1.2 l.1.1.w * 256 ^ p.2, p.2 + l.1.1.w)) (0, 0)).1
  (BitVec.ofNat 1024 out, { s with nfree := m + ls.length })

/-- The addresses of the package that a request reaches. -/
def reqAddrs (s : State) (k : Nat) (r : Req) : List Nat := (s.reqParts k r).filterMap (elemAddr s k r.kind.acc r.space r.win)

/-- The destinations of a window in the package whose space needs residency are resident: others take no access that reads (R286,
R287). -/
def State.targetResident (s : State) (c : Ctx) (win : Nat) : Bool :=
  (c.win win).dspace == 3 || (s.members (c.win win)).all (fun m =>
    match s.dieOfDomain m.2.ddie with
    | some d => (s.ctx d m.2.tcid).resident
    | none => true)

/-! ## Ordering of a strand's requests (R133, R145) -/

/-- An earlier access to the HBM, WINDOW and BERTH spaces that is held or would fail holds a later one to these spaces, and one that the
replay list has still to perform holds every later access (R133, R366). -/
def heldBefore (s : State) (k : Nat) (r : Req) : Bool :=
  (s.strand k).reqs.any (fun q =>
    decide (q.id < r.id) && ((heldSpace r.space && heldSpace q.space && q.xact.isNone && (q.held || (reqMet s k q).isSome)) ||
      (q.replay && q.old.isNone)))

/-- An earlier atomic with .ACQ whose old value has not returned orders latch loads, atomics and VREDs after it (R145). -/
def acqBefore (t : Strand) (rid : Nat) : Bool := t.reqs.any (fun q => decide (q.id < rid) && q.acq)

/-- A copy that a PHASE still waits for. -/
def CopySt.blocks : CopySt → Bool
  | .queued => true | .sent => true | .refused => true | .berthed => true | .stored => true | _ => false

/-- A request that is still to be performed at its home, or at one of the destinations of its window (R145). -/
def rmwBlocks (s : State) (r : Req) : Bool :=
  match r.xact with
  | some x =>
    match storeFind s.xacts x with
    | some y => y.copies.any (fun c => c.2.blocks)
    | none => false
  | none => r.old.isNone

/-- Earlier stores and atomics of the strand to the same bytes come first, by whatever space, window or page they reach them (R136,
R145). -/
def overlapBefore (s : State) (k : Nat) (r : Req) : Bool :=
  (s.strand k).reqs.any (fun q => decide (q.id < r.id) && q.kind != .load && rmwBlocks s q &&
    (q.overlaps r || (s.placesOf k q).any (fun a => (s.placesOf k r).any (placesMeet a))))

/-- A request may be performed: it has not been, it is not held, and nothing that the rules put before it is outstanding. -/
def mayPerform (s : State) (k : Nat) (r : Req) : Bool :=
  let t := s.strand k
  !r.held && r.xact.isNone && r.old.isNone && !heldBefore s k r && (r.space != 4 || s.targetResident (s.ctx (s.strand k).die (s.strand k).tcid) r.win) && (reqMet s k r).isNone &&
  (r.kind == .store || !acqBefore t r.id) && (r.kind == .load || !overlapBefore s k r)

/-! ## What a PHASE waits for (R220, R227, R230, R233) -/

/-- A place lies in a strand's instance of a scope; a place outside the package lies in DOMAIN only (R218). -/
def locInInst (scope core : Nat) (l : Loc) : Bool :=
  match l with
  | .here a => homeInInst scope core a
  | .away _ => decide (4 ≤ scope)

/-- A member's home lies in the instance, or its arrival is not settled. -/
def memberInInst (s : State) (t : Strand) (r : Req) (scope : Nat) (dst : Dest') : Bool :=
  r.els.any (fun e =>
    match windowTarget s t.die (s.ctx t.die t.tcid) r.win (s.reqWord t r) .store dst e.off e.w with
    | .ok l => locInInst scope t.core l
    | .error _ => true)

/-- A store that a PHASE waits for: not performed with its home in the instance, or not left the instance yet (R233). -/
def storeBlocks (s : State) (k scope : Nat) (r : Req) : Bool :=
  let t := s.strand k
  match r.xact with
  | some x =>
    match storeFind s.xacts x with
    | some y => (s.reqMembers t r).any (fun m => (storeGet .acked y.copies m.1).blocks && memberInInst s t r scope m.2)
    | none => false
  | none =>
    r.space == 4 || r.els.any (fun e =>
      match elemMet s k .store r.space r.win e with
      | .ok l => locInInst scope t.core l || !r.left
      | .error _ => true)

/-- The waits of a PHASE at a scope, for requests issued before number `bound`. -/
def phaseReady (s : State) (k scope bound : Nat) : Bool :=
  let t := s.strand k
  t.reqs.all (fun r =>
    decide (bound ≤ r.id) ||
    (match r.kind with
     | .load => true
     | .store => !storeBlocks s k scope r
     | _ => !rmwBlocks s r)) &&
  !(s.core t.core).tmq.any (fun m => m.sid == k && decide (m.id < bound))

/-- RenewView(full) of R222. -/
def State.renew (s : State) (k : Nat) : State :=
  s.modStrand k (fun t => { t with view := viewAdd t.view (s.reaching t.core) })

/-- A PHASE covers the stores to a member of a window: the member's home lies in the instance of its scope (R220, R230). -/
def memberCovered (s : State) (t : Strand) (scope : Nat) (w : Win) (dst : Dest') : Bool :=
  match s.dieOfDomain dst.ddie with
  | some d => decide (3 ≤ scope) || (d == t.die && decide (2 ≤ scope)) ||
      (d == t.die && scope == 1 && w.dspace == 1 && w.dcl == t.cluster)
  | none => decide (4 ≤ scope)

/-- The windows of a PHASE: its scope covers a member's home (R230, R231). -/
def winCovered (s : State) (t : Strand) (scope n : Nat) : Bool :=
  let w := (s.ctx t.die t.tcid).win n
  (s.members w).any (fun m => memberCovered s t scope w m.2)

/-- The members of a window that a PHASE covers, as bits (R291). -/
def coveredBits (s : State) (t : Strand) (scope n : Nat) : Word :=
  let w := (s.ctx t.die t.tcid).win n
  BitVec.ofNat 64 ((s.members w).foldl (fun x m => if memberCovered s t scope w m.2 then x + 2 ^ m.1 else x) 0)

/-- The multicast windows of which a PHASE covers stores, with the members whose copies of them were lost (R291). -/
def partials (s : State) (t : Strand) (scope : Nat) : List (Nat × Word) :=
  (t.winPend.filter (fun e => e.2 &&& coveredBits s t scope e.1 != 0)).map
    (fun e => (e.1, storeGet 0 t.winPartial e.1 &&& coveredBits s t scope e.1))

/-- The causes of R230 and R231 that a PHASE raises, by the lowest-numbered window concerned (R232). -/
def phaseCauses (s : State) (k scope tbun : Nat) : List Pending :=
  let t := s.strand k
  let c := s.ctx t.die t.tcid
  let used := t.winUsed.filter (winCovered s t scope)
  let p (cs : Cause) (l : List Nat) : List Pending :=
    match l with
    | [] => []
    | n :: r => [⟨cs, BitVec.ofNat 64 (r.foldl min n), tbun, 2 ^ Slot.bit .sy⟩]
  p .linkUncertain (used.filter (fun n => (c.win n).unc)) ++
  p .multicastPartial (((partials s t scope).filter (fun e => !(c.win e.1).mpm && (e.2 &&& (c.win e.1).memb) != 0)).map (fun e => e.1))

/-- The completion records that a PHASE writes (R291): the members of which every covered copy was performed. -/
def State.writeComp (s : State) (k scope : Nat) : State :=
  let t := s.strand k
  (partials s t scope).foldl
    (fun s e => s.modWin t.die t.tcid e.1 (fun w => { w with comp := w.memb &&& ~~~e.2 })) s

/-- A PHASE whose waits are satisfied: publication, records, full renewal, and its causes fall due (R232, R233). With one of DOMAIN the
stores to other packages that it covers join the view (R222, R223). -/
def State.phaseDone (s : State) (k scope bound tbun : Nat) : State :=
  let cs := phaseCauses s k scope tbun
  let s := ((s.publish k scope).writeComp k scope).renew k
  let t := s.strand k
  let c := s.ctx t.die t.tcid
  let cov := coveredBits s t scope
  s.modStrand k (fun t =>
    { t with
      causes := t.causes ++ cs
      ownAway := if 4 ≤ scope then t.ownAway.filter (fun x => x.lost || decide (bound ≤ x.id)) else t.ownAway
      winPartial := (t.winPartial.map (fun e => (e.1, e.2 &&& ~~~cov e.1))).filter (fun e => e.2 != 0)
      winPend := (t.winPend.map (fun e => (e.1, e.2 &&& ~~~cov e.1))).filter (fun e => e.2 != 0)
      winUsed := t.winUsed.filter (fun n => (c.win n).unc || (s.members (c.win n)).any (fun m => !memberCovered s t scope (c.win n) m.2)) })

/-! ## Performing at the home -/

/-- Elements with their data at the addresses they reach. -/
def placed (s : State) (k : Nat) (r : Req) : List (Nat × Nat × Nat) :=
  r.els.filterMap (fun e => (elemAddr s k r.kind.acc r.space r.win e).map (fun a => (a, e.w, e.data)))

/-- A buffered store outside the windows leaves the core: it is translated, charged, and on its way to its home (R130, R220, R335). -/
def State.storeLeave (s : State) (k : Nat) (r : Req) : State :=
  let t := s.strand k
  if beyondHbm s k .store r.space r.win r.els then s.jam .absentHbm
  else
    (((touchEls s k .store r.space r.els).chargeHomes t.die t.tcid ((placed s k r).map (fun e => e.1))).chargeAway t.die t.tcid (awayUnits s k r)).modStrand k
      (fun t => t.modReq r.id (fun q => { q with left := true }))

/-- One of the 8-byte units of a store that has left, by a free choice, is performed at its home; the store ends with its last unit
(R219, R220, R226). -/
def State.storeUnit (s : State) (k : Nat) (r : Req) : State :=
  let t := s.strand k
  let w := placed s k r
  let us := (w.map (fun e => unitOf e.1)).eraseDups
  let n := s.nfree
  let u := us.getD (Config.pick n % us.length) 0
  let at_ (e : El) : Bool := elemAddr s k .store r.space r.win e == none || (elemAddr s k .store r.space r.win e).map unitOf == some u
  let rest := r.els.filter (fun e => !at_ e)
  let s := (({ s with nfree := n + 1 } : State).homeWrite ⟨r.id, some k, t.core, true, none, none⟩ (w.filter (fun e => unitOf e.1 == u))).keepAway k r
    (r.els.filter at_) false
  s.modStrand k (fun t => if rest.isEmpty then t.dropReq r.id else t.modReq r.id (fun q => { q with els := rest }))

/-- All that is left of a buffered store outside the windows is performed at once. -/
def State.storeHome (s : State) (k : Nat) (r : Req) : State :=
  let s := if r.left then s else s.storeLeave k r
  ((s.homeWrite ⟨r.id, some k, (s.strand k).core, true, none, none⟩ (placed s k r)).keepAway k r r.els false).modStrand k (fun t => t.dropReq r.id)

/-- The new value of an atomic (R146): operation, type, old, source and expected value. -/
def AOp.eval (op : AOp) (ty old src exp : Nat) : Nat :=
  let w := tyWidth ty
  let src := src % 2 ^ w
  match op with
  | .add => (old + src) % 2 ^ w
  | .addf => combine .sum ty old src
  | .min => if intOf ty src < intOf ty old then src else old
  | .max => if intOf ty old < intOf ty src then src else old
  | .and => old &&& src
  | .or => old ||| src
  | .xor => old ^^^ src
  | .swp => src
  | .cas => if old = exp % 2 ^ w then src else old

/-- The new value of an element of an atomic or a VRED (R142, R146). -/
def ReqKind.newVal (k : ReqKind) (old : Nat) (e : El) : Nat :=
  match k with
  | .atomic op ty => op.eval ty old e.data e.exp
  | .vred ty => combine .sum ty old e.data
  | _ => old

/-- The scope at which an atomic counts as published: its own, widened as R220 requires (R221). -/
def atomScope (scope core a : Nat) : Nat := if scope < narrowest core a then narrowest core a else scope

/-- Read-modify-writes at addresses of the package, element after element, each on the latest value of its home (R144,
R221). An element is given with the addresses of its bytes. The first old value is returned. The lanes of a VRED are performed
together, in ascending order (DESIGN CHOICE, log entry 94). -/
def rmwEls (wr : Writer) (scope : Nat) (scratch : Bool) (kind : ReqKind) (s : State) : List (List Nat × El) → Nat × State
  | [] => (0, s)
  | (as, e) :: r =>
    let old := leNat (as.map s.byte)
    let cells := as.zip (leBytes e.w (kind.newVal old e))
    let s1 := if scratch then s.scratchWrite cells
      else s.homeWrite { wr with pub := some (atomScope scope wr.core (as.headD 0)) } (cellUnits cells)
    (old, (rmwEls wr scope scratch kind s1 r).2)

/-- The addresses of an element's bytes from that of its first. -/
def bytesFrom (a : Nat) (e : El) : List Nat := (List.range e.w).map (fun i => a + i)

/-- An old value reaches the strand: the latch takes it as a fill of kind 2, and .ACQ renews the view (R144, R222). -/
def State.atomReturn (s : State) (k : Nat) (r : Req) (v : Vec) : State :=
  let s := s.modStrand k (fun t =>
    (match r.latch with
     | some n => t.fillLatch n r.id 2 v
     | none => t).dropReq r.id)
  if r.acq then s.renew k else s

/-- An atomic or VRED outside the windows is performed; an atomic with a latch then waits for its fill (R144, R145). -/
def State.rmwHome (s : State) (k : Nat) (r : Req) : State :=
  let t := s.strand k
  if beyondHbm s k .atomic r.space r.win r.els then s.jam .absentHbm
  else
    let s := if r.rel then s.publish k r.scope else s
    let ps := r.els.filterMap (fun e => (elemAddr s k .atomic r.space r.win e).map (fun a => (bytesFrom a e, e)))
    let s := touchEls s k .atomic r.space r.els
    let x := rmwEls ⟨r.id, some k, t.core, false, none, none⟩ r.scope (r.space == 0) r.kind s ps
    let s := (x.2.chargeHomes t.die t.tcid (if r.space = 0 then [] else ps.flatMap (fun p => p.1))).chargeAway t.die t.tcid (awayUnits s k r)
    let f := s.nfree
    let old : Vec := match r.els, ps with
      | e :: _, [] => BitVec.ofNat 1024 ((Config.remoteData 1024 f).toNat % 256 ^ e.w)
      | _, _ => BitVec.ofNat 1024 x.1
    let s := if ps.isEmpty then { s with nfree := f + 1 } else s
    match r.latch with
    | some _ => s.modStrand k (fun t => t.modReq r.id (fun q => { q with old := some old }))
    | none => s.atomReturn k r old

/-! ## Window transactions leave (R284, R290 to R293) -/

/-- The allowance units of written elements: 128-byte units of the window (R284). -/
def winUnits (els : List El) : Nat := (els.flatMap (fun e => [e.off / 128, (e.off + e.w - 1) / 128])).eraseDups.length

/-- An earlier numbered request of the context through a window has not left yet (R228, R293). -/
def unsentBefore (s : State) (die tcid win rid : Nat) : Bool :=
  s.strands.any (fun e => e.2.die == die && e.2.tcid == tcid &&
    e.2.reqs.any (fun q => decide (q.id < rid) && q.space == 4 && q.win == win && q.kind != .load && q.xact.isNone))

/-- The strand number of transactions, fragments and bells that no strand made. -/
def noSid : Nat := 2 ^ 64

/-- The writer that a transaction counts as at its home. -/
def Xact.writer (x : Xact) (pub : Option Nat) : Writer :=
  ⟨x.wid, if x.sid = noSid then none else some x.sid, x.core, x.kind == .store && x.sid != noSid, pub, some x.win⟩

/-- A window takes new transactions: its resynchronisation is complete, no refusal stands, and a unicast destination has a
path (R285, R293). -/
def State.winOpen (s : State) (die tcid win : Nat) : Bool :=
  let w := (s.ctx die tcid).win win
  w.resync.isEmpty && w.refusing.isNone && (w.mc || (s.members w).all (fun m => s.pathTo w.ue m.2.ddie))

/-- What a transaction that leaves through a window is charged, for n 128-byte units of it: a crossing for every member of another die,
and a send for every one outside the package (R335). -/
def State.chargeSend (s : State) (die tcid win n : Nat) : State :=
  let w := (s.ctx die tcid).win win
  let ms := (s.members w).filter (fun m => s.pathTo w.ue m.2.ddie)
  (s.charge die tcid 10 ((ms.filter (fun m => s.dieOfDomain m.2.ddie != some die)).length * n)).charge die tcid 11
    ((ms.filter (fun m => (s.dieOfDomain m.2.ddie).isNone)).length * n)

/-- A transaction leaves with the window's next sequence number, a copy for every member that a path reaches; a member that none reaches
no longer counts for ACKED (R278, R290, R292, R293). -/
def State.postXact (s : State) (die tcid win sid rid core : Nat) (kind : ReqKind) (els : List El) (gang : Nat) (hnd : Option Nat)
    (units : Nat) : Nat × State :=
  let w := (s.ctx die tcid).win win
  let ms := s.members w
  let f := s.fresh
  let s := f.2
  let copies : Store CopySt := ms.map (fun m => (m.1, if s.pathTo w.ue m.2.ddie then .sent else .undeliverable))
  let x : Xact := ⟨die, tcid, win, w.next, sid, rid, kind, els, gang, hnd, units, 0, rid, copies, core, s.time,
    winWord (s.ctx die tcid) win gang hnd, none, []⟩
  let s : State := { s with xacts := storeSet s.xacts f.1 x }
  let s := s.modWin die tcid win (fun w =>
    { w with
      next := (w.next + 1) % 2 ^ 32, sent := if kind = .store then (w.sent + 1) % 2 ^ 32 else w.sent
      acks := w.acks.filter (fun a => !copies.any (fun c => c.1 == a.1 && c.2 == .undeliverable)) })
  (f.1, s)

/-- What a member's copy of a store leaves for the strand's own loads: bytes outside the package, and the bytes of a copy that was not
performed, until they are in the strand's view (R136, R223). -/
def State.keepMember (s : State) (x : Xact) (m : Nat) (lost : Bool) : State :=
  let w := (s.ctx x.die x.tcid).win x.win
  match x.kind, s.hasStrand x.sid, storeFind (s.members w) m with
  | .store, true, some dst =>
    match s.dieOfDomain dst.ddie with
    | none =>
      let bs := x.els.flatMap (fun e => (leBytes e.w e.data).zipIdx.map (fun b =>
        (⟨x.rid, (((dst.ddie * 1024 + dst.tcid) * 8 + w.dspace) * 4 + w.dcl, dst.base + e.off + b.2), b.1, lost⟩ : OwnByte)))
      s.modStrand x.sid (fun t => { t with ownAway := bs.foldl ownPut t.ownAway })
    | some _ =>
      let ws := (destEls dst x.els).filterMap (fun e =>
        match windowTarget s x.die (s.ctx x.die x.tcid) x.win x.word .store dst e.off e.w with
        | .ok (.here a) => some (x.rid, unitOf a, unitEn a e.w, BitVec.ofNat 64 (e.data % 256 ^ e.w * 256 ^ (a % 8)))
        | _ => none)
      if lost then s.modStrand x.sid (fun t => { t with ownLost := t.ownLost ++ ws }) else s
  | _, _, _ => s

/-- A request of a strand leaves through its window; it waits while an earlier one has not left (R228, R293). -/
def State.sendXact (s : State) (k : Nat) (r : Req) : State :=
  let t := s.strand k
  let w := (s.ctx t.die t.tcid).win r.win
  if r.held ∨ r.xact.isSome ∨ s.winOpen t.die t.tcid r.win = false ∨ unsentBefore s t.die t.tcid r.win r.id = true then s
  else
    let s := if r.rel then s.publish k r.scope else s
    let lost : Nat := (s.members w).foldl (fun x m => if s.pathTo w.ue m.2.ddie then x else x + 2 ^ m.1) 0
    let p := (s.chargeSend t.die t.tcid r.win (r.els.map (fun e => e.off / 128)).eraseDups.length).postXact t.die t.tcid r.win k r.id t.core
      r.kind r.els t.gang r.hnd r.units
    let s := match storeFind p.2.xacts p.1 with
      | some x => (s.members w).foldl (fun (s : State) (m : Nat × Dest') => if s.pathTo w.ue m.2.ddie then s else s.keepMember x m.1 true) p.2
      | none => p.2
    s.modStrand k (fun t =>
      let t := t.modReq r.id (fun q => { q with xact := some p.1 })
      if lost = 0 then t
      else { t with winPartial := storeSet t.winPartial r.win (storeGet 0 t.winPartial r.win ||| BitVec.ofNat 64 lost) })

/-- Allowance returned to a strand (R284). -/
def Strand.returnUnits (t : Strand) (win u : Nat) : Strand :=
  { t with allowOut := storePut 0 t.allowOut win (storeGet 0 t.allowOut win - u) }

/-- A copy of which nothing more is awaited for the allowance (R284). -/
def CopySt.settled : CopySt → Bool
  | .acked => true | .undeliverable => true | .gapSent => true | .uncertain => true | .stored => true | _ => false

/-- The members' failures as they turn known, for the completion record (R291, R292). -/
def State.noteLost (s : State) (x : Xact) (m : Nat) : State :=
  if ((s.ctx x.die x.tcid).win x.win).mc then
    s.modStrand x.sid (fun t =>
      { t with winPartial := storeSet t.winPartial x.win (storeGet 0 t.winPartial x.win ||| BitVec.ofNat 64 (2 ^ m)) })
  else s

/-- A transaction of which every copy is settled returns its allowance and ends its request; an atomic whose value came back
waits for its fill, or renews the view at once for .ACQ when it has no latch; and a store in a berth waits for its delivery (R222, R284,
R289). -/
def State.settleXact (s : State) (xid : Nat) : State :=
  match storeFind s.xacts xid with
  | none => s
  | some x =>
    if x.copies.all (fun c => c.2.settled) = false then s
    else
      let done := s.modStrand x.sid (fun t =>
        match t.req x.rid with
        | none => t
        | some r =>
          let t := if r.kind = .store then t.returnUnits x.win r.units else t
          if (r.latch.isSome ∧ r.old.isSome) ∨ x.copies.any (fun c => c.2 == .stored) = true then t.modReq x.rid (fun q => { q with units := 0 })
          else t.dropReq x.rid)
      let keep := x.copies.any (fun c => c.2 == .uncertain || c.2 == .undeliverable || c.2 == .stored)
      let s' := if s.hasStrand x.sid then (x.copies.filter (fun c => c.2 == .acked)).foldl (fun s c => s.keepMember x c.1 false) done else s
      let s' := match if s.hasStrand x.sid then (s.strand x.sid).req x.rid else none with
        | some r => if r.acq && r.latch.isNone && r.old.isSome then s'.renew x.sid else s'
        | none => s'
      { s' with xacts := if keep then storeSet s.xacts xid { x with units := 0 } else storeErase s.xacts xid }

/-- A fill that is lost with its link: the latch's pending fill is cancelled (R231). -/
def State.loseFill (s : State) (k : Nat) (r : Req) : State :=
  s.modStrand k (fun t =>
    let t := t.dropReq r.id
    match r.latch with
    | some n => if (t.rh n).pend = some r.id then t.wh n { t.rh n with pend := none, lost := true } else t
    | none => t)

/-! ## Failed accesses (R133, R285) -/

/-- The failure that the destination of a window transaction has reported. -/
def refusedXact (s : State) (r : Req) : Option (Cause × Word) :=
  match r.xact with
  | some x => (match storeFind s.xacts x with | some y => y.flt | none => none)
  | none => none

/-- A request that has failed: its transaction was refused, or it cannot be performed and has not left. -/
def reqFailed (s : State) (k : Nat) (r : Req) : Option (Cause × Word) :=
  if r.held then none
  else if r.xact.isSome then refusedXact s r
  else if r.old.isNone ∧ (r.kind = .load ∨ r.space ≠ 4 ∨
      ((s.ctx (s.strand k).die (s.strand k).tcid).win r.win).mc = false) then
    reqMet s k r
  else none

/-- A report of a destination reaches the sender: WFLT takes the reason and the offset of a WINDOW_FAULT, or of a PARTITION (R278,
R285). -/
def State.writeFlt (s : State) (die tcid win : Nat) (c : Cause) (v : Word) : State :=
  if c = .windowFault ∨ c = .partition then
    s.modWin die tcid win (fun w => { w with flt := BitVec.ofNat 64 (v.toNat / 2 ^ 56 * 2 ^ 56 + v.toNat % 2 ^ 48) })
  else s

/-- Where a request is dropped for its partition (R295). -/
def State.reqDrop (s : State) (k : Nat) (r : Req) : Option Nat :=
  let t := s.strand k
  let c := s.ctx t.die t.tcid
  if r.space = 4 then
    (s.reqMembers t r).findSome? (fun m => s.dropPoint t.die m.2.ddie (c.win r.win).ue (winWord c r.win t.gang r.hnd))
  else r.els.findSome? (fun e =>
    match leafOf s t.die t.tcid (if r.space = 5 then c.bva + e.off else e.off) with
    | .ok (bits, _) => peerDrop s t.die t.gang bits
    | .error _ => none)

/-- The failures that a destination outside the package may report; a check value that fails does so on the link (R285, R295, R298). -/
def awayFailure (r win off : Nat) : Cause × Word :=
  match r % 6 with
  | 0 => (.windowFault, winFval 8 win off)
  | 1 => (.windowFault, winFval 9 win off)
  | 2 => (.windowFault, winFval 10 win off)
  | 3 => (.windowFault, winFval 12 win off)
  | 4 => (.checkValue, BitVec.ofNat 64 (2 * 2 ^ 62 + off % 2 ^ 48 / 64 * 64))
  | _ => (.partition, winFval 0 win off)

/-- What a read of another package's memory may report: of a page that is a peer's, only a drop on its way and a failed check value (R130,
R295, R298). -/
def awayReadFailure (space r win off : Nat) : Cause × Word :=
  if space = 4 then awayFailure r win off
  else if r % 2 = 0 then (.checkValue, BitVec.ofNat 64 (2 * 2 ^ 62 + off % 2 ^ 48 / 64 * 64))
  else (.partition, BitVec.ofNat 64 (off % 2 ^ 48))

/-- The earliest request of a strand that has failed, with its cause. -/
def firstFailed (s : State) (k : Nat) : Option (Req × Cause × Word) :=
  (s.strand k).reqs.findSome? (fun r => (reqFailed s k r).map (fun e => (r, e.1, e.2)))

/-- The failed access and every later one to the three spaces are held in the replay list, in issue order (R133). -/
def Strand.holdFrom (t : Strand) (rid : Nat) : Strand :=
  { t with reqs := t.reqs.map (fun r =>
      if r.id = rid ∨ (rid ≤ r.id ∧ heldSpace r.space = true ∧ r.xact.isNone = true ∧ r.old.isNone = true) then { r with held := true } else r) }

/-- Held accesses are performed once the strand resumes, in issue order before any later access; refused transactions are sent again
(R133, R285, R366). -/
def State.replay (s : State) (k : Nat) : State :=
  let mine (x : Xact) : Bool := x.sid == k && x.copies.any (fun c => c.2 == .refused)
  let wins := (s.xacts.filter (fun e => mine e.2)).map (fun e => (e.2.die, e.2.tcid, e.2.win))
  let s : State := { s with xacts := s.xacts.map (fun (e : Nat × Xact) =>
      if mine e.2 then (e.1, { e.2 with flt := none, copies := e.2.copies.map (fun c => if c.2 = .refused then (c.1, .sent) else c) }) else e) }
  let s := wins.foldl (fun s w => s.modWin w.1 w.2.1 w.2.2 (fun w => { w with refusing := none })) s
  s.modStrand k (fun t => { t with reqs := t.reqs.map (fun r => { r with held := false, replay := r.replay || r.held, flt := none }) })

end Sys2Proof.Machine
end

