-- ==== Sys2Proof/Machine/MemAccess.lean ====
section
/-! DEFINITION. Loads, stores and TMOV (R134 to R141), and the events that perform them: STORE_PERFORM, LATCH_FILL,
TMOV_COMPLETE and ACCESS_FAULT_REPORT. -/
namespace Sys2Proof.Machine

/-! ## Elements with data -/

/-- The bytes of an element, each at the address its own offset gives (R119, R127). -/
def Loc1.split (e : Loc1) : List Loc1 :=
  (List.range e.w).map (fun j => ⟨e.lane, e.off + j, (e.off + j) ^^^ (e.off ^^^ e.phys), 1⟩)

/-- Located elements with their data. -/
abbrev Datum := Loc1 × Nat

/-- The cells of core scratch that elements write, as offsets in the region. -/
def coreCells (es : List Datum) : List Host.Cell :=
  es.flatMap (fun e => e.1.split.zipIdx.map (fun b => (b.1.phys, BitVec.ofNat 8 (e.2 / 256 ^ b.2))))

/-- The elements of a request; an access that the device OS emulates is made byte by byte (R127). -/
def reqEls (bytewise : Bool) (es : List Datum) : List El :=
  if bytewise then es.flatMap (fun e => e.1.split.zipIdx.map (fun b => ⟨b.1.phys, 1, e.2 / 256 ^ b.2 % 256, 0⟩))
  else es.map (fun e => ⟨e.1.phys, e.1.w, e.2 % 256 ^ e.1.w, 0⟩)

/-- One element of core scratch. -/
def coreVal (s : State) (t : Strand) (e : Loc1) : Nat := leNat (e.split.map (fun b => s.byte (s.scratchAddr t 0 b.phys)))

/-- The lanes of a load from core scratch, clipped lanes zero (R134). -/
def coreVec (s : State) (t : Strand) (els : List Loc1) : Vec := placeLanes (els.map (fun e => (e.lane, e.w, coreVal s t e)))

/-- A poisoned block among the bytes read (R150). -/
def corePoison (s : State) (t : Strand) (els : List Loc1) : Bool :=
  els.any (fun e => e.split.any (fun b => s.poisonAt (s.scratchAddr t 0 b.phys)))

/-! ## The accesses of each operation (R134, R135, R140) -/

/-- Every type but E2M1, and every type (R115). -/
def tyNot4 (ty : Nat) : Bool := decide (ty < 14) && ty != 5
def tyAll (ty : Nat) : Bool := decide (ty < 14)
/-- The spaces of loads to registers, of stores, and of LDH (R115). -/
def spCore (sp : Nat) : Bool := sp == 0
def spStore (sp : Nat) : Bool := decide (sp < 5)
def spAll (sp : Nat) : Bool := decide (sp < 6)

/-- LDS. -/
def ldsAcc (t : Strand) (o : LdOps) : MemChk :=
  let l := t.layOf o.le
  ⟨l, (t.coords o.c0 o.c1 o.c2 o.c3), spCore, tyNot4, false, false, none, l.one (t.coords o.c0 o.c1 o.c2 o.c3)⟩
/-- LDV. -/
def ldvAcc (t : Strand) (o : LdvOps) : MemChk :=
  let l := t.layOf o.le
  let c := t.coords o.c0 o.c1 o.c2 o.c3
  ⟨l, c, spCore, tyAll, false, false, none, l.lanes c⟩
/-- LDVG: the index lanes are u bits, u the element width or 8. -/
def ldvgAcc (t : Strand) (o : LdvgOps) : MemChk :=
  let l := t.layOf o.le
  let c : C4 := ⟨t.coord o.c0, t.coord o.c1, t.coord o.c2, 0⟩
  let xs := lanesOf (t.rv o.fl o.vx) l.unit
  ⟨l, c, spCore, tyNot4, false, false, l.gatherErr c xs, l.gather c xs⟩
/-- LDH: as LDV, or one element of the type's width when BYTE = 1 (R135). -/
def ldhAcc (t : Strand) (o : LdOps) : MemChk :=
  let l := t.layOf o.le
  ⟨l, (t.coords o.c0 o.c1 o.c2 o.c3), spAll, tyAll, false, true, none, if l.byte then l.one (t.coords o.c0 o.c1 o.c2 o.c3) else l.lanes (t.coords o.c0 o.c1 o.c2 o.c3)⟩
/-- STS. -/
def stsAcc (t : Strand) (o : StOps) : MemChk :=
  let l := t.layOf o.le
  let c := t.coords o.c0 o.c1 o.c2 o.c3
  ⟨l, c, spStore, tyNot4, o.h, false, none, l.one c⟩
/-- STV. -/
def stvAcc (t : Strand) (o : StvOps) : MemChk :=
  let l := t.layOf o.le
  let c := t.coords o.c0 o.c1 o.c2 o.c3
  ⟨l, c, spStore, tyAll, o.h, false, none, l.lanes c⟩
/-- STVS. -/
def stvsAcc (t : Strand) (o : StvOps) : MemChk :=
  let l := t.layOf o.le
  let c := t.coords o.c0 o.c1 o.c2 o.c3
  ⟨l, c, spStore, tyNot4, o.h, false, none, l.lanes1 c⟩
/-- STVM: the lanes whose mask bit is set. -/
def stvmAcc (t : Strand) (o : StvmOps) : MemChk :=
  let l := t.layOf o.le
  let c : C4 := ⟨t.coord o.c0, t.coord o.c1, t.coord o.c2, 0⟩
  ⟨l, c, spStore, tyAll, o.h, false, none, (l.lanes c).filter (fun e => (t.rm o.fl o.msel).getLsbD e.lane)⟩
/-- STVH: as STV, or as STS when BYTE = 1. -/
def stvhAcc (t : Strand) (o : StOps) : MemChk :=
  let l := t.layOf o.le
  let c := t.coords o.c0 o.c1 o.c2 o.c3
  ⟨l, c, spStore, tyAll, o.h, false, none, if l.byte then l.one c else l.lanes c⟩

/-- The data of elements from a scalar. -/
def scalarData (els : List Loc1) (v : Word) : List Datum := els.map (fun e => (e, v.toNat % 256 ^ e.w))
/-- The data of elements from the lanes of a vector. -/
def vecData (els : List Loc1) (v : Vec) : List Datum := els.map (fun e => (e, v.toNat / 256 ^ (e.lane * e.w) % 256 ^ e.w))

/-! ## Checks, stalls and effects -/

/-- The slot's access has been emulated by the device OS for this issue (R127). -/
def Strand.emulated (t : Strand) (sl : Slot) : Bool := t.suppress / 2 ^ sl.bit % 2 == 1

/-- The precise trap of an access; one that was emulated is not checked again. -/
def accTrap (s : State) (sl : Slot) (m : MemChk) : Option (Cause × Word) :=
  if s.me.emulated sl then none else m.trap s s.me

/-- MISALIGNED of these operations is emulated by the device OS (R127). -/
def isMisaligned (d : Option (Cause × Word)) : Bool :=
  match d with
  | some (.misaligned, _) => true
  | _ => false

/-- The variable-latency requests of a strand that are outstanding: loads and atomics, and the latches that CE operations wait to fill
(R83, R125). -/
def Strand.varLatency (t : Strand) : Nat :=
  let rs := t.reqs.filter Req.isLatch
  rs.length + (t.latches.filter (fun l => l.2.pend.any (fun id => !rs.any (fun r => r.id == id)))).length

/-- 64 variable-latency requests of the core are outstanding (R125). -/
def latchStallFull (s : State) (t : Strand) : Bool :=
  decide (64 ≤ ((s.strands.filter (fun e => e.2.resident && e.2.core == t.core)).map (fun e => e.2.varLatency)).foldl (· + ·) 0)

/-- The publication buffer is full, or a window store finds no allowance (R125, R284). -/
def storeStall (t : Strand) (m : MemChk) : Bool :=
  m.lay.space != 0 && !m.els.isEmpty &&
  (decide (32 ≤ (t.reqs.filter (fun r => !r.isLatch)).length) ||
   (m.lay.space == 4 &&
    (let out := storeGet 0 t.allowOut m.lay.win
     let u := winUnits (reqEls true (m.els.map (fun e => (e, 0))))
     decide (storeGet 0 t.allowLim m.lay.win < out + u) && out != 0)))

/-- A request is issued by a strand. -/
def State.addReq (s : State) (k : Nat) (f : Nat → Req) : State :=
  let i := s.fresh
  i.2.modStrand k (fun t => { t with reqs := t.reqs ++ [f i.1] })

/-- A request is issued by the issuing strand. -/
def State.addMyReq (s : State) (f : Nat → Req) : State :=
  match s.self with
  | some k => s.addReq k f
  | none => s

/-- A window that the strand has written through: a PHASE that covers it raises what R231 says. -/
def Strand.useWin (t : Strand) (win : Nat) : Strand :=
  { t with winUsed := if t.winUsed.contains win then t.winUsed else t.winUsed ++ [win] }

/-- A store outside core scratch enters the publication buffer; a window store takes its allowance (R141, R284). -/
def State.bufferStore (s : State) (k : Nat) (m : MemChk) (es : List Datum) (bytewise h : Bool) (hidx : Nat) : State :=
  let t := s.strand k
  let els := reqEls bytewise es
  let u := if m.lay.space = 4 then winUnits els else 0
  let mc := m.lay.space == 4 && ((s.ctx t.die t.tcid).win m.lay.win).mc
  let s := s.addReq k (fun id =>
    ⟨id, .store, m.lay.space, m.lay.win, els, none, 0, false, false, if h then some hidx else none, .st, t.bun.addr, u,
      none, none, false, false, false, [], none⟩)
  s.modStrand k (fun t =>
    if m.lay.space = 4 then
      { t with
        allowOut := storePut 0 t.allowOut m.lay.win (storeGet 0 t.allowOut m.lay.win + u)
        winUsed := (t.useWin m.lay.win).winUsed
        winPend := if mc then storeSet t.winPend m.lay.win ((s.ctx t.die t.tcid).win m.lay.win).memb else t.winPend }
    else t)

/-- A store takes effect: in core scratch in the next issue cycle, elsewhere through the publication buffer; one that writes no
byte does nothing (R141, R284). -/
def storeEff (m : MemChk) (es : List Datum) (h : Bool) (hidx : Nat) (s : State) : State :=
  if es.isEmpty then s
  else if m.lay.space = 0 then s.pushIn ⟨.core (coreCells es), 1, 0, fullEn, false, none, .st, s.me.bun.addr⟩
  else
    match s.self with
    | some k => s.bufferStore k m es false h hidx
    | none => s

/-- A store operation. -/
def opStore (i : Instr) (g : Guard) (chk : List Cause) (m : MemChk) (late : Option (Cause × Word)) (wait : Bool)
    (data : Strand → List Datum) (h : Bool) (hidx : Nat) (s : State) : Op :=
  let t := s.me
  let d := (accTrap s .st m).orElse (fun _ => late)
  { i := i, slot := .st, g := g, chk := chk, dyn := d, emul := isMisaligned d
    stall := !t.emulated .st && (wait || storeStall t m)
    eff := fun s => if s.me.emulated .st then s else storeEff m (data s.me) h hidx s }

/-- STS (R140). -/
def opSts (o : StOps) (s : State) : Op :=
  let m := stsAcc s.me o
  opStore (.sts o) o.g [] m none false (fun t => scalarData m.els (t.rs o.d)) o.h o.hidx s
def execSts (o : StOps) (s : State) : Host.Outcome State Fault Refusal := (opSts o s).run s

/-- STV (R140). -/
def opStv (o : StvOps) (s : State) : Op :=
  let m := stvAcc s.me o
  opStore (.stv o) o.g (vreg s.me o.fl o.d) m none false (fun t => vecData m.els (t.rv o.fl o.d)) o.h o.hidx s
def execStv (o : StvOps) (s : State) : Host.Outcome State Fault Refusal := (opStv o s).run s

/-- STVS (R140). -/
def opStvs (o : StvOps) (s : State) : Op :=
  let m := stvsAcc s.me o
  opStore (.stvs o) o.g (vreg s.me o.fl o.d) m none false (fun t => vecData m.els (t.rv o.fl o.d)) o.h o.hidx s
def execStvs (o : StvOps) (s : State) : Host.Outcome State Fault Refusal := (opStvs o s).run s

/-- STVM (R140). -/
def opStvm (o : StvmOps) (s : State) : Op :=
  let m := stvmAcc s.me o
  opStore (.stvm o) o.g (vreg s.me o.fl o.d) m none false (fun t => vecData m.els (t.rv o.fl o.d)) o.h o.hidx s
def execStvm (o : StvmOps) (s : State) : Host.Outcome State Fault Refusal := (opStvm o s).run s

/-- STVH: the latch stays full; a pending fill stalls, also an access that the device OS is to emulate with the data (R70, R127, R140). -/
def opStvh (o : StOps) (s : State) : Op :=
  let m := stvhAcc s.me o
  let p := opStore (.stvh o) o.g (latchChk s.me o.d) m (latchDyn (.stvh o) s.me o.d) (latchStall s.me o.d)
    (fun t => vecData m.els (t.rh o.d).data) o.h o.hidx s
  if latchStall s.me o.d && p.emul then { p with dyn := none, emul := false } else p
def execStvh (o : StOps) (s : State) : Host.Outcome State Fault Refusal := (opStvh o s).run s

/-- A load to a register (R134): the bytes are read and land after 6 issue cycles; a value that the device OS has read lands
in their place (R127). -/
def opLoad (i : Instr) (g : Guard) (chk : List Cause) (m : MemChk) (dest : Dest) (val : State → Vec) (s : State) : Op :=
  let d := accTrap s .ld m
  { i := i, slot := .ld, g := g, chk := chk, dyn := d, emul := isMisaligned d, stall := false
    eff := fun s =>
      let t := s.me
      if t.emulated .ld then s.land dest 6 t.emuData .ld
      else s.pushIn ⟨dest, 6, val s, fullEn, corePoison s t m.els, none, .ld, t.bun.addr⟩ }

/-- The value of an LDS: sign-extended for the signed integer types (R134). -/
def ldsVal (s : State) (t : Strand) (m : MemChk) : Vec :=
  let w := tyWidth m.lay.ty
  let v := (m.els.map (coreVal s t)).foldl (fun _ x => x) 0
  if isSignedTy m.lay.ty then BitVec.ofNat 1024 (lowBits 64 (signedOf w v)) else BitVec.ofNat 1024 v

/-- LDS (R134). -/
def opLds (o : LdOps) (s : State) : Op :=
  let m := ldsAcc s.me o
  opLoad (.lds o) o.g [] m (.sreg o.d) (fun s => ldsVal s s.me m) s
def execLds (o : LdOps) (s : State) : Host.Outcome State Fault Refusal := (opLds o s).run s

/-- LDV (R134). -/
def opLdv (o : LdvOps) (s : State) : Op :=
  let m := ldvAcc s.me o
  opLoad (.ldv o) o.g (vreg s.me o.fl o.d) m (.vreg o.fl o.d) (fun s => coreVec s s.me m.els) s
def execLdv (o : LdvOps) (s : State) : Host.Outcome State Fault Refusal := (opLdv o s).run s

/-- LDVG (R134). -/
def opLdvg (o : LdvgOps) (s : State) : Op :=
  let m := ldvgAcc s.me o
  opLoad (.ldvg o) o.g (vreg s.me o.fl o.d ++ vreg s.me o.fl o.vx) m (.vreg o.fl o.d) (fun s => coreVec s s.me m.els) s
def execLdvg (o : LdvgOps) (s : State) : Host.Outcome State Fault Refusal := (opLdvg o s).run s

/-- LDH: binds its latch at issue; the fill arrives at a variable time (R70, R135). -/
def opLdh (o : LdOps) (s : State) : Op :=
  let m := ldhAcc s.me o
  let d := accTrap s .ld m
  { i := .ldh o, slot := .ld, g := o.g, chk := hreg s.me o.d, dyn := d, emul := isMisaligned d, stall := latchStallFull s s.me
    eff := fun s =>
      let t := s.me
      let els := reqEls (t.emulated .ld) (m.els.map (fun e => (e, 0)))
      let id := s.nextId
      (s.addMyReq (fun id =>
        ⟨id, .load, m.lay.space, m.lay.win, els, some o.d, 0, false, false, none, .ld, t.bun.addr, 0, none,
          if t.emulated .ld then t.emuLdh else none, false, false, false, [], none⟩)).onMe
        (fun t => t.bindLatch o.d id) }
def execLdh (o : LdOps) (s : State) : Host.Outcome State Fault Refusal := (opLdh o s).run s

/-! ## The device OS's emulation of a misaligned access (R127) -/

/-- The access of one operation made byte by byte: a load keeps its value for the coming issue, a store is performed. An LDH whose
translation fails here is made, and fails, when the bundle issues. -/
def State.emulate (s : State) (k : Nat) (i : Instr) : State :=
  let t := s.strand k
  let keep (v : Vec) : State := s.modStrand k (fun t => { t with emuData := v })
  let put (m : MemChk) (es : List Datum) (h : Bool) (hidx : Nat) : State :=
    if es.isEmpty then s
    else if m.lay.space = 0 then
      let cells := (coreCells es).map (fun c => (s.scratchAddr t 0 c.1, c.2))
      (s.keepBytes k (cells.map (fun c => c.1))).scratchWrite cells
    else s.bufferStore k m es true h hidx
  match i with
  | .ldh o =>
    let m := ldhAcc t o
    let r : Req := ⟨s.nextId, .load, m.lay.space, m.lay.win, reqEls true (m.els.map (fun e => (e, 0))), none, 0, false, false, none, .ld,
      t.bun.addr, 0, none, none, false, false, false, [], none⟩
    if (reqMet s k r).isSome || beyondHbm s k .load r.space r.win r.els then s.modStrand k (fun t => { t with emuLdh := none })
    else
      let d := (touchEls s k .load r.space r.els).loadData k r
      d.2.modStrand k (fun t => { t with emuLdh := some d.1 })
  | .lds o => keep (ldsVal s t (ldsAcc t o))
  | .ldv o => keep (coreVec s t (ldvAcc t o).els)
  | .ldvg o => keep (coreVec s t (ldvgAcc t o).els)
  | .sts o => put (stsAcc t o) (scalarData (stsAcc t o).els (t.rs o.d)) o.h o.hidx
  | .stv o => put (stvAcc t o) (vecData (stvAcc t o).els (t.rv o.fl o.d)) o.h o.hidx
  | .stvs o => put (stvsAcc t o) (vecData (stvsAcc t o).els (t.rv o.fl o.d)) o.h o.hidx
  | .stvm o => put (stvmAcc t o) (vecData (stvmAcc t o).els (t.rv o.fl o.d)) o.h o.hidx
  | .stvh o => put (stvhAcc t o) (vecData (stvhAcc t o).els (t.rh o.d).data) o.h o.hidx
  | _ => s

/-! ## TMOV (R137, R138) -/

/-- The tile coordinates of an operand of TMOV. -/
def tmovC (l : Lay) (ti : Nat) : C4 := ⟨0, 0, (l.tile ti).1, (l.tile ti).2⟩

/-- The byte offsets of a tile in row-major order of its elements, after the permutation. -/
def tmovBytes (l : Lay) (ti : Nat) : List Loc1 :=
  let c := tmovC l ti
  let w := if l.unit < 8 then 1 else l.unit / 8
  let step := if l.unit < 8 then 2 else 1
  (List.range (l.extOf 1 + 1)).flatMap (fun c1 =>
    (List.range ((l.extOf 0 + 1) / step)).flatMap (fun x =>
      let ci := { c with c0 := x * step, c1 := c1 }
      (⟨0, l.off ci, l.phys (l.off ci) ci, w⟩ : Loc1).split))

/-- The checks of an entry of TMOV once its shape is accepted (R121, R137). -/
def tmovErr (s : State) (t : Strand) (l : Lay) (ti : Nat) : Option LayErr :=
  if l.extOf 3 < (l.tile ti).2 then some (1, 3)
  else firstErr [l.coordErr (tmovC l ti), sizeErr (s.spaceSize t l) (tmovBytes l ti)]

/-- The traps of TMOV: the source through all its steps, then the destination; the shapes once both entries are accepted (R121). Offsets
that are not multiples of the element width raise nothing, since R127 names no TMOV (DESIGN CHOICE, log entry 94). -/
def tmovDyn (s : State) (o : TmovOps) : Option (Cause × Word) :=
  let t := s.me
  let ls := t.layOf o.src
  let ld := t.layOf o.dst
  let sp (x : Nat) : Bool := decide (x < 3)
  (firstErr [ls.entryErr sp tyAll false, tmovErr s t ls (t.coord o.ts), ld.entryErr sp tyAll false,
    if ls.extOf 0 = ld.extOf 0 ∧ ls.extOf 1 = ld.extOf 1 ∧ ls.ty = ld.ty ∧ ls.byte = ld.byte then none else some (9, 0),
    tmovErr s t ld (t.coord o.td)]).map (fun e => (.layoutBounds, layFval e))

/-- One unit of a copy: its bytes read now and written in runs. -/
def State.copyBytes (s : State) (wr : Writer) (ms : List (Nat × Nat)) : State :=
  let bs := ms.map (fun m => (m.2, s.byte m.1))
  match ms with
  | (_, d) :: _ =>
    if (match homeOf d with | .core _ => true | _ => false) then s.scratchWrite bs else s.homeWrite wr (cellUnits bs)
  | [] => s

/-- The units of a copy's destination, each with its moves. -/
def moveUnits (ms : List (Nat × Nat)) : List (List (Nat × Nat)) :=
  ((ms.map (fun m => unitOf m.2)).eraseDups).map (fun u => ms.filter (fun m => unitOf m.2 == u))

/-- A list in the order that free choices give (log entry 3). -/
def permBy {α : Type} : Nat → Nat → List α → List α
  | 0, _, l => l
  | _, _, [] => []
  | fuel + 1, n, l =>
    let i := Config.pick n % l.length
    match l.drop i with
    | x :: r => x :: permBy fuel (n + 1) (l.take i ++ r)
    | [] => l

/-- The unit writes of a copy in a free order (R138). -/
def State.copyUnits (s : State) (wr : Writer) (us : List (List (Nat × Nat))) : State :=
  (permBy us.length s.nfree us).foldl (fun s ms => s.copyBytes wr ms) { s with nfree := s.nfree + us.length }

/-- An engine operation may begin: no engine operation before its FENCE is outstanding (R234). -/
def fenceOk (t : Strand) (fence : Nat) : Bool := !t.engOps.any (fun x => decide (x < fence))

/-- A request through a window is still to be performed at bytes that a copy reads. -/
def windowReaches (s : State) (k : Nat) (srcs : List Nat) (r : Req) : Bool :=
  r.space == 4 && rmwBlocks s r && (storeParts s k r).any (fun x => srcs.any (fun a => decide (x.1 ≤ a) && decide (a < x.1 + x.2.w)))

/-- The strand's earlier stores to cluster and die scratch are performed, those through windows that reach the copy's source too, and an
earlier .ACQ has returned (R138, R145). -/
def tmovOk (s : State) (k id : Nat) (srcs : List Nat) : Bool :=
  let t := s.strand k
  !t.reqs.any (fun r => decide (r.id < id) && r.kind != .load &&
    (((r.space == 0 || r.space == 1 || r.space == 2) && r.old.isNone) || windowReaches s k srcs r)) && !acqBefore t id

/-- The offset of a byte of a strand's scratch in its region. -/
def State.regionOff (s : State) (t : Strand) (a : Nat) : Nat :=
  match homeOf a with
  | .core c => a - coreAddr c t.base
  | .cluster _ => a - (s.ctx t.die t.tcid).regionBase t.die 1 t.cluster
  | _ => a - (s.ctx t.die t.tcid).regionBase t.die 2 0

/-- What the copy's reads meet at its source: the first failing unit (R298, R420). -/
def tmovMet (s : State) (t : Strand) (ms : List (Nat × Nat)) : Option (Cause × Word) :=
  (ms.map (fun m => m.1 / 8 * 8)).eraseDups.findSome? (fun a =>
    match blockCheck s a (s.regionOff t a) true with | .ok _ => none | .error e => some e)

/-- The bytes that a copy reads and writes are charged: core scratch by 32 bytes, cluster and die scratch by 128 (R335). -/
def State.chargeMoves (s : State) (t : Strand) (ms : List (Nat × Nat)) : State :=
  (s.chargeHomes t.die t.tcid (ms.map (fun m => m.1))).chargeHomes t.die t.tcid (ms.map (fun m => m.2))

/-- TMOV issues: the flag clears, and each unit is copied now or when the copy completes, as a free choice gives (R138). The units of
a TMOV queued behind another, or of one whose source fails, are all copied when it completes (DESIGN CHOICE, log entry 88). -/
def tmovEff (o : TmovOps) (s : State) : State :=
  let t := s.me
  let ls := t.layOf o.src
  let ld := t.layOf o.dst
  let at_ (l : Lay) (ti : Nat) : List Nat := (tmovBytes l ti).map (fun b => s.scratchAddr t l.space b.phys)
  let ms := (at_ ls (t.coord o.ts)).zip (at_ ld (t.coord o.td))
  let id := s.nextId
  let s : State := { s.fresh.2 with nfree := s.nfree + ms.length }
  let may := (s.core t.core).tmq.isEmpty && fenceOk t t.fence && tmovOk s (s.self.getD 0) id (ms.map Prod.fst) && (tmovMet s t ms).isNone
  let us := (moveUnits ms).zipIdx
  let now := us.filter (fun (u : List (Nat × Nat) × Nat) => may && Config.pick (s.nfree - ms.length + u.2) % 2 == 1)
  let rest := us.filter (fun (u : List (Nat × Nat) × Nat) => !(may && Config.pick (s.nfree - ms.length + u.2) % 2 == 1))
  let s := match s.self with
    | some k =>
      let s := (s.chargeMoves t ms).copyUnits ⟨id, some k, t.core, false, none, none⟩ (now.map Prod.fst)
      let s := s.modCore t.core (fun c => { c with tmq := c.tmq ++ [(⟨id, k, rest.flatMap Prod.fst, ls.space != 0, o.fg, t.fence, t.bun.addr⟩ : Tmov)] })
      s.modStrand k (fun t => { t with engOps := t.engOps ++ [id] })
    | none => s
  s.landBit (.flag o.fg) 1 false .ld

/-- TMOV (R137, R138); a full queue stalls (R125). -/
def opTmov (o : TmovOps) (s : State) : Op :=
  { i := .tmov o, slot := .ld, g := o.g, chk := [], dyn := tmovDyn s o, emul := false
    stall := decide (8 ≤ (s.core s.me.core).tmq.length), eff := tmovEff o }
def execTmov (o : TmovOps) (s : State) : Host.Outcome State Fault Refusal := (opTmov o s).run s

/-- The oldest TMOV of a core completes when nothing before it is outstanding: the remaining units are written, then the flag sets
and the writes join the strand's view (R138, R222). A save waits for it, and the clear of the flag, if still in flight, lands first
(R149). A copy whose source meets a failed check value or an uncorrectable error writes nothing more, sets its flag, and its cause is raised at
the end of the strand's current issue cycle (R298, R420; that the copy is not made again is a DESIGN CHOICE, log entry 94). -/
def State.tmovComplete (s : State) (core : Nat) : State :=
  match (s.core core).tmq with
  | [] => s
  | m :: r =>
    let t := s.strand m.sid
    if fenceOk t m.fence && tmovOk s m.sid m.id (m.moves.map Prod.fst) && (!t.clearing m.flag .ld || t.st == .saving) then
      let met := tmovMet s t m.moves
      let s := s.modStrand m.sid (fun t => t.landClear m.flag .ld)
      let s := if met.isSome then s else s.copyUnits ⟨m.id, some m.sid, core, false, none, none⟩ (moveUnits m.moves)
      let s := (s.modCore core (fun c => { c with tmq := r })).modStrand m.sid (fun t => { t with engOps := t.engOps.filter (fun x => x != m.id) })
      let s := s.setFlag m.sid m.flag [m.id]
      match met with
      | some (c, v) => s.raiseCe m.sid ⟨c, v, m.tbun, 2 ^ Slot.bit .ld⟩
      | none => s
    else s

/-- TMOV_COMPLETE (R138). -/
def execTmovComplete (core : Nat) (s : State) : Host.Outcome State Fault Refusal := .next (s.tmovComplete core)

/-! ## Events of requests -/

/-- STORE_PERFORM (R220): a buffered store leaves, then its units are performed at their homes one by one; or it leaves through its
window. -/
def State.storePerform (s : State) (k rid : Nat) : State :=
  match (s.strand k).req rid with
  | none => s
  | some r =>
    if r.kind ≠ .store then s
    else if r.space = 4 then (if heldBefore s k r then s else s.sendXact k r)
    else if mayPerform s k r then (if r.left then s.storeUnit k r else s.storeLeave k r) else s
def execStorePerform (sid rid : Nat) (s : State) : Host.Outcome State Fault Refusal := .next (s.storePerform sid rid)

/-- ATOMIC_PERFORM (R144, R145). -/
def State.atomicPerform (s : State) (k rid : Nat) : State :=
  match (s.strand k).req rid with
  | none => s
  | some r =>
    if r.isRmw = false ∨ (r.rel = true ∧ phaseReady s k r.scope rid = false) then s
    else if r.space = 4 then
      (if heldBefore s k r || acqBefore (s.strand k) rid || overlapBefore s k r then s else s.sendXact k r)
    else if mayPerform s k r then s.rmwHome k r else s
def execAtomicPerform (sid rid : Nat) (s : State) : Host.Outcome State Fault Refusal := .next (s.atomicPerform sid rid)

/-- LATCH_FILL (R70, R135, R144): a load is performed and its fill arrives, or an atomic's old value arrives. A response that comes over
a link may fail its tag there: it is dropped and counted, and the load is still outstanding (R297). What a destination outside the package
reports for a load is free; a failure is kept with the request (R285, R298; log entry 7). -/
def State.latchFill (s : State) (k rid : Nat) : State :=
  match (s.strand k).req rid with
  | none => s
  | some r =>
    match r.kind with
    | .load =>
      match r.old with
      | some v => s.modStrand k (fun t => (match r.latch with | some n => t.fillLatch n rid 1 v | none => t).dropReq rid)
      | none =>
      if mayPerform s k r then
        let t := s.strand k
        let away := r.els.findSome? (fun e => (s.awayPlaces k r e).head?.map (fun p => (e.off, p.1)))
        let n := s.nfree
        let s : State := if away.isSome then { s with nfree := n + 2 } else s
        let why := match away with | some (_, p) => Config.remoteReason p (n + 1) | none => 0
        if away.isSome ∧ Config.pick n % 2 = 1 then
          s.modDie t.die (fun d => { d with tagDrops := (d.tagDrops + 1) % 2 ^ 32 })
        else if why ≠ 0 then
          s.modStrand k (fun t => t.modReq rid (fun q => { q with flt := some (awayReadFailure r.space why r.win ((away.map Prod.fst).getD 0)) }))
        else if beyondHbm s k .load r.space r.win r.els then s.jam .absentHbm
        else
          let t := s.strand k
          let d := s.loadData k r
          let s := (d.2.chargeHomes t.die t.tcid (if r.space = 0 then [] else reqAddrs d.2 k r)).chargeAway t.die t.tcid (awayUnits d.2 k r)
          let s := if r.space = 4 then touchWin s k r.win .load r.els else touchEls s k .load r.space r.els
          s.modStrand k (fun t =>
            (match r.latch with
             | some n => t.fillLatch n rid 1 d.1
             | none => t).dropReq rid)
      else s
    | .atomic _ _ =>
      match r.old with
      | some v => if (match r.xact with | some x => (storeFind s.xacts x).isSome | none => false) then s else s.atomReturn k r v
      | none => s
    | _ => s
def execLatchFill (sid rid : Nat) (s : State) : Host.Outcome State Fault Refusal := .next (s.latchFill sid rid)

/-- The leaves that a failed access has walked to take A; nothing of it is performed (R130, R133). -/
def State.walkedTo (s : State) (k : Nat) (r : Req) : State :=
  let els := metUpTo s k r.kind.acc r.space r.win r.els
  if r.space = 4 then touchWin s k r.win .load els else touchEls s k .load r.space els

/-- ACCESS_FAULT_REPORT (R133, R285): the failed access and later ones are held; the cause is raised unless the frame is
already being saved (R360), and not before the attempt of a polling SPIN ends (R353). -/
def State.accessFault (s : State) (k : Nat) : State :=
  match firstFailed s k with
  | none => s
  | some (r, c, v) =>
    let t := s.strand k
    if t.polling then s else
    let s := (if r.xact.isNone then s.walkedTo k r else s).modStrand k (fun t => t.holdFrom r.id)
    let s := if r.space = 4 then s.writeFlt t.die t.tcid r.win c v else s
    let s := if c = .partition ∧ r.xact.isNone then s.partDrop (if r.flt.isSome then none else s.reqDrop k r) t.die t.tcid else s
    if t.resident = false ∨ t.st = .saving ∨ t.st = .saved then s
    else s.endTrap k ⟨c, v, r.tbun, 2 ^ r.slot.bit⟩
def execAccessFaultReport (sid : Nat) (s : State) : Host.Outcome State Fault Refusal := .next (s.accessFault sid)

end Sys2Proof.Machine
end

