-- ==== Sys2Proof/Machine/Atomics.lean ====
section
/-! DEFINITION. The atomics (R143 to R147) and VRED (R142). -/
namespace Sys2Proof.Machine

/-- The types of the atomics (R146). -/
def AOp.types (op : AOp) (ty : Nat) : Bool :=
  match op with
  | .add => ty == 7 || ty == 10 || ty == 13
  | .addf => ty == 0 || ty == 6
  | .min => ty == 7 || ty == 10 || ty == 13
  | .max => ty == 7 || ty == 10 || ty == 13
  | .and => ty == 7 || ty == 10 || ty == 13
  | .or => ty == 7 || ty == 10 || ty == 13
  | .xor => ty == 7 || ty == 10 || ty == 13
  | .swp => decide (ty < 14) && (tyWidth ty == 32 || tyWidth ty == 64)
  | .cas => decide (ty < 14) && (tyWidth ty == 32 || tyWidth ty == 64)

/-- The access of an atomic: coordinates 2 and 3 are 0 (R143). -/
def atomAcc (t : Strand) (op : AOp) (o : AtomOps) : MemChk :=
  let l := t.layOf o.le
  let c : C4 := ⟨t.coord o.c0, t.coord o.c1, 0, 0⟩
  ⟨l, c, spStore, op.types, false, true, none, l.one c⟩

/-- The request of an atomic. -/
def atomReq (t : Strand) (op : AOp) (o : AtomOps) (id : Nat) : Req :=
  let m := atomAcc t op o
  let els := m.els.map (fun e => (⟨e.phys, e.w, (t.rs o.d).toNat % 256 ^ e.w, (t.rs o.sc).toNat % 256 ^ e.w⟩ : El))
  ⟨id, .atomic op m.lay.ty, m.lay.space, m.lay.win, els, o.hl, o.scope, o.acq, o.rel, none, .st, t.bun.addr, 0, none, none, false, false, false, [], none⟩

/-- An atomic (R143, R144): the return latch is bound at issue; its performance follows. -/
def opAtomic (i : Instr) (op : AOp) (o : AtomOps) (s : State) : Op :=
  let t := s.me
  let m := atomAcc t op o
  { i := i, slot := .st, g := o.g
    chk := match o.hl with
      | some h => hreg t h
      | none => []
    dyn := m.trap s t, emul := false, stall := latchStallFull s t
    eff := fun s =>
      let id := s.nextId
      (s.addMyReq (atomReq s.me op o)).onMe (fun t =>
        let t := if o.acq then { t with lastAcq := some id } else t
        let t := if m.lay.space = 4 then t.useWin m.lay.win else t
        match o.hl with
        | some h => t.bindLatch h id
        | none => t) }

/-- AADD. -/
def execAadd (o : AtomOps) (s : State) : Host.Outcome State Fault Refusal := (opAtomic (.aadd o) .add o s).run s
/-- AADDF. -/
def execAaddf (o : AtomOps) (s : State) : Host.Outcome State Fault Refusal := (opAtomic (.aaddf o) .addf o s).run s
/-- AMIN. -/
def execAmin (o : AtomOps) (s : State) : Host.Outcome State Fault Refusal := (opAtomic (.amin o) .min o s).run s
/-- AMAX. -/
def execAmax (o : AtomOps) (s : State) : Host.Outcome State Fault Refusal := (opAtomic (.amax o) .max o s).run s
/-- AAND. -/
def execAand (o : AtomOps) (s : State) : Host.Outcome State Fault Refusal := (opAtomic (.aand o) .and o s).run s
/-- AOR. -/
def execAor (o : AtomOps) (s : State) : Host.Outcome State Fault Refusal := (opAtomic (.aor o) .or o s).run s
/-- AXOR. -/
def execAxor (o : AtomOps) (s : State) : Host.Outcome State Fault Refusal := (opAtomic (.axor o) .xor o s).run s
/-- ASWP. -/
def execAswp (o : AtomOps) (s : State) : Host.Outcome State Fault Refusal := (opAtomic (.aswp o) .swp o s).run s
/-- ACAS. -/
def execAcas (o : AtomOps) (s : State) : Host.Outcome State Fault Refusal := (opAtomic (.acas o) .cas o s).run s

/-! ## VRED (R142) -/

/-- The types of VRED (R115). -/
def vredTypes (ty : Nat) : Bool := ty == 6 || ty == 0 || ty == 2 || ty == 1 || ty == 13 || ty == 7 || ty == 10

/-- The access of a VRED. -/
def vredAcc (t : Strand) (o : StvOps) : MemChk :=
  let l := t.layOf o.le
  let c := t.coords o.c0 o.c1 o.c2 o.c3
  ⟨l, c, spStore, vredTypes, false, true, none, l.redLanes c⟩

/-- VRED: in core scratch its additions are made in the next issue cycle, unless an earlier .ACQ has not returned; elsewhere at the home
(R83, R142, R144, R145). -/
def opVred (o : StvOps) (s : State) : Op :=
  let t := s.me
  let m := vredAcc t o
  { i := .vred o, slot := .st, g := o.g, chk := vreg t o.fl o.d, dyn := m.trap s t, emul := false
    stall := m.lay.space != 0 && decide (32 ≤ (t.reqs.filter (fun r => !r.isLatch)).length)
    eff := fun s =>
      let t := s.me
      let es := vecData m.els (t.rv o.fl o.d)
      if m.lay.space = 0 ∧ acqBefore t s.nextId = false then
        s.pushIn ⟨.coreRed m.lay.ty (es.map (fun e => (e.1.phys, e.2))), 1, 0, fullEn, false, none, .st, t.bun.addr⟩
      else
        (s.addMyReq (fun id =>
          ⟨id, .vred m.lay.ty, m.lay.space, m.lay.win, reqEls false es, none, 0, false, false, none, .st, t.bun.addr, 0,
            none, none, false, false, false, [], none⟩)).onMe (fun t => if m.lay.space = 4 then t.useWin m.lay.win else t) }
def execVred (o : StvOps) (s : State) : Host.Outcome State Fault Refusal := (opVred o s).run s

end Sys2Proof.Machine
end

