-- ==== Sys2Proof/Machine/Engine.lean ====
section
/-! DEFINITION. The CE slot (R303 to R308, R312, R314), copy jobs (R225, R226, R299 to R307), and the events JOB_ACCEPT,
JOB_SEGMENT and JOB_COMPLETE. -/
namespace Sys2Proof.Machine

/-! ## Issue of CE operations (R303) -/

/-- The engine operations, which FENCE orders: CJOB, CSEND, CRED and CBELL, not the queries and CKILL (R234). -/
def CeOp.isEngine : CeOp → Bool
  | .wait _ _ => false
  | .poll _ _ => false
  | .kill _ => false
  | _ => true

/-- A CE operation enters its core's queue. -/
def State.queueCe (s : State) (op : CeOp) : State :=
  match s.self with
  | none => s
  | some k =>
    let f := s.fresh
    let t := s.strand k
    let s := f.2.modCore t.core (fun c => { c with ceq := c.ceq ++ [⟨f.1, k, t.core, t.tcid, t.bun.addr, t.fence, op, 0⟩] })
    if op.isEngine then s.modStrand k (fun t => { t with engOps := t.engOps ++ [f.1] }) else s

/-- The die that takes an operation: that of the core which issued it (R314, R315). -/
def CeEntry.die (e : CeEntry) : Nat := e.core / 64

/-- The stall of a full CE queue (R303). -/
def ceStall (s : State) : Bool := decide (16 ≤ (s.core s.me.core).ceq.length)

/-- The value of a scalar source. -/
def Strand.rn (t : Strand) (n : Nat) : Nat := (t.rs n).toNat

/-- The 128 bytes of a card or the bytes of a fragment as one located run (R304, R308). -/
def runAt (l : Lay) (c : C4) (n : Nat) : List Loc1 := [⟨0, l.off c, l.phys (l.off c) c, n⟩]

/-- The checks of a card or a fragment source: LAYOUT_BOUNDS, then the alignment to 128 bytes (R121, R304, R308). -/
def runDyn (s : State) (l : Lay) (c : C4) (spaces types : Nat → Bool) (shape : Bool) (n : Nat) : Option (Cause × Word) :=
  let t := s.me
  match firstErr [l.entryErr spaces types false, if shape then none else some (4, l.ty), l.coordErr c, sizeErr (s.spaceSize t l) (runAt l c n)] with
  | some e => some (.layoutBounds, layFval e)
  | none => if l.off c % 128 ≠ 0 then some (.misaligned, BitVec.ofNat 64 (l.off c)) else none

/-- The stall of an operation that binds a latch: 64 variable-latency requests of the core are outstanding, or its CE queue is full (R83,
R125, R303). -/
def ceLatchStall (s : State) : Bool := ceStall s || latchStallFull s s.me

/-- CJOB (R304): the card is read in the next issue cycle. -/
def opCjob (o : CjobOps) (s : State) : Op :=
  let t := s.me
  let l := t.layOf o.le
  let c : C4 := ⟨t.rn o.sa, 0, 0, 0⟩
  { i := .cjob o, slot := .ce, g := o.g, chk := hreg t o.hl, dyn := runDyn s l c spCore tyAll true 128, emul := false, stall := ceLatchStall s
    eff := fun s =>
      let t := s.me
      let off := l.phys (l.off c) c
      let id := s.nextId
      let s := s.queueCe (.job [] (t.icyc + 1) off o.hl o.fg t.prioCeil)
      (s.onMe (fun t => t.bindLatch o.hl id)).landBit (.flag o.fg) 1 false .ce }
def execCjob (o : CjobOps) (s : State) : Host.Outcome State Fault Refusal := (opCjob o s).run s

/-- CWAIT and CPOLL: the latch is bound at issue (R307). -/
def opHandle (i : Instr) (o : ChOps) (op : CeOp) (s : State) : Op :=
  { i := i, slot := .ce, g := o.g, chk := hreg s.me o.hl, dyn := none, emul := false, stall := ceLatchStall s
    eff := fun s =>
      let id := s.nextId
      (s.queueCe op).onMe (fun t => t.bindLatch o.hl id) }
/-- CWAIT (R307). -/
def execCwait (o : ChOps) (s : State) : Host.Outcome State Fault Refusal :=
  (opHandle (.cwait o) o (.wait (s.me.rn o.sa % 65536) o.hl) s).run s
/-- CPOLL (R307). -/
def execCpoll (o : ChOps) (s : State) : Host.Outcome State Fault Refusal :=
  (opHandle (.cpoll o) o (.poll (s.me.rn o.sa % 65536) o.hl) s).run s
/-- CKILL (R307). -/
def execCkill (o : CkillOps) (s : State) : Host.Outcome State Fault Refusal :=
  ({ Op.plain (.ckill o) .ce o.g (fun s => s.queueCe (.kill (s.me.rn o.sa % 65536))) with stall := ceStall s } : Op).run s

/-- The fields of a fragment descriptor (R308). -/
def fragWin (d : Word) : Nat := fld d.toNat 60 4
def fragRflag (d : Word) : Nat := fld d.toNat 54 6
def fragNidx (d : Word) : Nat := fld d.toNat 50 4
def fragNcon (d : Word) : Nat := fld d.toNat 40 10
def fragOff (d : Word) : Nat := fld d.toNat 0 40

/-- The window conditions of CSEND and CRED (R283, R308). -/
def fragWinErr (s : State) (t : Strand) (d : Word) (bytes : Nat) (red : Bool) : Option (Cause × Word) :=
  let c := s.ctx t.die t.tcid
  let w := c.win (fragWin d)
  let e := match s.winErr c (fragWin d) false red false with
    | some r => some r
    | none => if w.size < fragOff d + bytes ∨ fragOff d % 128 ≠ 0 then some 5 else none
  e.map (fun r => (.windowFault, winFval r (fragWin d) (fragOff d)))

/-- CSEND and CRED (R308). -/
def opFrag (i : Instr) (o : CfragOps) (red : Bool) (s : State) : Op :=
  let t := s.me
  let l := t.layOf o.le
  let c : C4 := ⟨t.rn o.sa, 0, 0, 0⟩
  let n := 128 * (o.len + 1)
  let d := t.rs o.sb
  { i := i, slot := .ce, g := o.g, chk := []
    dyn := (runDyn s l c (fun sp => decide (sp < 4)) tyAll (l.dims == 0 && l.byte) n).orElse (fun _ => fragWinErr s t d n red)
    emul := false, stall := ceStall s
    eff := fun s =>
      let src := [(l.space, l.phys (l.off c) c, n)]
      let op : CeOp := if red then .red src d o.op o.tag (o.len + 1) o.fg else .send src d (o.len + 1) o.fg
      (s.queueCe op).landBit (.flag o.fg) 1 false .ce }
/-- CSEND (R308). -/
def execCsend (o : CfragOps) (s : State) : Host.Outcome State Fault Refusal := (opFrag (.csend o) o false s).run s
/-- CRED (R308). -/
def execCred (o : CfragOps) (s : State) : Host.Outcome State Fault Refusal := (opFrag (.cred o) o true s).run s

/-- CBELL (R314). -/
def opCbell (o : CbellOps) (s : State) : Op :=
  let t := s.me
  let c := s.ctx t.die t.tcid
  { i := .cbell o, slot := .ce, g := o.g, chk := []
    dyn := if o.loc then none else (s.winErr c o.win false true true).map (fun r => (.windowFault, winFval r o.win 0))
    emul := false, stall := ceStall s
    eff := fun s => s.queueCe (.bell (s.me.rn o.sa % 2 ^ 32) (s.me.rs o.sb) o.loc o.win o.sqid) }
def execCbell (o : CbellOps) (s : State) : Host.Outcome State Fault Refusal := (opCbell o s).run s

/-! ## Cards (R299 to R302, R305) -/

/-- A region descriptor from its two words. -/
def Region.ofWords (a b : Nat) : Region := ⟨fld a 16 48, fld a 12 4, fld a 0 4, fld b 32 32, fld b 20 12, fld b 0 20⟩
/-- The bytes of a row. -/
def Region.row (r : Region) : Nat := (r.rlen + 1) * 64
/-- The bytes of a region. -/
def Region.bytes (r : Region) : Nat := (r.nrow + 1) * r.row
/-- The offset just past the region's last byte. -/
def Region.top (r : Region) : Nat := r.base + r.nrow * r.stride + r.row
/-- The offset of the byte at a place of the region's byte sequence. -/
def Region.at_ (r : Region) (p : Nat) : Nat := r.base + p / r.row * r.stride + p % r.row
/-- The rows, as (first offset, place of the row's end in the byte sequence). -/
def Region.rows (r : Region) : List (Nat × Nat) := (List.range (r.nrow + 1)).map (fun i => (r.base + i * r.stride, (i + 1) * r.row))

/-- The first word of a descriptor that breaks an encoding rule (R299, R301): 0 for word A, 1 for word B. -/
def regionWordErr (used : Bool) (a b : Nat) : Option Nat :=
  if used = false then (if a ≠ 0 then some 0 else if b ≠ 0 then some 1 else none)
  else
    let r := Region.ofWords a b
    if fld a 4 8 ≠ 0 ∨ (r.win ≠ 0 ∧ r.space ≠ 4) ∨ r.base % 64 ≠ 0 then some 0
    else if r.stride % 64 ≠ 0 ∨ (r.nrow = 0 ∧ r.stride ≠ 0) ∨ (r.nrow ≠ 0 ∧ r.stride < r.row) then some 1
    else none

/-- The header's fields. -/
def cardOp (h : Nat) : Nat := fld h 0 4
def cardNr (h : Nat) : Nat := fld h 4 3
def cardNw (h : Nat) : Nat := fld h 8 2
/-- A header that R300 rejects. -/
def headerBad (h : Nat) : Bool :=
  fld h 20 44 != 0 || flg h 15 || fld h 10 2 != 0 || flg h 7 || decide (4 < fld h 12 3) || decide (1 < cardOp h) ||
  !(cardNw h == 1 || cardNw h == 2) ||
  (if cardOp h = 0 then decide (cardNr h < cardNw h) || decide (4 < cardNr h) else cardNr h != 0)

/-- The first offending word of a card (R299). -/
def cardWordErr (ws : List Nat) : Option Nat :=
  let w (i : Nat) : Nat := ws.getD i 0
  if headerBad (w 0) then some 0
  else
    match (List.range 6).findSome? (fun k =>
      (regionWordErr (if k < 4 then decide (k < cardNr (w 0)) else decide (k - 4 < cardNw (w 0))) (w (2 + 2 * k)) (w (3 + 2 * k))).map
        (fun x => 2 + 2 * k + x)) with
    | some x => some x
    | none => if cardOp (w 0) = 0 ∧ w 14 ≠ 0 then some 14 else if w 15 ≠ 0 then some 15 else none

/-- A region that the job cannot use (R305). `clen` is the issuing frame's region, `none` for a card of EMIT_COPY. -/
def regionBad (c : Ctx) (clen : Option Nat) (read : Bool) (r : Region) : Bool :=
  match r.space with
  | 0 => (match clen with | some n => decide (n < r.top) | none => true)
  | 1 => clen.isNone || decide (c.csize < r.top)
  | 2 => decide (c.dsize < r.top)
  | 3 => decide (2 ^ 48 < r.top)
  | 4 => let w := c.win r.win
         !w.en || decide (w.size < r.top) || (read && w.mc)
  | _ => true

/-- The regions of a card: reads and writes. -/
def cardRegions (ws : List Nat) : List Region × List Region :=
  let r (k : Nat) : Region := Region.ofWords (ws.getD (2 + 2 * k) 0) (ws.getD (3 + 2 * k) 0)
  let h := ws.getD 0 0
  ((List.range (cardNr h)).map r, (List.range (cardNw h)).map (fun k => r (4 + k)))

/-- What validation gives: a reject code with its detail, or nothing (R299, R302, R305). -/
def cardReject (c : Ctx) (clen : Option Nat) (ws : List Nat) : Option (Nat × Nat) :=
  match cardWordErr ws with
  | some x => some (0x10, x)
  | none =>
    let g := cardRegions ws
    let mis := if cardOp (ws.getD 0 0) = 0 then
        (List.range g.2.length).find? (fun i => ((g.1[i]?).map Region.bytes) != ((g.2[i]?).map Region.bytes))
      else none
    match mis with
    | some i => some (0x11, i)
    | none =>
      match (g.1.zipIdx.find? (fun x => regionBad c clen true x.1)) with
      | some x => some (0x12, x.2)
      | none =>
        match (g.2.zipIdx.find? (fun x => regionBad c clen false x.1)) with
        | some x => some (0x12, 4 + x.2)
        | none => none

/-! ## Job records -/

/-- The final statuses (R305). -/
def jobFinal (st : Nat) : Bool := st == 0 || st == 4 || (decide (0x20 ≤ st) && decide (st ≤ 0x26))
/-- The bytes of a job. -/
def Job.total (j : Job) : Nat := (j.wrs.map Region.bytes).foldl (· + ·) 0
/-- The status word of CWAIT, CPOLL and card word 1 (R304, R307). -/
def Job.word (j : Job) : Word := wordOf [(56, j.status), (48, j.detail % 256), (0, j.done % 2 ^ 48)]
/-- A change of a job. -/
def State.modJob (s : State) (jid : Nat) (f : Job → Job) : State := { s with jobs := storeMod s.jobs jid f }
/-- The records of a context. -/
def State.jobOf (s : State) (die tcid handle : Nat) : Option (Nat × Job) :=
  s.jobs.find? (fun e => e.2.die == die && e.2.tcid == tcid && e.2.handle == handle)

/-- A handle that no kept record of the die uses, by a free choice (log entry 3). -/
def freeHandle (s : State) (die n : Nat) : Nat :=
  let used := (s.jobs.filter (fun e => e.2.die == die)).map (fun e => e.2.handle)
  let a := Config.pick n % 65536
  ((List.range (used.length + 1)).map (fun i => (a + i) % 65536)).find? (fun h => !used.contains h) |>.getD a

/-- A strand whose core-scratch region is in place. -/
def Strand.hasRegion (t : Strand) : Bool := t.place.isSome || t.home.isSome

/-- The extension word of a job's transfers through a window (R276, R277). -/
def jobWord (s : State) (j : Job) (win : Nat) : BitVec 32 := winWord (s.ctx j.die j.tcid) win j.gang none

/-- The place of an 8-byte unit of a job (R302, R305). -/
def jobPlace (s : State) (j : Job) (acc : Acc) (r : Region) (p : Nat) : Met :=
  let c := s.ctx j.die j.tcid
  let off := r.at_ p
  match r.space with
  | 0 => blockCheck s (match j.sid with | some k => s.scratchAddr (s.strand k) 0 off | none => j.cbase + off) off (acc == .load)
  | 1 => blockCheck s (c.regionBase j.die 1 j.cluster + off) off (acc == .load)
  | 2 => blockCheck s (c.regionBase j.die 2 0 + off) off (acc == .load)
  | 3 => accessVa s j.die j.tcid j.gang acc false false off off
  | _ =>
    match s.members (c.win r.win) with
    | (_, dst) :: _ => windowTarget s j.die c r.win (jobWord s j r.win) acc dst off 8
    | [] => .error (.windowFault, winFval 11 r.win off)

/-- The status of a job that a cause stops, with its detail (R305). -/
def faultStatus (c : Cause) (v : Word) : Nat × Nat :=
  match c with
  | .pagePerm => (0x21, 0)
  | .windowFault => (0x22, v.toNat / 2 ^ 56)
  | .partition => (0x23, 0)
  | .checkValue => (0x24, 0)
  | .eccUncorrectable => (0x25, 0)
  | .linkUncertain => (0x26, 0)
  | _ => (0x20, 0)

/-- Bytes of a strand's region as its image holds them after a checkpoint. -/
def imageBytes (s : State) (sid : Option Nat) (off n : Nat) : List Byte :=
  match sid with
  | some k => (List.range n).map (fun i => storeGet emptyByte (s.strand k).img (off + i))
  | none => []

/-- Bytes written into a saved strand's image of its region (R361). -/
def State.imagePut (s : State) (sid : Option Nat) (off : Nat) (bs : List Byte) : State :=
  match sid with
  | some k => (s.modStrand k (fun t => { t with img := bs.zipIdx.foldl (fun m b => storePut emptyByte m (off + b.2) b.1) t.img })).resave k
  | none => s

/-- The engine writes card word 1 (R304, R404). A card whose strand has no region in place keeps it in the strand's image. -/
def State.jobWriteBack (s : State) (j : Job) : State :=
  let bs := leBytes 8 j.word.toNat
  match j.sid with
  | some k =>
    let t := s.strand k
    if s.hasStrand k = false then s
    else if t.hasRegion then s.scratchWrite (bs.zipIdx.map (fun b => (s.scratchAddr t 0 (j.card + 8 + b.2), b.1)))
    else s.imagePut (some k) (j.card + 8) bs
  | none =>
    match deviceVa s j.die j.tcid (j.card + 8) with
    | some a => ((touchLeaf s j.die j.tcid (j.card + 8) true).deviceWrite j.die a bs j.scope).2
    | none => s

/-- A fill of a latch that an engine operation bound. -/
def State.engineFill (s : State) (k n id kind : Nat) (v : Word) : State := 
  (s.modStrand k (fun t => t.fillLatch n id kind (v.setWidth 1024))).resave k

/-- An engine operation of a strand is complete (R234). -/
def State.engineDone (s : State) (k id : Nat) : State :=
  s.modStrand k (fun t => { t with engOps := t.engOps.filter (fun x => x != id) })

/-- A job reaches a final status: its writes are published at SCOPE, word 1 is written, its flag sets, waiters are filled (R226,
R302, R304, R307). -/
def State.jobEnd (s : State) (jid status detail : Nat) : State :=
  match storeFind s.jobs jid with
  | none => s
  | some j =>
    if jobFinal j.status then s
    else
      let j := { j with status := status, detail := detail, seg := [], got := [], put := [], reported := !j.waits.isEmpty }
      let s := (s.publishWids [jid] j.scope).jobWriteBack j
      let s : State := match j.sid with
        | some k => if s.hasStrand k then (s.setFlag k j.flag [jid]).engineDone k j.eid else s
        | none => s
      let s : State := (j.waits : List (Nat × Nat × Nat)).foldl
        (fun (s : State) (w : Nat × Nat × Nat) => if s.hasStrand w.1 then s.engineFill w.1 w.2.1 w.2.2 3 j.word else s) s
      { s with jobs := if j.reported then storeErase s.jobs jid else storeSet s.jobs jid { j with waits := [] } }

/-! ## Order of jobs (R225, R226) -/

/-- Rows of two regions share a byte of one space and window. -/
def Region.meets (a b : Region) : Bool :=
  a.space == b.space && a.win == b.win &&
  a.rows.any (fun x => b.rows.any (fun y => decide (x.1 < y.1 + b.row) && decide (y.1 < x.1 + a.row)))

/-- A job whose own read and write regions overlap (R302). -/
def Job.selfOverlap (j : Job) : Bool := (j.rds.take j.wrs.length).any (fun r => j.wrs.any r.meets)

/-- How much of its byte sequence a job has read for certain: the whole segments, and the blocks of the segment in progress while they go
in order. -/
def Job.readTo (j : Job) : Nat :=
  match j.seg with
  | p :: _ => if j.selfOverlap then j.done else p
  | [] => j.done

/-- Job K's reads of the bytes that a region overlaps are made (R225); regions that nothing reads need none (R302). -/
def Job.readsDone (kj : Job) (w : Region) : Bool :=
  (kj.rds.take kj.wrs.length).zipIdx.all (fun r =>
    let before := ((kj.rds.take r.2).map Region.bytes).foldl (· + ·) 0
    !(r.1.space == w.space && r.1.win == w.win) ||
    r.1.rows.all (fun x => w.rows.all (fun y =>
      let last := min (x.1 + r.1.row) (y.1 + w.row)
      decide (last ≤ max x.1 y.1) || decide (before + x.2 - r.1.row + (last - x.1) ≤ kj.readTo))))

/-- An earlier job of the context, by the order in which the die accepted them, that a job waits for (R225). Numbers of jobs rise in that
order. -/
def edgeBlocks (kid : Nat) (kj : Job) (jid : Nat) (j : Job) : Bool :=
  kj.die == j.die && kj.tcid == j.tcid && decide (kid < jid) && !jobFinal kj.status &&
  (j.rds.any (fun r => kj.wrs.any r.meets) || j.wrs.any (fun r => kj.wrs.any r.meets) || j.wrs.any (fun w => !kj.readsDone w))

/-- An earlier store of the strand to a read region is still to be performed (R226). -/
def storeBefore (s : State) (sid : Option Nat) (eid : Nat) (rds : List Region) : Bool :=
  match sid with
  | none => false
  | some k =>
    (s.strand k).reqs.any (fun q => decide (q.id < eid) && q.kind != .load && q.old.isNone &&
      rds.any (fun r => r.space == q.space && r.win == q.win &&
        q.els.any (fun e => r.rows.any (fun x => decide (e.off < x.1 + r.row) && decide (x.1 < e.off + e.w)))))

/-! ## Segments (R306) -/

/-- The HBM slice of an address (R340, log entry 11). -/
def sliceOf (a : Nat) : Nat × Nat := (a / 2 ^ 46, if a % 2 ^ 46 < hbmBytes / 2 then 0 else 1)

/-- The bucket of a tenant on a slice (R341). -/
def State.bucket (s : State) (x : Nat × Nat) (tenant : Nat) : Nat :=
  match (s.die x.1).slices[x.2]? with
  | some sl => storeGet 0 sl.bucket tenant
  | none => 0

/-- A change of a slice. -/
def State.modSlice (s : State) (x : Nat × Nat) (f : Slice → Slice) : State :=
  s.modDie x.1 (fun d => { d with slices := d.slices.zipIdx.map (fun y => if y.2 = x.2 then f y.1 else y.1) })

/-- A tenant presents requests on a slice, and takes tokens (R340, R341). -/
def State.takeTokens (s : State) (x : Nat × Nat) (tenant n : Nat) : State :=
  s.modSlice x (fun sl =>
    { sl with
      demand := if sl.demand.contains tenant then sl.demand else sl.demand ++ [tenant]
      bucket := storePut 0 sl.bucket tenant (storeGet 0 sl.bucket tenant - n) })

/-- Read requests of a critical tenant count towards its block (R342). -/
def State.countReads (s : State) (x : Nat × Nat) (tenant n : Nat) : State :=
  s.modSlice x (fun sl =>
    if sl.critical.contains tenant then { sl with reads := storePut 0 sl.reads tenant (storeGet 0 sl.reads tenant + n) } else sl)

/-- The 128-byte units of HBM that addresses lie in, by slice. -/
def hbmUnits (as : List Nat) : List ((Nat × Nat) × Nat) :=
  let us := ((as.filter (fun a => a < 2 ^ 50)).map (fun a => a / 128)).eraseDups
  let ss := (us.map (fun u => sliceOf (128 * u))).eraseDups
  ss.map (fun x => (x, (us.filter (fun u => sliceOf (128 * u) == x)).length))

/-- The pair of regions and the place in them of a byte of the job. -/
def Job.at_ (j : Job) (p : Nat) : Nat × Nat :=
  match j.wrs with
  | w :: _ => if p < w.bytes then (0, p) else (1, p - w.bytes)
  | [] => (0, 0)

/-- The blocks of the next segment, as places in the byte sequence. -/
def Job.segment (j : Job) : List Nat := (List.range (min 1024 ((j.total - j.done) / 64))).map (fun i => j.done + 64 * i)

/-- Where a block's transfer is dropped for its partition (R295). -/
def jobDrop (s : State) (j : Job) (p : Nat) : Option Nat :=
  let x := j.at_ p
  let c := s.ctx j.die j.tcid
  (j.rds[x.1]?.toList ++ j.wrs[x.1]?.toList).findSome? (fun r =>
    if r.space = 4 then (s.members (c.win r.win)).findSome? (fun m => s.dropPoint j.die m.2.ddie (c.win r.win).ue (jobWord s j r.win))
    else if r.space = 3 then
      (match leafOf s j.die j.tcid (r.at_ x.2) with | .ok (bits, _) => peerDrop s j.die j.gang bits | .error _ => none)
    else none)

/-- What a read of n bytes of another package by an engine gives: a failure that is reported, or bytes (R285, R298; log entry 7). -/
def State.awayRead (s : State) (space d win off n : Nat) : Except (Cause × Word) (List Byte) :=
  let r := Config.remoteReason d s.nfree
  if r = 0 then .ok ((List.range n).map (fun i => BitVec.ofNat 8 (Config.remoteData d (s.nfree + 1 + i)).toNat))
  else .error (awayReadFailure space r win off)

/-- The 8 bytes of a unit of a window region, one by one, or what their read meets (R282). -/
def windowBytes (s : State) (j : Job) (win off : Nat) (dst : Dest') : Except (Cause × Word) (List Byte) :=
  if (s.dieOfDomain dst.ddie).isNone then
    match windowByte s j.die (s.ctx j.die j.tcid) win (jobWord s j win) .load dst off off with
    | .ok _ => s.awayRead 4 dst.ddie win off 8
    | .error e => .error e
  else
    (List.range 8).foldl (fun acc i =>
      match acc with
      | .error e => .error e
      | .ok bs =>
        match windowByte s j.die (s.ctx j.die j.tcid) win (jobWord s j win) .load dst off (off + i) with
        | .ok (.here a) => .ok (bs ++ [s.byte a])
        | .ok (.away _) => .ok bs
        | .error e => .error e) (.ok [])

/-- A job whose CORE regions lie in its strand's image, since a checkpoint has freed the region (R315, R361, R369). -/
def Job.imaged (s : State) (j : Job) : Bool :=
  match j.sid with
  | some k => !(s.strand k).hasRegion
  | none => false

/-- The bytes of the unit at offset o of a block, or what its read meets. -/
def jobRead (s : State) (j : Job) (p o : Nat) : Except (Cause × Word) (List Byte) :=
  let x := j.at_ p
  match j.rds[x.1]? with
  | none => .ok []
  | some r =>
    if r.space = 0 ∧ j.imaged s = true then .ok (imageBytes s j.sid (r.at_ x.2 + o) 8)
    else
      match r.space, s.members ((s.ctx j.die j.tcid).win r.win) with
      | 4, (_, dst) :: _ => windowBytes s j r.win (r.at_ x.2 + o) dst
      | _, _ =>
        match jobPlace s j .load r (x.2 + o) with
        | .ok (.here a) => .ok (s.bytes a 8)
        | .ok (.away d) => s.awayRead 3 d 0 (r.at_ x.2 + o) 8
        | .error e => .error e

/-- The leaves of a job's HBM block take A, and D for a write (R130); a window's are those of its destination, which a write sets when it
is performed there. -/
def jobTouch (s : State) (j : Job) (acc : Acc) (r : Option Region) (p : Nat) : State :=
  match r with
  | none => s
  | some r =>
    if r.space = 3 then touchLeaf s j.die j.tcid (r.at_ p) acc.writes
    else if r.space = 4 ∧ acc = .load then
      let w := (s.ctx j.die j.tcid).win r.win
      match s.members w with
      | (_, dst) :: _ => touchDest s w dst acc [⟨r.at_ p, 64, 0, 0⟩]
      | [] => s
    else s

/-- A block is the first of its 128-byte unit of a region that its segment moves (R335, R340). -/
def Job.freshUnit (j : Job) (r : Region) (p : Nat) : Bool :=
  let x := j.at_ p
  p % 65536 == 0 || x.2 == 0 || r.at_ x.2 / 128 != r.at_ (x.2 - 64) / 128

/-- The window transaction of a block whose units are read: it leaves, unless no path takes it (R285, R302). -/
def State.jobPost (s : State) (jid : Nat) (j : Job) (p : Nat) (r : Region) : Except (Cause × Word) State :=
  let x := j.at_ p
  let els := j.put.map (fun u => (⟨r.at_ x.2 + u.1, 8, u.2, 0⟩ : El))
  let post : Except (Cause × Word) State :=
    .ok ((s.chargeSend j.die j.tcid r.win (if j.freshUnit r p then 1 else 0)).postXact j.die j.tcid r.win noSid jid (engineOf j.die) .store els
      j.gang none 0).2
  if ((s.ctx j.die j.tcid).win r.win).mc then post
  else
    match jobPlace s j .store r x.2 with
    | .error (.windowFault, v) => if v.toNat / 2 ^ 56 = 11 then .error (.windowFault, v) else post
    | _ => post

/-- The unit at offset o of a block is written where its region lies, or what it meets there; a window takes the whole block at once. -/
def State.jobWrite (s : State) (jid : Nat) (j : Job) (p o v : Nat) : Except (Cause × Word) State :=
  let x := j.at_ p
  match j.wrs[x.1]? with
  | none => .ok s
  | some r =>
    if r.space = 4 then s.jobPost jid j p r
    else if r.space = 0 ∧ j.imaged s = true then .ok (s.imagePut j.sid (r.at_ x.2 + o) (leBytes 8 v))
    else
      match jobPlace s j .store r (x.2 + o) with
      | .error e => .error e
      | .ok (.away _) => .ok (jobTouch s j .store (some r) x.2)
      | .ok (.here a) =>
        if locExists (.here a) = false then .ok (s.jam .absentHbm)
        else if r.space = 0 then .ok (s.scratchWrite ((leBytes 8 v).zipIdx.map (fun b => (a + b.2, b.1))))
        else .ok ((jobTouch s j .store (some r) x.2).homeWrite ⟨jid, none, engineOf j.die, false, none, none⟩ [(a, 8, v)])

/-- The addresses of the package that a block reads, or writes. -/
def blockAddrs (s : State) (j : Job) (p : Nat) (write : Bool) : List Nat :=
  let x := j.at_ p
  let acc : Acc := if write then .store else .load
  match if write then j.wrs[x.1]? else if j.op = 0 then j.rds[x.1]? else none with
  | none => []
  | some r =>
    if r.space = 4 then
      (s.members ((s.ctx j.die j.tcid).win r.win)).filterMap (fun m =>
        match windowTarget s j.die (s.ctx j.die j.tcid) r.win (jobWord s j r.win) acc m.2 (r.at_ x.2) 64 with
        | .ok (.here a) => some a
        | _ => none)
    else if r.space = 0 ∧ j.imaged s = true then []
    else (match jobPlace s j acc r x.2 with | .ok (.here a) => [a] | _ => [])

/-- The 128-byte requests of a block that its segment has not made yet, with their direction (R340). -/
def blockNeeds (s : State) (j : Job) (p : Nat) : List (Nat × Bool) :=
  let us (w : Bool) : List (Nat × Bool) := ((blockAddrs s j p w).filter (fun a => a < 2 ^ 50 ∨ 2 ^ 51 ≤ a)).map (fun a => (a / 128, w))
  ((us false ++ us true).eraseDups).filter (fun x => !j.paid.contains x)

/-- A request of a unit is admitted: one of HBM takes a token of its slice, if its tenant has one there; a read counts (R340, R342,
R343). -/
def State.admitUnit (s : State) (tenant u : Nat) (read : Bool) : Option State :=
  if 2 ^ 50 ≤ 128 * u then some s
  else
    let x := sliceOf (128 * u)
    if s.bucket x tenant = 0 then none
    else some ((s.takeTokens x tenant 1).countReads x tenant (if read then 1 else 0))

/-- Requests served by scratch and HBM are charged to the sender, where it is one of the package (R335). -/
def State.chargeServed (s : State) (die tcid : Nat) (addrs : List Nat) : State :=
  let us := (addrs.map (fun a => a / 128)).eraseDups
  if 1024 ≤ die then s else (s.charge die tcid 8 (us.filter (fun u => decide (2 ^ 50 ≤ 128 * u))).length).charge die tcid 9
    (us.filter (fun u => decide (128 * u < 2 ^ 50))).length

/-- The requests that a segment makes are charged to its context, each unit once; what a write through a window sends is charged as it
leaves (R335). -/
def State.chargeUnit (s : State) (j : Job) (p : Nat) (x : Nat × Bool) : State :=
  let r := j.wrs[(j.at_ p).1]?
  if x.2 ∧ r.any (fun r => r.space == 4) = true then s.chargeServed j.die j.tcid [128 * x.1] else s.chargeHomes j.die j.tcid [128 * x.1]

/-- A region's block lies outside the package. -/
def jobAway (s : State) (j : Job) (acc : Acc) (r : Region) (p : Nat) : Bool :=
  match jobPlace s j acc r p with | .ok (.away _) => true | _ => false

/-- The 128-byte requests of a block that go outside the package, but for window transactions, are charged (R335). -/
def State.chargeBlockAway (s : State) (j : Job) (p : Nat) : State :=
  let x := j.at_ p
  let n (acc : Acc) (r : Region) : Nat :=
    if jobAway s j acc r x.2 && j.freshUnit r p && !(acc == .store && r.space == 4) then 1 else 0
  s.chargeAway j.die j.tcid ((if j.op = 0 then ((j.rds[x.1]?).map (n .load)).getD 0 else 0) + ((j.wrs[x.1]?).map (n .store)).getD 0)

/-- The requests of a job's next block are made as far as there are tokens: whether all are, and the state (R340, R341, R343). -/
def State.payBlock (s : State) (jid : Nat) (j : Job) (p : Nat) : Bool × State :=
  let tenant := (s.ctx j.die j.tcid).tenant
  (blockNeeds s j p).foldl (fun r x =>
    match r.2.admitUnit tenant x.1 (!x.2) with
    | some s => (r.1, (s.chargeUnit j p x).modJob jid (fun j => { j with paid := j.paid ++ [x] }))
    | none => (false, r.2.takeTokens (sliceOf (128 * x.1)) tenant 0)) (true, s)

/-- The job's regions can be reached now: those of a context that is not resident, a window being resynchronised or one that refuses
make it wait (R285, R287, R293). -/
def jobReach (s : State) (j : Job) : Bool :=
  let c := s.ctx j.die j.tcid
  (j.rds ++ j.wrs).all (fun r => (r.space != 1 && r.space != 2) || c.resident) && j.rds.all (fun r => r.space != 4 || s.targetResident c r.win) &&
  j.wrs.all (fun r => r.space != 4 || (c.win r.win).resync.isEmpty && (c.win r.win).refusing.isNone)

/-- A job's next segment is ready but for tokens (R225, R226, R306). -/
def jobReady (s : State) (jid : Nat) (j : Job) : Bool :=
  !jobFinal j.status && j.seg.isEmpty && decide (j.done < j.total) && !(s.ctx j.die j.tcid).estop &&
  !s.jobs.any (fun e => edgeBlocks e.1 e.2 jid j) && !storeBefore s j.sid j.eid j.rds && jobReach s j

/-- A job's next segment may start: its first requests find tokens, or need none (R306, R343). -/
def jobRunnable (s : State) (jid : Nat) (j : Job) : Bool :=
  jobReady s jid j &&
  (blockNeeds s { j with paid := [] } j.done).all (fun x => decide (2 ^ 50 ≤ 128 * x.1) || decide (0 < s.bucket (sliceOf (128 * x.1)) (s.ctx j.die j.tcid).tenant))

/-- The demands that ready segments present on the memory slices (R341). -/
def State.jobDemands (s : State) (die : Nat) : State :=
  (s.jobs.filter (fun e => e.2.die == die && jobReady s e.1 e.2)).foldl (fun s e =>
    (blockNeeds s { e.2 with paid := [] } e.2.done).foldl (fun s x =>
      if 2 ^ 50 ≤ 128 * x.1 then s else s.takeTokens (sliceOf (128 * x.1)) (s.ctx e.2.die e.2.tcid).tenant 0) s) s

/-- The runnable job of a die with the highest effective priority, among equals the one of the oldest CJOB (R306). -/
def bestJob (s : State) (die : Nat) : Option (Nat × Job) :=
  (s.jobs.filter (fun e => e.2.die == die && jobRunnable s e.1 e.2)).foldl (fun b e =>
    match b with
    | none => some e
    | some x => if x.2.pri < e.2.pri ∨ (x.2.pri = e.2.pri ∧ e.2.eid < x.2.eid) then some e else some x) none

/-- Jobs of contexts without energy park at the boundary, and parked ones go on once there is energy (R306). -/
def State.jobParks (s : State) (die : Nat) : State :=
  s.jobs.foldl (fun s e =>
    let j := e.2
    if j.die ≠ die ∨ jobFinal j.status ∨ j.total ≤ j.done ∨ j.seg.isEmpty = false then s
    else if (s.ctx j.die j.tcid).estop then
      if j.status = 3 then s
      else (s.modJob e.1 (fun j => { j with status := 3 })).jobWriteBack { j with status := 3 }
    else if j.status = 3 then s.modJob e.1 (fun j => { j with status := if j.done = 0 then 1 else 2 })
    else s) s

/-- The jobs of a die that its copy engines move segments of. -/
def busyJobs (s : State) (die : Nat) : List (Nat × Job) := s.jobs.filter (fun e => e.2.die == die && !jobFinal e.2.status && !e.2.seg.isEmpty)

/-- A free engine takes a job's next segment; where the job's regions overlap, its blocks go in a free order (R302, R306). -/
def State.startSegment (s : State) (jid : Nat) (j : Job) : State :=
  let ps := if j.selfOverlap then permBy j.segment.length s.nfree j.segment else j.segment
  ({ s with nfree := s.nfree + ps.length } : State).modJob jid (fun j => { j with status := 2, seg := ps, paid := [] })

/-- Every free one of a die's six engines takes the best runnable segment (R18, R306). -/
def State.takeSegments (die : Nat) : Nat → State → State
  | 0, s => s
  | n + 1, s =>
    if 6 ≤ (busyJobs s die).length then s
    else
      match bestJob s die with
      | none => s
      | some x => State.takeSegments die n (s.startSegment x.1 x.2)

/-- A block has been moved: with the last of its segment, DONE advances to the boundary (R306). -/
def Job.moved (j : Job) : Job :=
  match j.seg with
  | _ :: p :: r => { j with seg := p :: r, got := [], put := [] }
  | _ => { j with seg := [], paid := [], got := [], put := [], done := min j.total (j.done + 65536) }

/-- A job stops at a block whose read or write meets a cause; the window's WFLT takes it, and a drop is counted (R285, R295, R305). -/
def State.jobStop (s : State) (jid : Nat) (j : Job) (p : Nat) (c : Cause) (v : Word) (r : Option Region) : State :=
  let s := if c = .partition then s.partDrop (jobDrop s j p) j.die j.tcid else s
  let s := match r with
    | some r => if r.space = 4 then s.writeFlt j.die j.tcid r.win c v else s
    | none => s
  s.jobEnd jid (faultStatus c v).1 (faultStatus c v).2

/-- All units of a block are read: they are to be written, and the block is charged (R335). -/
def State.jobHave (s : State) (jid : Nat) (j : Job) (p : Nat) (us : List (Nat × Nat)) : State :=
  let core := ((blockAddrs s j p false ++ blockAddrs s j p true).filter (fun a => 2 ^ 50 ≤ a ∧ a < 2 ^ 51)).length
  (((s.charge j.die j.tcid 12 1).charge j.die j.tcid 7 (2 * core)).chargeBlockAway j p).modJob jid (fun j => { j with got := [], put := us })

/-- The next 8-byte unit of the block in progress, by a free choice, is read, once the block's requests are made; a cause stops the job
(R226, R305). The units of a FILL are those of its pattern. -/
def State.jobFetch (s : State) (jid : Nat) (j : Job) (p : Nat) : State :=
  if j.op ≠ 0 then s.jobHave jid j p ((List.range 8).map (fun i => (8 * i, j.pattern.toNat)))
  else
    let us := ((List.range 8).map (fun i => 8 * i)).filter (fun o => !j.got.any (fun u => u.1 == o))
    let o := us.getD (Config.pick s.nfree % us.length) 0
    let s : State := { s with nfree := s.nfree + 1 }
    let r := j.rds[(j.at_ p).1]?
    let s := jobTouch s j .load r (j.at_ p).2
    match jobRead s j p o with
    | .error (c, v) => s.jobStop jid j p c v r
    | .ok bs =>
      let s : State := { s with nfree := s.nfree + 9 }
      let got := j.got ++ [(o, leNat bs)]
      if got.length < 8 then s.modJob jid (fun j => { j with got := got }) else s.jobHave jid j p got

/-- A unit of the block in progress, by a free choice, is written; with the last one, or once the block has left through a window, the
block is moved (R226, R305, R306). -/
def State.jobStore (s : State) (jid : Nat) (j : Job) (p : Nat) : State :=
  match j.put[Config.pick s.nfree % j.put.length]? with
  | none => s
  | some u =>
    let s : State := { s with nfree := s.nfree + 1 }
    let r := j.wrs[(j.at_ p).1]?
    match s.jobWrite jid j p u.1 u.2 with
    | .error (c, v) => (jobTouch s j .load r (j.at_ p).2).jobStop jid j p c v r
    | .ok s =>
      let rest := j.put.filter (fun y => y.1 != u.1)
      if rest.isEmpty || r.any (fun r => r.space == 4) then s.modJob jid Job.moved else s.modJob jid (fun j => { j with put := rest })

/-- The next unit of a segment in progress, once the requests of its block are made (R226, R305, R306, R340). -/
def State.moveBlock (s : State) (jid : Nat) (j : Job) : State :=
  match j.seg with
  | [] => s
  | p :: _ =>
    if jobReach s j = false then s
    else if j.put.isEmpty = false then s.jobStore jid j p
    else
      let r := s.payBlock jid j p
      if r.1 = false then r.2 else r.2.jobFetch jid j p

/-- JOB_SEGMENT (R306): the die's free engines take segments, and one of the segments in progress, by a free choice, reads or writes the
next 8-byte unit of its block, so that each unit is copied at a time of its own (R226; log entry 74). -/
def State.jobSegment (s : State) (die : Nat) : State :=
  let s := ((s.jobParks die).jobDemands die).takeSegments die 6
  let l := busyJobs s die
  match l[Config.pick s.nfree % l.length]? with
  | none => s
  | some x => ({ s with nfree := s.nfree + 1 } : State).moveBlock x.1 x.2
def execJobSegment (die : Nat) (s : State) : Host.Outcome State Fault Refusal := .next (s.jobSegment die)

/-- The block that a job has begun to move is finished (R307). -/
def State.finishBlock (jid : Nat) : Nat → State → State
  | 0, s => s
  | n + 1, s =>
    match storeFind s.jobs jid with
    | none => s
    | some j =>
      match j.seg with
      | [] => s
      | p :: _ =>
        if jobFinal j.status || (j.got.isEmpty && j.put.isEmpty) then s
        else State.finishBlock jid n (if j.put.isEmpty then s.jobFetch jid j p else s.jobStore jid j p)

/-- A job is stopped after the block in progress (R307, R315). -/
def State.killJob (s : State) (jid : Nat) : State := (State.finishBlock jid 16 s).jobEnd jid 4 0

/-- The transactions of a job that are not settled, and those that are uncertain (R294, R302). -/
def jobXacts (s : State) (jid : Nat) (p : CopySt → Bool) : Bool :=
  s.xacts.any (fun e => e.2.sid == noSid && e.2.rid == jid && e.2.copies.any (fun c => p c.2))

/-- JOB_COMPLETE (R302): every write performed and acknowledged; an uncertain transaction gives LINK_UNCERTAIN (R305). -/
def State.jobComplete (s : State) (jid : Nat) : State :=
  match storeFind s.jobs jid with
  | none => s
  | some j =>
    if jobFinal j.status ∨ j.done < j.total ∨ jobXacts s jid (fun c => !c.settled || c == .stored) = true then s
    else if jobXacts s jid (fun c => c == .uncertain) then s.jobEnd jid 0x26 0
    else s.jobEnd jid 0 0
def execJobComplete (jid : Nat) (s : State) : Host.Outcome State Fault Refusal := .next (s.jobComplete jid)

/-! ## Acceptance (R304, R307, R308, R314) -/

/-- A job from a valid card. -/
def mkJob (die tcid : Nat) (sid : Option Nat) (handle eid tbun flag pri gang cluster cbase clen : Nat) (ws : List Nat) (card : Nat)
    (hbm : Bool) : Job :=
  let h := ws.getD 0 0
  let g := cardRegions ws
  ⟨die, tcid, sid, handle, eid, tbun, flag, min (fld h 16 4) pri, gang, cluster, cbase, clen, cardOp h, fld h 12 3, g.1, g.2,
    BitVec.ofNat 64 (ws.getD 14 0), 1, 0, 0, card, hbm, [], false, [], [], [], []⟩

/-- Room for a job (R304). -/
def jobRoom (s : State) (die tcid : Nat) : Bool :=
  let live := s.jobs.filter (fun e => e.2.die == die && !jobFinal e.2.status)
  decide (live.length < 512) && decide ((live.filter (fun e => e.2.tcid == tcid)).length < 64)

/-- Acceptance of a CJOB: the job is made, or its card is rejected and its flag sets with the fill (R304). -/
def State.acceptJob (s : State) (e : CeEntry) (card : List Word) (off latch flag pri : Nat) : State :=
  let t := s.strand e.sid
  let ws := card.map (fun w => w.toNat)
  match cardReject (s.ctx e.die e.tcid) (some (t.csu * 32768)) ws with
  | some (code, _) =>
    let s := (s.engineFill e.sid latch e.id 4 (wordOf [(56, code)])).engineDone e.sid e.id
    s.setFlag e.sid flag []
  | none =>
    let h := freeHandle s e.die s.nfree
    let f := s.fresh
    let j := mkJob e.die e.tcid (some e.sid) h e.id e.tbun flag pri t.gang (e.core % 64 / 16) (s.scratchAddr t 0 0) (t.csu * 32768) ws off false
    let s : State := { f.2 with jobs := storeSet f.2.jobs f.1 j, nfree := f.2.nfree + 1 }
    s.engineFill e.sid latch e.id 4 (wordOf [(56, 1), (0, h)])

/-- CPOLL and CWAIT of a handle (R307). -/
def State.acceptStatus (s : State) (e : CeEntry) (handle latch : Nat) (wait : Bool) : State :=
  match s.jobOf e.die e.tcid handle with
  | none => s.engineFill e.sid latch e.id 3 (wordOf [(56, 0x30)])
  | some (jid, j) =>
    if jobFinal j.status then
      let s := s.engineFill e.sid latch e.id 3 j.word
      { s with jobs := storeErase s.jobs jid }
    else if wait then s.modJob jid (fun j => { j with waits := j.waits ++ [(e.sid, latch, e.id)] })
    else s.engineFill e.sid latch e.id 3 j.word

/-- Where a block of a fragment's source lies, for an operation of a core (R308, R315). -/
def fragBlock (s : State) (e : CeEntry) (space o : Nat) : Met :=
  let t := s.strand e.sid
  if space = 3 then accessVa s e.die e.tcid t.gang .load false false o o
  else if space = 0 then blockCheck s (s.scratchAddr t 0 o) o true
  else blockCheck s ((s.ctx e.die e.tcid).regionBase e.die space (e.core % 64 / 16) + o) o true

/-- The bytes of a fragment's source, or what its read meets: the first failing 64-byte block (R308). -/
def fragSource (s : State) (e : CeEntry) (space off n : Nat) : Except (Cause × Word) (List Byte) :=
  if space = 0 ∧ (s.strand e.sid).hasRegion = false then .ok (imageBytes s (some e.sid) off n)
  else
    (List.range (n / 64)).foldl (fun acc i =>
      match acc with
      | .error e => .error e
      | .ok bs =>
        match fragBlock s e space (off + 64 * i) with
        | .ok (.here a) => .ok (bs ++ s.bytes a 64)
        | .ok (.away d) =>
          (match ({ s with nfree := s.nfree + 65 * i } : State).awayRead 3 d 0 (off + 64 * i) 64 with
           | .ok b => .ok (bs ++ b)
           | .error x => .error x)
        | .error e => .error e) (.ok [])

/-- The leaves of a fragment's HBM source take A (R130). -/
def fragTouch (s : State) (e : CeEntry) (space off n : Nat) : State :=
  if space = 3 then (List.range (n / 64)).foldl (fun s i => touchLeaf s e.die e.tcid (off + 64 * i) false) s else s

/-- The 128-byte units of a fragment's source in the package. -/
def fragUnits (s : State) (e : CeEntry) (space off n : Nat) : List Nat :=
  if space = 0 ∧ (s.strand e.sid).hasRegion = false then []
  else
    (List.range (n / 128)).filterMap (fun i =>
      match fragBlock s e space (off + 128 * i) with
      | .ok (.here a) => some (a / 128)
      | _ => none)

/-- The 128-byte units of a fragment's source outside the package. -/
def fragAwayUnits (s : State) (e : CeEntry) (space off n : Nat) : Nat :=
  ((List.range (n / 128)).filter (fun i => match fragBlock s e space (off + 128 * i) with | .ok (.away _) => true | _ => false)).length

/-- Units of a list from the `paid`-th on are admitted in order as far as there are tokens: how many are paid then, and the state (R340,
R343). -/
def State.admitUnits (s : State) (tenant : Nat) : List Nat → Nat → Nat × State
  | [], n => (n, s)
  | u :: r, n =>
    match s.admitUnit tenant u true with
    | some s => s.admitUnits tenant r (n + 1)
    | none => (n, s.takeTokens (sliceOf (128 * u)) tenant 0)

/-- A fragment's source waits for earlier jobs that write it and earlier stores of the strand (R225, R226, R308). -/
def fragWaits (s : State) (e : CeEntry) (space off n : Nat) : Bool :=
  let r : Region := ⟨off, 0, space, 0, 0, n / 64 - 1⟩
  storeBefore s (some e.sid) e.id [r] || ((space == 1 || space == 2) && !(s.ctx e.die e.tcid).resident) ||
  s.jobs.any (fun x => x.2.die == e.die && x.2.tcid == e.tcid && !jobFinal x.2.status && x.2.wrs.any r.meets)

/-- A fragment is sent: its bytes are read and a copy goes to every member that a path reaches; a member that none reaches raises
WINDOW_FAULT with reason 11 (R308, R312). Reads, die crossings and link sends are charged to the sender (R335). -/
def State.acceptFrag (s : State) (e : CeEntry) (space off n : Nat) (d : Word) (op : Option Nat) (tag flag : Nat) : State :=
  let t := s.strand e.sid
  let c := s.ctx e.die e.tcid
  let w := c.win (fragWin d)
  let raise (s : State) (c : Cause) (v : Word) : State :=
    (s.writeFlt e.die e.tcid (fragWin d) c v).raiseCe e.sid ⟨c, v, e.tbun, 2 ^ Slot.bit .ce⟩
  let none_ : Cause × Word := (.windowFault, winFval 11 (fragWin d) (fragOff d))
  match fragSource s e space off n with
  | .error (cs, v) =>
    let s := (s.engineDone e.sid e.id).setFlag e.sid flag []
    let s := if cs = .partition then
        s.partDrop (match leafOf s e.die e.tcid off with | .ok (bits, _) => peerDrop s e.die t.gang bits | .error _ => none) e.die e.tcid
      else s
    let s := fragTouch s e space off n
    s.raiseCe e.sid ⟨cs, v, e.tbun, 2 ^ Slot.bit .ce⟩
  | .ok bs =>
    let ms := s.members w
    let can (m : Nat × Dest') : Bool := s.pathTo w.ue m.2.ddie
    if ms.any can = false then raise ((s.engineDone e.sid e.id).setFlag e.sid flag []) none_.1 none_.2
    else
      let f := s.fresh
      let fr : Frag := ⟨e.die, e.tcid, e.sid, e.id, e.tbun, flag, fragWin d, t.gang, fragOff d, fragRflag d, fragNidx d, fragNcon d,
        op, tag, bs, ms.map (fun m => (m.1, if can m then .sent else .undeliverable)), winWord c (fragWin d) t.gang none, []⟩
      let us := (bs.length + 127) / 128
      let cross := (ms.filter (fun m => can m && s.dieOfDomain m.2.ddie != some e.die)).length
      let away := (ms.filter (fun m => can m && (s.dieOfDomain m.2.ddie).isNone)).length
      let src := (fragUnits s e space off n).map (fun u => 128 * u)
      let out := fragAwayUnits s e space off n
      let s := (((f.2.charge e.die e.tcid 10 (cross * us)).charge e.die e.tcid 11 (away * us)).chargeHomes e.die e.tcid
        (if space = 0 then [] else src)).chargeAway e.die e.tcid out
      let s := fragTouch (s.charge e.die e.tcid 7 (if space = 0 then 4 * us else 0)) e space off n
      let s : State := { s with frags := storeSet s.frags f.1 fr, nfree := s.nfree + 2 * n }
      if ms.all can then s else raise s none_.1 none_.2

/-- A fragment whose source is not blocked makes its reads' requests, and is sent once all are made (R308, R340). -/
def State.tryFrag (s : State) (core : Nat) (e : CeEntry) (done : State) (sp off len : Nat) (d : Word) (op : Option Nat) (tag flag : Nat) :
    State :=
  if fragWaits s e sp off (128 * len) then s
  else
    let us := fragUnits s e sp off (128 * len)
    let r := done.admitUnits (s.ctx e.die e.tcid).tenant (if sp = 0 then [] else us.drop e.paid) e.paid
    if sp ≠ 0 ∧ r.1 < us.length then
      r.2.modCore core (fun c => { c with ceq := { e with paid := r.1 } :: c.ceq })
    else r.2.acceptFrag e sp off (128 * len) d op tag flag

/-- A bell sets out (R314): to a queue of a die of the package, or out of it; one whose partition is not permitted, or that no path takes,
fails (R295, R312). -/
def State.acceptBell (s : State) (e : CeEntry) (tail : Nat) (data : Word) (loc : Bool) (win sqid : Nat) : State :=
  let t := s.strand e.sid
  let c := s.ctx e.die e.tcid
  let word := winWord c win t.gang none
  let go (die tcid : Nat) (away : Bool) : State :=
    let f := s.fresh
    let b : BellFly := ⟨⟨die, tcid, sqid, tail, 0, data, true, true⟩, e.sid, e.id, e.tbun, if loc then none else some win, if loc then 0 else word, away⟩
    { f.2 with bells := storeSet f.2.bells f.1 b }
  let fail (s : State) (cs : Cause) (v : Word) : State :=
    ((s.engineDone e.sid e.id).writeFlt e.die e.tcid win cs v).raiseCe e.sid ⟨cs, v, e.tbun, 2 ^ Slot.bit .ce⟩
  if loc then go e.die e.tcid false
  else
    let w := c.win win
    if s.pathTo w.ue w.ddie = false then fail s .windowFault (winFval 11 win 0)
    else
      match s.dropPoint e.die w.ddie w.ue word with
      | some p => fail (s.partDrop (some p) e.die e.tcid) .partition (winFval 0 win 0)
      | none =>
        match s.dieOfDomain w.ddie with
        | some d => go d w.dtcid false
        | none =>
          if s.lkeyOk c w.ue word then go e.die w.dtcid true else fail (s.partDrop none e.die e.tcid) .partition (winFval 0 win 0)

/-- The flag that an operation clears at issue. -/
def CeOp.flag : CeOp → Option Nat
  | .job _ _ _ _ f _ => some f
  | .send _ _ _ f => some f
  | .red _ _ _ _ _ f => some f
  | _ => none

/-- A CJOB that the strand issued before waits in a core's queue: the die takes the jobs of a strand in issue order (R225). -/
def jobBefore (s : State) (e : CeEntry) : Bool :=
  s.cores.any (fun c => c.2.ceq.any (fun x => x.sid == e.sid && decide (x.id < e.id) && (match x.op with | .job _ _ _ _ _ _ => true | _ => false)))

/-- JOB_ACCEPT (R304): the die takes the oldest CE operation of a core's queue once its FENCE and the die's room allow it. -/
def State.jobAccept (s : State) (core : Nat) : State :=
  match (s.core core).ceq with
  | [] => s
  | e :: r =>
    let t := s.strand e.sid
    let done := s.modCore core (fun c => { c with ceq := r })
    if (e.op.isEngine ∧ fenceOk t e.fence = false) ∨ e.op.flag.any (fun f => t.clearing f .ce) = true then s
    else
      match e.op with
      | .job card _ off latch flag pri => if jobRoom s e.die e.tcid && !card.isEmpty && !jobBefore s e then done.acceptJob e card off latch flag pri else s
      | .wait h latch => done.acceptStatus e h latch true
      | .poll h latch => done.acceptStatus e h latch false
      | .kill h =>
        let s := done
        match s.jobOf e.die e.tcid h with
        | some (jid, _) => s.killJob jid
        | none => s
      | .send src d len flag =>
        match src with
        | (sp, off, _) :: _ => s.tryFrag core e done sp off len d none 0 flag
        | [] => done
      | .red src d op tag len flag =>
        match src with
        | (sp, off, _) :: _ => s.tryFrag core e done sp off len d (some op) tag flag
        | [] => done
      | .bell tail data loc win sqid => done.acceptBell e tail data loc win sqid
def execJobAccept (core : Nat) (s : State) : Host.Outcome State Fault Refusal := .next (s.jobAccept core)

end Sys2Proof.Machine
end

