-- ==== Sys2Proof/Machine/Matrix.lean ====
section
/-! DEFINITION. The matrix unit (spec/15_matrix.md): queued operations with their start, end and commit cycles (R236 to R238),
the work of one issue cycle (row entry, commits, ends), group values (R106, R107), and the MX instructions. -/
namespace Sys2Proof.Machine

/-! ## Core-scratch elements of an operand -/

/-- The coordinates of an element of a tile (R137, R260). -/
def tileC (l : Lay) (ti c0 c1 : Nat) : C4 := ⟨c0, c1, (l.tile ti).1, (l.tile ti).2⟩

/-- The offset of an element in the frame's region, as R268 reports it. -/
def elOff (l : Lay) (c : C4) : Nat := l.phys (l.off c) c

/-- An element's bits, and its offset when its block is uncorrectable (R268). -/
def readEl (s : State) (t : Strand) (l : Lay) (c : C4) : Nat × Option Nat :=
  let a := s.scratchAddr t 0 (elOff l c)
  let bad := if s.poisonAt a then some (elOff l c) else none
  (if l.ty = 5 then s.read a 1 / (if c.c0 % 2 = 1 then 16 else 1) % 16 else s.read a (tyWidth l.ty / 8), bad)

/-- The cells that write an element. -/
def elCells (s : State) (t : Strand) (l : Lay) (c : C4) (v : Nat) : List Host.Cell :=
  let a := s.scratchAddr t 0 (l.phys (l.off c) c)
  (List.range (tyWidth l.ty / 8)).map (fun i => (a + i, BitVec.ofNat 8 (v / 256 ^ i)))

/-! ## Group values (R106, R107) -/

/-- An operand or product as an exact value: a special, or m × 2^k. -/
structure PV where
  spec : Option FVal
  m : Int
  k : Int

/-- An element as an operand: its significand and the exponent of its unit (R89, R106). -/
def PV.of (ty n : Nat) : PV :=
  if isIntTy ty then ⟨none, intOf ty n, 0⟩
  else
    let f := fmtOf ty
    match f.decode n with
    | .fin neg num _ =>
      let x := n / 2 ^ f.fw % 2 ^ f.ew
      let sig : Nat := n % 2 ^ f.fw + (if x = 0 then 0 else 2 ^ f.fw)
      ⟨none, if num = 0 then 0 else if neg then -(sig : Int) else (sig : Int),
        (if x = 0 then 1 else (x : Int)) - f.bias - f.fw⟩
    | v => ⟨some v, 0, 0⟩

/-- The value for the special rules. -/
def PV.val (p : PV) : FVal := match p.spec with | some v => v | none => .fin (decide (p.m < 0)) p.m.natAbs 1

/-- The exact product with the special rules (R95, R106). -/
def PV.mul (a b : PV) : PV :=
  match a.spec, b.spec with
  | none, none => ⟨none, a.m * b.m, a.k + b.k⟩
  | _, _ => ⟨some (a.val.mul b.val), 0, 0⟩

/-- The flags that a product sets (R106). -/
def PV.flags (p : PV) : Nat :=
  match p.spec with
  | some .nan => 32
  | some (.inf neg) => if neg then 8 else 16
  | _ => 0

/-- A group: m, e and flags. -/
structure Group where
  m : Int
  e : Int
  flags : Nat

/-- Groups whose sum is exact: e is the smallest unit present (R107). -/
def groupExact (ps : List PV) : Group :=
  let fl := ps.foldl (fun x p => x ||| p.flags) 0
  let fin := ps.filter (fun p => p.spec.isNone && p.m != 0)
  match fin with
  | [] => ⟨0, 0, fl⟩
  | p :: r =>
    let e := r.foldl (fun e q => min e q.k) p.k
    ⟨fin.foldl (fun x q => x + q.m * (2 ^ (q.k - e).toNat : Nat)) 0, e, fl⟩

/-- Floor(log2 |p|) of a finite non-zero product. -/
def PV.log (p : PV) : Int := (Nat.log2 p.m.natAbs : Int) + p.k

/-- Groups of BF16 and F16 products (R107). -/
def groupHalf (ps : List PV) : Group :=
  let fl := ps.foldl (fun x p => x ||| p.flags) 0
  let fin := ps.filter (fun p => p.spec.isNone && p.m != 0)
  match fin with
  | [] => ⟨0, 0, fl⟩
  | p :: r =>
    let e := r.foldl (fun e q => max e q.log) p.log - 32
    let ts : List (Int × Bool) := fin.map (fun (q : PV) =>
      if e ≤ q.k then (q.m * ((2 ^ (q.k - e).toNat : Nat) : Int), false) else truncShift q.m (e - q.k).toNat)
    ⟨ts.foldl (fun x y => x + y.1) 0, e, fl ||| (if ts.any (fun y => y.2) then 128 else 0)⟩

/-- The group of a list of products by operand type (R107). -/
def groupOf (ty : Nat) (ps : List PV) : Group := if ty = 1 ∨ ty = 2 then groupHalf ps else groupExact ps

/-! ## Operands of a step (R260 to R263) -/

/-- The captured entry of an operand, in the order OPA, OPB, then EXTRA entries. -/
def MOp.lay (o : MOp) (k : Nat) : Lay := Lay.ofWords (o.opnds.getD k [])

/-- The slice pair and contraction block of a step (R261). -/
def MOp.sliceOf (o : MOp) (q : Nat) : Nat × Nat × Nat :=
  match o.kind with
  | .slmma => (1 + q / o.p.kb, o.p.dg - (1 + q / o.p.kb), q % o.p.kb)
  | _ => (1, 1, q)

/-- A BK8 operand value's scale and band factors: scale byte and band scale of a stored row (R93, R262). -/
def bkScale (s : State) (t : Strand) (sc bd : Lay) (x row : Nat) : PV × Option Nat :=
  let a := readEl s t sc ⟨x / 8, row, 0, 0⟩
  let b := readEl s t bd ⟨row / 64, 0, 0, 0⟩
  ((PV.of tyE3M5 a.1).mul (PV.of 1 b.1), a.2.or b.2)

/-- The elements that operand A(i, kk) is read from: its own, and for MMAB its scale and its band scale (R260, R262). -/
def aEls (o : MOp) (sl i kk : Nat) : List (Lay × C4) :=
  let p := o.p
  let l := o.lay 0
  match o.kind with
  | .mmat => [(l, tileC l p.ati (p.a0 + i) (p.a1 + kk))]
  | .mmab => [(l, tileC l p.ati (p.a0 + kk) (p.a1 + i)), (o.lay 2, ⟨(p.a0 + kk) / 8, p.a1 + i, 0, 0⟩), (o.lay 3, ⟨(p.a1 + i) / 64, 0, 0, 0⟩)]
  | .slmma => [(l, tileC l (p.ati + sl - 1) (p.a0 + kk) (p.a1 + i))]
  | _ => [(l, tileC l p.ati (p.a0 + kk) (p.a1 + i))]

/-- The elements that operand B(kk, j) is read from (R260, R262). -/
def bEls (o : MOp) (sl kk j : Nat) : List (Lay × C4) :=
  let p := o.p
  let l := o.lay 1
  match o.kind with
  | .mmab => [(l, tileC l p.bti (p.b0 + kk) (p.b1 + j)), (o.lay 4, ⟨(p.b0 + kk) / 8, p.b1 + j, 0, 0⟩), (o.lay 5, ⟨(p.b1 + j) / 64, 0, 0, 0⟩)]
  | .slmma => [(l, tileC l (p.bti + sl - 1) (p.b0 + kk) (p.b1 + j))]
  | _ => [(l, tileC l p.bti (p.b0 + j) (p.b1 + kk))]

/-- What a list of elements holds, with the offset of the first error that a read met. -/
def readEls (s : State) (t : Strand) (es : List (Lay × C4)) : List Nat × Option Nat :=
  let rs := es.map (fun e => readEl s t e.1 e.2)
  (rs.map (fun r => r.1), rs.findSome? (fun r => r.2))

/-- A BK8 value: the element's, times its scale and its band scale (R93, R262). -/
def bkValue (x scale band : Nat) : PV := (PV.of 5 x).mul ((PV.of tyE3M5 scale).mul (PV.of 1 band))

/-- Operand A(i, kk), with the offset of an error that its read met (R260, R262, R268). -/
def opA (s : State) (t : Strand) (o : MOp) (sl i kk : Nat) : PV × Option Nat :=
  let r := readEls s t (aEls o sl i kk)
  (match o.kind with
   | .mmab => bkValue (r.1.getD 0 0) (r.1.getD 1 0) (r.1.getD 2 0)
   | .slmma => PV.of 9 (r.1.getD 0 0)
   | _ => PV.of (ftAtype o.fmt) (r.1.getD 0 0), r.2)

/-- A byte of a stationary plane (R235). -/
def Strand.planeByte (t : Strand) (plane off : Nat) : Nat := (storeGet 0 t.planes (plane * 16384 + off)).toNat
/-- A byte of a plane written. -/
def Strand.setPlane (t : Strand) (plane off : Nat) (b : Nat) : Strand :=
  { t with planes := storePut 0 t.planes (plane * 16384 + off) (BitVec.ofNat 8 b) }

/-- The byte offset of a plane's element (l, j) of w bits: l × 16w + j × w / 8 (R235). -/
def planeAt (w l j : Nat) : Nat := l * 16 * w + j * w / 8

/-- A plane element of w bits; of two 4-bit elements in a byte the even one lies in the low half. -/
def Strand.planeEl (t : Strand) (plane w l j : Nat) : Nat :=
  let b := t.planeByte plane (planeAt w l j)
  if w = 4 then b / (if j % 2 = 1 then 16 else 1) % 16
  else b + (if w = 16 then 256 * t.planeByte plane (planeAt w l j + 1) else 0)

/-- A plane element of w bits written (R235). -/
def Strand.setPlaneEl (t : Strand) (plane w l j v : Nat) : Strand :=
  let a := planeAt w l j
  if w = 4 then
    let b := t.planeByte plane a
    t.setPlane plane a (if j % 2 = 1 then b % 16 + 16 * (v % 16) else b / 16 * 16 + v % 16)
  else
    let t := t.setPlane plane a v
    if w = 16 then t.setPlane plane (a + 1) (v / 256) else t

/-- The width of a plane element of operand B. -/
def MOp.bWidth (o : MOp) : Nat :=
  match o.kind with
  | .mmab => 4
  | .slmma => 8
  | _ => tyWidth (ftBtype o.fmt)

/-- Where the scale byte (0) and the band scale (1) of an element of MMAB's operand B are kept beside its plane. -/
def snapKey (plane l j x : Nat) : Nat := ((plane * 128 + l) * 128 + j) * 2 + x

/-- The plane of step q: with BSRC = 1 plane q, else the planes in turn (R263). -/
def MOp.planeOf (o : MOp) (q : Nat) : Nat := if o.l0 = 0 then q else q % 2

/-- The value of operand B(l, j) of step q, from its plane (R262, R263). -/
def opB (t : Strand) (o : MOp) (q l j : Nat) : PV :=
  let x := t.planeEl (o.planeOf q) o.bWidth l j
  match o.kind with
  | .mmab =>
    bkValue x (storeGet 0 o.snap (snapKey (q % 2) l j 0)) (storeGet 0 o.snap (snapKey (q % 2) l j 1))
  | .slmma => PV.of 9 x
  | _ => PV.of (ftBtype o.fmt) x

/-! ## The work of one issue cycle -/

/-- The cause that an uncorrectable error in core scratch makes due (R268). -/
def eccMx (o : MOp) (off : Nat) : Pending := ⟨.eccUncorrectable, BitVec.ofNat 64 (2 ^ 63 + off % 2 ^ 20), o.tbun, 2 ^ Slot.bit .mx⟩

/-- One operation changed by its identity. -/
def Strand.modOp (t : Strand) (id : Nat) (f : MOp → MOp) : Strand := { t with mq := t.mq.map (fun o => if o.id = id then f o else o) }

/-- The first error met by a list of reads makes its cause due (R268). -/
def State.mxError (s : State) (k : Nat) (o : MOp) (es : List (Option Nat)) : State :=
  match es.findSome? id with
  | some off => s.modStrand k (fun t => t.addCause (eccMx o off))
  | none => s

/-- The matrix unit's accesses of core scratch in one issue cycle are charged, each bank access of 32 bytes once (R124, R335). -/
def State.mxAccess (s : State) (k : Nat) (es : List (Lay × C4)) : State :=
  let t := s.strand k
  s.chargeOf t 7 (es.map (fun e => s.scratchAddr t 0 (elOff e.1 e.2) / 32)).eraseDups.length

/-- `n` contraction rows more of operand B of step q are loaded into its plane (R263). -/
def loadB (s : State) (k : Nat) (o : MOp) (q n : Nat) : State :=
  let t := s.strand k
  let x := o.sliceOf q
  let pl := o.planeOf q
  let els := (List.range n).flatMap (fun r => (List.range o.p.n).map (fun j =>
    (o.loaded + r, j, bEls o x.2.1 (x.2.2 * o.kbLen + o.loaded + r) j)))
  let s := s.mxAccess k (els.flatMap (fun e => e.2.2))
  let els := els.map (fun e => (e.1, e.2.1, readEls s t e.2.2))
  let bad := els.any (fun e => e.2.2.2.isSome)
  let kept := if o.loaded = 0 then o.snapBad.filter (fun p => p != pl) else o.snapBad
  let snap := if o.kind = .mmab then
      els.foldl (fun m e => storePut 0 (storePut 0 m (snapKey pl e.1 e.2.1 0) (e.2.2.1.getD 1 0)) (snapKey pl e.1 e.2.1 1)
        (e.2.2.1.getD 2 0)) o.snap
    else o.snap
  (s.modStrand k (fun t =>
    (els.foldl (fun t e => t.setPlaneEl pl o.bWidth e.1 e.2.1 (e.2.2.1.getD 0 0)) t).modOp o.id (fun o =>
      { o with loaded := o.loaded + n, snap := snap, snapBad := if bad then kept ++ [pl] else kept }))).mxError k o
    (els.map (fun e => e.2.2.2))

/-- The reads of operand B in the current issue cycle: those of step 0 fall in the prologue, those of step q in step q − 1, and they
are complete before their step begins. Which of these cycles reads which rows is free, in ascending order of rows (R263). -/
def feedB (s : State) (k : Nat) (o : MOp) : State :=
  let x := (s.strand k).icyc - o.start
  let q := if x < o.l0 then 0 else (o.stepAt x).1 + 1
  let y := if x < o.l0 then x else (o.stepAt x).2
  let last := if x < o.l0 then o.l0 - 1 else o.tstep - 1
  if o.l0 = 0 ∨ o.steps ≤ q then s
  else
    let s := if y = 0 then s.modStrand k (fun t => t.modOp o.id (fun o => { o with loaded := 0 })) else s
    let o := if y = 0 then { o with loaded := 0 } else o
    let left := o.kbLen - o.loaded
    if y = last then loadB s k o q left
    else
      loadB ({ s with nfree := s.nfree + 1 }) k o q (Config.pick s.nfree % (left + 1))

/-- The groups of region row i in step q, as entries of the commit chain, with the errors that the reads met (R261, R265, R267,
R268). -/
def rowEntries (s : State) (t : Strand) (o : MOp) (q i : Nat) : List Chain × List (Option Nat) :=
  let p := o.p
  let due := o.commitAt q i
  match o.kind with
  | .fold =>
    let la := o.lay 0
    let lb := o.lay 1
    let ra := readEl s t la ⟨p.a0 + i, 0, 0, 0⟩
    let cs := (List.range p.n).map (fun j =>
      let d := t.acc (1 - o.t) (p.row0 + i) (p.col0 + j)
      let rb := readEl s t lb ⟨p.b0 + j, 0, 0, 0⟩
      let ea := signedOf 16 ra.1
      let fb := signedOf 16 rb.1
      let fl := d.flags ||| (if ea = 32767 ∨ fb = 32767 then 32 else 0)
      let c : Chain := if (ra.2.or rb.2).isSome then ⟨due, o.id, o.t, p.row0 + i, p.col0 + j, 0, 0, 32, false⟩
        else ⟨due, o.id, o.t, p.row0 + i, p.col0 + j, d.m, d.e + ea + fb - 7 * (p.dg : Int), fl, false⟩
      (c, rb.2))
    (cs.map (fun c => c.1), ra.2 :: cs.map (fun c => c.2))
  | .mcopy =>
    ((List.range p.n).map (fun j =>
      let d := t.acc (1 - o.t) (p.row0 + i) (p.col0 + j)
      ⟨due, o.id, o.t, p.row0 + i, p.col0 + j, d.m, d.e, d.flags + 256 * d.step, false⟩), [])
  | _ =>
    let sl := o.sliceOf q
    let as := (List.range o.kbLen).map (fun l => opA s t o sl.1 i (sl.2.2 * o.kbLen + l))
    let bad := as.any (fun a => a.2.isSome)
    ((List.range p.n).map (fun j =>
      let g : Group :=
        if bad || o.snapBad.contains (q % 2) then ⟨0, 0, 32⟩
        else groupOf (match o.kind with | .mma => ftAtype o.fmt | .mmat => ftAtype o.fmt | _ => 9)
          ((List.range o.kbLen).map (fun l => (as.getD l (⟨none, 0, 0⟩, none)).1.mul (opB t o q l j)))
      ⟨due, o.id, o.t, p.row0 + i, p.col0 + j, g.m, g.e, g.flags, p.clr && q == 0⟩), as.map (fun a => a.2))

/-- The elements of core scratch that a region row's groups in step q are made from, besides operand B. -/
def rowEls (o : MOp) (q i : Nat) : List (Lay × C4) :=
  match o.kind with
  | .fold => (o.lay 0, ⟨o.p.a0 + i, 0, 0, 0⟩) :: (List.range o.p.n).map (fun j => (o.lay 1, (⟨o.p.b0 + j, 0, 0, 0⟩ : C4)))
  | .mcopy => []
  | _ =>
    let sl := o.sliceOf q
    (List.range o.kbLen).flatMap (fun l => aEls o sl.1 i (sl.2.2 * o.kbLen + l))

/-- Region rows that enter in the current issue cycle join the commit chain (R237, R261). -/
def enterRows (s : State) (k : Nat) (o : MOp) : State :=
  let x := (s.strand k).icyc - o.start
  if x < o.l0 then s
  else
    let st := o.stepAt x
    let rows := (List.range o.p.m).filter (fun i => o.rho i == st.2)
    rows.foldl (fun s i =>
      let r := rowEntries s (s.strand k) o st.1 i
      (s.modStrand k (fun t => { t with chain := t.chain ++ r.1 })).mxError k o r.2) (s.mxAccess k (rows.flatMap (rowEls o st.1)))

/-- The cause of an uncorrectable error found in an accumulator element (R268). While no operation is in progress TBUN is the strand's
next position, since R268 names no bundle (DESIGN CHOICE, log entry 88). -/
def accCause (t : Strand) (a : Nat × Nat × Nat) : Pending :=
  ⟨.eccUncorrectable, BitVec.ofNat 64 (2 ^ 63 + 2 ^ 62 + a.1 * 128 + a.2.1),
    (match t.mxBusy t.icyc with | some o => o.tbun | none => t.pos % 65536), 2 ^ Slot.bit .mx⟩

/-- An uncorrectable error is found in an accumulator element: the cause is due at the end of the issue cycle, and so is the change of
the element (R238, R268). -/
def Strand.findAcc (t : Strand) (a : Nat × Nat × Nat) : Strand :=
  if a.1 < t.ntile then { t with accBad := t.accBad ++ [a] }.addCause (accCause t a) else t

/-- The end of an issue cycle changes the elements in which an error was found: M = 0, E = 0, INV = 1, other flags kept (R268). -/
def Strand.spoilAcc (t : Strand) : Strand :=
  { t.accBad.foldl (fun t a => t.setAcc a.1 a.2.1 a.2.2 { t.acc a.1 a.2.1 a.2.2 with m := 0, e := 0, inv := true }) t with
    accBad := [] }

/-- One commit (R238, R261, R265, R267). -/
def commitOne (t : Strand) (kind : MKind) (e : Chain) : Strand :=
  let x := if e.clr then AccEl.reset else t.acc e.tile e.row e.col
  let x := match kind with
    | .slmma => accStep (if x.step = 254 then accNorm x else x) e.m e.e e.flags
    | .fold => foldStep x e.m e.e e.flags
    | .mcopy => ({ AccEl.reset with m := e.m, e := e.e, step := e.flags / 256 }).orFlags (e.flags % 256)
    | _ => accStep x e.m e.e e.flags
  t.setAcc e.tile e.row e.col x

/-- Every element of a tile. -/
def mapTile (t : Strand) (tile : Nat) (f : AccEl → AccEl) : Strand :=
  { t with tiles := t.tiles.filterMap (fun e =>
      if e.1 / 16384 = tile then (let x := f e.2; if x = AccEl.reset then none else some (e.1, x)) else some e) }

/-- The commits due in the current issue cycle, in issue order of their operations (R238, R256). -/
def Strand.mxCommits (t : Strand) : Strand :=
  let now := t.chain.filter (fun e => e.due == t.icyc)
  let kindOf (id : Nat) : MKind := match t.mq.find? (fun o => o.id == id) with | some o => o.kind | none => .mma
  let t := { t with chain := t.chain.filter (fun e => !(e.due == t.icyc)) }
  t.mq.foldl (fun t o =>
    let t := (now.filter (fun e => e.op == o.id)).foldl (fun t e => commitOne t (kindOf e.op) e) t
    if o.start + 8 = t.icyc then
      match o.kind with
      | .mclr => mapTile t o.t (fun _ => AccEl.reset)
      | .mnorm => mapTile t o.t accNorm
      | _ => t
    else t) t

/-- The exponent above a magnitude: the smallest integer e with |v| < 2^e; none for ±0 (R264). -/
def splitExp : FVal → Option Int
  | .fin _ n d => if n = 0 then none else some (ilog2 n d + 1)
  | _ => some 32767

/-- The exponent of a row over a list of values more: NaN, ±∞ and an uncorrectable element make it special (R264, R268). -/
def splitMax (e : Option Int) (vs : List (FVal × Option Nat)) : Option Int :=
  vs.foldl (fun e v =>
    match e, (if v.2.isSome then some 32767 else splitExp v.1) with
    | some x, some y => some (max x y)
    | none, y => y
    | x, none => x) e

/-- The slices of a value under its row's exponent: each the next 7 bits toward zero, with the value's sign (R264). -/
def splitSlices (ks : Nat) (e : Int) (v : FVal) : List Int :=
  match v with
  | .fin neg num den =>
    if e = 32767 then List.replicate ks 0
    else
      let num' := if e < 0 then num * 2 ^ (-e).toNat else num
      let den' := if e < 0 then den else den * 2 ^ e.toNat
      (List.range ks).map (fun q =>
        let a : Nat := num' * 2 ^ (7 * (q + 1)) / den' % 128
        if neg then -(a : Int) else (a : Int))
  | _ => List.replicate ks 0

/-- One step of SPLIT: a row and block of pass 1, or of pass 2, which uses the exponents of pass 1 (R264). A row in which an element is
uncorrectable is special (R268). -/
def splitStep (s : State) (k : Nat) (o : MOp) (q : Nat) : State :=
  let p := o.p
  let la := o.lay 0
  let lb := o.lay 1
  let n := p.m * p.kb
  let i := q % n / p.kb
  let blk := q % n % p.kb
  let t := s.strand k
  let src := (List.range 128).map (fun l => (la, tileC la p.ati (p.a0 + 128 * blk + l) (p.a1 + i)))
  let s := s.mxAccess k src
  let vs := src.map (fun e =>
    let r := readEl s t e.1 e.2
    ((fmtOf la.ty).decode r.1, r.2))
  let old := (o.exps.find? (fun e => e.1 == i)).map (fun e => e.2)
  let put (e : Option Int) (s : State) : State := s.modStrand k (fun t => t.modOp o.id (fun o =>
    { o with exps := o.exps.filter (fun x => x.1 != i) ++ (match e with | some x => [(i, x)] | none => []) }))
  let scale (e : Option Int) (s : State) : State :=
    let at' : C4 := ⟨fld p.extra 2 16 + i, 0, 0, 0⟩
    (s.mxAccess k [(o.lay 2, at')]).scratchWrite (elCells s (s.strand k) (o.lay 2) at' (lowBits 16 (e.getD 0)))
  let s := s.mxError k o (vs.map (fun v => v.2))
  if q < n then
    let e := splitMax old vs
    if blk + 1 = p.kb then scale e (put e s) else put e s
  else
    let bad := vs.any (fun v => v.2.isSome)
    let e : Option Int := if bad then some 32767 else old
    let s := if bad then scale e (put e s) else s
    let dst (l x : Nat) : C4 := tileC lb (p.bti + x) (p.b0 + 128 * blk + l) (p.b1 + i)
    let s := s.mxAccess k ((List.range 128).flatMap (fun l => (List.range p.ks).map (fun x => (lb, dst l x))))
    (List.range 128).foldl (fun s l =>
      let ds := splitSlices p.ks (e.getD 0) (vs.getD l (.nan, none)).1
      (List.range p.ks).foldl (fun s x =>
        s.scratchWrite (elCells s (s.strand k) lb (dst l x) (lowBits 8 (ds.getD x 0)))) s) s

/-- A list in the order of its keys, equal keys in their order in the list. -/
def insertKeyed (x : Nat × (Nat × Nat)) : List (Nat × (Nat × Nat)) → List (Nat × (Nat × Nat))
  | [] => [x]
  | y :: r => if x.1 < y.1 then x :: y :: r else y :: insertKeyed x r

/-- The element copies of a step of TRANS: source rows 8q to 8q + 7, by row and column (R266). -/
def transCopies (p : MPar) (q : Nat) : List (Nat × Nat) :=
  ((List.range 8).filter (fun r => decide (8 * q + r < p.m))).flatMap (fun r => (List.range p.n).map (fun jj => (8 * q + r, jj)))

/-- One step of TRANS. Where its source and destination overlap, the order of the copies is free (R266). An uncorrectable element
gives zero (R268). -/
def transStep (s : State) (k : Nat) (o : MOp) (q : Nat) : State :=
  let p := o.p
  let la := o.lay 0
  let lb := o.lay 1
  let t := s.strand k
  let from' (x : Nat × Nat) : C4 := tileC la p.ati (p.a0 + x.2) (p.a1 + x.1)
  let to' (x : Nat × Nat) : C4 := tileC lb p.bti (p.b0 + x.1) (p.b1 + x.2)
  let cs := transCopies p q
  let w := tyWidth la.ty / 8
  let meets := cs.any (fun x => cs.any (fun y =>
    decide (elOff la (from' x) < elOff lb (to' y) + w) && decide (elOff lb (to' y) < elOff la (from' x) + w)))
  let order := if meets then
      ((List.range cs.length).foldl (fun l i => insertKeyed (Config.pick (s.nfree + i), cs.getD i (0, 0)) l) []).map (fun x => x.2)
    else cs
  let s : State := if meets then { s with nfree := s.nfree + cs.length } else s
  let s := s.mxError k o (cs.map (fun x => (readEl s t la (from' x)).2))
  let s := (s.mxAccess k (cs.map (fun x => (la, from' x)))).mxAccess k (cs.map (fun x => (lb, to' x)))
  order.foldl (fun s x =>
    let r := readEl s (s.strand k) la (from' x)
    s.scratchWrite (elCells s (s.strand k) lb (to' x) (if r.2.isSome then 0 else r.1))) s

/-- The work of the operation in progress in the current issue cycle (R237, R261 to R267). A step of SPLIT or TRANS reads and writes in
its last issue cycle, so a load before the operation's end finds the steps that have ended (R240, R263; DESIGN CHOICE, log entry 88). -/
def mxWork (s : State) (k : Nat) (o : MOp) : State :=
  let st := o.stepAt ((s.strand k).icyc - o.start)
  match o.kind with
  | .split => if o.p.m * o.p.kb ≤ st.1 ∧ st.2 = 0 then s else splitStep s k o st.1
  | .trans => if st.2 + 1 = o.tstep then transStep s k o st.1 else s
  | _ => if o.kind.isArray then enterRows (feedB s k o) k (((s.strand k).mq.find? (fun p => p.id == o.id)).getD o) else s

/-- MPLANE: the plane from a tile of core scratch, other bytes zero (R253). An element in which the read meets an uncorrectable error
goes into the plane as it is read, since R268 names no other effect of it (DESIGN CHOICE, log entry 88). -/
def planeAll (s : State) (k : Nat) (o : MOp) (plane tile : Nat) : State :=
  let l := o.lay 0
  let t := s.strand k
  let w := tyWidth l.ty
  let ls := min (if w = 16 then 32 else 128) (l.extOf 1 + 1)
  let js := min 128 (l.extOf 0 + 1)
  let els := (List.range ls).flatMap (fun q => (List.range js).map (fun j => (q, j, readEl s t l (tileC l tile j q))))
  let s := s.mxAccess k (els.map (fun e => (l, tileC l tile e.2.1 e.1)))
  let clean : Store Byte := t.planes.filter (fun e => e.1 / 16384 != plane)
  (s.modStrand k (fun t => els.foldl (fun t e => t.setPlaneEl plane w e.1 e.2.1 e.2.2.1) { t with planes := clean })).mxError k o
    (els.map (fun e => e.2.2.2))

/-- The end of an operation: a plane written, or both planes cleared (R252, R253, R263). -/
def mxFinish (s : State) (k : Nat) (o : MOp) : State :=
  match o.kind with
  | .mlds plane row data => s.modStrand k (fun t =>
      (List.range 128).foldl (fun t b => t.setPlane plane (128 * row + b) (data.toNat / 256 ^ b % 256)) t)
  | .mplane plane tile => planeAll s k o plane tile
  | _ => if o.l0 ≠ 0 then s.modStrand k (fun t => { t with planes := [] }) else s

/-- An operation starts: its captured words become the active copies (R245). -/
def Strand.mxActivate (t : Strand) (o : MOp) : Strand :=
  { t with mpActive := (List.range o.par.length).foldl (fun m i => storePut 0 m (o.mp + i) (o.par.getD i 0)) t.mpActive }

/-- The class of a matrix-unit cycle with a step streaming (R335); `none` for operands the table does not name. -/
def MOp.chargeClass (o : MOp) : Option Nat :=
  match o.kind with
  | .mma => some (if kbOf (ftAtype o.fmt) = 32 then 5 else 4)
  | .mmat => some (if kbOf (ftAtype o.fmt) = 32 then 5 else 4)
  | .mmab => some 6
  | .slmma => some 4
  | .split => some 4
  | _ => none

/-- The operations that start in the current issue cycle (R245). -/
def State.mxStarts (s : State) (k : Nat) : State :=
  s.modStrand k (fun t => (t.mq.filter (fun o => o.start == t.icyc)).foldl (fun t o => t.mxActivate o) t)

/-- The operations that end in the current issue cycle take their last effects, and complete ones leave the queue (R236). -/
def State.mxEnds (s : State) (k : Nat) : State :=
  let t := s.strand k
  let s := (t.mq.filter (fun o => o.ends == t.icyc)).foldl (fun s o => mxFinish s k o) s
  s.modStrand k (fun t => { t with mq := t.mq.filter (fun o => decide (t.icyc < o.done)) })

/-- The work of the current issue cycle, with its charge and the array's last use: the prologue streams no step (R237, R335). Every
queued operation is taken to stream its steps (R339; DESIGN CHOICE, log entry 88). -/
def State.mxStreams (s : State) (k : Nat) : State :=
  let t := s.strand k
  match t.mxBusy t.icyc with
  | none => s
  | some o =>
    let s := mxWork s k o
    if t.icyc - o.start < o.l0 then s
    else
      let s := s.modCore t.core (fun c => { c with lastStream := some (s.die t.die).cycle })
      match o.chargeClass with
      | some c => s.chargeOf t c 1
      | none => s

/-- The matrix unit in one issue cycle: starts, commits, MWR landings, then row entry; an operation's last effects come before
the commits (R236 to R240). -/
def State.mxCycle (s : State) (k : Nat) : State :=
  let s := (s.mxStarts k).modStrand k Strand.mxCommits
  let s := s.landDue k true
  (s.mxEnds k).mxStreams k

/-! ## The checks of MCALL (R247, R248, R259) -/

/-- The accepted pairs of MMA and MMAT, unordered (R259). -/
def pairOk (a b : Nat) : Bool :=
  ((a == 3 || a == 4) && (b == 3 || b == 4)) || ((a == 9 || a == 12) && (b == 9 || b == 12)) ||
  ((a == 1 || a == 2) && (b == 1 || b == 2))

/-- A field outside the values of R247, or a region beyond the tile (R248). -/
def parBad (kind : MKind) (p : MPar) : Bool :=
  let noSlices := p.ks != 0 || p.dg != 0
  let region := decide (128 < p.row0 + p.m) || decide (128 < p.col0 + p.n)
  let mma := p.kb == 0 || noSlices || p.extra != 0 || region ||
    (p.bsrc && (p.opb != 0 || p.b0 != 0 || p.b1 != 0 || p.bti != 0 || decide (2 < p.kb)))
  match kind with
  | .mma => mma
  | .mmat => mma
  | .mmab => p.kb == 0 || p.bsrc || noSlices || region || p.a0 % 8 != 0 || p.b0 % 8 != 0
  | .slmma => p.kb == 0 || p.bsrc || region || p.ks == 0 || decide (9 < p.ks) || decide (p.dg < 2) || decide (p.ks + 1 < p.dg) ||
      p.extra != 0
  | .split => p.n != 1 || p.kb == 0 || p.row0 != 0 || p.col0 != 0 || p.clr || p.bsrc || p.ks == 0 || decide (9 < p.ks) ||
      p.dg != 0 || p.extra % 4 != 0
  | .fold => p.kb != 0 || region || p.clr || p.bsrc || p.a1 != 0 || p.b1 != 0 || p.ati != 0 || p.bti != 0 || p.ks != 0 ||
      decide (p.dg < 2) || decide (10 < p.dg) || p.extra != 0
  | .trans => p.kb != 0 || p.row0 != 0 || p.col0 != 0 || p.clr || p.bsrc || noSlices || p.extra != 0
  | .mcopy => p.opa != 0 || p.opb != 0 || p.kb != 0 || region || p.clr || p.bsrc
  | _ => false

/-- The format entry in force (R171, R244). -/
def Strand.format (t : Strand) : BitVec 32 :=
  match t.loops.find? (fun l => l.f) with
  | some l => storeGet 0 t.ftab (l.count % 16)
  | none => storeGet 0 t.ftab (t.ftsel % 16)

/-- A format or type pair that the routine does not accept (R248, R259). -/
def fmtBad (kind : MKind) (w : BitVec 32) : Bool :=
  match kind with
  | .mma => ftBad w || !pairOk (ftAtype w) (ftBtype w)
  | .mmat => ftBad w || !pairOk (ftAtype w) (ftBtype w)
  | .mmab => ftBad w || ftAtype w != 5 || ftBtype w != 5
  | _ => false

/-- An operand to be checked: entry number, accepted types, a rectangle of coordinates 0 and 1, and tiles. -/
structure OpndChk where
  n : Nat
  types : Nat → Bool
  c0 : Nat
  n0 : Nat
  c1 : Nat
  n1 : Nat
  tiles : List Nat
  tiled : Bool

/-- The operands of a routine in the order of R248. A scale entry of MMAB with DIMS 0, or a band entry with DIMS of 1 or more, which
R262 excludes without a trap, is accepted when every element of it is in bounds (DESIGN CHOICE, log entry 88). -/
def operandsOf (kind : MKind) (fmt : BitVec 32) (p : MPar) (ty0 : Nat) : List OpndChk :=
  let is (x : Nat) : Nat → Bool := fun y => y == x
  let k := p.kb * (match kind with | .mma => kbOf (ftAtype fmt) | .mmat => kbOf (ftAtype fmt) | _ => 128)
  let b : List OpndChk := if p.bsrc then [] else [⟨p.opb, is (ftBtype fmt), p.b0, p.n, p.b1, k, [p.bti], true⟩]
  match kind with
  | .mma => ⟨p.opa, is (ftAtype fmt), p.a0, k, p.a1, p.m, [p.ati], true⟩ :: b
  | .mmat => ⟨p.opa, is (ftAtype fmt), p.a0, p.m, p.a1, k, [p.ati], true⟩ :: b
  | .mmab =>
    [⟨p.opa, is 5, p.a0, k, p.a1, p.m, [p.ati], true⟩, ⟨p.opb, is 5, p.b0, k, p.b1, p.n, [p.bti], true⟩,
     ⟨fld p.extra 18 6, is 12, p.a0 / 8, ceilDiv k 8, p.a1, p.m, [0], false⟩,
     ⟨fld p.extra 12 6, is 1, p.a1 / 64, (p.a1 + p.m - 1) / 64 - p.a1 / 64 + 1, 0, 1, [0], false⟩,
     ⟨fld p.extra 6 6, is 12, p.b0 / 8, ceilDiv k 8, p.b1, p.n, [0], false⟩,
     ⟨fld p.extra 0 6, is 1, p.b1 / 64, (p.b1 + p.n - 1) / 64 - p.b1 / 64 + 1, 0, 1, [0], false⟩]
  | .slmma =>
    [⟨p.opa, is 9, p.a0, k, p.a1, p.m, (List.range (p.dg - 1)).map (fun s => p.ati + s), true⟩,
     ⟨p.opb, is 9, p.b0, k, p.b1, p.n, (List.range (p.dg - 1)).map (fun s => p.bti + s), true⟩]
  | .split =>
    [⟨p.opa, fun y => y == 0 || y == 6, p.a0, k, p.a1, p.m, [p.ati], true⟩,
     ⟨p.opb, is 9, p.b0, k, p.b1, p.m, (List.range p.ks).map (fun s => p.bti + s), true⟩,
     ⟨fld p.extra 18 6, is 8, fld p.extra 2 16, p.m, 0, 1, [0], false⟩]
  | .fold => [⟨p.opa, is 8, p.a0, p.m, 0, 1, [0], false⟩, ⟨p.opb, is 8, p.b0, p.n, 0, 1, [0], false⟩]
  | .trans =>
    [⟨p.opa, fun y => y != 5, p.a0, p.n, p.a1, p.m, [p.ati], true⟩,
     ⟨p.opb, fun y => y == ty0 && y != 5, p.b0, p.m, p.b1, p.n, [p.bti], true⟩]
  | _ => []

/-- A tile index beyond dimension 3: reason 1, detail 3 (R121, R137). -/
def tileErr (l : Lay) (ti : Nat) : Option LayErr :=
  if (if 3 ≤ l.dims then l.extOf 3 else 0) < (l.tile ti).2 then some (1, 3) else none

/-- The first coordinate error of the last element of a rectangle: its dimensions 0 and 1 decide (R118, R121). A block of two 4-bit
elements is read by its even element. -/
def rectErr (l : Lay) (c0 c1 : Nat) : Option LayErr := l.coordErr ⟨if l.unit = 4 then c0 / 2 * 2 else c0, c1, 0, 0⟩

/-- The first LAYOUT_BOUNDS error of an operand, apart from its tile index, with no element judged in a tile that does not exist
(R121, R248). -/
def OpndChk.layErr (o : OpndChk) (t : Strand) : Option LayErr :=
  let l := t.layOf o.n
  match l.entryErr (fun x => x == 0) o.types false with
  | some e => some e
  | none =>
    let lastC (ti : Nat) : C4 := if o.tiled then tileC l ti (o.c0 + o.n0 - 1) (o.c1 + o.n1 - 1) else ⟨o.c0 + o.n0 - 1, o.c1 + o.n1 - 1, 0, 0⟩
    match rectErr l (o.c0 + o.n0 - 1) (o.c1 + o.n1 - 1) with
    | some e => some e
    | none => o.tiles.findSome? (fun ti =>
        if (o.tiled = false ∨ (tileErr l ti).isNone) ∧ t.csu * 32768 < l.off (lastC ti) + ceilDiv (tyWidth l.ty) 8 then some (5, 0)
        else none)

/-- The error of an operand's tile indexes: ATI or BTI of R248, judged once the entries of both operands have passed. -/
def OpndChk.tileErr (o : OpndChk) (t : Strand) : Option LayErr :=
  if o.tiled then o.tiles.findSome? (fun ti => Sys2Proof.Machine.tileErr (t.layOf o.n) ti) else none

/-- The first LAYOUT_BOUNDS error of an MCALL: OPA, OPB, ATI, BTI, then the entries of EXTRA (R248). -/
def opndsErr (os : List OpndChk) (t : Strand) : Option LayErr :=
  (((os.take 2).findSome? (fun x => x.layErr t)).or (os.findSome? (fun x => x.tileErr t))).or ((os.drop 2).findSome? (fun x => x.layErr t))

/-- The offset of an operand's first unaligned element (R126, R248). -/
def OpndChk.misaligned (o : OpndChk) (t : Strand) : Option Nat :=
  let l := t.layOf o.n
  let w := ceilDiv (tyWidth l.ty) 8
  o.tiles.findSome? (fun ti => (List.range o.n1).findSome? (fun r => (List.range (if l.byte then o.n0 else 1)).findSome? (fun x =>
    let c := if o.tiled then tileC l ti (o.c0 + x) (o.c1 + r) else ⟨o.c0 + x, o.c1 + r, 0, 0⟩
    if l.off c % w ≠ 0 then some (l.off c) else none)))

/-- The accumulator tiles a routine uses (R248): FOLD and MCOPY use the tile that their field does not name as well. -/
def mcallTiles (kind : MKind) (o : McallOps) : List Nat :=
  match kind with
  | .split => []
  | .trans => []
  | .fold => [o.t.toNat, 1 - o.t.toNat]
  | .mcopy => [o.t.toNat, 1 - o.t.toNat]
  | _ => [o.t.toNat]

/-- The tile that a present MCALL names in its field, whatever its guard (R77). -/
def mcallField (kind : MKind) (o : McallOps) : List Nat :=
  match kind with
  | .split => []
  | .trans => []
  | _ => [o.t.toNat]

/-- The precise trap of an MCALL, the smallest code first (R248). -/
def mcallDyn (i : Instr) (kind : MKind) (o : McallOps) (t : Strand) : Option (Cause × Word) :=
  let par := (List.range kind.words).map (fun k => storeGet 0 t.mpShadow (o.mp + k))
  let p := MPar.ofWords par
  let fmt := t.format
  if 8 < o.mp + kind.words ∨ 4 ≤ t.mxWaiting ∨ parBad kind p = true ∨ fmtBad kind fmt = true ∨
      ((kind = .split ∨ kind = .trans) ∧ o.t = true) then some (.illegalOp, syllableOf i)
  else if (mcallTiles kind o).any (fun x => decide (t.ntile ≤ x)) then some (.regRange, syllableOf i)
  else
    let os := operandsOf kind fmt p (t.layOf p.opa).ty
    match opndsErr os t with
    | some e => some (.layoutBounds, layFval e)
    | none =>
      match os.findSome? (fun x => x.misaligned t) with
      | some off => some (.misaligned, BitVec.ofNat 64 off)
      | none => none

/-! ## Queueing (R236, R245, R250) -/

/-- The tile whose earlier commits an operation waits for: FOLD and MCOPY read the other tile, MCLR and MNORM change theirs
(R236). -/
def MKind.waitsFor (kind : MKind) (t : Nat) : Option Nat :=
  match kind with
  | .fold => some (1 - t)
  | .mcopy => some (1 - t)
  | .mclr => some t
  | .mnorm => some t
  | _ => none

/-- S = Max(c + 2, End(P), W) (R236). -/
def Strand.mxStart (t : Strand) (kind : MKind) (tile : Nat) : Nat :=
  let endp := t.mq.foldl (fun x o => max x o.ends) 0
  let w := match kind.waitsFor tile with
    | none => 0
    | some u => t.mq.foldl (fun x o => match o.lastCommit with | some c => if o.t = u then max x (c + 1) else x | none => x) 0
  max (t.icyc + 2) (max endp w)

/-- A queued operation with its timing. -/
def Strand.mkOp (t : Strand) (id : Nat) (kind : MKind) (tile mp : Nat) (par : List Word) (fmt : BitVec 32) (opnds : List (List Word)) : MOp :=
  let o : MOp := ⟨id, kind, tile, mp, par, fmt, opnds, t.mxStart kind tile, 0, 0, 0, [], [], [], t.bun.addr⟩
  let e := o.start + o.dur
  { o with ends := e, done := match o.lastCommit with | some c => max e c | none => e }

/-- An operation enters the queue; a core whose array has not streamed for 256 cycles takes a start token (R236, R339). -/
def State.mxQueue (s : State) (kind : MKind) (tile mp : Nat) (par : List Word) (fmt : BitVec 32) (opnds : List (List Word)) : State :=
  let t := s.me
  let idle := match (s.core t.core).lastStream with
    | some c => decide (c + 256 < (s.die t.die).cycle)
    | none => true
  let s := if idle then s.modDie t.die (fun d => { d with tokens := d.tokens - 1 }) else s
  let f := s.fresh
  f.2.onMe (fun t => { t with mq := t.mq ++ [t.mkOp f.1 kind tile mp par fmt opnds] })

/-- The stall of a queued operation while the die holds no start token (R242, R339). -/
def mxStall (s : State) : Bool :=
  let t := s.me
  (match (s.core t.core).lastStream with
   | some c => decide (c + 256 < (s.die t.die).cycle)
   | none => true) && (s.die t.die).tokens == 0

/-- The layout entries a routine uses, in the order of MOp.lay: OPA, OPB, then those of EXTRA (R246). -/
def captured (t : Strand) (kind : MKind) (p : MPar) : List (List Word) :=
  let e (n : Nat) : List Word := t.layEntry n
  match kind with
  | .mmab => [e p.opa, e p.opb, e (fld p.extra 18 6), e (fld p.extra 12 6), e (fld p.extra 6 6), e (fld p.extra 0 6)]
  | .split => [e p.opa, e p.opb, e (fld p.extra 18 6)]
  | .mcopy => []
  | _ => [e p.opa, e p.opb]

/-- The parameter words that a routine reads: the reserved bits [5:0] of its word 0 read zero, whichever register holds it (R11, R246). -/
def parWords (t : Strand) (kind : MKind) (mp : Nat) : List Word :=
  (List.range kind.words).map (fun k =>
    let w := storeGet 0 t.mpShadow (mp + k)
    if k = 0 then w &&& 0xFFFFFFFFFFFFFFC0 else w)

/-- MCALL (R250): parameters, format and entries are captured at issue. -/
def opMcall (i : Instr) (kind : MKind) (o : McallOps) (s : State) : Op :=
  let t := s.me
  { i := i, slot := .mx, g := o.g
    chk := noHandler t ++ (mcallField kind o).flatMap (treg t)
    dyn := mcallDyn i kind o t, emul := false, stall := mxStall s
    eff := fun s =>
      let t := s.me
      let par := parWords t kind o.mp
      s.mxQueue kind o.t.toNat o.mp par t.format (captured t kind (MPar.ofWords par)) }

def execMcallMma (o : McallOps) (s : State) : Host.Outcome State Fault Refusal := (opMcall (.mcallMma o) .mma o s).run s
def execMcallMmat (o : McallOps) (s : State) : Host.Outcome State Fault Refusal := (opMcall (.mcallMmat o) .mmat o s).run s
def execMcallMmab (o : McallOps) (s : State) : Host.Outcome State Fault Refusal := (opMcall (.mcallMmab o) .mmab o s).run s
def execMcallSplit (o : McallOps) (s : State) : Host.Outcome State Fault Refusal := (opMcall (.mcallSplit o) .split o s).run s
def execMcallSlmma (o : McallOps) (s : State) : Host.Outcome State Fault Refusal := (opMcall (.mcallSlmma o) .slmma o s).run s
def execMcallFold (o : McallOps) (s : State) : Host.Outcome State Fault Refusal := (opMcall (.mcallFold o) .fold o s).run s
def execMcallTrans (o : McallOps) (s : State) : Host.Outcome State Fault Refusal := (opMcall (.mcallTrans o) .trans o s).run s
def execMcallMcopy (o : McallOps) (s : State) : Host.Outcome State Fault Refusal := (opMcall (.mcallMcopy o) .mcopy o s).run s

/-- MPAR: the shadow copy only (R251). The reserved bits [5:0] of mp0 read zero. The other registers hold all 64 bits, since each may
be a word 1 or 2, and a routine captures the one that is its word 0 with those bits zero (R11, R246, log entry 88). -/
def execMpar (o : MparOps) (s : State) : Host.Outcome State Fault Refusal :=
  ({ Op.plain (.mpar o) .mx o.g (fun s => s.landWord (.mpShadow o.mp) 1 (s.me.rs o.ss) .mx) with chk := noHandler s.me } : Op).run s

/-- A full queue (R236). -/
def queueDyn (i : Instr) (t : Strand) : Option (Cause × Word) := if 4 ≤ t.mxWaiting then some (.illegalOp, syllableOf i) else none

/-- MLDS: vs is read at issue (R252). -/
def opMlds (o : MldsOps) (s : State) : Op :=
  let t := s.me
  { i := .mlds o, slot := .mx, g := o.g, chk := noHandler t ++ vreg t o.fl o.vr, dyn := queueDyn (.mlds o) t, emul := false
    stall := mxStall s, eff := fun s => s.mxQueue (.mlds o.plane o.row (s.me.rv o.fl o.vr)) 0 0 [] 0 [] }
def execMlds (o : MldsOps) (s : State) : Host.Outcome State Fault Refusal := (opMlds o s).run s

/-- The checks of MPLANE's entry (R253). Of the two reasons that the rule names, an entry with DIMS 0 gives reason 4 (DESIGN CHOICE, log
entry 88). -/
def mplaneDyn (o : MplaneOps) (t : Strand) : Option (Cause × Word) :=
  if 4 ≤ t.mxWaiting then some (.illegalOp, syllableOf (.mplane o))
  else
    let l := t.layOf o.le
    let ty (y : Nat) : Bool := (tyWidth y == 8 || tyWidth y == 16) && l.dims != 0
    let w := tyWidth l.ty
    let c : OpndChk := ⟨o.le, ty, 0, min 128 (l.extOf 0 + 1), 0, min (if w = 16 then 32 else 128) (l.extOf 1 + 1), [o.tile], true⟩
    match (c.tileErr t).filter (fun _ => (l.entryErr (fun x => x == 0) ty false).isNone) |>.or (c.layErr t) with
    | some e => some (.layoutBounds, layFval e)
    | none =>
      match c.misaligned t with
      | some off => some (.misaligned, BitVec.ofNat 64 off)
      | none => none

/-- MPLANE (R253). -/
def opMplane (o : MplaneOps) (s : State) : Op :=
  let t := s.me
  { i := .mplane o, slot := .mx, g := o.g, chk := noHandler t, dyn := mplaneDyn o t, emul := false, stall := mxStall s
    eff := fun s => s.mxQueue (.mplane o.plane o.tile) 0 0 [] 0 [s.me.layEntry o.le] }
def execMplane (o : MplaneOps) (s : State) : Host.Outcome State Fault Refusal := (opMplane o s).run s

/-- The segment check of MRD and MWR in value mode (R254). -/
def segDyn (i : Instr) (o : MrwOps) (t : Strand) : Option (Cause × Word) :=
  if !o.raw && decide (128 / tyLanes (ftOtype t.rofmt) ≤ o.seg) then some (.illegalOp, syllableOf i) else none

/-- MRD: the row as committed in this issue cycle; traps are tested when the result lands (R239, R254). -/
def opMrd (o : MrwOps) (s : State) : Op :=
  let t := s.me
  { i := .mrd o, slot := .mx, g := o.g, chk := noHandler t ++ treg t o.t.toNat ++ vreg t o.fl o.vr, dyn := segDyn (.mrd o) o t
    emul := false, stall := false
    eff := fun s =>
      let r := s.me.bandRead o.t.toNat o.row o.seg o.raw s.me.rofmt
      s.pushIn ⟨.vreg o.fl o.vr, 8, r.1, fullEn, false, r.2, .mx, s.me.bun.addr⟩ }
def execMrd (o : MrwOps) (s : State) : Host.Outcome State Fault Refusal := (opMrd o s).run s

/-- MWR: vs is read at issue and the band lands after 8 issue cycles (R238, R255). -/
def opMwr (o : MrwOps) (s : State) : Op :=
  let t := s.me
  { i := .mwr o, slot := .mx, g := o.g, chk := noHandler t ++ treg t o.t.toNat ++ vreg t o.fl o.vr, dyn := segDyn (.mwr o) o t
    emul := false, stall := false
    eff := fun s => s.land (.band o.t.toNat o.row o.seg o.raw s.me.rofmt) 8 (s.me.rv o.fl o.vr) .mx }
def execMwr (o : MrwOps) (s : State) : Host.Outcome State Fault Refusal := (opMwr o s).run s

/-- MCLR and MNORM (R256). -/
def opMtile (i : Instr) (kind : MKind) (o : MtOps) (s : State) : Op :=
  let t := s.me
  { i := i, slot := .mx, g := o.g, chk := noHandler t ++ treg t o.t.toNat, dyn := queueDyn i t, emul := false, stall := mxStall s
    eff := fun s => s.mxQueue kind o.t.toNat 0 [] 0 [] }
def execMclr (o : MtOps) (s : State) : Host.Outcome State Fault Refusal := (opMtile (.mclr o) .mclr o s).run s
def execMnorm (o : MtOps) (s : State) : Host.Outcome State Fault Refusal := (opMtile (.mnorm o) .mnorm o s).run s

/-- MFMT (R257). -/
def opMfmt (o : MfmtOps) (s : State) : Op :=
  let t := s.me
  { i := .mfmt o, slot := .mx, g := o.g, chk := noHandler t
    dyn := if ftBad (storeGet 0 t.ftab o.k) then some (.illegalOp, syllableOf (.mfmt o)) else none
    emul := false, stall := false
    eff := fun s => s.land .rofmt 1 ((storeGet 0 s.me.ftab o.k).setWidth 1024) .mx }
def execMfmt (o : MfmtOps) (s : State) : Host.Outcome State Fault Refusal := (opMfmt o s).run s

/-- The flags of every element of a tile, together. -/
def Strand.tileFlags (t : Strand) (tile : Nat) : Nat :=
  (t.tiles.filter (fun e => e.1 / 16384 == tile)).foldl (fun x e => x ||| e.2.flags) 0

/-- The value of an MSTAT selector (R258). -/
def mstatValue (t : Strand) (sel : Nat) : Word :=
  match sel with
  | 0 => wordOf [(7, (t.mq.any (fun o => decide (t.icyc < o.ends))).toNat), (0, t.mxWaiting)]
  | 1 =>
    match t.mxBusy t.icyc with
    | none => 0
    | some o =>
      let x := t.icyc - o.start
      let idx := if x < o.l0 then 0 else (o.stepAt x).1 + (if 0 < o.l0 then 1 else 0)
      wordOf [(40, 1), (32, o.kind.rtn), (0, idx)]
  | 2 => BitVec.ofNat 64 (t.mq.foldl (fun x o => max x (o.done - t.icyc)) 0)
  | 3 => wordOf [(8, if 1 < t.ntile then t.tileFlags 1 else 0), (0, if 0 < t.ntile then t.tileFlags 0 else 0)]
  | n => if n < 0x18 then storeGet 0 t.mpShadow (n - 0x10) else storeGet 0 t.mpActive (n - 0x18)

/-- MSTAT (R258). -/
def execMstat (o : MstatOps) (s : State) : Host.Outcome State Fault Refusal :=
  ({ Op.plain (.mstat o) .mx o.g (fun s => s.landWord (.sreg o.ss) 2 (mstatValue s.me o.sel) .mx) with chk := noHandler s.me } : Op).run s

end Sys2Proof.Machine
end

