-- ==== Sys2Proof/Machine/Sync.lean ====
section
/-! DEFINITION. PHASE and FENCE (R233, R234), the flag operations (R345), SPIN (R346, R347), crews (R39, R40, R348 to R350)
and TAKE with its steal messages (R41 to R43, R351, R352). -/
namespace Sys2Proof.Machine

/-- The number below which requests were issued before the bundle in issue (R233). -/
def State.bunMark (s : State) : Nat := if s.mode = .commit then s.me.bun.mark else s.nextId

/-! ## PHASE and FENCE -/

/-- A PHASE whose waits are satisfied completes in its own cycle; otherwise it is a switch point (R233). -/
def State.phaseOp (s : State) (scope : Nat) : State :=
  match s.self with
  | none => s
  | some k =>
    let a := (s.strand k).bun.addr
    if phaseReady s k scope s.bunMark then s.phaseDone k scope s.bunMark a
    else s.modStrand k (fun t => { t with switchTo := some (.wait (.phase scope s.bunMark a)) })

/-- PHASE (R233). -/
def opPhase (o : NumOps) (s : State) : Op :=
  { Op.plain (.phase o) .sy o.g (fun s => s.phaseOp o.n) with chk := noHandler s.me }
def execPhase (o : NumOps) (s : State) : Host.Outcome State Fault Refusal := (opPhase o s).run s

/-- FENCE (R234): later engine operations wait for those issued before this bundle. -/
def execFence (g : Guard) (s : State) : Host.Outcome State Fault Refusal :=
  (Op.plain (.fence g) .sy g (fun s => s.onMe (fun t => { t with fence := s.bunMark }))).run s

/-- PHASE_COMPLETE (R232, R233): a waiting PHASE whose waits are satisfied publishes and renews at that moment; its causes fall
due when the strand is next selected; where a handler interrupted the wait, once the handler returns. -/
def State.phaseComplete (s : State) (k : Nat) : State :=
  let t := s.strand k
  match t.wait with
  | .phase scope bound tbun =>
    if phaseReady s k scope bound then
      ((s.phaseDone k scope bound tbun).modStrand k (fun t => { t with wait := .none })).wake k
    else s
  | _ =>
    match t.hsave with
    | some h =>
      match h.wait with
      | .phase scope bound tbun =>
        if phaseReady s k scope bound then
          let old := t.causes
          (s.phaseDone k scope bound tbun).modStrand k (fun t =>
            { t with causes := old, hsave := some { h with wait := .none, causes := t.causes.drop old.length } })
        else s
      | _ => s
    | none => s
def execPhaseComplete (sid : Nat) (s : State) : Host.Outcome State Fault Refusal := .next (s.phaseComplete sid)

/-! ## Flags (R345) -/

/-- SETF. -/
def execSetf (o : NumOps) (s : State) : Host.Outcome State Fault Refusal :=
  (Op.plain (.setf o) .sy o.g (fun s => s.landBit (.flag o.n) 1 true .sy)).run s
/-- CLRF. -/
def execClrf (o : NumOps) (s : State) : Host.Outcome State Fault Refusal :=
  (Op.plain (.clrf o) .sy o.g (fun s => s.landBit (.flag o.n) 1 false .sy)).run s
/-- WAITF (R345): a set flag completes it, a clear one makes it a switch point. -/
def opWaitf (o : WaitfOps) (s : State) : Op :=
  { Op.plain (.waitf o) .sy o.g (fun s =>
      if s.me.rf o.flag then (if o.c then s.landBit (.flag o.flag) 1 false .sy else s)
      else s.onMe (fun t => { t with switchTo := some (.wait (.flag o.flag o.c)) })) with
    chk := noHandler s.me }
def execWaitf (o : WaitfOps) (s : State) : Host.Outcome State Fault Refusal := (opWaitf o s).run s

/-! ## SPIN (R346, R347) -/

/-- The element of a SPIN. -/
def spinAcc (t : Strand) (o : SpinOps) : MemChk :=
  let l := t.layOf o.le
  let c : C4 := ⟨t.rn o.sc, 0, 0, 0⟩
  ⟨l, c, fun sp => decide (sp < 4), fun ty => decide (7 ≤ ty) && decide (ty < 14), false, false, none, l.one c⟩

/-- The polled element. -/
def spinEl (m : MemChk) : El :=
  match m.els with
  | e :: _ => ⟨e.phys, e.w, 0, 0⟩
  | [] => ⟨0, 1, 0, 0⟩

/-- What a poll of a strand meets at the home (R346). -/
def spinMet (s : State) (k : Nat) (m : MemChk) : Met := elemMet s k .load m.lay.space 0 (spinEl m)

/-- The traps of a SPIN: those of its operand, then those of the poll (R346). -/
def spinDyn (s : State) (o : SpinOps) : Option (Cause × Word) :=
  match s.self with
  | none => none
  | some k =>
    let m := spinAcc (s.strand k) o
    match m.trap s (s.strand k) with
    | some e => some e
    | none =>
      match spinMet s k m with
      | .error e => some e
      | .ok _ => none

/-- The condition at the home, read as an atomic reads it (R229, R346). -/
def spinTrue (s : State) (o : SpinOps) : Bool :=
  match s.self with
  | none => false
  | some k =>
    let t := s.strand k
    let m := spinAcc t o
    let w := (spinEl m).w
    let v := match spinMet s k m with
      | .ok (.here a) => s.read a w
      | .ok (.away d) => (Config.remoteData d s.nfree).toNat % 256 ^ w
      | .error _ => 0
    spinCond o.cond v (t.rn o.sx % 256 ^ w)

/-- The 128-byte unit that a waiter watches. -/
def spinUnit (s : State) (o : SpinOps) : Nat :=
  match s.self with
  | none => 0
  | some k =>
    match spinMet s k (spinAcc (s.strand k) o) with
    | .ok (.here a) => a / 128
    | _ => 2 ^ 64

/-- A poll that does not find the condition: at the limit of polls or of 4,096 clock cycles the strand becomes a waiter and keeps
its position at the bundle (R346). -/
def State.spinMiss (s : State) (o : SpinOps) : State :=
  let u := spinUnit s o
  s.onMe (fun t =>
    let n := t.polls + 1
    if max 1 t.spinlim ≤ n then
      { t with polls := 0, pen := true, switchTo := some (.wait (.spin u)), pos := t.bun.addr, next := .known, waiterSince := s.time }
    else { t with polls := n, pollAt := if t.polls = 0 then (s.die t.die).cycle else t.pollAt })

/-- No poll begins once 4,096 clock cycles have passed since the first of the attempt (R346). -/
def spinOver (s : State) (t : Strand) : Bool := decide (1 ≤ t.polls) && decide (4096 ≤ (s.die t.die).cycle - t.pollAt)

/-- The attempt ends at its polling bound (R346). -/
def State.spinEnd (s : State) (o : SpinOps) : State :=
  let u := spinUnit s o
  s.onMe (fun t => { t with polls := 0, pen := true, switchTo := some (.wait (.spin u)), pos := t.bun.addr, next := .known, waiterSince := s.time })

/-- A poll that finds the condition true (R222, R346). -/
def State.spinHit (s : State) : State :=
  match s.self with
  | none => s
  | some k => (s.modStrand k (fun t => { t with pen := false, polls := 0 })).renew k

/-- SPIN (R346): before its bundle issues it polls its element; a poll that misses is a stall of the bundle. Alone, the poll is
made here; in a bundle of several operations the sequencer makes it. -/
def opSpin (o : SpinOps) (s : State) : Op :=
  { i := .spin o, slot := .sy, g := o.g, chk := noHandler s.me, dyn := spinDyn s o, emul := false
    stall := s.mode == .check && (spinOver s s.me || !spinTrue s o)
    eff := fun s =>
      if s.mode = .commit then s.spinHit
      else if spinOver s s.me then s.spinEnd o
      else if spinTrue s o then s.spinHit
      else s.spinMiss o }
def execSpin (o : SpinOps) (s : State) : Host.Outcome State Fault Refusal := (opSpin o s).run s

/-- SPIN_WAIT_TIMEOUT (R347): 100 µs after it became a waiter. -/
def State.spinTimeout (s : State) (k : Nat) : State :=
  let t := s.strand k
  match t.st, t.wait with
  | .waiting, .spin _ => if t.waiterSince + 100 ≤ s.time then s.modStrand k (fun t => { t with st := .ready, readySince := s.time }) else s
  | _, _ => s
def execSpinWaitTimeout (sid : Nat) (s : State) : Host.Outcome State Fault Refusal := .next (s.spinTimeout sid)

/-! ## Crews (R39, R40, R348 to R350) -/

/-- Crews are kept by tenant context and number. -/
def crewKey (tcid c : Nat) : Nat := tcid * 256 + c
/-- A crew that nobody has joined. -/
def Crew.empty : Crew := ⟨[], [], [], [], []⟩
def State.crew (s : State) (die tcid c : Nat) : Crew := storeGet Crew.empty (s.die die).crews (crewKey tcid c)
def State.setCrew (s : State) (die tcid c : Nat) (x : Crew) : State :=
  s.modDie die (fun d => { d with crews := storePut Crew.empty d.crews (crewKey tcid c) x })

/-- Every member of the open generation has arrived (R40). -/
def Crew.full (x : Crew) : Bool := !x.arrived.isEmpty && x.members.all (fun k => x.arrived.contains k)

/-- The crew after a generation completes: leavers go, joiners come, and arrivals for the next generation open it (R40, R349). -/
def Crew.advance (x : Crew) : Crew :=
  ⟨x.members.filter (fun k => !x.leaving.contains k) ++ x.joining, [], x.nextArr, [], []⟩

/-- A generation completes: every member's view is renewed and every waiting member becomes READY (R350). -/
def State.crewWake (s : State) (x : Crew) : State :=
  x.arrived.foldl (fun s k =>
    if s.hasStrand k then
      let s := s.renew k
      let t := s.strand k
      match t.wait with
      | .crew _ => (s.modStrand k (fun t => { t with crewDone := true })).wake k
      | _ => s.modStrand k (fun t => { t with crewDone := true })
    else s) s

/-- The crew settles: a full generation completes, at most twice since the next one may open full. -/
def State.crewSettle (s : State) (die tcid c : Nat) : Nat → State
  | 0 => s
  | n + 1 =>
    let x := s.crew die tcid c
    if x.full then ((s.crewWake x).setCrew die tcid c x.advance).crewSettle die tcid c n else s

/-- A strand joins: at once when no generation is open, else from the next one (R40, R349). -/
def Crew.join (x : Crew) (k : Nat) : Crew :=
  if x.members.contains k || x.joining.contains k then x
  else if x.arrived.isEmpty then { x with members := x.members ++ [k] } else { x with joining := x.joining ++ [k] }

/-- A strand leaves: after the open generation when it has arrived, else at once (R40). -/
def Crew.leave (x : Crew) (k : Nat) : Crew :=
  if x.arrived.contains k then { x with leaving := if x.leaving.contains k then x.leaving else x.leaving ++ [k] }
  else { x with members := x.members.filter (· != k), joining := x.joining.filter (· != k), nextArr := x.nextArr.filter (· != k) }

/-- A strand that stops for good leaves every crew it belongs to (R39). -/
def State.leaveAll (s : State) (k : Nat) : State :=
  let t := s.strand k
  ((s.die t.die).crews.filter (fun e => e.2.members.contains k || e.2.joining.contains k)).foldl (fun s e =>
    let c := e.1 % 256
    let tc := e.1 / 256
    (s.setCrew t.die tc c ((s.crew t.die tc c).leave k)).crewSettle t.die tc c 2) s

/-- The quota check of the crew operations (R349). -/
def crewDyn (i : Instr) (s : State) (c : Nat) : Option (Cause × Word) :=
  if (s.ctx s.me.die s.me.tcid).crewq ≤ c then some (.illegalOp, syllableOf i) else none

/-- A crew operation of the issuing strand. -/
def opCrew (i : Instr) (o : NumOps) (f : Crew → Nat → Crew) (s : State) : Op :=
  { i := i, slot := .sy, g := o.g, chk := noHandler s.me, dyn := crewDyn i s o.n, emul := false, stall := false
    eff := fun s =>
      match s.self with
      | none => s
      | some k =>
        let t := s.strand k
        (s.setCrew t.die t.tcid o.n (f (s.crew t.die t.tcid o.n) k)).crewSettle t.die t.tcid o.n 2 }
/-- JOIN (R349). -/
def execJoin (o : NumOps) (s : State) : Host.Outcome State Fault Refusal := (opCrew (.join o) o Crew.join s).run s
/-- LEAVE (R349). -/
def execLeave (o : NumOps) (s : State) : Host.Outcome State Fault Refusal := (opCrew (.leave o) o Crew.leave s).run s

/-- CBAR of a strand that is no member (R349). -/
def cbarDyn (i : Instr) (s : State) (c : Nat) : Option (Cause × Word) :=
  match crewDyn i s c, s.self with
  | some e, _ => some e
  | none, some k =>
    let x := s.crew s.me.die s.me.tcid c
    if x.members.contains k || x.joining.contains k then none else some (.illegalOp, syllableOf i)
  | none, none => none

/-- The arrival of a member (R349, R350): the generation completes at once, or the strand waits. -/
def State.cbarOp (s : State) (c : Nat) : State :=
  match s.self with
  | none => s
  | some k =>
    let t := s.strand k
    let x := s.crew t.die t.tcid c
    let x := if x.joining.contains k then { x with nextArr := x.nextArr ++ [k] } else { x with arrived := x.arrived ++ [k] }
    let s := (s.modStrand k (fun t => { t with crewDone := false })).setCrew t.die t.tcid c x
    let s := s.crewSettle t.die t.tcid c 2
    s.modStrand k (fun t => if t.crewDone then { t with crewDone := false } else { t with switchTo := some (.wait (.crew c)) })

/-- CBAR (R349, R350). -/
def opCbar (o : NumOps) (s : State) : Op :=
  { i := .cbar o, slot := .sy, g := o.g, chk := noHandler s.me, dyn := cbarDyn (.cbar o) s o.n, emul := false, stall := false
    eff := fun s => s.cbarOp o.n }
def execCbar (o : NumOps) (s : State) : Host.Outcome State Fault Refusal := (opCbar o s).run s

/-! ## TAKE and steals (R41 to R43, R351, R352) -/

/-- The next of some numbered strands after a number, wrapping to the lowest. -/
def ringNext (l : List (Nat × Nat)) (num : Nat) : Option Nat :=
  let lo (xs : List (Nat × Nat)) : Option (Nat × Nat) := xs.foldl (fun b x =>
    match b with
    | none => some x
    | some y => if x.1 < y.1 then some x else some y) none
  match lo (l.filter (fun x => decide (num < x.1))) with
  | some x => some x.2
  | none => (lo l).map (fun x => x.2)

/-- The ring successor of a strand: the next of its launch on its die that has not retired (R42). -/
def State.ringSucc (s : State) (k : Nat) : Nat :=
  let t := s.strand k
  (ringNext (s.launchStrands t.lid t.die) t.num).getD k

/-- A steal message sets out. -/
def State.sendMsg (s : State) (m : Steal) : State :=
  let f := s.fresh
  { f.2 with steals := storeSet f.2.steals f.1 m }

/-- SendSteal (R351): the strand has one request outstanding. -/
def State.sendSteal (s : State) (k : Nat) : State :=
  (s.modStrand k (fun t => { t with range := { t.range with outstanding := true } })).sendMsg ⟨k, s.ringSucc k, none⟩

/-- A request is forwarded to a strand's ring successor (R43). -/
def State.forwardFrom (s : State) (k req : Nat) : State := s.sendMsg ⟨req, s.ringSucc k, none⟩

/-- TAKE (R351). -/
def State.takeOp (s : State) (d chunk : Nat) : State :=
  match s.self with
  | none => s
  | some k =>
    let r := (s.strand k).range
    let n := if r.next < r.limit then min chunk (r.limit - r.next) else 0
    let first := if r.next < r.limit then r.next else 0
    let st := if r.next < r.limit then 0 else if r.exhausted then 2 else 1
    let next := r.next + n
    let m := r.limit - next
    let give := decide (r.next < r.limit) && r.slot.isSome && decide (2 ≤ m)
    let limit := if give then r.limit - m / 2 else r.limit
    let s := s.modStrand k (fun t => { t with range := { t.range with next := next, limit := limit, slot := none } })
    let s := match r.slot with
      | some q => if give then s.sendMsg ⟨k, q, some (limit, r.limit)⟩ else s.forwardFrom k q
      | none => s
    let s := if (decide (r.limit ≤ r.next) || next == limit) && !r.outstanding && !r.exhausted then s.sendSteal k else s
    (s.landWord (.sreg d) 2 (BitVec.ofNat 64 first) .sy).landWord (.sreg (d + 1)) 2 (wordOf [(62, st), (0, n)]) .sy

/-- TAKE (R351); its destination pair starts at an even register (R77). -/
def opTake (o : TakeOps) (s : State) : Op :=
  { Op.plain (.take o) .sy o.g (fun s => s.takeOp o.d o.chunk) with chk := noHandler s.me ++ cond (o.d % 2 != 0) .regRange }
def execTake (o : TakeOps) (s : State) : Host.Outcome State Fault Refusal := (opTake o s).run s

/-- A strand that does not keep a request (R43, R352). -/
def passesOn (t : Strand) : Bool :=
  t.range.exhausted || t.range.outstanding || t.range.slot.isSome || !t.resident || t.parked

/-- STEAL_REQUEST (R43, R352): a request returns to its requester, is held, or is forwarded. -/
def State.stealRequest (s : State) (mid : Nat) : State :=
  match storeFind s.steals mid with
  | none => s
  | some m =>
    match m.grant with
    | some _ => s
    | none =>
      let s : State := { s with steals := storeErase s.steals mid }
      if m.dst = m.from_ then
        (s.modStrand m.from_ (fun t => { t with range := { t.range with exhausted := true, outstanding := false } })).resave m.from_
      else if passesOn (s.strand m.dst) then s.forwardFrom m.dst m.from_
      else (s.modStrand m.dst (fun t => { t with range := { t.range with slot := some m.from_ } })).resave m.dst
def execStealRequest (mid : Nat) (s : State) : Host.Outcome State Fault Refusal := .next (s.stealRequest mid)

/-- STEAL_GRANT (R352): the requester's range becomes the granted one. -/
def State.stealGrant (s : State) (mid : Nat) : State :=
  match storeFind s.steals mid with
  | none => s
  | some m =>
    match m.grant with
    | none => s
    | some (a, b) =>
      let s : State := { s with steals := storeErase s.steals mid }
      if s.hasStrand m.dst then
        (s.modStrand m.dst (fun t => { t with range := { t.range with next := a, limit := b, outstanding := false } })).resave m.dst
      else s
def execStealGrant (mid : Nat) (s : State) : Host.Outcome State Fault Refusal := .next (s.stealGrant mid)

/-- A strand that parks or stops forwards the request it holds (R352). -/
def State.dropSlot (s : State) (k : Nat) : State :=
  match (s.strand k).range.slot with
  | none => s
  | some q => (s.modStrand k (fun t => { t with range := { t.range with slot := none } })).forwardFrom k q

end Sys2Proof.Machine
end

