-- ==== Sys2Proof/Machine/Sequencer.lean ====
section
/-! DEFINITION. The sequencer: what one clock cycle of a core does (R31 to R38, R44, R49 to R52, R78 to R82, R123, R125, R163,
R164, R172, R176, R177, R183, R330). It takes the dispatcher as a parameter, so that Step only calls it. -/
namespace Sys2Proof.Machine

/-! ## Issue cycles -/

/-- A context's instruction words for a strand (R85). -/
def State.imageWords (s : State) (t : Strand) : List Nat :=
  match storeFind (s.ctx t.die t.tcid).images t.image with
  | some i => i.words
  | none => []

/-- An issue cycle begins, unless it has begun: results land, and the matrix unit takes its cycle (R79, R238). -/
def State.beginCycle (s : State) (k : Nat) : State :=
  if (s.strand k).skipped then s
  else (((s.tick k false).landDue k false).mxCycle k).modStrand k (fun t => { t with skipped := true, tokPaid := [] })

/-- The sixteen words of a card in core scratch (R299). -/
def cardWords (s : State) (t : Strand) (off : Nat) : List Word :=
  (List.range 16).map (fun i => BitVec.ofNat 64 (s.read (s.scratchAddr t 0 (off + 8 * i)) 8))

/-- The offset of a job card that a strand reads in its current issue cycle (R304). -/
def CeEntry.cardDue (e : CeEntry) (k : Nat) (t : Strand) : Option Nat :=
  match e.op with
  | .job [] due off _ _ _ => if e.sid = k ∧ due ≤ t.icyc then some off else none
  | _ => none

/-- The cards that a strand reads in its current issue cycle. -/
def State.cardsDue (s : State) (k : Nat) : List Nat :=
  s.cores.flatMap (fun c => c.2.ceq.filterMap (fun e => e.cardDue k (s.strand k)))

/-- Their demands on core-scratch banks (R123, R304). -/
def State.cardDemands (s : State) (k : Nat) : List (Nat × Nat × Bool) :=
  (s.cardsDue k).flatMap (fun off => bankDemands (s.strand k) ((List.range 4).map (fun i => (⟨0, off + 32 * i, off + 32 * i, 32⟩ : Loc1))) true false)

/-- The cards due are read, and the bank accesses charged; a poisoned row raises its cause (R304, R335, R420). -/
def State.readCards (s : State) (k : Nat) : State :=
  let t := s.strand k
  let n := (s.cardsDue k).length
  if n = 0 then s
  else
    let bad := (s.cardsDue k).any (fun off => (List.range 128).any (fun i => s.poisonAt (s.scratchAddr t 0 (off + i))))
    let s := s.chargeOf t 7 (4 * n)
    let s := if bad then { s.modStrand k (fun t => t.addCause ⟨.eccUncorrectable, Config.eccFval s.nfree, t.bun.addr, 2 ^ Slot.bit .ce⟩) with
        nfree := s.nfree + 1 } else s
    { s with cores := s.cores.map (fun c => (c.1, { c.2 with ceq := c.2.ceq.map (fun e =>
        match e.cardDue k t, e.op with
        | some off, .job _ due addr latch flag pri => { e with op := .job (cardWords s t off) due addr latch flag pri }
        | _, _ => e) })) }

/-- An issue cycle of a strand is over (R6, R177, R335). -/
def State.countCycle (s : State) (k : Nat) (run : Bool) : State :=
  let s := (s.readCards k).chargeOf (s.strand k) 0 1
  let s := s.modCore (s.strand k).core (fun c => { c with bank := 0, skipRun := false })
  s.modStrand k (fun t => { t.spoilAcc with skipped := false, resumed := false, runCount := if run then t.runCount + 1 else t.runCount })

/-- A stall cycle for bank conflicts (R81, R123). A stall cycle of another cause changes nothing. -/
def State.bankCycle (s : State) (k : Nat) : State := s.modCore (s.strand k).core (fun c => { c with bank := c.bank + 1 })

/-! ## Next position, stop tests and pending causes (R172, R176, R183) -/

/-- A stop test at the strand's position: it parks the strand, or resets its run counter (R176, R177). -/
def State.stopTest (s : State) (k : Nat) : State :=
  let t := s.strand k
  if t.hsave.isSome then s
  else if stopPending t (s.ctx t.die t.tcid) then
    (s.modStrand k (fun t =>
      let t := { t with
        lres := t.pos, stopRq := false, parked := true, runCount := 0, next := .known
        drain := if t.switchTo.isNone then some .park else t.drain }
      { t with parkStat := seqstat t (s.ctx t.die t.tcid) t.lres })).dropSlot k
  else s.modStrand k (fun t => { t with runCount := 0 })

/-- With no empty issue cycle due, the next position is found, its stop test is made, and a switch point takes effect
(R163, R172, R176). -/
def State.settle (s : State) (k : Nat) : State :=
  let t := s.strand k
  if 0 < t.residue then s
  else
    let s := match t.next with
      | .known => s
      | .eval succ line =>
        let r := nextPos t (stopPending t (s.ctx t.die t.tcid)) succ line
        let s := s.modStrand k (fun t => t.withEdge r)
        if r.edge && !r.forced then s.stopTest k else s
    s.modStrand k Strand.startDrain

/-- The pending cause with the smallest code, and the others (R183); among equal codes the one that fell due first, in issue and slot order
(DESIGN CHOICE, log entry 95). -/
def firstCause : List Pending → Option (Pending × List Pending)
  | [] => none
  | p :: r =>
    match firstCause r with
    | none => some (p, [])
    | some (q, l) => if p.cause.code ≤ q.cause.code then some (p, r) else some (q, p :: l)

/-- The pending cause that comes first is delivered (R183). -/
def State.deliverCause (s : State) (k : Nat) : State :=
  match firstCause (s.strand k).causes with
  | none => s
  | some (p, l) => (s.modStrand k (fun t => { t with causes := l })).endTrap k p

/-- The end of an issue cycle: a cause that is due, or else the next position (R172, R183). -/
def State.endCycle (s : State) (k : Nat) : State :=
  if (s.strand k).causes.isEmpty then s.settle k else s.deliverCause k

/-- RUN_LIMIT, before anything issues in the cycle (R177). TBUN is the bundle that carries the folded run, else the bundle due, which is
the saved position too: after an LBRK or a zero-count LSET it is the one that the edge gives, and the edge itself is evaluated once the
empty cycles have issued (R174, R183). -/
def State.runLimitTrap (s : State) (k : Nat) : State :=
  let t := s.strand k
  (s.modStrand k (fun t => { t with pos := s.duePos k })).takeTrap k ⟨.runLimit, BitVec.ofNat 64 t.imaxrun, if 0 < t.eres then t.bun.addr else s.duePos k, 0⟩ false

/-- The limit is reached (R177). -/
def Strand.atLimit (t : Strand) : Bool := decide (t.imaxrun ≤ t.runCount)

/-- One empty issue cycle: a folded one, then one of a transfer (R163); at the limit it is a trap, once results have landed (R79,
R177). -/
def State.emptyCycle (s : State) (k : Nat) : State :=
  let s := s.beginCycle k
  if (s.strand k).atLimit then s.runLimitTrap k
  else
    let s := s.modStrand k (fun t => if 0 < t.eres then { t with eres := t.eres - 1 } else { t with bres := t.bres - 1 })
    (s.countCycle k true).endCycle k

/-! ## Drains (R32, R44, R176, R368) -/

/-- Pending handlers of a strand that enters RETIRING are not taken (R35). -/
def State.dropHandlers (s : State) (k : Nat) : State :=
  let t := s.strand k
  (s.modCtx t.die t.tcid (fun c => { c with hdrop := (c.hdrop + t.hq.length) % 2 ^ 32 })).modStrand k (fun t => { t with hq := [] })

/-- The condition of a wait holds (R233, R345, R350). -/
def Strand.waitOver (t : Strand) (w : Wait) : Bool :=
  match w with
  | .none => true
  | .flag n _ => t.rf n
  | .crew _ => t.crewDone
  | .phase _ _ _ => false
  | .spin _ => false

/-- A wait that is over leaves nothing: WAITF.C clears its flag before a bundle of the strand reads it (R345). -/
def Strand.endWait (t : Strand) (w : Wait) : Strand :=
  match w with
  | .flag n true => { t.wf n false with wait := .none }
  | .crew _ => { t with wait := .none, crewDone := false }
  | _ => { t with wait := .none }

/-- A strand that parked for a checkpoint enters SAVING (R324, R369). -/
def State.toCheckpoint (s : State) (k : Nat) : State :=
  let t := s.strand k
  let ser := (s.ctx t.die t.tcid).serial + 1
  (s.modCtx t.die t.tcid (fun c => { c with serial := ser })).modStrand k
    (fun t => { t with st := .saving, saveKind := some .checkpoint, serial := ser, ckptRq := false, osCause := none })

/-- The frame becomes READY, or enters ENERGY when it parked and the balance is zero or below (R176, R324). -/
def State.toReady (s : State) (k : Nat) : State :=
  let t := s.strand k
  if t.parked && (s.ctx t.die t.tcid).estop then s.toEnergy k
  else s.modStrand k (fun t => { t with st := .ready, readySince := s.time })

/-- The drain is over: the core issues for no strand, and the frame enters the state that the switch point gives. -/
def State.drainEnd (s : State) (k : Nat) (d : DrainTo) : State :=
  let s := s.modCore (s.strand k).core (fun c => { c with issuing := none, bank := 0, skipRun := false })
  let s := s.modStrand k (fun t => { t with drain := none, runCount := 0 })
  match d with
  | .ended => (s.dropHandlers k).modStrand k (fun t => { t with st := .retiring })
  | .yield => if (s.strand k).parked && (s.strand k).ckptRq then s.toCheckpoint k else s.toReady k
  | .park => if (s.strand k).ckptRq then s.toCheckpoint k else s.toReady k
  | .wait w =>
    let s := s.modStrand k (fun t => { t with wait := w })
    let t := s.strand k
    if t.parked && t.ckptRq then s.toCheckpoint k
    else if t.waitOver w then s.toReady k
    else if !t.hq.isEmpty && t.hsave.isNone then s.modStrand k (fun t => { t with st := .ready, readySince := s.time })
    else s.modStrand k (fun t => { t with st := .waiting })

/-- One clock cycle of a drain: its end, or a virtual empty cycle (R32). -/
def State.drainCycle (s : State) (k : Nat) (d : DrainTo) : State :=
  let t := s.strand k
  if t.inflight.isEmpty && t.mxBoundary && !t.skipped then s.drainEnd k d
  else
    let s := (s.beginCycle k).countCycle k false
    if (s.strand k).causes.isEmpty then s else s.deliverCause k

/-- Matrix operations of a strand are incomplete (R44, R236). -/
def Strand.mxOpen (t : Strand) : Bool := !t.mq.isEmpty || !t.chain.isEmpty

/-- One clock cycle of a core that has selected a RETIRING frame (R44): each step boundary is a stop test for it. -/
def State.retiringCycle (s : State) (k : Nat) : State :=
  let t := s.strand k
  let off (s : State) : State := s.modCore t.core (fun c => { c with issuing := none, bank := 0, skipRun := false })
  if t.mxOpen = false && !t.skipped then off s
  else if t.mxBoundary && t.stopRq && !t.skipped then (off s).modStrand k (fun t => { t with stopRq := false })
  else
    let s := (s.beginCycle k).countCycle k false
    if (s.strand k).causes.isEmpty then s else s.deliverCause k

/-! ## Selection (R35, R37, R330) -/

/-- The frames of a core that may be selected, as (frame, strand): READY ones, and RETIRING ones with matrix operations. -/
def State.eligible (s : State) (c : Nat) : List (Nat × Nat) :=
  (s.core c).frames.filter (fun f =>
    let t := s.strand f.2
    t.st == .ready || (t.st == .retiring && t.mxOpen))

/-- The READY frames of 90 µs or more, the longest first; ties go to the lowest frame (R330). -/
def State.starved (s : State) (c : Nat) : Option (Nat × Nat) :=
  ((s.core c).frames.filter (fun f => (s.strand f.2).st == .ready && decide ((s.strand f.2).readySince + 90 ≤ s.time))).foldl
    (fun b f =>
      match b with
      | none => some f
      | some g => if (s.strand f.2).readySince < (s.strand g.2).readySince then some f else some g) none

/-- The frame of R330. -/
def State.choose (s : State) (c : Nat) : Option (Nat × Nat) :=
  match s.starved c with
  | some f => some f
  | none =>
    let last := (s.core c).lastFrame
    (s.eligible c).foldl (fun b f =>
      match b with
      | none => some f
      | some g =>
        let ef := s.eff (s.strand f.2)
        let eg := s.eff (s.strand g.2)
        if eg < ef ∨ (eg = ef ∧ (f.1 + 3 - last) % 4 < (g.1 + 3 - last) % 4) then some f else some g) none

/-- A pending handler is taken: position, loop depth, predicates, floor and shadow depth are saved, with the wait it interrupts
(R37, R168, R181, R222). -/
def State.takeHandler (s : State) (k : Nat) : State :=
  (s.modStrand k (fun t =>
    match t.hq with
    | [] => { t with hndDue := false }
    | h :: r =>
      { t with
        hsave := some ⟨t.pos, t.ldepth, t.preg, t.floor, t.held, t.wait, []⟩
        hq := r, wait := .none, pos := h.entry, bres := 2, next := .known, floor := t.ldepth, hndDue := false
        view := viewAdd t.view h.wids })).portRetry

/-- A frame is selected: the core issues for its strand. A pending handler is taken, or waits for the empty residue; a wait that
is not over goes on; a cause that fell due while it waited is delivered before either (R35, R37, R232, R345, R347). -/
def State.selectFrame (s : State) (c : Nat) (f : Nat × Nat) : State :=
  let k := f.2
  let t := s.strand k
  let s := s.modCore c (fun x => { x with lastFrame := f.1, bank := 0, skipRun := false })
  let take (s : State) : State := s.modCore c (fun x => { x with issuing := some k })
  if t.st = .retiring then (take s).modStrand k (fun t => { t with selectedAt := s.time, selectedIcyc := t.icyc })
  else
    let on (t : Strand) : Strand := { t with st := .issuing, parked := false, tested := false, polls := 0, selectedAt := s.time, selectedIcyc := t.icyc }
    if t.drain.isSome then (take s).modStrand k (fun t => { on t with parked := t.parked })
    else if !t.causes.isEmpty then (take s).modStrand k on
    else if !t.hq.isEmpty && t.hsave.isNone then
      let s := (take s).modStrand k on
      if t.residue = 0 then s.takeHandler k else s.modStrand k (fun t => { t with hndDue := true })
    else
      match t.wait with
      | .none => (take s).modStrand k on
      | .spin u => (take s).modStrand k (fun t => (on t).endWait (.spin u))
      | w => if t.waitOver w then (take s).modStrand k (fun t => (on t).endWait w) else s.modStrand k (fun t => { t with st := .waiting })

/-- A core that issues for no strand selects a frame; with none it idles (R330). -/
def State.select (s : State) (c : Nat) : State :=
  if (s.core c).frozen ∨ (s.core c).issuing.isSome then s
  else
    match s.choose c with
    | none => s
    | some f => s.selectFrame c f

/-- STRAND_SELECT (R330): an idle core selects, and a drain that is over ends and the next frame is selected. -/
def State.strandSelect (s : State) (c : Nat) : State :=
  match (s.core c).issuing with
  | none => s.select c
  | some k =>
    let t := s.strand k
    match t.drain with
    | some d => if t.inflight.isEmpty && t.mxBoundary && !t.skipped && !(s.core c).frozen then (s.drainEnd k d).select c else s
    | none => s
def execStrandSelect (core : Nat) (s : State) : Host.Outcome State Fault Refusal := .next (s.strandSelect core)

/-! ## The operations of a bundle -/

/-- What a bundle may not name twice (R51). -/
inductive DName where
  | s (n : Nat) | p (n : Nat) | v (f : VFile) (n : Nat) | m (f : VFile) (n : Nat) | h (n : Nat) | f (n : Nat) | csr (n : Nat)
deriving DecidableEq, Repr

/-- The destinations that an operation names (R51, R165). -/
def dests : Instr → List DName
  | .add o | .sub o | .mulh o | .mulhu o | .div o | .divu o | .rem o | .remu o => [.s o.sd]
  | .addi o => [.s o.sd]
  | .mul o | .and o | .or o | .xor o | .andn o | .shl o | .shr o | .sar o | .rotl o | .min o | .max o | .minu o | .maxu o => [.s o.sd]
  | .clz o | .popc o => [.s o.sd]
  | .sel o => [.s o.sd]
  | .li o | .lih o => [.s o.sd]
  | .cmp o => [.p o.pd]
  | .cmpi o => [.p o.pd]
  | .pand o | .por o | .pxor o => [.p o.pd]
  | .pnot o => [.p o.pd]
  | .call _ | .calli _ => [.s 62]
  | .csrr o => [.s o.sd]
  | .csrw o | .csrs o | .csrc o => [.csr o.csr]
  | .layr o => [.s o.sd]
  | .movh o => [.s o.sd]
  | .vadd o | .vsub o | .vmul o => [.v o.f o.vd]
  | .vfma o | .vfms o | .vfnma o => [.v o.f o.vd]
  | .vmin o | .vmax o | .vcpys o | .vimulh o | .vimin o | .vimax o | .vexpmax o | .vperm o | .vshuf o => [.v o.f o.vd]
  | .vabs o | .vneg o | .viabs o | .vrsum o | .vrmax o | .vrmin o => [.v o.f o.vd]
  | .vrcp o | .vrsq o | .vsqrt o | .vexp2 o | .vlog2 o => [.v o.f o.vd]
  | .vcmp o => [.m o.f o.md]
  | .viadd o | .visub o | .vimul o => [.v o.f o.vd]
  | .vand o | .vor o | .vxor o | .vandn o => [.v o.f o.vd]
  | .vshl o | .vshr o | .vsar o | .vslide o => [.v o.f o.vd]
  | .vcvt o | .vcvti o | .vcvtf o => [.v o.f o.vd]
  | .vqfp4 o | .vdqfp4 o => [.v o.f o.vd]
  | .vscale o => [.v o.f o.vd]
  | .vmov o | .vxfer o => [.v o.f o.vd]
  | .vbcast o => [.v o.f o.vd]
  | .vsel o => [.v o.f o.vd]
  | .vmovh o => [.v o.f o.vd]
  | .vlane o => [.s o.sd]
  | .mand o | .mor o | .mxor o => [.m o.f o.md]
  | .mnot o => [.m o.f o.md]
  | .mpop o => [.s o.sd]
  | .mrd o => [.v o.fl o.vr]
  | .mstat o => [.s o.ss]
  | .lds o => [.s o.d]
  | .ldv o => [.v o.fl o.d]
  | .ldvg o => [.v o.fl o.d]
  | .ldh o => [.h o.d]
  | .tmov o => [.f o.fg]
  | .aadd o | .aaddf o | .amin o | .amax o | .aand o | .aor o | .axor o | .aswp o | .acas o => (o.hl.map DName.h).toList
  | .cjob o => [.h o.hl, .f o.fg]
  | .cwait o | .cpoll o => [.h o.hl]
  | .csend o | .cred o => [.f o.fg]
  | .setf o | .clrf o => [.f o.n]
  | .waitf o => if o.c then [.f o.flag] else []
  | .take o => [.s o.d, .s (o.d + 1)]
  | _ => []

/-- A transfer in the S slot (R164). -/
def isTransfer : Instr → Bool
  | .br _ => true | .bri _ => true | .call _ => true | .calli _ => true | .ret _ => true
  | _ => false
/-- The SY operations that no transfer may stand beside (R164). -/
def barsTransfer : Instr → Bool
  | .lset _ => true | .lbrk _ => true | .endStrand _ => true | .hret _ => true
  | _ => false

/-- A VA or VB operation of charge class 3 (R335). -/
def isFloatOp : Instr → Bool
  | .vadd _ | .vsub _ | .vmul _ | .vfma _ | .vfms _ | .vfnma _ | .vmin _ | .vmax _ | .vabs _ | .vneg _ | .vcpys _ => true
  | .vrcp _ | .vrsq _ | .vsqrt _ | .vexp2 _ | .vlog2 _ => true
  | .vcvt _ | .vcvti _ | .vcvtf _ | .vqfp4 _ | .vdqfp4 _ | .vexpmax _ | .vscale _ => true
  | .vcmp o => tyFloat o.ty
  | .vrsum o | .vrmax o | .vrmin o => tyFloat o.ty
  | _ => false

/-- The access of an LD- or ST-slot operation on a located operand, with whether it reads and writes core scratch. -/
def accessOf (t : Strand) (i : Instr) : Option (MemChk × Bool × Bool) :=
  match i with
  | .lds o => some (ldsAcc t o, true, false)
  | .ldv o => some (ldvAcc t o, true, false)
  | .ldvg o => some (ldvgAcc t o, true, false)
  | .ldh o => some (ldhAcc t o, true, false)
  | .sts o => some (stsAcc t o, false, true)
  | .stv o => some (stvAcc t o, false, true)
  | .stvs o => some (stvsAcc t o, false, true)
  | .stvm o => some (stvmAcc t o, false, true)
  | .stvh o => some (stvhAcc t o, false, true)
  | .aadd o => some (atomAcc t .add o, true, true)
  | .aaddf o => some (atomAcc t .addf o, true, true)
  | .amin o => some (atomAcc t .min o, true, true)
  | .amax o => some (atomAcc t .max o, true, true)
  | .aand o => some (atomAcc t .and o, true, true)
  | .aor o => some (atomAcc t .or o, true, true)
  | .axor o => some (atomAcc t .xor o, true, true)
  | .aswp o => some (atomAcc t .swp o, true, true)
  | .acas o => some (atomAcc t .cas o, true, true)
  | .vred o => some (vredAcc t o, true, true)
  | _ => none

/-- The syllables whose guard is true and whose access the device OS has not made in their place (R54, R127). -/
def activeSyls (t : Strand) (b : Bundle) : List Syl := b.syls.filter (fun x => t.guard x.guard && !t.emulated x.slot)

/-- The demands of a bundle on core-scratch banks (R123). -/
def bundleDemands (t : Strand) (b : Bundle) : List (Nat × Nat × Bool) :=
  (activeSyls t b).flatMap (fun x =>
    match x.instr.bind (accessOf t) with
    | some (m, r, w) => if m.lay.space = 0 then bankDemands t m.els r w else []
    | none => [])

/-- The requests of a syllable's access to memory slices (R340): slice and number. A window's requests go to the slices of its
destinations. -/
def accessTokens (s : State) (k : Nat) (x : MemChk × Bool × Bool) : List ((Nat × Nat) × Nat) :=
  let t := s.strand k
  let m := x.1
  if m.lay.space < 3 then []
  else
    let acc : Acc := if x.2.1 && x.2.2 then .atomic else if x.2.2 then .store else .load
    let els := m.els.map (fun e => (⟨e.phys, e.w, 0, 0⟩ : El))
    if m.lay.space = 4 then
      (s.members ((s.ctx t.die t.tcid).win m.lay.win)).flatMap (fun d => hbmUnits (els.filterMap (fun e =>
        match windowTarget s t.die (s.ctx t.die t.tcid) m.lay.win (winWord (s.ctx t.die t.tcid) m.lay.win t.gang none) acc d.2 e.off e.w with
        | .ok (.here a) => some a
        | _ => none)))
    else hbmUnits (els.filterMap (elemAddr s k acc m.lay.space m.lay.win))

/-- The SPIN of a bundle, if its guard is true. -/
def spinOf (t : Strand) (b : Bundle) : Option SpinOps :=
  b.syls.findSome? (fun x =>
    match x.op with
    | .ok (.spin o) => if t.guard x.guard then some o else none
    | _ => none)

/-- The home of the element that a SPIN polls, unless the poll traps. -/
def spinAddrs (s : State) (k : Nat) (o : SpinOps) : List Nat :=
  match spinMet s k (spinAcc (s.strand k) o) with
  | .ok (.here a) => [a]
  | _ => []

/-- The requests of a bundle's syllables to memory slices, each its own, and that of a SPIN's poll (R340). -/
def bundleTokens (s : State) (k : Nat) (b : Bundle) : List ((Nat × Nat) × Nat) :=
  let ts := (activeSyls (s.strand k) b).flatMap (fun x => ((x.instr.bind (accessOf (s.strand k))).map (accessTokens s k)).getD []) ++
    (match spinOf (s.strand k) b with | some o => hbmUnits (spinAddrs s k o) | none => [])
  ((ts.map (fun t => t.1)).eraseDups).map (fun x => (x, ((ts.filter (fun t => t.1 == x)).map (fun t => t.2)).foldl (· + ·) 0))

/-- The read requests of a bundle's syllables count, each once (R342). -/
def State.countBundle (s : State) (k : Nat) (b : Bundle) : State :=
  let t := s.strand k
  let rs := (activeSyls t b).flatMap (fun x => ((x.instr.bind (accessOf t)).map (fun m => if m.2.1 then accessTokens s k m else [])).getD [])
  rs.foldl (fun s y => s.countReads y.1 (s.ctx t.die t.tcid).tenant y.2) s

/-- A poll is charged as the request it makes (R335, R346). -/
def State.spinCost (s : State) (k : Nat) (o : SpinOps) : State :=
  let t := s.strand k
  if (spinAcc t o).lay.space = 0 then s.chargeOf t 7 1 else s.chargeHomes t.die t.tcid (spinAddrs s k o)

/-- A poll's request takes a token of its slice, if there is one (R340, R343). -/
def State.spinToken (s : State) (k : Nat) (o : SpinOps) : Bool × State :=
  let t := s.strand k
  let tenant := (s.ctx t.die t.tcid).tenant
  (hbmUnits (spinAddrs s k o)).foldl (fun r y =>
    if r.2.bucket y.1 tenant = 0 then (false, r.2.takeTokens y.1 tenant 0)
    else (r.1, (r.2.takeTokens y.1 tenant 1).countReads y.1 tenant 1)) (true, s)

/-- The requests of the bundle due find tokens one by one, over as many clock cycles as that takes: whether all have, and the state
(R340, R341, R343). -/
def State.payTokens (s : State) (k : Nat) (toks : List ((Nat × Nat) × Nat)) : Bool × State :=
  let tenant := (s.ctx (s.strand k).die (s.strand k).tcid).tenant
  toks.foldl (fun r y =>
    let paid := storeGet 0 ((s.strand k).tokPaid.map (fun p => (p.1.1 * 2 + p.1.2, p.2))) (y.1.1 * 2 + y.1.2)
    let n := min (y.2 - paid) (r.2.bucket y.1 tenant)
    let s' := (r.2.takeTokens y.1 tenant n).modStrand k (fun t =>
      { t with tokPaid := t.tokPaid.filter (fun p => p.1 != y.1) ++ [(y.1, paid + n)] })
    (r.1 && decide (y.2 ≤ paid + n), s')) (true, s)

/-! ## Issue of a bundle -/

/-- What the checks of R51 find in a bundle apart from its operations: syllables that do not decode, a destination named twice,
and a transfer beside LSET, LBRK, END or HRET (R51, R52, R164). A syllable that does not decode still names what its fields name. -/
def bundleFindings (b : Bundle) : List Finding :=
  let mk (c : Cause) (x : Syl) : Finding := ⟨c, x.slot, BitVec.ofNat 64 x.raw, false⟩
  let bad := b.syls.filterMap (fun x =>
    match x.op with
    | .ok _ => none
    | .error .illegalBundle => some (mk .illegalBundle x)
    | .error .illegalOp => some (mk .illegalOp x))
  let named (x : Syl) : List DName := (x.named.map dests).getD []
  let twice := b.syls.filterMap (fun x =>
    if b.syls.any (fun y => y.slot != x.slot && (named y).any (fun d => (named x).contains d)) then some (mk .illegalBundle x) else none)
  let has (p : Instr → Bool) (x : Syl) : Bool := (x.named.map p).getD false
  let cross := if b.syls.any (has isTransfer) && b.syls.any (has barsTransfer) then
      (b.syls.filter (fun x => has isTransfer x || has barsTransfer x)).map (mk .illegalOp)
    else []
  bad ++ twice ++ cross

/-- A bundle that violates R38 inside a handler: a present VA, VB or MX syllable. -/
def handlerFindings (t : Strand) (b : Bundle) : List Finding :=
  if t.hsave.isSome then
    (b.syls.filter (fun x => x.slot == .va || x.slot == .vb || x.slot == .mx)).map
      (fun x => ⟨.illegalOp, x.slot, BitVec.ofNat 64 x.raw, false⟩)
  else []

/-- The bundle's address, successor and mark, as operations see them. -/
def State.nameBundle (s : State) (k : Nat) (b : Bundle) : State :=
  s.modStrand k (fun t => { t with bun := ⟨b.addr, b.succ, b.endsLine, s.nextId⟩ })

/-- The header takes effect: its folded run is due, and its next position is to be found (R49, R172). -/
def State.header (s : State) (k erun : Nat) : State :=
  s.modStrand k (fun t =>
    { t with tested := false, eres := erun, next := .eval t.bun.succ (if t.bun.ends then some (lineOf t.bun.addr) else none) })

/-- EMPTY_BUNDLE (R49): its stop test when PARK is set, then its empty cycles. -/
def State.emptyBundle (s : State) (o : EmptyOps) : State :=
  match s.self with
  | none => s
  | some k =>
    let s := if o.park then s.stopTest k else s
    if (s.strand k).drain.isSome then s else s.header k o.erun
def execEmptyBundle (o : EmptyOps) (s : State) : Host.Outcome State Fault Refusal := .next (s.emptyBundle o)

/-- The checks of the operations of a bundle, without effect (R51, R52, R81). -/
def State.checkOps (ex : Instr → State → Host.Outcome State Fault Refusal) (s : State) (b : Bundle) : State :=
  b.syls.foldl (fun s x =>
    match x.op with
    | .error _ => s
    | .ok i =>
      match ex i s with
      | .next s' => s'
      | _ => s) { s with mode := .check, found := bundleFindings b ++ handlerFindings s.me b, stall := false }

/-- The operations of a bundle in the order in which their effects are made: transfers and SY last. -/
def orderOf (b : Bundle) : List Instr :=
  let is := b.syls.filterMap (fun x => x.instr.map (fun i => (x.slot, i)))
  (is.filter (fun x => x.1 != .sy && !isTransfer x.2) ++ is.filter (fun x => x.1 != .sy && isTransfer x.2) ++
    is.filter (fun x => x.1 == .sy)).map (fun x => x.2)

/-- Effects one after another. -/
def runOps (ex : Instr → State → Host.Outcome State Fault Refusal) : List Instr → State → Host.Outcome State Fault Refusal
  | [], s => .next s
  | i :: r, s =>
    match ex i s with
    | .next s' => runOps ex r s'
    | .fault f => .fault f
    | .refused x => .refused x

/-- The effects of a bundle: alone, an operation runs whole; several run one after another on sources read at issue, since every
write of a register is a landing (R78). -/
def State.commitOps (ex : Instr → State → Host.Outcome State Fault Refusal) (s : State) (b : Bundle) :
    Host.Outcome State Fault Refusal :=
  match orderOf b with
  | [] => ex (.emptyBundle ⟨b.hdr.erun, b.hdr.lineEnd, false⟩) { s with mode := .whole }
  | [i] => ex i { s with mode := .whole }
  | is => runOps ex is { s with mode := .commit }

/-- The syllables and core-scratch accesses of an issued bundle are charged (R335). -/
def State.chargeBundle (s : State) (k : Nat) (b : Bundle) (banks : Nat) : State :=
  let t := s.strand k
  let vec := b.syls.filter (fun x => x.slot == .va || x.slot == .vb)
  let fl := vec.filter (fun x => (x.instr.map isFloatOp).getD false)
  let plain := b.syls.filter (fun x => x.slot != .va && x.slot != .vb && x.slot != .mx)
  (((s.chargeOf t 1 plain.length).chargeOf t 2 (vec.length - fl.length)).chargeOf t 3 fl.length).chargeOf t 7 banks

/-- The issue is over: the mode is whole again, the shadow stack spills or fills, and the cycle ends (R127, R167). -/
def State.issued (s : State) (k : Nat) (b : Bundle) (banks : Nat) : State :=
  let s : State := { s with mode := .whole, found := [], stall := false }
  if (s.strand k).st = .issuing then
    let n := (s.strand k).spilled.length
    let s := ((s.chargeBundle k b banks).modStrand k (fun t => { t.settleShadow with suppress := 0 })).writeSpill k n
    (s.countCycle k true).endCycle k
  else s

/-- A stall of the bundle. A SPIN that is its cause polls: a poll that misses may end the attempt (R346). -/
def State.stalled (s : State) (k : Nat) (b : Bundle) : State :=
  let s : State := { s with mode := .whole, found := [], stall := false }
  let t := s.strand k
  match spinOf t b with
  | none => s
  | some o =>
    if spinOver s t then (s.spinEnd o).settle k
    else if spinTrue s o then s
    else
      let r := s.spinToken k o
      if r.1 then ((({ r.2 with nfree := s.nfree + 1 } : State).spinCost k o).spinMiss o).settle k
      else r.2

/-- A misaligned STVH of a bundle whose latch has a fill pending: the bundle waits for it, so that the device OS meets both misaligned
slots at once (R70, R127). -/
def hiddenStvh (s : State) (t : Strand) (b : Bundle) : Bool :=
  b.syls.any (fun x =>
    match x.instr with
    | some (.stvh o) => t.guard x.guard && !t.emulated .st && latchStall t o.d && isMisaligned (accTrap s .st (stvhAcc t o))
    | _ => false)

/-- A bundle whose issue cycle has begun: the checks of R51 and R52, the stalls of R81, then its effects. -/
def State.issueBundle (ex : Instr → State → Host.Outcome State Fault Refusal) (s : State) (k : Nat) (b : Bundle) :
    Host.Outcome State Fault Refusal :=
  let s := s.nameBundle k b
  let t := s.strand k
  let c := s.checkOps ex b
  if c.found.isEmpty = false && !(hiddenStvh s t b && c.found.all (fun f => f.emul)) then .next (({ s with mode := .whole }).raise c.found)
  else if c.stall then .next (s.stalled k b)
  else
    let ds := bundleDemands t b
    let r := s.payTokens k (bundleTokens s k b)
    if r.1 = false then .next r.2
    else if (s.core t.core).bank < bankStalls (ds ++ s.cardDemands k) then .next (r.2.bankCycle k)
    else
      let s := match spinOf t b with
        | some o => r.2.spinCost k o
        | none => r.2
      match ((s.countBundle k b).header k 0).commitOps ex b with
      | .next s' => .next ((s'.modStrand k (fun t => { t with eres := b.hdr.erun })).issued k b ds.eraseDups.length)
      | .fault f => .fault f
      | .refused x => .refused x

/-- The look-ahead nullifier skips the bundle: every guard is false, nothing is owed or in flight (R82). -/
def canSkip (t : Strand) (b : Bundle) : Bool :=
  !b.syls.isEmpty && b.syls.all (fun x => !t.guard x.guard) && b.hdr.erun == 0 && !b.hdr.park && t.inflight.isEmpty && !t.mxOpen

/-- A skipped bundle: R51 applies, and its next position is found (R82). -/
def State.skipBundle (ex : Instr → State → Host.Outcome State Fault Refusal) (s : State) (k : Nat) (b : Bundle) : State :=
  let s := s.nameBundle k b
  let c := s.checkOps ex b
  if c.found.isEmpty = false then ({ s with mode := .whole }).raise c.found
  else (s.header k 0).settle k

/-- The bundle at the position, once nothing else precedes it: its stop test when PARK is set, made once; the start of its issue cycle;
then it is skipped, or RUN_LIMIT is raised, or it issues. The first bundle skipped after an issue cycle costs no clock cycle, and each
further one of the run a stall cycle (R82, R176, R177). -/
def State.fetchIssue (ex : Instr → State → Host.Outcome State Fault Refusal) (k : Nat) : Nat → State → Host.Outcome State Fault Refusal
  | 0, s => .next s
  | fuel + 1, s =>
    let d := decodeBundle (s.imageWords (s.strand k)) (s.strand k).pos
    let park := match d with
      | .ok b => b.hdr.park
      | .error _ => false
    let s := if park && !(s.strand k).tested then (s.stopTest k).modStrand k (fun t => { t with tested := true }) else s
    if (s.strand k).drain.isSome then .next s
    else
      let s := s.beginCycle k
      let t := s.strand k
      let skip := match d with
        | .ok b => canSkip t b
        | .error _ => false
      if skip = false && t.atLimit then .next (s.runLimitTrap k)
      else
        match d with
        | .error h => .next (s.takeTrap k ⟨.illegalBundle, BitVec.ofNat 64 h.fval, t.pos % 65536, 0⟩ false)
        | .ok b =>
          if skip then
            let more := (s.core t.core).skipRun
            let s := (s.skipBundle ex k b).modCore t.core (fun c => { c with skipRun := true })
            if more = false ∧ (s.strand k).st = .issuing ∧ (s.strand k).drain = none then State.fetchIssue ex k fuel s else .next s
          else s.issueBundle ex k b

/-- One clock cycle of the strand that a core issues for. -/
def State.strandCycle (ex : Instr → State → Host.Outcome State Fault Refusal) (s : State) (k : Nat) :
    Host.Outcome State Fault Refusal :=
  let t := s.strand k
  if t.st = .retiring then .next (s.retiringCycle k)
  else
    match t.drain with
    | some d => .next (s.drainCycle k d)
    | none =>
      if (!t.skipped || t.resumed) && !t.causes.isEmpty then .next (s.deliverCause k)
      else if 0 < t.residue then .next (s.emptyCycle k)
      else if t.hndDue then .next (s.takeHandler k)
      else State.fetchIssue ex k 2 s

/-- One clock cycle of a core. -/
def State.coreCycle (ex : Instr → State → Host.Outcome State Fault Refusal) (s : State) (c : Nat) : Host.Outcome State Fault Refusal :=
  let s : State := { s with cur := c, mode := .whole, found := [], stall := false }
  if (s.core c).frozen then .next s
  else
    match (s.core c).issuing with
    | none => .next (s.select c)
    | some k => s.strandCycle ex k

/-! ## The sequencer's steps as events -/

/-- The core's issuing strand, unless the core is frozen. -/
def State.issuer (s : State) (c : Nat) : Option Nat := if (s.core c).frozen then none else (s.core c).issuing

/-- EMPTY_ISSUE_CYCLE (R49, R163): an empty issue cycle that the strand owes, or a virtual one of its drain. -/
def State.emptyIssueCycle (s : State) (c : Nat) : State :=
  match s.issuer c with
  | none => s
  | some k =>
    let t := s.strand k
    if t.st = .retiring then s.retiringCycle k
    else
      match t.drain with
      | some d => s.drainCycle k d
      | none => if 0 < t.residue ∧ ((t.skipped = true ∧ t.resumed = false) ∨ t.causes = []) then s.emptyCycle k else s
def execEmptyIssueCycle (core : Nat) (s : State) : Host.Outcome State Fault Refusal := .next (s.emptyIssueCycle core)

/-- RESULT_LAND (R79): the results due in the issue cycle land. -/
def State.resultLand (s : State) (c : Nat) : State :=
  match s.issuer c with
  | none => s
  | some k => (s.landDue k false).landDue k true
def execResultLand (core : Nat) (s : State) : Host.Outcome State Fault Refusal := .next (s.resultLand core)

/-- RUN_LIMIT (R177): raised when the counter equals IMAXRUN at the start of an issue cycle, once the cycle's results have landed: not
for a bundle that the nullifier skips, nor before the stop test of a PARK bundle. -/
def State.runLimit (s : State) (c : Nat) : State :=
  match s.issuer c with
  | none => s
  | some k =>
    let s' := s.beginCycle k
    let t := s'.strand k
    let first := match decodeBundle (s'.imageWords t) t.pos with
      | .ok b => canSkip t b || (b.hdr.park && !t.tested)
      | .error _ => false
    if t.atLimit && t.causes.isEmpty && t.drain.isNone && t.st == .issuing && (decide (0 < t.residue) || (!t.hndDue && !first)) then
      s'.runLimitTrap k
    else s
def execRunLimit (core : Nat) (s : State) : Host.Outcome State Fault Refusal := .next (s.runLimit core)

/-- MX_OP_START (R236, R245): operations that start in the current issue cycle. -/
def State.mxOpStart (s : State) (c : Nat) : State :=
  match s.issuer c with
  | none => s
  | some k => s.mxStarts k
def execMxOpStart (core : Nat) (s : State) : Host.Outcome State Fault Refusal := .next (s.mxOpStart core)

/-- MX_COMMIT (R238): the groups due in the current issue cycle commit. -/
def State.mxCommitDue (s : State) (c : Nat) : State :=
  match s.issuer c with
  | none => s
  | some k => s.modStrand k Strand.mxCommits
def execMxCommit (core : Nat) (s : State) : Host.Outcome State Fault Refusal := .next (s.mxCommitDue core)

/-- The matrix unit finds an uncorrectable error in an element of the accumulator, by tile, row and column, in the current issue cycle,
after its commits (R238, R268). -/
def State.accError (s : State) (c : Nat) (a : Nat × Nat × Nat) : State :=
  match s.issuer c with
  | none => s
  | some k =>
    if a.1 < (s.strand k).ntile ∧ a.2.1 < 128 ∧ a.2.2 < 128 then
      (s.modStrand k (fun t =>
        let t := t.mxCommits.findAcc a
        if t.skipped then t else t.spoilAcc)).report (.uncorrectable 5 (c / 64) (a.1 * 128 + a.2.1))
    else s

/-- MX_OP_END (R236): operations that end in the current issue cycle. -/
def State.mxOpEnd (s : State) (c : Nat) : State :=
  match s.issuer c with
  | none => s
  | some k => s.mxEnds k
def execMxOpEnd (core : Nat) (s : State) : Host.Outcome State Fault Refusal := .next (s.mxOpEnd core)

end Sys2Proof.Machine
end

