-- ==== Sys2Proof/Machine/Launch.lean ====
section
/-! DEFINITION. Launches (R316 to R319), their division and admission (R26 to R29, R45, R86, R320 to R323), release and
retirement (R29, R44), kills (R370), and pre-emption (R333). -/
namespace Sys2Proof.Machine

/-! ## Images and their data sections (R85, R86) -/

/-- An image of a context. -/
def State.imageOf (s : State) (die tcid id : Nat) : Option Image := storeFind (s.ctx die tcid).images id

/-- The instruction rows of an image (R19). -/
def imageRows (i : Image) : Nat := (i.words.length + 1023) / 1024
/-- The rows of an image by number; none when it is not loaded. -/
def State.rowsOf (s : State) (die tcid id : Nat) : Nat := ((s.imageOf die tcid id).map imageRows).getD 0

/-- The layout entry that an image gives a number. -/
def imageLay (i : Image) (n : Nat) : Lay := Lay.ofWords ((storeFind i.layouts n).getD [])

/-- The sections with their spaces and offsets: each later section of an entry continues where the previous one ended (R85). -/
def imageSections (i : Image) : List (Nat × Nat × List Byte) :=
  (i.data.foldl (fun (p : Store Nat × List (Nat × Nat × List Byte)) d =>
    let l := imageLay i d.entry
    let o := storeGet l.base p.1 d.entry
    (storeSet p.1 d.entry (o + d.bytes.length), p.2 ++ [(l.space, o, d.bytes)])) ([], [])).2

/-- The sections of one space. -/
def sectionsIn (i : Image) (space : Nat) : List (Nat × List Byte) :=
  (imageSections i).filterMap (fun x => if x.1 = space then some x.2 else none)

/-- The bundle address of a logical strand's entry. -/
def imageEntry (i : Image) (num : Nat) : Option Nat := (i.entries.find? (fun e => e.1 == num)).map (fun e => e.2)

/-! ## The launch packet (R316 to R318) -/

/-- A word of a packet, if it can be read. -/
def packetWord (s : State) (die tcid va i : Nat) : Option Nat :=
  match accessVa s die tcid 0 .load false false (va + 8 * i) (va + 8 * i) with
  | .ok (.here a) => if locExists (.here a) then some (s.read a 8) else none
  | .ok (.away d) => some ((Config.remoteData d (s.nfree + i)).toNat % 2 ^ 64)
  | .error _ => none

/-- The translations that reading the first n words of a packet uses (R130). -/
def State.touchPacket (s : State) (die tcid va n : Nat) : State :=
  (List.range n).foldl (fun s i => if (packetWord s die tcid va i).isSome then touchLeaf s die tcid (va + 8 * i) false else s) s

/-- A header word that breaks its encoding. -/
def headerWordBad (i w : Nat) : Bool :=
  match i with
  | 0 => fld w 51 13 != 0 || fld w 2 6 != 0
  | 1 => false
  | 2 => fld w 48 16 != 0 || w % 8 != 0
  | _ => w != 0

/-- Word k of a strand record that breaks its encoding; `next` is the word after it. -/
def recordWordBad (k w : Nat) (next : Option Nat) : Bool :=
  match k with
  | 0 => fld w 16 16 != 0 || flg w 11 || fld w 6 2 != 0 || decide (32 < fld w 0 6)
  | 1 => false
  | 2 => fld w 48 16 != 0 || (match next with | some l => decide (fld l 0 48 < fld w 0 48) | none => false)
  | _ => fld w 48 16 != 0

/-- The first offending word of a packet (R318). -/
def packetBad (ws : List (Option Nat)) : Option Nat :=
  (List.range ws.length).find? (fun i =>
    match ws.getD i none with
    | none => true
    | some w => if i < 8 then headerWordBad i w else recordWordBad (i % 4) w (ws.getD (i + 1) none))

/-- A strand record from its four words. -/
def SRec.ofWords (w0 w1 w2 w3 : Nat) : SRec :=
  ⟨fld w0 32 32, fld w0 12 4, fld w0 8 3, fld w0 0 6, BitVec.ofNat 64 w1, fld w2 0 48, fld w3 0 48⟩

/-- A die that is in service. -/
def State.inService (s : State) (d : Nat) : Bool := (s.die d).boot == .inService

/-- A packet's launch, with its strands placed on the receiving die where DIE names a die not in service (R320). -/
def launchOf (s : State) (die tcid : Nat) (sup : Bool) (ws : List Nat) : Launch :=
  let w (i : Nat) : Nat := ws.getD i 0
  let c := s.ctx die tcid
  let recs := (List.range (fld (w 0) 40 11 + 1)).map (fun i =>
    let r := SRec.ofWords (w (8 + 4 * i)) (w (9 + 4 * i)) (w (10 + 4 * i)) (w (11 + 4 * i))
    if s.inService r.die then r else { r with die := die })
  { Launch.reset with
    die := die, tcid := tcid, tenant := c.tenant, doneva := fld (w 2) 0 48
    ceil := fld (w 0) 36 4, base := min (fld (w 0) 32 4) (fld (w 0) 36 4), gang := fld (w 0) 16 16
    tokens := min (fld (w 0) 8 8) c.tokens, kill := flg (w 0) 1, ckpt := flg (w 0) 0
    energy := fld (w 1) 32 32, remt := fld (w 1) 0 32, supervisor := sup, recs := recs
    dies := (List.range 8).filter (fun d => recs.any (fun r => r.die == d)) }

/-- The context of a launch on a die: its own on the receiving die, else one of its tenant. -/
def State.launchCtx (s : State) (l : Launch) (die : Nat) : Option Nat :=
  if die = l.die then some l.tcid else s.tenantCtx die l.tenant

/-- The image of a strand record in the context of its die. -/
def State.recImage (s : State) (l : Launch) (r : SRec) : Option Image :=
  (s.launchCtx l r.die).bind (fun tc => s.imageOf r.die tc r.image)

/-- The strand records of a die with their logical numbers. -/
def shareRecs (l : Launch) (die : Nat) : List (Nat × SRec) :=
  (l.recs.zipIdx.filter (fun x => x.1.die == die)).map (fun x => (x.2, x.1))

/-- The energy share of a die (R321). -/
def energyShare (l : Launch) (die : Nat) : Nat := (l.energy * (shareRecs l die).length + l.recs.length - 1) / l.recs.length
/-- What refills give until the launch's estimate has passed (R321). -/
def refillUntil (c : Ctx) (remt : Nat) : Nat := c.energy.refill * ((remt + 999) / 1000)

/-- The lowest-numbered strand that fails a check. -/
def firstStrand (l : Launch) (p : Nat → SRec → Bool) : Option Nat := (l.recs.zipIdx.find? (fun x => p x.2 x.1)).map (fun x => x.2)

/-- Frame requirements beyond one core (R26). -/
def frameTooLarge (i : Image) : Bool := decide (10 < i.ga) || decide (10 < i.gb) || decide (32 < i.hl) || decide (2 < i.tiles)

/-- More strands or a larger cluster group than a die or a cluster holds (R318). -/
def dieOverfull (s : State) (l : Launch) (die : Nat) : Bool :=
  let rs := (shareRecs l die).map (fun x => x.2)
  decide (256 < rs.length) ||
  (List.range 15).any (fun g =>
    let ms : List SRec := rs.filter (fun r => r.cgrp == g + 1)
    let sum (f : Image → Nat) : Nat := (ms.map (fun r => ((s.recImage l r).map f).getD 0)).foldl (· + ·) 0
    decide (64 < ms.length) || decide (160 < sum (fun i => i.ga)) || decide (160 < sum (fun i => i.gb)) ||
    decide (512 < sum (fun i => i.hl)) || decide (32 < sum (fun i => i.tiles)) ||
    decide (512 < (ms.map (fun r => r.csu)).foldl (· + ·) 0))

/-- A leaf that maps a byte with WR = 1. -/
def mappedWr (s : State) (die tcid va : Nat) : Bool :=
  match leafOf s die tcid va with
  | .ok (bits, _) => (Pte.ofNat bits).wr
  | .error _ => false

/-- Every byte of a virtual range lies in pages mapped with WR = 1. -/
def rangeWr (s : State) (die tcid va n : Nat) : Bool :=
  n == 0 || (List.range (n / 4096 + 2)).all (fun i =>
    let p := va / 4096 * 4096 + 4096 * i
    decide (va + n ≤ p) || mappedWr s die tcid p)

/-- A strand whose image holds a data section with a byte that does not lie within its destination (R86, R318). -/
def dataBad (s : State) (l : Launch) (r : SRec) : Bool :=
  match s.launchCtx l r.die, s.recImage l r with
  | some tc, some i =>
    let c := s.ctx r.die tc
    (imageSections i).any (fun x =>
      let top := x.2.1 + x.2.2.length
      !x.2.2.isEmpty &&
      match x.1 with
      | 0 => decide (r.csu * 32768 < top)
      | 1 => decide (c.csize < top)
      | 2 => decide (c.dsize < top)
      | 3 => decide (2 ^ 48 < top) || !rangeWr s l.die l.tcid x.2.1 x.2.2.length
      | _ => true)
  | _, _ => false

/-- The status of a launch that fails a check after PACKET_INVALID (R318, R388, R389). -/
def launchReject (s : State) (l : Launch) : Option (Nat × Nat) :=
  let img (p : SRec → Image → Bool) : Option Nat := firstStrand l (fun _ r => ((s.recImage l r).map (p r)).getD false)
  let ctxOf (r : SRec) : Ctx := s.ctx r.die ((s.launchCtx l r.die).getD 0)
  let neg := (s.ctx l.die l.tcid).negotiated.getD 0
  (img (fun _ i => frameTooLarge i)).map (fun k => (0x41, k)) |>.orElse (fun _ =>
  ((l.dies.find? (dieOverfull s l)).map (fun d => (0x42, d))) |>.orElse (fun _ =>
  ((firstStrand l (fun k r =>
      match s.recImage l r with
      | some i => decide (64 < imageRows i) || (imageEntry i k).isNone
      | none => true)).map (fun k => (0x43, k))) |>.orElse (fun _ =>
  (if (l.ckpt && !flg neg 9) || (l.kill && !flg neg 10) then some (0x44, 0)
   else (img (fun r i => i.features &&& ((ctxOf r).negotiated.getD 0) != i.features)).map (fun k => (0x44, k))) |>.orElse (fun _ =>
  ((img (fun r i => i.windows.any (fun w =>
      match storeFind (ctxOf r).wins w.1 with
      | some x => x.ident != w.2
      | none => true))).map (fun k => (0x45, k))) |>.orElse (fun _ =>
  (if l.gang ≠ 0 ∧ s.gangTenant l.gang ≠ some l.tenant then some (0x46, 0) else none) |>.orElse (fun _ =>
  ((l.dies.find? (fun d =>
      let c := s.ctx d ((s.launchCtx l d).getD 0)
      decide (c.energy.cap + refillUntil c l.remt < energyShare l d))).map (fun d => (0x47, d))) |>.orElse (fun _ =>
  (firstStrand l (fun _ r => dataBad s l r)).map (fun k => (0x48, k)))))))))

/-- A completion record (R319). A write that fails leaves nothing. -/
def State.writeRecord (s : State) (die tcid va status detail : Nat) : State :=
  match accessVa s die tcid 0 .store false false va va with
  | .ok (.here a) =>
    if locExists (.here a) then
      ((touchLeaf s die tcid va true).deviceWrite die a (leBytes 8 (status * 2 ^ 56 + detail % 65536 * 2 ^ 32)) 4).2
    else s
  | _ => s

/-- A launch number that no launch has, by a free choice (log entry 3). -/
def freeLnum (s : State) : Nat :=
  let used := s.launches.map (fun e => e.2.lnum)
  let a := Config.pick s.nfree % 2 ^ 32
  (((List.range (used.length + 1)).map (fun i => (a + i) % 2 ^ 32)).find? (fun x => !used.contains x)).getD a

/-- The dies that load CLUSTER or DIE sections for a launch, and whether any image has an HBM section (R86). -/
def loadingDies (s : State) (l : Launch) : List Nat × Bool :=
  let has (r : SRec) (sp : Nat) : Bool := ((s.recImage l r).map (fun i => !(sectionsIn i sp).isEmpty)).getD false
  (l.dies.filter (fun d => (shareRecs l d).any (fun x => has x.2 1 || has x.2 2)), l.recs.any (fun r => has r 3))

/-- A launch is submitted on its receiving die: checked whole, then rejected with a record, or divided into shares that set out
for their dies (R318, R320). -/
def State.launchSubmit (s : State) (die tcid va : Nat) (sup : Bool) : State :=
  let word (i : Nat) : Option Nat := packetWord s die tcid va i
  if va % 64 ≠ 0 then s
  else
    match word 2 with
    | none => s
    | some w2 =>
      let n := match word 0 with
        | some w => fld w 40 11 + 1
        | none => 0
      let ws := (List.range (8 + 4 * n)).map word
      let s := s.touchPacket die tcid va ws.length
      let reject (x : Nat × Nat) : State :=
        if fld w2 0 48 = 0 ∨ fld w2 0 48 % 8 ≠ 0 then s else s.writeRecord die tcid (fld w2 0 48) x.1 x.2
      match packetBad ws with
      | some i => reject (0x40, i)
      | none =>
        let l := launchOf s die tcid sup (ws.map (fun w => w.getD 0))
        match launchReject s l with
        | some x => reject x
        | none =>
          let ld := loadingDies s l
          let lnum := freeLnum s
          let f := s.fresh
          let l := { l with lnum := lnum, toLoad := ld.1, hbmLoaded := !ld.2 }
          let s : State := { f.2 with launches := storeSet f.2.launches f.1 l, nfree := s.nfree + 8 + 4 * n }
          l.dies.foldl (fun s d =>
            s.modDie d (fun x => { x with shares := x.shares ++ [⟨f.1, l.base, s.time, 0, .arriving, false, []⟩] })) s

/-! ## Resources of a core (R26, R45, R114, R323) -/

/-- Strands that hold a frame of a core. -/
def State.coreRes (s : State) (c : Nat) : List (Nat × Strand) := s.strands.filter (fun e => e.2.place.isSome && e.2.core == c)
/-- Strands whose region and rows a core keeps. -/
def State.coreHome (s : State) (c : Nat) : List (Nat × Strand) := s.strands.filter (fun e => e.2.home.isSome && e.2.core == c)

/-- The images whose rows are leased on a core, by context and image. -/
def State.leases (s : State) (c : Nat) : List (Nat × Nat) := ((s.coreHome c).map (fun e => (e.2.tcid, e.2.image))).eraseDups
/-- The rows they lease. -/
def State.leasedRows (s : State) (c : Nat) : Nat := ((s.leases c).map (fun x => s.rowsOf (c / 64) x.1 x.2)).foldl (· + ·) 0
/-- The rows of an image that a core does not hold tagged. -/
def State.missingRows (s : State) (c tcid image : Nat) : List Nat :=
  (List.range (s.rowsOf (c / 64) tcid image)).filter (fun r => !(s.core c).rows.contains (tcid, image, r))

/-- The first 32 KiB boundary at which a region of `csu` units fits among the regions of a core. -/
def State.regionFit (s : State) (c csu : Nat) : Option Nat :=
  let used := ((s.coreHome c).filter (fun e => 0 < e.2.csu)).map (fun e => (e.2.base / 32768, e.2.csu))
  ((List.range (33 - csu)).find? (fun b => csu == 0 || used.all (fun u => decide (u.1 + u.2 ≤ b) || decide (b + csu ≤ u.1)))).map
    (fun b => b * 32768)

/-- A core has a free frame, the strand's resources free, and room for its image's rows (R323). A strand that still holds a region
and rows on the core needs none anew. -/
def State.coreFits (s : State) (c k : Nat) : Bool :=
  let t := s.strand k
  let sum (f : Strand → Nat) : Nat := ((s.coreRes c).map (fun e => f e.2)).foldl (· + ·) 0
  let kept := t.home.isSome && t.core == c
  let tagged := (s.leases c).contains (t.tcid, t.image)
  decide ((s.core c).frames.length < 4) && decide (sum (fun x => x.ga) + t.ga ≤ 10) && decide (sum (fun x => x.gb) + t.gb ≤ 10) &&
  decide (sum (fun x => x.nlatch) + t.nlatch ≤ 32) && decide (sum (fun x => x.ntile) + t.ntile ≤ 2) &&
  (kept || (s.regionFit c t.csu).isSome) &&
  (tagged || decide ((s.missingRows c t.tcid t.image).length ≤ 64 - s.leasedRows c))

/-- A strand takes the lowest free frame of a core, and a region there unless it keeps one; its frame is FILLING (R114, R324). -/
def State.placeAt (s : State) (k c : Nat) : State :=
  let t := s.strand k
  let f := ((List.range 4).find? (fun f => (storeFind (s.core c).frames f).isNone)).getD 0
  let kept := t.home.isSome && t.core == c
  let base := if kept then t.base else (s.regionFit c t.csu).getD 0
  (s.modCore c (fun x => { x with frames := storeSet x.frames f k })).modStrand k (fun t =>
    { t with place := some (4 * c + f), home := some (4 * c + f), base := base, st := .filling })

/-- Whether a core comes before another in the order of preference (R323). -/
def State.coreBefore (s : State) (k a b : Nat) : Bool :=
  let t := s.strand k
  let cold (c : Nat) : Nat := if (s.missingRows c t.tcid t.image).isEmpty then 0 else 1
  let n (c : Nat) : Nat := (s.core c).frames.length
  decide (cold a < cold b) || (cold a == cold b && (decide (n a < n b) || (n a == n b && decide (a < b))))

/-- The core of R323 among some cores. -/
def State.bestCore (s : State) (k : Nat) (cs : List Nat) : Option Nat :=
  (cs.filter (fun c => s.coreFits c k)).foldl (fun b c =>
    match b with
    | none => some c
    | some x => if s.coreBefore k c x then some c else some x) none

/-- The cores of a cluster of a die, or of the whole die. -/
def coresOf (die : Nat) : Option Nat → List Nat
  | some cl => (List.range 16).map (fun i => die * 64 + cl * 16 + i)
  | none => (List.range 64).map (fun i => die * 64 + i)

/-- One strand placed. -/
def State.placeOne (s : State) (die : Nat) (cl : Option Nat) (k : Nat) : Option State := (s.bestCore k (coresOf die cl)).map (s.placeAt k)

/-- The strands of a cluster group placed in one cluster. -/
def State.placeGroup (s : State) (die cl : Nat) : List Nat → Option State
  | [] => some s
  | k :: r => (s.placeOne die (some cl) k).bind (fun s' => s'.placeGroup die cl r)

/-- Strands placed in ascending logical number, each cluster group in the lowest cluster that takes it whole (R323). -/
def State.placeAll (die : Nat) : List Nat → List (Nat × Nat) → State → Option State
  | [], _, s => some s
  | k :: r, asg, s =>
    let g := (s.strand k).cgrp
    if g = 0 then (s.placeOne die none k).bind (State.placeAll die r asg)
    else
      match asg.find? (fun x => x.1 == g) with
      | some x => (s.placeOne die (some x.2) k).bind (State.placeAll die r asg)
      | none =>
        let ms := (k :: r).filter (fun x => (s.strand x).cgrp == g)
        match (List.range 4).find? (fun cl => (s.placeGroup die cl ms).isSome) with
        | none => none
        | some cl => (s.placeOne die (some cl) k).bind (State.placeAll die r ((g, cl) :: asg))

/-! ## Admission (R27, R86, R320 to R323) -/

/-- A strand as admission leaves its frame (R27, R74, R75, R85). -/
def newStrand (s : State) (lid : Nat) (l : Launch) (die tcid num : Nat) (r : SRec) (i : Image) : Strand :=
  { Strand.reset with
    lid := lid, num := num, die := die, tcid := tcid, image := r.image, supervisor := l.supervisor
    ga := i.ga, gb := i.gb, nlatch := i.hl, ntile := i.tiles, csu := r.csu, cgrp := r.cgrp
    lay := i.layouts.foldl (fun m e => (e.2.zipIdx).foldl (fun m w => storePut 0 m (4 * e.1 + w.2) w.1) m) []
    ftab := i.ftab.foldl (fun m e => storePut 0 m e.1 e.2) []
    flags := r.pflags ||| BitVec.ofNat 64 (i.flags.foldl (fun x n => x ||| 2 ^ n) 0)
    range := ⟨r.rnext, r.rlimit, false, false, none⟩
    pos := (imageEntry i num).getD 0 % 65536
    prioBase := l.base, prioCeil := l.ceil, gang := l.gang, remt := l.remt
    allowLim := (s.ctx die tcid).wins.foldl (fun m e => storePut 0 m e.1 e.2.ceil) [] }

/-- The strands of a share are made, not yet placed: the numbers of a launch that is admitted for the first time. -/
def State.makeStrands (s : State) (lid : Nat) (l : Launch) (die tcid : Nat) : State × List Nat :=
  (shareRecs l die).foldl (fun p x =>
    match p.1.imageOf die tcid x.2.image with
    | none => p
    | some i =>
      let f := p.1.fresh
      ((f.2.setStrand f.1 (newStrand f.2 lid l die tcid x.1 x.2 i)).assignSpill f.1, p.2 ++ [f.1])) (s, [])

/-- A strand's core-scratch region reads zero, then holds the CORE sections of its image (R86, R114). -/
def State.loadCore (s : State) (k : Nat) : State :=
  let t := s.strand k
  let s := s.zeroRange (s.scratchAddr t 0 0) (t.csu * 32768)
  match s.imageOf t.die t.tcid t.image with
  | none => s
  | some i => (sectionsIn i 0).foldl (fun s x => s.pokeBytes (s.scratchAddr t 0 x.1) x.2) s

/-- A data section written by a die's loader and published at DOMAIN scope. -/
def State.loadBytes (s : State) (lid die a : Nat) (bs : List Byte) : State :=
  let r := s.deviceWrite die a bs 4
  r.2.modLaunch lid (fun l => { l with dataWids := l.dataWids ++ [r.1] })

/-- The CLUSTER and DIE sections of a share's images (R86). -/
def State.loadRegions (s : State) (lid die tcid : Nat) (ks : List Nat) : State :=
  let ts := ks.map s.strand
  let s := (ts.map (fun t => t.image)).eraseDups.foldl (fun s im =>
    match s.imageOf die tcid im with
    | none => s
    | some i =>
      let c := s.ctx die tcid
      let cls := ((ts.filter (fun t => t.image == im)).map (fun t => t.cluster)).eraseDups
      let s := cls.foldl (fun s cl => (sectionsIn i 1).foldl (fun s x => s.loadBytes lid die (c.regionBase die 1 cl + x.1) x.2) s) s
      (sectionsIn i 2).foldl (fun s x => s.loadBytes lid die (c.regionBase die 2 0 + x.1) x.2) s) s
  s.modLaunch lid (fun l => { l with loaded := if l.loaded.contains die then l.loaded else l.loaded ++ [die] })

/-- The HBM sections of a launch's images, written once by the receiving die (R86). -/
def State.loadHbm (s : State) (lid : Nat) : State :=
  let l := s.launch lid
  if l.hbmLoaded then s
  else
    let is := (l.recs.filterMap (fun r => s.recImage l r)).foldl (fun (a : List Image) i => if a.any (fun x => x.id == i.id) then a else a ++ [i]) []
    let s := is.foldl (fun s i => (sectionsIn i 3).foldl (fun s x =>
      (chunkUnits (x.2.length + 1) x.1 x.2).foldl (fun s u =>
        match deviceVa s l.die l.tcid u.1 with
        | some a => (touchLeaf s l.die l.tcid u.1 true).loadBytes lid l.die a (leBytes u.2.1 u.2.2)
        | none => s) s) s) s
    s.modLaunch lid (fun l => { l with hbmLoaded := true })

/-- A change of a share of a die. -/
def State.modShare (s : State) (die lid : Nat) (f : Share → Share) : State :=
  s.modDie die (fun d => { d with shares := d.shares.map (fun x => if x.lid = lid then f x else x) })

/-! ## Strands that stop (R39, R43, R352, R370) -/

/-- A frame and all that a strand holds on its core are freed; rows without a lease stay tagged, as the latest released (R44, R45,
R359). -/
def State.freeCore (s : State) (k : Nat) : State :=
  let t := s.strand k
  let c := t.core
  let s := s.modCore c (fun x =>
    { x with
      frames := x.frames.filter (fun f => f.2 != k)
      issuing := if x.issuing = some k then none else x.issuing
      bank := if x.issuing = some k then 0 else x.bank
      skipRun := x.issuing != some k && x.skipRun })
  let s := s.modStrand k (fun t => { t with place := none, home := none })
  if (s.leases c).contains (t.tcid, t.image) then s
  else s.modCore c (fun x =>
    let mine (r : Nat × Nat × Nat) : Bool := r.1 == t.tcid && r.2.1 == t.image
    { x with rows := x.rows.filter (fun r => !mine r) ++ x.rows.filter mine })

/-- Steal messages and requests in slots when a strand stops: its own are dropped, and requests on their way to it go on to its
ring successor (R42, R43, R352). -/
def State.dropSteals (s : State) (k : Nat) : State :=
  let succ := s.ringSucc k
  let keep (m : Steal) : Bool := m.from_ != k && !(m.dst == k && m.grant.isSome) && !(m.dst == k && succ == k)
  { s with
    steals := (s.steals.filter (fun (e : Nat × Steal) => keep e.2 || (e.2.grant.isSome && e.2.from_ == k && e.2.dst != k))).map
      (fun (e : Nat × Steal) => if e.2.dst = k then (e.1, { e.2 with dst := succ }) else e)
    strands := s.strands.map (fun (e : Nat × Strand) =>
      if e.2.range.slot = some k then (e.1, { e.2 with range := { e.2.range with slot := none } }) else e) }

/-- A strand exists no more (R39, R44), and the records of its jobs are kept no longer (R307). -/
def State.removeStrand (s : State) (k : Nat) : State :=
  let t := s.strand k
  let s := ((((s.leaveAll k).dropSlot k).dropSteals k).freeCore k).dropArea k
  let s : State := { s with cores := s.cores.map (fun c =>
    (c.1, { c.2 with ceq := c.2.ceq.filter (fun e => e.sid != k), tmq := c.2.tmq.filter (fun m => m.sid != k) })) }
  ({ s with
    strands := storeErase s.strands k, jobs := s.jobs.filter (fun e => !(e.2.sid == some k && jobFinal e.2.status)) } : State).gangTidy t.die

/-- A request of a strand that is stopped is performed or not, by a free choice that is its own: one that is not performed is gone and
holds no later one back (R370). -/
def State.stopReq (s : State) (k : Nat) (r : Req) : State :=
  let n := s.nfree
  let s : State := { s with nfree := n + 1 }
  if r.kind = .load ∨ r.held = true ∨ (r.xact.isNone ∧ Config.pick n % 2 = 0) then
    if r.xact.isNone then s.modStrand k (fun t => t.dropReq r.id) else s
  else if r.space = 4 then (if heldBefore s k r then s else s.sendXact k r)
  else if mayPerform s k r then (if r.kind = .store then s.storeHome k r else s.rmwHome k r)
  else s

/-- Refused transactions of a strand that does not resume are discarded: gap transactions take their places (R133, R290). -/
def State.giveUp (s : State) (k : Nat) : State :=
  let mine (x : Xact) : Bool := x.sid == k && x.copies.any (fun c => c.2 == .refused)
  let xs := s.xacts.filter (fun e => mine e.2)
  let s : State := { s with xacts := s.xacts.map (fun (e : Nat × Xact) =>
      if mine e.2 then (e.1, { e.2 with copies := e.2.copies.map (fun c => if c.2 = .refused then (c.1, .undeliverable) else c) }) else e) }
  xs.foldl (fun s e => s.modWin e.2.die e.2.tcid e.2.win (fun w => { w with refusing := none })) s

/-- A strand stops at once: its jobs are killed, its unacknowledged fragments and its results are discarded, and each buffered store
is performed or not (R315, R370). Its bells under way go with it (DESIGN CHOICE, log entry 86). Its capture ends with it. -/
def State.stopStrand (s : State) (k : Nat) : State :=
  if s.hasStrand k = false then s
  else
    let s := (s.jobs.filter (fun e => e.2.sid == some k)).foldl (fun s e => s.killJob e.1) s
    let s := s.giveUp k
    let s : State := { s with frags := s.frags.filter (fun e => e.2.sid != k), bells := s.bells.filter (fun e => e.2.sid != k) }
    let s := (s.strand k).reqs.foldl (fun s r => s.stopReq k r) s
    let s := (s.dropHandlers k)
    let t := s.strand k
    let s := if t.st = .saving ∧ t.saveKind = some .trap then s.modCore t.core (fun c => { c with frozen := false }) else s
    s.removeStrand k

/-- Every strand of a launch on any die. -/
def State.allStrands (s : State) (lid : Nat) : List Nat := (s.strands.filter (fun e => e.2.lid == lid)).map (fun e => e.1)

/-- A launch reaches a final status: its strands stop, its shares leave their dies, and its record is written (R319). -/
def State.endLaunch (s : State) (lid status detail : Nat) : State :=
  match storeFind s.launches lid with
  | none => s
  | some l =>
    let s := (s.allStrands lid).foldl (fun s k => s.stopStrand k) s
    let s := l.dies.foldl (fun s d => s.modDie d (fun x => { x with shares := x.shares.filter (fun h => h.lid != lid) })) s
    let s : State := { s with launches := storeErase s.launches lid }
    if l.doneva = 0 then s else s.writeRecord l.die l.tcid l.doneva status detail

/-- A share that still waits for its first or its next admission. -/
def Share.pending (h : Share) : Bool := h.st == .arriving || h.st == .queued || h.st == .reserving

/-- A share whose strands on the die are all saved by a checkpoint waits for admission again, behind its equals (R333). -/
def State.shareBack (s : State) (die lid : Nat) : State :=
  if (s.launchStrands lid die).all (fun x => (s.strand x.2).st == .saved && (s.strand x.2).saveKind == some .checkpoint) &&
      (s.die die).shares.any (fun h => h.lid == lid && (h.st == .admitted || h.st == .released)) then
    s.modDie die (fun d =>
      { d with shares := d.shares.filter (fun h => h.lid != lid) ++
          (d.shares.filter (fun h => h.lid == lid)).map (fun h => { h with st := .queued, since := s.time, again := true }) })
  else s

/-- A share that has lost a strand: where those left are all saved by a checkpoint, it waits for admission again (R333). A share of
which no strand is left has retired; when no strand of the launch is left and no share waits, the launch is complete
(R319, R320). -/
def State.shareDone (s : State) (die lid : Nat) : State :=
  if (s.launchStrands lid die).isEmpty = false then s.shareBack die lid
  else
    let s := s.modShare die lid (fun h => { h with st := .retired })
    if (s.allStrands lid).isEmpty && !s.dies.any (fun d => d.2.shares.any (fun h => h.lid == lid && h.pending)) then
      s.endLaunch lid 0 (s.launch lid).ended
    else s

/-! ## Admission of a share -/

/-- A saved strand is lost: its launch ends with CONTEXT_LOST and the tenant is told (R372, R390). -/
def State.loseStrand (s : State) (k : Nat) : State :=
  let t := s.strand k
  let l := s.launch t.lid
  (s.endLaunch t.lid 0x51 0).noticeWrite t.die t.tcid 2 0 0 l.lnum

/-- A placed strand's frame and region take the contents of its save image (R363, R366, R369). -/
def State.loadImage (s : State) (k : Nat) : State :=
  let t := s.strand k
  let s := s.pokeCells (t.img.map (fun c => (s.scratchAddr t 0 c.1, c.2)))
  s.modStrand k (fun t => { t with img := [], runCount := 0 })

/-- The strands of a share that a checkpoint saved, in ascending logical number: the device OS may have restored others (R373). -/
def State.savedOf (s : State) (lid die : Nat) : List Nat :=
  (((s.launchStrands lid die).filter (fun x => (s.strand x.2).st == .saved && (s.strand x.2).saveKind == some .checkpoint)).foldl
    (fun (l : Store Nat) x => storeSet l x.1 x.2) []).map (fun x => x.2)

/-- The die's share of a launch, once the device OS has put a strand there: a strand that comes to a die without one brings it, and a
share none of whose strands waits any more is admitted (R373). -/
def State.shareHere (s : State) (die lid : Nat) : State :=
  match (s.die die).shares.find? (fun h => h.lid == lid) with
  | none =>
    let l := s.launch lid
    (s.modDie die (fun d => { d with shares := d.shares ++ [⟨lid, l.base, s.time, 0, .released, false, []⟩] })).modLaunch lid
      (fun l => { l with dies := if l.dies.contains die then l.dies else l.dies ++ [die] })
  | some h =>
    if h.st = .retired ∨ (h.pending = true ∧ h.again = true ∧ (s.savedOf lid die).isEmpty = true) then
      s.modShare die lid (fun h => { h with st := .released })
    else s

/-- A share may be admitted as far as its context goes (R287, R321, R337, R411). -/
def State.mayAdmit (s : State) (die : Nat) (h : Share) : Bool :=
  let l := s.launch h.lid
  match s.launchCtx l die with
  | none => false
  | some tc =>
    let c := s.ctx die tc
    c.bind == .run && c.resident && !c.estop && !(s.die die).recovering &&
    decide ((256 * energyShare l die : Int) ≤ c.energy.enbal + 256 * refillUntil c l.remt)

/-- A share is placed whole, or not at all (R86, R322, R323). Saved strands come back from their images. -/
def State.admitShare (s : State) (die : Nat) (h : Share) : Option State :=
  let l := s.launch h.lid
  match s.launchCtx l die with
  | none => none
  | some tc =>
    if h.again then
      let ks := s.savedOf h.lid die
      match State.placeAll die ks [] s with
      | none => none
      | some s =>
        match ks.find? (fun k => !imageGood s k (s.strand k).serial) with
        | none => some ((ks.foldl (fun s k => (s.zeroRange (s.scratchAddr (s.strand k) 0 0) ((s.strand k).csu * 32768)).loadImage k) s).modShare
            die h.lid (fun x => { x with st := .released }))
        | some k => some (s.loseStrand k)
    else
      let m := s.makeStrands h.lid l die tc
      (State.placeAll die m.2 [] m.1).map (fun s =>
        let s := m.2.foldl (fun s k => s.loadCore k) s
        let s := (s.loadRegions h.lid die tc m.2).loadHbm h.lid
        s.modShare die h.lid (fun x => { x with st := .admitted }))

/-- Shares that wait on a die, in the order of R322. -/
def Die.waiting (d : Die) : List Share :=
  let w := d.shares.filter (fun h => h.st == .queued || h.st == .reserving)
  (List.range 16).reverse.flatMap (fun b => w.filter (fun h => h.base == b))

/-- The first share of a waiting list that can be admitted; none behind a reserving share is (R322). -/
def State.admitFirst (s : State) (die : Nat) : List Share → Option State
  | [] => none
  | h :: r =>
    match (if s.mayAdmit die h then s.admitShare die h else none) with
    | some s' => some s'
    | none => if h.st = .reserving then none else s.admitFirst die r

/-- The admission queue of a die is scanned until no share can be admitted (R322). -/
def State.scanLoop (die : Nat) : Nat → State → State
  | 0, s => s
  | n + 1, s =>
    match s.admitFirst die (s.die die).waiting with
    | none => s
    | some s' => State.scanLoop die n s'
/-- Every die scans, and again where a launch has ended: its strands have freed frames on other dies (R322, R372). -/
def State.scanRounds : Nat → State → State
  | 0, s => s
  | n + 1, s =>
    let s' := (List.range 8).foldl (fun s d => State.scanLoop d ((s.die d).shares.length + 1) s) s
    if s'.launches.length < s.launches.length then State.scanRounds n s' else s'
/-- Every die scans. -/
def State.scanAll (s : State) : State := State.scanRounds (s.launches.length + 1) s
/-- The scan of R322: a launch that ends in it frees frames on other dies. -/
def State.scan (s : State) (die : Nat) : State :=
  let s' := State.scanLoop die ((s.die die).shares.length + 1) s
  if s'.launches.length < s.launches.length then s'.scanAll else s'

/-! ## The events of launches -/

/-- SHARE_ARRIVAL (R320, R322): the share joins the die's queue behind those that have arrived, and the die scans. -/
def State.shareArrival (s : State) (die lid : Nat) : State :=
  if (s.die die).shares.any (fun h => h.lid == lid && h.st == .arriving) then
    let seen := s.hist.flatMap (fun e => e.2.ws.filterMap (fun w => w.pub.map (fun x => ((w.wid, e.1), x, w.core))))
    (s.modDie die (fun d => { d with shares := d.shares.filter (fun h => h.lid != lid) ++
      (d.shares.filter (fun h => h.lid == lid)).map (fun h => { h with st := .queued, since := s.time, seen := seen }) })).scan die
  else s
def execShareArrival (die lid : Nat) (s : State) : Host.Outcome State Fault Refusal := .next (s.shareArrival die lid)

/-- SHARE_RESERVE_TIMEOUT (R322): after 100 µs a waiting share becomes reserving; pre-emption is considered for it from now. -/
def State.shareReserve (s : State) (die lid : Nat) : State :=
  if (s.die die).shares.any (fun h => h.lid == lid && h.st == .queued && decide (h.since + 100 ≤ s.time)) then
    (s.modShare die lid (fun h => { h with st := .reserving, nextCheck := s.time })).scan die
  else s
def execShareReserveTimeout (die lid : Nat) (s : State) : Host.Outcome State Fault Refusal := .next (s.shareReserve die lid)

/-- The rows of an image are loaded on a core: unleased rows give way, the least recently released first (R45). -/
def State.loadRows (s : State) (c tcid image : Nat) : Option State :=
  let miss := s.missingRows c tcid image
  let rows := (s.core c).rows
  let ls := s.leases c
  let idle := rows.filter (fun r => !ls.contains (r.1, r.2.1))
  let excess := rows.length + miss.length - 64
  if idle.length < excess then none
  else
    let out := idle.take excess
    some (s.modCore c (fun x => { x with rows := x.rows.filter (fun r => !out.contains r) ++ miss.map (fun r => (tcid, image, r)) }))

/-- A restored strand proceeds: its held accesses are performed again, and it becomes READY, or RETIRING as it was (R360, R366). -/
def State.proceed (s : State) (k : Nat) : State :=
  let r := (s.strand k).wasRetiring
  let s := (s.replay k).modStrand k (fun t => { t with saveKind := none, osCause := none, wasRetiring := false, runCount := 0, resumed := true })
  if r then s.modStrand k (fun t => { t with st := .retiring }) else s.toReady k

/-- ROW_LOAD_COMPLETE (R28, R45, R366): a placed strand is resident; its gang has an entry (R325). A strand that comes from its
save image needs no release. -/
def State.rowLoadComplete (s : State) (k : Nat) : State :=
  let t := s.strand k
  if t.st ≠ .filling ∨ t.place = none then s
  else
    match s.loadRows t.core t.tcid t.image with
    | none => s
    | some s =>
      let s := s.modDie t.die (fun d => d.gangAlloc t.gang (s.ctx t.die t.tcid).tenant)
      if t.saveKind.isSome then s.proceed k else s.modStrand k (fun t => { t with st := .held })
def execRowLoadComplete (sid : Nat) (s : State) : Host.Outcome State Fault Refusal := .next (s.rowLoadComplete sid)

/-- The view that release gives a strand: what was published when the launch was submitted on the die and reaches it, and the data
sections of the launch (R86, R222). -/
def releaseView (h : Share) (data : List WKey) (core : Nat) : List WKey :=
  viewAdd ((h.seen.filter (fun x => coreInInst x.2.1 x.2.2 core)).map (fun x => x.1)) data

/-- RELEASE (R29, R86): every strand of the share is resident and every die has loaded; they become READY together. -/
def State.release (s : State) (die lid : Nat) : State :=
  let l := s.launch lid
  let ks := (s.launchStrands lid die).map (fun x => x.2)
  match (s.die die).shares.find? (fun h => h.lid == lid && h.st == .admitted) with
  | none => s
  | some h =>
    if ks.isEmpty = false ∧ ks.all (fun k => (s.strand k).st == .held) = true ∧ l.toLoad.all (fun d => l.loaded.contains d) = true ∧
        l.hbmLoaded = true then
      (ks.foldl (fun s k => s.modStrand k (fun t =>
        { t with st := .ready, readySince := s.time, runCount := 0, view := releaseView h (s.keysOf l.dataWids) t.core })) s).modShare die lid
        (fun x => { x with st := .released })
    else s
def execRelease (die lid : Nat) (s : State) : Host.Outcome State Fault Refusal := .next (s.release die lid)

/-- The implicit PHASE of END completes (R44, R180). -/
def State.endPhase (s : State) (k : Nat) : State :=
  let t := s.strand k
  if t.phased = false ∧ phaseReady s k 4 s.nextId = true then
    (s.phaseDone k 4 s.nextId t.bun.addr).modStrand k (fun t => { t with phased := true })
  else s

/-- Everything that R44 waits for has happened. -/
def mayRetire (s : State) (k : Nat) : Bool :=
  let t := s.strand k
  t.phased && t.inflight.isEmpty && !t.mxOpen && !(s.core t.core).tmq.any (fun m => m.sid == k) &&
  !s.cores.any (fun c => c.2.ceq.any (fun e => e.sid == k)) && !s.jobs.any (fun e => e.2.sid == some k && !jobFinal e.2.status)

/-- RETIRE (R44): the implicit PHASE completes; a cause it raises is delivered; then the strand retires and its frame is freed. -/
def State.retire (s : State) (k : Nat) : State :=
  if (s.strand k).st ≠ .retiring then s
  else
    let s := s.endPhase k
    if (s.strand k).causes.isEmpty = false then s.deliverCause k
    else if mayRetire s k then
      let t := s.strand k
      ((s.removeStrand k).shareDone t.die t.lid).scanAll
    else s
def execRetire (sid : Nat) (s : State) : Host.Outcome State Fault Refusal := .next (s.retire sid)

/-! ## Pre-emption (R332, R333) -/

/-- The REMT of a share: the largest among its strands on the die (R332). -/
def State.shareRemt (s : State) (lid die : Nat) : Nat :=
  ((s.launchStrands lid die).map (fun x => (s.strand x.2).remt)).foldl max 0

/-- The candidates of R333 in the order in which they are taken: TOKENS, then REMT, then age. -/
def State.victims (s : State) (die : Nat) (n : Share) : List Share :=
  let tok (h : Share) : Nat := (s.launch h.lid).tokens
  let cs := (s.die die).shares.filter (fun h => (h.st == .admitted || h.st == .released) && decide (tok h < tok n))
  let before (a b : Share) : Bool :=
    decide (tok a < tok b) || (tok a == tok b &&
      (decide (s.shareRemt a.lid die < s.shareRemt b.lid die) || (s.shareRemt a.lid die == s.shareRemt b.lid die &&
        (decide (a.since < b.since) || (a.since == b.since && decide (a.lid < b.lid))))))
  let ins (l : List Share) (x : Share) : List Share := l.filter (fun y => before y x) ++ [x] ++ l.filter (fun y => !before y x)
  cs.foldl ins []

/-- What a die would have free without the strands of some shares. -/
def State.without (s : State) (die : Nat) (vs : List Share) : State :=
  (vs.flatMap (fun v => (s.launchStrands v.lid die).map (fun x => x.2))).foldl (fun s k =>
    let s := s.freeCore k
    { s with strands := storeErase s.strands k }) s

/-- The shortest prefix of the candidates whose resources suffice for a share: its energy is not part of the question (DESIGN CHOICE, log
entry 97). -/
def State.enough (s : State) (die : Nat) (n : Share) (vs : List Share) : Option (List Share) :=
  ((List.range (vs.length + 1)).find? (fun i => ((s.without die (vs.take i)).admitShare die n).isSome)).map (fun i => vs.take i)

/-- The treatment of one victim (R333). -/
def State.preempt (s : State) (die : Nat) (v : Share) : State :=
  let l := s.launch v.lid
  if s.shareRemt v.lid die ≤ 100 then s
  else if l.ckpt then
    (s.launchStrands v.lid die).foldl (fun s x => s.modStrand x.2 (fun t => { t with stopRq := true, ckptRq := true })) s
  else if l.kill then s.endLaunch v.lid 0x50 0
  else s

/-- PREEMPT_CHECK (R333): at once when a share becomes reserving, then every 100 µs, for the reserving share nearest the head. -/
def State.preemptCheck (s : State) (die : Nat) : State :=
  match (s.die die).waiting.find? (fun h => h.st == .reserving) with
  | none => s
  | some n =>
    if s.time < n.nextCheck then s
    else
      let s := s.modShare die n.lid (fun h => { h with nextCheck := s.time + 100 })
      match s.enough die n (s.victims die n) with
      | none => s
      | some vs => (vs.foldl (fun s v => s.preempt die v) s).scanAll
def execPreemptCheck (die : Nat) (s : State) : Host.Outcome State Fault Refusal := .next (s.preemptCheck die)

end Sys2Proof.Machine
end

