-- ==== Sys2Proof/Machine/Paging.lean ====
section
/-! DEFINITION. What the device OS does to page tables (R128, R129, R379): pages and tables of its own, a leaf written, changed or
removed, invalidation (R132, R380), and its service of a page fault (R358). -/
namespace Sys2Proof.Machine

/-- A leaf written at its level below a table; tables that are missing are made (R128, R129). -/
def State.writeLeaf (die va target leaf : Nat) : Nat → Nat → Nat → State → Option State
  | 0, _, _, _ => none
  | fuel + 1, level, table, s =>
    let a := hbmAddr die (table + 16 * vaIndex va level)
    if level = target then some (s.poke a 16 leaf)
    else
      let e := Pte.ofNat (s.read a 16)
      if e.v && e.leaf then none
      else if e.v then State.writeLeaf die va target leaf fuel (level + 1) e.pa s
      else
        match s.allocOs die 8192 with
        | none => none
        | some (t, s) => State.writeLeaf die va target leaf fuel (level + 1) t (s.poke a 16 (t + 1))

/-- A context's root table, made when it has none. -/
def State.rootOf (s : State) (die tcid : Nat) : Option (Nat × State) :=
  match (s.ctx die tcid).root with
  | some r => some (r, s)
  | none => (s.allocOs die 8192).map (fun x => (x.1, x.2.modCtx die tcid (fun c => { c with root := some x.1 })))

/-- A page of a context mapped by a leaf at a level. -/
def State.mapLeaf (s : State) (die tcid va level leaf : Nat) : Option State :=
  (s.rootOf die tcid).bind (fun x => State.writeLeaf die va level leaf 4 0 x.1 x.2)

/-- Where the entry stands that maps an address at a level, if tables lead to it. -/
def entryAt (s : State) (die va target : Nat) : Nat → Nat → Nat → Option Nat
  | 0, _, _ => none
  | fuel + 1, level, table =>
    let a := hbmAddr die (table + 16 * vaIndex va level)
    if level = target then some a
    else
      let e := Pte.ofNat (s.read a 16)
      if e.v && !e.leaf then entryAt s die va target fuel (level + 1) e.pa else none

/-- The address of a context's entry for an address at a level. -/
def State.entryOf (s : State) (die tcid va level : Nat) : Option Nat :=
  (s.ctx die tcid).root.bind (fun r => entryAt s die va level 4 0 r)

/-- Cached translations of a context that an invalidation request covers (R132, R380). -/
def Tlb.hit (e : Tlb) (tcid va size : Nat) (all : Bool) : Bool :=
  e.tcid == tcid && (all || (decide (e.vpage * e.size < va + size) && decide (va < (e.vpage + 1) * e.size)))

/-- A store of a context that has left its core under a translation that an invalidation covers. -/
def leftIn (c : Ctx) (va size : Nat) (all : Bool) (r : Req) : Bool :=
  let at_ (e : El) : Nat := if r.space = 5 then c.bva + e.off else e.off
  r.kind == .store && r.left && r.xact.isNone && (r.space == 3 || r.space == 5) &&
  (all || r.els.any (fun e => decide (at_ e < va + size) && decide (va < at_ e + e.w)))

/-- What such stores have still to perform is performed, under the translations that they used (R132). -/
def State.finishStores (s : State) (die tcid va size : Nat) (all : Bool) : State :=
  (s.strands.filter (fun e => e.2.die == die && e.2.tcid == tcid)).foldl (fun s e =>
    (e.2.reqs.filter (leftIn (s.ctx die tcid) va size all)).foldl (fun s r => s.storeHome e.1 r) s) s

/-- What is left of the window stores that have begun at their destinations is performed there (R132, R287). -/
def State.finishXacts (s : State) : State :=
  s.xacts.foldl (fun s e => e.2.todo.foldl (fun s m =>
    if m.2.isEmpty then s
    else
      let s := s.homeWrite (e.2.writer none) m.2
      { s with xacts := storeMod s.xacts e.1 (fun x => { x with todo := storeSet x.todo m.1 [] }) }) s) s

/-- INVALIDATE (R132, R380): it completes when the accesses that the removed translations served have been performed: stores that are under
way are finished, and every other access is translated when it is performed. -/
def State.invalidate (s : State) (die tcid va size : Nat) (all : Bool) : State :=
  ((s.finishStores die tcid va size all).finishXacts).modDie die (fun d => { d with tlb := d.tlb.filter (fun e => !e.hit tcid va size all) })
def execInvalidate (die tcid va size : Nat) (all : Bool) (s : State) : Host.Outcome State Fault Refusal :=
  .next (s.invalidate die tcid va size all)

/-- The fields of a leaf as its 128 bits (R129). -/
def leafBits (rd wr rap : Bool) (aper pa keyid part home : Nat) : Nat :=
  3 + 4 * rd.toNat + 8 * wr.toNat + 32 * rap.toNat + 64 * aper + pa / 4096 * 4096 + 2 ^ 64 * keyid + 2 ^ 74 * part + 2 ^ 82 * home

/-! ## Remote atomics (R358) -/

/-- The page that a leaf belongs to: its first address, the size of its entries, and their number, 16 with C64 (R129, R130). -/
def pageOf (l : Leaf) (va : Nat) : Nat × Nat × Nat :=
  let size := levelSize l.level
  if l.level = 3 ∧ (Pte.ofNat l.bits).c64 = true then (va / 65536 * 65536, 4096, 16) else (va / size * size, size, 1)

/-- The entries of a context's page changed, each by its offset in the page, with their old translations invalidated. -/
def State.changeLeaf (s : State) (die tcid va : Nat) (f : Nat → Nat → Nat) : State :=
  match walk s die tcid va with
  | .error _ => s
  | .ok l =>
    let p := pageOf l va
    ((List.range p.2.2).foldl (fun s i =>
      match walk s die tcid (p.1 + i * p.2.1) with
      | .ok m => s.poke m.at_ 16 (f (i * p.2.1) m.bits)
      | .error _ => s) s).invalidate die tcid p.1 (p.2.1 * p.2.2) false

/-- RAP set in the faulting die's leaf. -/
def State.remapPage (s : State) (die tcid va : Nat) : State := s.changeLeaf die tcid va (fun _ b => b ||| 32)

/-! ## Physical pages (R358, R374) -/

/-- A leaf made to name a new home. -/
def leafMoved (b aper pa home : Nat) : Nat :=
  b - fld b 6 2 * 64 - fld b 12 34 * 4096 - fld b 82 10 * 2 ^ 82 + aper * 64 + pa / 4096 * 4096 + home * 2 ^ 82

/-- The bytes of a page of a context. -/
def State.pageBytes (s : State) (key : Nat) (g : Nat × Nat × Nat × Nat) : Nat :=
  match walk s (key / 1024) (key % 1024) g.1 with
  | .ok l => (pageOf l g.1).2.1 * (pageOf l g.1).2.2
  | .error _ => 4096

/-- A page of a context meets a physical range of a home. -/
def meetsPage (s : State) (home pa size : Nat) (g : Nat × Nat × Nat × Nat) (e : Nat × Ctx) : Bool :=
  g.2.2.1 == home && decide (g.2.2.2 < pa + size) && decide (pa < g.2.2.2 + s.pageBytes e.1 g)

/-- A physical range of a die's HBM, below the supervisor region, that no context's page meets, on a boundary of its size (R379; log
entry 12). -/
def State.freePage (s : State) (die size : Nat) : Option Nat :=
  let home := s.domainIdx die
  let ends := s.ctxs.flatMap (fun e => (e.2.pages.filter (fun g => g.2.2.1 == home)).map (fun g => (g.2.2.2 + s.pageBytes e.1 g + size - 1) / size * size))
  ((0 :: ends).filter (fun a => decide (a + size ≤ osBase) && !s.ctxs.any (fun e => e.2.pages.any (fun g => meetsPage s home a size g e)))).foldl
    (fun m a => match m with | none => some a | some b => some (min a b)) none

/-- A page that the device OS's tables hold for an address is mapped: a free 4 KiB page, zeroed, under the context's first key
(R358; log entry 13). -/
def State.servePage (s : State) (die tcid va : Nat) : Option State :=
  let c := s.ctx die tcid
  match c.keys with
  | [] => none
  | k :: _ =>
    if c.quota * 2 ^ 21 < c.used + 4096 then none
    else
      (s.freePage die 4096).bind (fun pa =>
        ((s.zeroRange (hbmAddr die pa) 4096).mapLeaf die tcid (va / 4096 * 4096) 3 (leafBits true true false 0 pa k.1 c.part (s.domainIdx die))).map
          (fun s => (s.modCtx die tcid (fun c => { c with
            used := c.used + 4096, pages := c.pages ++ [(va / 4096 * 4096, 3, s.domainIdx die, pa)] })).invalidate die tcid (va / 4096 * 4096) 4096 false))

/-- Physical bytes copied from one place of the package to another, which they replace (R374), with what the check values, the
poison and the views say of them. -/
def State.copyPage (s : State) (a dst size : Nat) : State :=
  let inside (x : Nat) : Bool := decide (a ≤ x) && decide (x < a + size)
  let cells := (s.mem.filter (fun c => inside c.1)).map (fun c => (c.1 - a + dst, c.2))
  let unit (u : Nat) : Nat := if inside (8 * u) then (8 * u - a + dst) / 8 else u
  let key (k : WKey) : WKey := (k.1, unit k.2)
  let hist := (s.hist.filter (fun e => inside (8 * e.1))).map (fun e => (unit e.1, e.2))
  let s' := s.zeroRange dst size
  { s'.pokeCells cells with
    hist := hist.foldl (fun (h : Store UnitHist) (e : Nat × UnitHist) => storeSet h e.1 e.2) s'.hist
    strands := s'.strands.map (fun (e : Nat × Strand) => (e.1, { e.2 with
      view := e.2.view.map key, hq := e.2.hq.map (fun h => { h with wids := h.wids.map key }) }))
    poisoned := s'.poisoned ++ (s.poisoned.filter (fun u => inside (eccAddr u))).map (fun u => eccUnit (eccAddr u - a + dst))
    badCheck := s'.badCheck ++ (s.badCheck.filter (fun b => inside (64 * b))).map (fun b => (64 * b - a + dst) / 64) }

/-- Bytes of a page whose home lies outside the package are free (log entry 7). -/
def State.fetchPage (s : State) (home dst size : Nat) : State :=
  { s.pokeBytes dst ((List.range size).map (fun i => BitVec.ofNat 8 (Config.remoteData home (s.nfree + i)).toNat)) with nfree := s.nfree + size }

/-- An entry of a context's table that names part of a physical page: its context, virtual address, physical address and size. -/
structure LeafUse where
  key : Nat
  va : Nat
  pa : Nat
  size : Nat
deriving DecidableEq, Repr

/-- The entries of every context's table for pages of a home, each by itself: 16 of a C64 group (R129). -/
def State.leafUses (s : State) (home : Nat) : List LeafUse :=
  s.ctxs.flatMap (fun e => (e.2.pages.filter (fun g => g.2.2.1 == home)).flatMap (fun g =>
    match walk s (e.1 / 1024) (e.1 % 1024) g.1 with
    | .error _ => []
    | .ok l =>
      let p := pageOf l g.1
      (List.range p.2.2).filterMap (fun i =>
        match walk s (e.1 / 1024) (e.1 % 1024) (p.1 + i * p.2.1) with
        | .ok m => if (Pte.ofNat m.bits).home = home then some ⟨e.1, p.1 + i * p.2.1, (Pte.ofNat m.bits).pa, p.2.1⟩ else none
        | .error _ => none)))

/-- An entry meets a physical range. -/
def LeafUse.meets (u : LeafUse) (pa size : Nat) : Bool := decide (u.pa < pa + size) && decide (pa < u.pa + u.size)

/-- The range that moves with some bytes of a home: that of the largest entry that names any of them. -/
def State.moveRange (s : State) (home pa size : Nat) : Nat × Nat :=
  (s.leafUses home).foldl (fun r u => if u.meets r.1 r.2 && decide (r.2 < u.size) then (u.pa, u.size) else r) (pa, size)

/-- One entry made to name a new place, with its old translation invalidated (R380). -/
def State.moveLeaf (s : State) (u : LeafUse) (aper pa home : Nat) : State :=
  match walk s (u.key / 1024) (u.key % 1024) u.va with
  | .error _ => s
  | .ok l => (s.poke l.at_ 16 (leafMoved l.bits aper pa home)).invalidate (u.key / 1024) (u.key % 1024) u.va u.size false

/-- Every entry of every context for a physical range of a home names its new place, APER 0 on the die that holds it and 1 elsewhere (R358,
R374). -/
def State.moveUses (s : State) (home pa size die dst : Nat) : State :=
  let new := s.domainIdx die
  let us := (s.leafUses home).filter (fun u => u.meets pa size)
  let s : State := { s with ctxs := s.ctxs.map (fun e => (e.1, { e.2 with pages := e.2.pages.map (fun g =>
    if meetsPage s home pa size g e then (g.1, g.2.1, new, dst + (g.2.2.2 - pa)) else g) })) }
  us.foldl (fun s u => s.moveLeaf u (if u.key / 1024 = die then 0 else 1) (dst + (u.pa - pa)) new) s

/-- The translations of a physical range of a home are invalidated, so that every access that used them is performed before its bytes move
(R132, R358). -/
def State.quiet (s : State) (home pa size : Nat) : State :=
  ((s.leafUses home).filter (fun u => u.meets pa size)).foldl (fun s u => s.invalidate (u.key / 1024) (u.key % 1024) u.va u.size false) s.finishXacts

/-- The page is copied into the faulting die's HBM under the same KEYID, and every die's leaf for it is rewritten. -/
def State.migratePage (s : State) (die tcid va : Nat) : Option State :=
  match walk s die tcid va with
  | .error _ => none
  | .ok l =>
    let p := pageOf l va
    match walk s die tcid p.1 with
    | .error _ => none
    | .ok m =>
      let e := Pte.ofNat m.bits
      let r := s.moveRange e.home e.pa (p.2.1 * p.2.2)
      (s.freePage die r.2).map (fun dst =>
        let s' := s.quiet e.home r.1 r.2
        let s' := match s.dieOfDomain e.home with
          | some d => (s'.copyPage (hbmAddr d r.1) (hbmAddr die dst) r.2).zeroRange (hbmAddr d r.1) r.2
          | none => s'.fetchPage e.home (hbmAddr die dst) r.2
        s'.moveUses e.home r.1 r.2 die dst)

/-- How often a page of a tenant has met the fault, anywhere in the package. -/
def State.faultCount (s : State) (tenant page : Nat) : Nat :=
  ((s.ctxs.filter (fun e => e.2.tenant == tenant)).flatMap (fun e => e.2.faultPages.filter (fun p => p == page))).length

/-- FAULTPOL (R358, R387, R388): the state in which the strand resumes, or none when its launch is killed. -/
def State.faultPolicy (s : State) (die tcid va : Nat) : Option State :=
  let c := s.ctx die tcid
  let may := (c.negotiated.getD 0).testBit 8
  let page := match walk s die tcid va with | .ok l => (pageOf l va).1 | .error _ => va / 4096 * 4096
  let n := s.faultCount c.tenant page
  let s' := s.modCtx die tcid (fun c => { c with faultPages := c.faultPages ++ [page] })
  match c.faultpol with
  | 1 => if may then some (s.remapPage die tcid va) else none
  | 2 => s.migratePage die tcid va
  | 3 => if may = false then none else if n = 0 then some (s'.remapPage die tcid va) else s'.migratePage die tcid va
  | _ => none

end Sys2Proof.Machine
end

