-- ==== Sys2Proof/Machine/Traps.lean ====
section
/-! DEFINITION. The save of a trapped or checkpointed strand (R359 to R364, R369), the device OS's handling of a cause (R358), and what the
services of a fault strand share, with ENDSTRAND (R407). -/
namespace Sys2Proof.Machine

/-! ## The device OS (R358) -/

/-- The strand's launch ends as a cause that nothing serves demands (R358). -/
def State.osKill (s : State) (k : Nat) (p : Pending) : State := s.endLaunch (s.strand k).lid 0x50 p.cause.code

/-- The cause is served: the device OS will restore the strand. -/
def State.osServed (s : State) (k : Nat) : State :=
  (s.modStrand k (fun t => { t with osCause := none, osEmul := false, due := true })).resave k

/-- The accesses of a MISALIGNED bundle that the device OS makes in its place (R127). -/
def State.osEmulate (s : State) (k : Nat) (p : Pending) : State :=
  match decodeBundle (s.imageWords (s.strand k)) (p.tbun % 65536) with
  | .error _ => s
  | .ok b =>
    let is := b.syls.filterMap (fun x => if p.tslot.testBit x.slot.bit then x.instr else none)
    (is.foldl (fun s i => s.emulate k i) s).modStrand k (fun t => { t with suppress := t.suppress ||| p.tslot })

/-- The poll of a SPIN at an address still meets a page cause (R346). -/
def pageFails (s : State) (t : Strand) (va : Nat) : Bool :=
  match accessVa s t.die t.tcid t.gang .load false false va va with
  | .error (.pageNotPresent, _) => true
  | .error (.pagePerm, _) => true
  | _ => false

/-- A page cause: nothing to do when the access passes by now, else a page that the device OS's tables hold, which a free choice
decides; else the launch is killed (R358; log entry 13). -/
def State.osPage (s : State) (k : Nat) (p : Pending) : State :=
  let t := s.strand k
  let va := p.fval.toNat % 2 ^ 48
  let held := t.reqs.filter (fun r => r.held && r.tbun == p.tbun)
  let fails := if held.isEmpty then pageFails s t va else held.any (fun r => (reqMet s k r).isSome)
  if fails = false then s.osServed k
  else
    let n := s.nfree
    let s : State := { s with nfree := n + 1 }
    if p.cause = .pageNotPresent ∧ p.fval.getLsbD 53 = false ∧ Config.pick n % 2 = 1 then
      match s.servePage t.die t.tcid va with
      | some s' => s'.osServed k
      | none => s.osKill k p
    else s.osKill k p

/-- The code of a HAIL that names a service (R407). -/
def hailKnown (p : Pending) : Bool := decide (1 ≤ p.fval.toNat) && decide (p.fval.toNat ≤ 5)

/-- The device OS acts on the cause of a saved strand. A HAIL of a known code waits for its service. -/
def State.osAct (s : State) (k : Nat) : State :=
  let t := s.strand k
  match t.osCause with
  | none => s
  | some p =>
    match p.cause with
    | .misaligned => if t.osEmul then (s.osEmulate k p).osServed k else s.osKill k p
    | .pageNotPresent => s.osPage k p
    | .pagePerm => s.osPage k p
    | .hail => if hailKnown p then s else (s.modStrand k (fun t => t.ws 1 3)).osServed k
    | .remoteAtomicPerm =>
      match s.faultPolicy t.die t.tcid (p.fval.toNat % 2 ^ 48) with
      | some s' => s'.osServed k
      | none => s.osKill k p
    | _ => s.osKill k p

/-! ## The save (R359, R361, R363, R369) -/

/-- SAVE_CAPTURE_COMPLETE (R359): the core's other frames issue again. -/
def State.captured (s : State) (core : Nat) : State := s.modCore core (fun c => { c with frozen := false })
def execSaveCaptureComplete (core : Nat) (s : State) : Host.Outcome State Fault Refusal := .next (s.captured core)

/-- A store, an atomic or a VRED that the save waits for (R361). A transaction that is refused, or sent behind a refused one of its
window, is held (R285). -/
def saveWaits (s : State) (r : Req) : Bool :=
  r.kind != .load && !r.held &&
  (match r.xact with
   | some x =>
     (match storeFind s.xacts x with
      | some y => y.copies.any (fun c => c.2.blocks && c.2 != .refused && !(c.2 == .sent && ((s.ctx y.die y.tcid).win y.win).refusing.isSome))
      | none => false)
   | none => r.old.isNone)

/-- The save may complete: the capture is over, the stores and read-modify-writes are performed, the TMOVs are complete, and a die
that recovers holds no cause for its device OS (R361, R411). -/
def maySave (s : State) (k : Nat) : Bool :=
  let t := s.strand k
  t.st == .saving && !(t.saveKind == some .trap && (s.core t.core).frozen) && !t.reqs.any (saveWaits s) &&
  !(s.core t.core).tmq.any (fun m => m.sid == k) && !(t.osCause.isSome && (s.die t.die).recovering)

/-- Old values that were on their way enter their latches, and loads whose fill has not come join the replay list; fills of an
uncertain window are cancelled (R231, R361). -/
def State.takeFills (s : State) (k : Nat) : State :=
  let s := (s.strand k).reqs.foldl (fun s r =>
    match r.old with
    | some v => if r.kind = .load then s else s.atomReturn k r v
    | none => s) s
  let t := s.strand k
  let c := s.ctx t.die t.tcid
  let lost := t.reqs.filter (fun r => r.kind == .load && r.space == 4 && (c.win r.win).unc)
  lost.foldl (fun s r => s.loseFill k r)
    (s.modStrand k (fun t => { t with reqs := t.reqs.map (fun r => if r.kind = .load then { r with held := true } else r) }))

/-- The bytes of a strand's region that are not zero, by offset. -/
def State.regionCells (s : State) (k : Nat) : List Host.Cell :=
  let t := s.strand k
  let a := s.scratchAddr t 0 0
  (s.mem.filter (fun c => decide (a ≤ c.1) && decide (c.1 < a + t.csu * 32768))).map (fun c => (c.1 - a, c.2))

/-- The frame is free; a checkpoint saves the region too and frees it with the rows' leases (R359, R369). -/
def State.leaveFrame (s : State) (k : Nat) : State :=
  let t := s.strand k
  if t.saveKind = some .checkpoint then
    let img := s.regionCells k
    (s.freeCore k).modStrand k (fun t => { t with img := img, st := .saved })
  else
    (s.modCore t.core (fun c => { c with frames := c.frames.filter (fun f => f.2 != k) })).modStrand k
      (fun t => { t with place := none, st := .saved })

/-- VREDs on core scratch that have not taken effect yet: the save waits for them (R149). -/
def State.landReds (s : State) (k : Nat) : State :=
  let isRed (e : InFlight) : Bool := match e.dest with | .coreRed _ _ => true | _ => false
  ((s.strand k).inflight.filter isRed).foldl (fun s e => s.landOne k e)
    (s.modStrand k (fun t => { t with inflight := t.inflight.filter (fun e => !isRed e) }))

/-- SAVE_COMPLETE (R361, R363, R369): the image is written and the frame freed; then the device OS acts on a cause that it holds. -/
def State.saveComplete (s : State) (k : Nat) : State :=
  if maySave s k = false then s
  else
    let s := ((((s.landReds k).takeFills k).leaveFrame k).assignArea k).writeImage k
    let t := s.strand k
    let s := s.gangTidy t.die
    let s := if t.saveKind = some .checkpoint then s.shareBack t.die t.lid else s.osAct k
    s.scanAll
def execSaveComplete (sid : Nat) (s : State) : Host.Outcome State Fault Refusal := .next (s.saveComplete sid)

/-! ## Services of a fault strand (R407) -/

/-- The saved strand that calls a service by its HAIL code. -/
def State.hailing (s : State) (caller code : Nat) : Bool :=
  let t := s.strand caller
  t.st == .saved && !(s.die t.die).recovering &&
  (match t.osCause with | some p => p.cause == .hail && p.fval.toNat == code | none => false)

/-- A service's status is written into the caller's saved state, and the caller resumes; a caller that is gone takes nothing. -/
def State.hailDone (s : State) (caller status : Nat) (s2 : Option Nat) : State :=
  if s.hasStrand caller = false then s
  else
    (s.modStrand caller (fun t =>
      let t := t.ws 1 (BitVec.ofNat 64 status)
      match s2 with
      | some v => t.ws 2 (BitVec.ofNat 64 v)
      | none => t)).osServed caller

/-- The saved strand of a context that a SERIAL names, trapped or checkpointed, with no cause for the device OS (R373, R408). -/
def State.bySerial (s : State) (die tcid serial : Nat) : Option Nat :=
  (s.strands.find? (fun e => e.2.die == die && e.2.tcid == tcid && e.2.st == .saved && e.2.osCause.isNone && !e.2.due &&
    e.2.serial == serial)).map (fun e => e.1)

/-- The strand that s2 of the caller names. -/
def State.hailTarget (s : State) (caller : Nat) : Option Nat :=
  let t := s.strand caller
  s.bySerial t.die t.tcid (t.rs 2).toNat

/-- ENDSTRAND (R39, R370, R407): the launch continues without the strand. -/
def State.endService (s : State) (caller : Nat) : State :=
  if s.hailing caller 3 = false then s
  else
    match s.hailTarget caller with
    | none => s.hailDone caller 1 none
    | some k =>
      let t := s.strand k
      let s := (s.modLaunch t.lid (fun l => { l with ended := l.ended + 1 })).stopStrand k
      (((s.shareDone t.die t.lid).hailDone caller 0 none)).scanAll
def execEndstrand (caller : Nat) (s : State) : Host.Outcome State Fault Refusal := .next (s.endService caller)

/-- Poisoned in-flight entries rewritten by their index: the payload of the entry, and POISON clear (R367, R408). -/
def Strand.rewrite (t : Strand) (rw : List Rewrite) : Strand :=
  { t with inflight := t.inflight.zipIdx.map (fun e =>
      match rw.find? (fun r => r.idx == e.2 && e.1.poison) with
      | some r => { e.1 with data := r.data, poison := false }
      | none => e.1) }

end Sys2Proof.Machine
end

