-- ==== Sys2Proof/Machine/Sched.lean ====
section
/-! DEFINITION. What a die and the reference clock do on their own: switch requests (R331), start tokens (R339), boost decay and
the fairness windows (R327, R328), REMT (R332), energy (R334, R336), the clock (R338, R416) and the memory slices (R341, R342).
Each event acts only when it is due. -/
namespace Sys2Proof.Machine

/-! ## Switch requests (R331) -/

/-- The READY frames of a core. -/
def State.readyFrames (s : State) (c : Nat) : List Nat :=
  ((s.core c).frames.map (fun f => f.2)).filter (fun k => (s.strand k).st == .ready)

/-- A switch request for the strand that a core issues for, if a case of R331 holds. -/
def State.switchRequest (s : State) (c : Nat) (p : Strand → List Nat → Bool) : State :=
  match s.issuer c with
  | none => s
  | some k => if p (s.strand k) (s.readyFrames c) then s.modStrand k (fun t => { t with stopRq := true }) else s

/-- QUANTUM_EXPIRY (R331). -/
def execQuantumExpiry (core : Nat) (s : State) : Host.Outcome State Fault Refusal :=
  .next (s.switchRequest core (fun t fs => decide (t.selectedAt + 100 ≤ s.time) && !fs.isEmpty))
/-- STARVATION_TIMEOUT (R331). -/
def execStarvationTimeout (core : Nat) (s : State) : Host.Outcome State Fault Refusal :=
  .next (s.switchRequest core (fun _ fs => fs.any (fun k => decide ((s.strand k).readySince + 90 ≤ s.time))))
/-- PRIORITY_SWITCH_REQUEST (R331). -/
def execPrioritySwitchRequest (core : Nat) (s : State) : Host.Outcome State Fault Refusal :=
  .next (s.switchRequest core (fun t fs =>
    decide (t.selectedIcyc + 256 ≤ t.icyc) && fs.any (fun k => decide (s.eff t < s.eff (s.strand k)))))

/-! ## Die clock cycles (R327, R328, R339) -/

/-- MX_TOKEN_GAIN (R339): at every multiple of 128 of the die cycle count. -/
def State.tokenGain (s : State) (die : Nat) : State :=
  let d := s.die die
  if d.cycle % 128 = 0 ∧ d.lastGain ≠ d.cycle then s.modDie die (fun d => { d with lastGain := d.cycle, tokens := min 4 (d.tokens + 1) })
  else s
def execMxTokenGain (die : Nat) (s : State) : Host.Outcome State Fault Refusal := .next (s.tokenGain die)

/-- BOOST_DECAY (R325, R327): at every multiple of 256 of the die cycle count. -/
def State.boostDecay (s : State) (die : Nat) : State :=
  let d := s.die die
  if d.cycle % 256 = 0 ∧ d.lastDecay ≠ d.cycle then
    (s.modDie die (fun d => { d with lastDecay := d.cycle, gangs := d.gangs.map (fun g => { g with boost := g.boost - 1 }) })).gangTidy die
  else s
def execBoostDecay (die : Nat) (s : State) : Host.Outcome State Fault Refusal := .next (s.boostDecay die)

/-- The end of a clock cycle: every tenant's BUSED grows by the boosts of its entries (R328). -/
def State.countBoosts (s : State) (die : Nat) : State :=
  s.modDie die (fun d =>
    { d with bused := d.gangs.foldl (fun b g => if g.boost = 0 then b else storePut 0 b g.tenant (storeGet 0 b g.tenant + g.boost)) d.bused })

/-! ## Memory slices (R340 to R342) -/

/-- The weight of a tenant on a slice. -/
def Slice.w (sl : Slice) (t : Nat) : Nat := storeGet 1 sl.weight t

/-- The buckets of a new window (R341). -/
def Slice.refill (sl : Slice) : Slice :=
  let ds := (List.range 256).filter (fun t => sl.demand.contains t)
  let ts := (List.range 256).filter (fun t => (storeFind sl.weight t).isSome || sl.demand.contains t)
  let sum (l : List Nat) (f : Nat → Nat) : Nat := (l.map f).foldl (· + ·) 0
  let w := sum ts sl.w
  let q (t : Nat) : Nat :=
    let x := sl.pool * sl.w t / w
    if sl.critical.contains t then x else x * (8 - sl.shrink) / 8
  let spare := sum (ts.filter (fun t => !ds.contains t)) q
  let wd := sum ds sl.w
  let part (t : Nat) : Nat := spare * sl.w t / wd
  let left := spare - sum ds part
  { sl with
    demand := []
    bucket := ds.zipIdx.foldl (fun b t => storePut 0 b t.1 (q t.1 + part t.1 + (if t.2 < left then 1 else 0))) [] }

/-- SLICE_WINDOW (R341): at every multiple of 1,024 of the die cycle count; requests that wait count as presented. -/
def State.sliceWindow (s : State) (die sl : Nat) : State :=
  let d := s.die die
  match d.slices[sl]? with
  | none => s
  | some x =>
    if d.cycle % 1024 = 0 ∧ x.lastWindow ≠ d.cycle then
      let s := (List.range 8).foldl (fun s d => s.jobDemands d) s
      s.modSlice (die, sl) (fun x => { x.refill with lastWindow := d.cycle })
    else s
def execSliceWindow (die sl : Nat) (s : State) : Host.Outcome State Fault Refusal := .next (s.sliceWindow die sl)

/-- SHRINK_ADJUST (R342): a block of 65,536 reads of a critical tenant has ended with a 99th-percentile latency in ns. -/
def Slice.adjust (sl : Slice) (tenant p99 : Nat) : Slice :=
  if sl.critical.contains tenant = false ∨ storeGet 0 sl.reads tenant < 65536 then sl
  else
    let sl := { sl with reads := storePut 0 sl.reads tenant (storeGet 0 sl.reads tenant - 65536) }
    let others := sl.missed.filter (fun t => t != tenant)
    if storeGet 0 sl.target tenant < p99 then { sl with missed := others ++ [tenant], shrink := min 7 (sl.shrink + 1) }
    else if others.isEmpty then { sl with missed := [], shrink := sl.shrink - 1 }
    else { sl with missed := others }
def execShrinkAdjust (die sl tenant p99 : Nat) (s : State) : Host.Outcome State Fault Refusal :=
  .next (s.modSlice (die, sl) (fun x => x.adjust tenant p99))

/-! ## The reference clock (R328, R332, R334, R336, R338) -/

/-- REMT_TICK (R332): every µs. -/
def State.remtTick (s : State) (die : Nat) : State :=
  if s.time ≤ (s.die die).remtAt then s
  else
    let s := s.modDie die (fun d => { d with remtAt := s.time })
    { s with strands := s.strands.map (fun e => if e.2.die = die ∧ e.2.resident = true then (e.1, { e.2 with remt := e.2.remt - 1 }) else e) }
def execRemtTick (die : Nat) (s : State) : Host.Outcome State Fault Refusal := .next (s.remtTick die)

/-- One refill of a context (R334), which begins a window for the ENERGY_STOP report (R368). -/
def Ctx.refilled (c : Ctx) (skip : Bool) : Ctx :=
  { c with energy := { c.energy with
      reported := false
      enbal := if skip then c.energy.enbal else min (256 * c.energy.cap : Int) (c.energy.enbal + 256 * c.energy.refill) } }

/-- A fairness window begins (R328): FAIRPM of each tenant's first bound context on the die. -/
def State.fairWindow (s : State) (die : Nat) : State :=
  let cs := (s.ctxs.filter (fun e => e.1 / 1024 == die && e.2.bound)).reverse
  s.modDie die (fun d => { d with bused := [], ballow := cs.foldl (fun b e => storePut 0 b e.2.tenant (e.2.fairpm * d.clock)) [] })

/-- Strands in ENERGY whose balance is positive become READY (R324). -/
def State.energyReady (s : State) (die : Nat) : State :=
  { s with strands := s.strands.map (fun e =>
      if e.2.die = die ∧ e.2.st = .energy ∧ (s.ctx e.2.die e.2.tcid).estop = false then (e.1, { e.2 with st := .ready, readySince := s.time })
      else e) }

/-- ENERGY_REFILL (R328, R334, R411): every 1 ms from the moment the die entered service; a recovering die skips the refill. -/
def State.energyRefill (s : State) (die : Nat) : State :=
  let d := s.die die
  if d.boot ≠ .inService ∨ s.time < d.refillAt + 1000 then s
  else
    let s := s.modDie die (fun d => { d with refillAt := d.refillAt + 1000 })
    let s : State := { s with ctxs := s.ctxs.map (fun e => if e.1 / 1024 = die ∧ e.2.bound = true then (e.1, e.2.refilled d.recovering) else e) }
    ((s.fairWindow die).energyReady die).scan die
def execEnergyRefill (die : Nat) (s : State) : Host.Outcome State Fault Refusal := .next (s.energyRefill die)

/-- CF of R336, from the sums of the interval: Erail − Ebase in BU, and Echg in units of 1/2^30 BU. -/
def cfOf (e : Int) (echg : Nat) : Nat :=
  let q := (2 * 1024 * e * 2 ^ 30 + echg) / (2 * echg)
  if q < 512 then 512 else if 2048 < q then 2048 else q.toNat

/-- CHARGE_RECONCILE (R336): every 100 µs; telemetry is free (log entry 6). -/
def State.reconcile (s : State) (die : Nat) : State :=
  let d := s.die die
  if s.time < d.lastReconcile + 100 then s
  else
    let n := s.nfree
    let cf := if d.echg = 0 then d.cf else cfOf ((Config.erail die n : Int) - Config.ebase die n) d.echg
    ({ s with nfree := n + 1 } : State).modDie die (fun d => { d with lastReconcile := s.time, cf := cf, echg := 0 })
def execChargeReconcile (die : Nat) (s : State) : Host.Outcome State Fault Refusal := .next (s.reconcile die)

/-- The dies that work. -/
def State.working (s : State) : List Nat := (List.range 8).filter s.inService

/-- The clock after an interval in which a die drew `p` W of a limit of `lim` (R338, R416). -/
def clockStepOf (f p lim : Nat) (thermal : Bool) : Nat :=
  let f' := if lim < p then f - 100 else if 10 * p < 9 * lim ∧ thermal = false then f + 100 else f
  max 800 (min 1800 (if thermal then f' - 100 else f'))

/-- CLOCK_STEP (R338, R411, R416): every 100 µs; the limit is divided among the working dies, equally unless the device OS gives weights, a
die's share in whole watts, rounded down (DESIGN CHOICE, log entry 97), and the power drawn is free (log entry 6). A recovering die holds its
clock. -/
def State.clockStep (s : State) (die : Nat) : State :=
  let d := s.die die
  if s.time < d.lastStep + 100 ∨ d.recovering = true then s
  else
    let n := s.nfree
    let w (d : Nat) : Nat := max 1 (s.pkg.weights.getD d 1)
    let lim := s.pkg.limit * w die / max 1 ((s.working.map w).foldl (· + ·) 0)
    ({ s with nfree := n + 1 } : State).modDie die (fun d =>
      { d with lastStep := s.time, clock := clockStepOf d.clock (Config.power die n) lim d.thermal })
def execClockStep (die : Nat) (s : State) : Host.Outcome State Fault Refusal := .next (s.clockStep die)

end Sys2Proof.Machine
end

