-- ==== Sys2Proof/Machine/Fabric.lean ====
section
/-! DEFINITION. The fabric: window transactions at their destinations and back (R230, R231, R285, R290 to R295), berths (R286 to
R289), fragments and reduction groups (R308 to R312), links (R275, R292), and a context's regions (R287). -/
namespace Sys2Proof.Machine

/-! ## Transactions -/

/-- A change of a transaction. -/
def State.modXact (s : State) (xid : Nat) (f : Xact → Xact) : State := { s with xacts := storeMod s.xacts xid f }
/-- The state of one copy set. -/
def State.setCopy (s : State) (xid m : Nat) (c : CopySt) : State := s.modXact xid (fun x => { x with copies := storeSet x.copies m c })

/-- The sender's window of a transaction, and the destination of a member. -/
def State.xactWin (s : State) (x : Xact) : Win := (s.ctx x.die x.tcid).win x.win
def State.xactDest (s : State) (x : Xact) (m : Nat) : Option Dest' := storeFind (s.members (s.xactWin x)) m

/-- The duplicate filter of a receiving die for a sender's window and member (R293). -/
def filterKey (rdie sdom tcid win m : Nat) : Nat := (((win * 16 + rdie) * 1024 + sdom) * 1024 + tcid) * 64 + m
/-- The filter that a copy meets. -/
def State.xactFilter (s : State) (x : Xact) (m rdie : Nat) : Nat := filterKey rdie (s.domainIdx x.die) x.tcid x.win m

/-- The elements of a transaction as they meet a destination; a read-modify-write keeps its element whole. -/
def Xact.parts (x : Xact) (dst : Dest') : List El := if x.kind = .store then destEls dst x.els else x.els

/-- What the elements of a transaction meet at a destination: the first failure, if any (R282, R285, R295). -/
def State.xactMet (s : State) (x : Xact) (dst : Dest') : Option (Cause × Word) :=
  (x.parts dst).findSome? (fun e =>
    match windowTarget s x.die (s.ctx x.die x.tcid) x.win x.word x.kind.acc dst e.off e.w with
    | .ok _ => none
    | .error e => some e)

/-- The elements of a transaction with the addresses they reach at a destination. -/
def State.xactPlaces (s : State) (x : Xact) (dst : Dest') : List (Nat × El) :=
  (x.parts dst).filterMap (fun e =>
    match windowTarget s x.die (s.ctx x.die x.tcid) x.win x.word x.kind.acc dst e.off e.w with
    | .ok (.here a) => some (a, e)
    | _ => none)

/-- The elements of a read-modify-write with the addresses that their bytes reach, each translated by itself (R282). -/
def State.xactBytes (s : State) (x : Xact) (dst : Dest') : List (List Nat × El) :=
  x.els.map (fun e => ((List.range e.w).filterMap (fun i =>
    match windowByte s x.die (s.ctx x.die x.tcid) x.win x.word x.kind.acc dst e.off (e.off + i) with
    | .ok (.here a) => some a
    | _ => none), e))

/-- The request that made a transaction. -/
def State.xactReq (s : State) (x : Xact) : Option Req := if s.hasStrand x.sid then (s.strand x.sid).req x.rid else none

/-- An old value comes to the request of an atomic. -/
def State.xactOld (s : State) (x : Xact) (v : Vec) : State :=
  if s.hasStrand x.sid then s.modStrand x.sid (fun t => t.modReq x.rid (fun q => { q with old := some v })) else s

/-- A transaction that its destination takes up: the destination's leaves take A and D, and its requests are charged, but for a copy job's,
which have been (R130, R335). -/
def State.xactServe (s : State) (x : Xact) (dst : Dest') : State :=
  let t := touchDest s (s.xactWin x) dst x.kind.acc x.els
  if x.sid = noSid then t else t.chargeServed x.die x.tcid ((s.xactPlaces x dst).map (fun p => p.1))

/-- A read-modify-write performed at a destination of the package (R144, R221, R228). -/
def State.xactPerform (s : State) (x : Xact) (dst : Dest') : State :=
  let scope := ((s.xactReq x).map (fun r => r.scope)).getD 0
  let r := rmwEls (x.writer none) scope false x.kind (s.xactServe x dst) (s.xactBytes x dst)
  r.2.xactOld x (BitVec.ofNat 1024 r.1)

/-- A cause for which a copy of several counts as undeliverable: WINDOW_FAULT with reason 8, 9 or 10 (R290). -/
def undeliverable (c : Cause) (v : Word) : Bool :=
  c == .windowFault && (v.toNat / 2 ^ 56 == 8 || v.toNat / 2 ^ 56 == 9 || v.toNat / 2 ^ 56 == 10)

/-- A copy that cannot be delivered: its member no longer counts for ACKED (R278, R290). -/
def State.loseCopy (s : State) (xid m : Nat) (x : Xact) : State :=
  let s := (s.setCopy xid m .undeliverable).modWin x.die x.tcid x.win (fun w => { w with acks := if w.mc then storeErase w.acks m else w.acks })
  (if s.hasStrand x.sid then (s.noteLost x m).keepMember x m true else s).settleXact xid

/-- A copy fails at its destination, and the report reaches the sender: WFLT is written; of several copies one that R290 lists is
undeliverable; one of a copy job stops the job; any other is refused until its strand replays it (R230, R285, R290, R305). -/
def State.xactFail (s : State) (xid m : Nat) (x : Xact) (c : Cause) (v : Word) : State :=
  let s := s.writeFlt x.die x.tcid x.win c v
  if (s.xactWin x).mc && undeliverable c v then s.loseCopy xid m x
  else if x.sid = noSid then
    let st := faultStatus c v
    (s.loseCopy xid m x).jobEnd x.rid st.1 st.2
  else if s.hasStrand x.sid = false then s.loseCopy xid m x
  else
    ((s.setCopy xid m .refused).modXact xid (fun x => { x with flt := some (c, v) })).modWin x.die x.tcid x.win
      (fun w => { w with refusing := some x.seq })

/-- A transaction dropped for its partition: the drop is counted, and reported (R295). -/
def State.xactDrop (s : State) (x : Xact) (dst : Dest') : State :=
  s.partDrop (s.dropPoint x.die dst.ddie (s.xactWin x).ue x.word) x.die x.tcid

/-! ## Berths (R286 to R289) -/

/-- Written bytes by offset, a later element over an earlier one. -/
def elBytes (els : List El) : Store Byte :=
  els.foldl (fun m e => (List.range e.w).foldl (fun m i => storeSet m (e.off + i) (BitVec.ofNat 8 (e.data / 256 ^ i))) m) []

/-- Maximal contiguous runs, ascending. -/
def byteRuns (m : Store Byte) : List (Nat × List Byte) :=
  (m.foldl (fun (rs : List (Nat × List Byte)) b =>
    match rs with
    | (a, l) :: r => if a + l.length = b.1 then (a, l ++ [b.2]) :: r else (b.1, [b.2]) :: rs
    | [] => [(b.1, [b.2])]) []).reverse

/-- A long run divided into runs of 16,384 bytes. -/
def splitRun : Nat → Nat → List Byte → List (Nat × List Byte)
  | 0, _, _ => []
  | _, _, [] => []
  | fuel + 1, a, bs => (a, bs.take 16384) :: splitRun fuel (a + 16384) (bs.drop 16384)

/-- The header fields of an arrival's records (R288). -/
structure BerthHdr where
  gang : Nat
  sdie : Nat
  hnd : Nat
  dspace : Nat
  seq : Nat
  frag : Bool
  rflag : Nat
  nidx : Nat

/-- A record (R288). -/
def berthRecord (h : BerthHdr) (doff : Nat) (last : Bool) (pay : List Byte) : List Byte :=
  let pre := leBytes 2 pay.length ++ leBytes 2 h.gang ++ leBytes 2 h.sdie ++ leBytes 1 (if last then h.hnd else 0) ++ leBytes 1 h.dspace ++
    leBytes 8 doff ++ leBytes 4 h.seq
  let post := leBytes 1 (last.toNat + 2 * h.frag.toNat) ++ leBytes 1 h.rflag ++ leBytes 1 h.nidx ++ leBytes 5 0
  pre ++ leBytes 4 (crc32c (pre ++ post ++ pay)) ++ post ++ pay ++ leBytes ((32 - pay.length % 32) % 32) 0

/-- Bytes of a berth written through the context's table, whatever WR holds (R130). -/
def State.berthBytes (s : State) (die tcid off : Nat) (bs : List Byte) : State :=
  (chunkUnits (bs.length + 1) off bs).foldl (fun s u =>
    match deviceVa s die tcid ((s.ctx die tcid).bva + u.1) with
    | some a => ((touchLeaf s die tcid ((s.ctx die tcid).bva + u.1) true).deviceWrite die a (leBytes u.2.1 u.2.2) 2).2
    | none => s) s

/-- The header that marks a wrap: LEN = 0, every other field zero (DESIGN CHOICE, log entry 96), under its CHK (R288). -/
def berthWrap : List Byte := berthRecord ⟨0, 0, 0, 0, 0, false, 0, 0⟩ 0 false []

/-- One record written at TAIL, after a wrap where it would pass the ring's end; `none` when there is too little room (R288, R289). -/
def State.berthAppend (s : State) (die tcid : Nat) (rec' : List Byte) : Option State :=
  let c := s.ctx die tcid
  let n := rec'.length
  let wrap := decide (65536 < c.btail + n)
  let skip := if wrap then 65536 - c.btail else 0
  if 65536 < c.bused + skip + n then none
  else
    let s := if wrap then s.berthBytes die tcid c.btail berthWrap else s
    let at_ := if wrap then 0 else c.btail
    some ((s.berthBytes die tcid at_ rec').modCtx die tcid (fun c => { c with btail := (at_ + n) % 65536, bused := c.bused + skip + n }))

/-- Records written in order as far as there is room: how many, and the state. -/
def State.berthRecs (s : State) (die tcid : Nat) : List (List Byte) → Nat × State
  | [] => (0, s)
  | r :: rs =>
    match s.berthAppend die tcid r with
    | none => (0, s)
    | some s' => let x := s'.berthRecs die tcid rs; (x.1 + 1, x.2)

/-- The records of runs. -/
def recordsOf (h : BerthHdr) (rs : List (Nat × List Byte)) : List (List Byte) :=
  rs.zipIdx.map (fun r => berthRecord h r.1.1 (r.2 + 1 == rs.length) r.1.2)

/-- The runs and the header of a store's arrival. -/
def State.xactRuns (s : State) (x : Xact) (dst : Dest') : BerthHdr × List (Nat × List Byte) :=
  (⟨x.gang, s.domainIdx x.die, (match x.hnd with | some h => 128 + h | none => 0), (s.xactWin x).dspace, x.seq, false, 0, 0⟩,
    (byteRuns (elBytes x.els)).map (fun r => (dst.base + r.1, r.2)))

/-- The runs and the header of a fragment's arrival. -/
def State.fragRuns (s : State) (f : Frag) (dst : Dest') : BerthHdr × List (Nat × List Byte) :=
  (⟨f.gang, s.domainIdx f.die, 0, ((s.ctx f.die f.tcid).win f.win).dspace, 0, true, f.rflag, f.nidx⟩,
    splitRun (f.bytes.length / 16384 + 1) (dst.base + f.off) f.bytes)

/-- An arrival goes to the berth, or waits at the port behind others or for want of room; `true` when all its records are written.
Records that are written stay (R288, R289). -/
def State.berthArrive (s : State) (die tcid id m cl : Nat) (frag : Bool) (recs : List (List Byte)) : Bool × State :=
  let c := s.ctx die tcid
  let mine (r : BerthRef) : Bool := r.id == id && r.member == m && r.frag == frag
  match c.berthQ with
  | h :: _ =>
    if mine h then
      let x := s.berthRecs die tcid (recs.drop h.recs)
      let n := h.recs + x.1
      if n = recs.length then
        (true, x.2.modCtx die tcid (fun c => { c with berthQ := c.berthQ.drop 1, berthL := c.berthL ++ [⟨id, m, frag, n, cl, false⟩] }))
      else (false, x.2.modCtx die tcid (fun c => { c with berthQ := { h with recs := n } :: c.berthQ.drop 1 }))
    else if c.berthQ.any mine then (false, s)
    else (false, s.modCtx die tcid (fun c => { c with berthQ := c.berthQ ++ [⟨id, m, frag, 0, cl, false⟩] }))
  | [] =>
    let x := s.berthRecs die tcid recs
    if x.1 = recs.length then (true, x.2.modCtx die tcid (fun c => { c with berthL := c.berthL ++ [⟨id, m, frag, x.1, cl, false⟩] }))
    else (false, x.2.modCtx die tcid (fun c => { c with berthQ := [⟨id, m, frag, x.1, cl, false⟩] }))

/-! ## WINDOW_ARRIVAL (R228, R285, R286, R293) -/

/-- A copy that its receiver accepts: the filter moves on, and the gang is boosted (R293, R326). -/
def State.xactTaken (s : State) (xid m rdie : Nat) (x : Xact) (c : CopySt) : State :=
  let s : State := { s with filters := storeSet s.filters (s.xactFilter x m rdie) ((x.seq + 1) % 2 ^ 32) }
  let s := s.setCopy xid m c
  if x.sid = noSid then s else s.gangArrive rdie x.gang

/-- The strand of a transaction's handler has no room for another arrival: the port holds the transaction (R36). -/
def State.handlerFull (s : State) (x : Xact) (rdie tcid : Nat) : Bool :=
  match x.hnd.bind (fun h => s.handlerTarget rdie tcid h) with
  | some k => decide (8 ≤ (s.strand k.1).hq.length)
  | none => false

/-- A transaction that has been performed: its receiver accepts it and takes its handler (R35, R293). -/
def State.xactDone (s : State) (xid m rdie : Nat) (x : Xact) (dst : Dest') : State :=
  let s := s.xactTaken xid m rdie x .performed
  match x.hnd with
  | some h => (s.handlerArrive rdie dst.tcid h (s.payloadWids rdie x.sid x.win x.wid)).getD s
  | none => s

/-- Elements of a window store, as (address, width, data), performed at their home: all of them, or one 8-byte unit, by a free choice; a reader
may see any subset (R219, R226, R228). With the last the store has been performed. -/
def State.xactUnits (s : State) (xid m rdie : Nat) (x : Xact) (dst : Dest') (ps : List (Nat × Nat × Nat)) : State :=
  let us := (ps.map (fun p => unitOf p.1)).eraseDups
  let n := s.nfree
  let c := Config.pick n
  let now (p : Nat × Nat × Nat) : Bool := decide (us.length ≤ 1) || c % 2 == 0 || unitOf p.1 == us.getD (c / 2 % us.length) 0
  let rest := ps.filter (fun p => !now p)
  let s := ({ s with nfree := n + 1 } : State).homeWrite (x.writer none) (ps.filter now)
  if rest.isEmpty then (s.modXact xid (fun x => { x with todo := storeErase x.todo m })).xactDone xid m rdie x dst
  else s.modXact xid (fun x => { x with todo := storeSet x.todo m rest })

/-- The next expected transaction at a die of the package. -/
def State.xactArrive (s : State) (xid m rdie : Nat) (x : Xact) (dst : Dest') : State :=
  match storeFind x.todo m with
  | some ps => if s.handlerFull x rdie dst.tcid then s else s.xactUnits xid m rdie x dst ps
  | none =>
    match s.xactMet x dst with
    | some (c, v) => (if c = .partition then s.xactDrop x dst else s).xactFail xid m x c v
    | none =>
      let w := s.xactWin x
      if w.dspace ≠ 3 ∧ (s.ctx rdie dst.tcid).resident = false then
        if x.kind = .store then
          let r := s.xactRuns x dst
          let b := s.berthArrive rdie dst.tcid xid m w.dcl false (recordsOf r.1 r.2)
          if b.1 then b.2.xactTaken xid m rdie x .berthed else b.2
        else s
      else if s.handlerFull x rdie dst.tcid then s
      else if x.kind = .store then
        (s.xactServe x dst).xactUnits xid m rdie x dst ((s.xactPlaces x dst).map (fun p => (p.1, p.2.w, p.2.data)))
      else (s.xactPerform x dst).xactDone xid m rdie x dst

/-- An arrival at a die outside the package: what it does there is free (log entry 7). -/
def State.xactAway (s : State) (xid m : Nat) (x : Xact) (dst : Dest') : State :=
  if s.pathTo (s.xactWin x).ue dst.ddie = false then s
  else
    match s.xactMet x dst with
    | some (c, v) => (if c = .partition then s.xactDrop x dst else s).xactFail xid m x c v
    | none =>
    let n := s.nfree
    let s : State := { s with nfree := n + 1 }
    let r := Config.remoteReason dst.ddie n
    if r = 0 then
      let s := s.setCopy xid m .performed
      match x.kind, x.els with
      | .atomic _ _, e :: _ => s.xactOld x (BitVec.ofNat 1024 ((Config.remoteData dst.ddie n).toNat % 256 ^ e.w))
      | _, _ => s
    else
      let f := awayFailure r x.win ((x.els.head?.map (fun e => e.off)).getD 0)
      (if f.1 = .partition then s.partDrop none x.die x.tcid else s).xactFail xid m x f.1 f.2

/-- WINDOW_ARRIVAL (R293): the next expected number is performed, refused or berthed; a lower one is acknowledged again; a higher one is
dropped. A context that is not bound refuses every one (R376). -/
def State.windowArrival (s : State) (xid m : Nat) : State :=
  match storeFind s.xacts xid with
  | none => s
  | some x =>
    match storeFind x.copies m, s.xactDest x m with
    | some .sent, some dst =>
      match s.dieOfDomain dst.ddie with
      | none => s.xactAway xid m x dst
      | some rd =>
        let d := (x.seq + 2 ^ 32 - storeGet 0 s.filters (s.xactFilter x m rd)) % 2 ^ 32
        if d = 0 ∨ (s.ctx rd dst.tcid).bind = .unbound then s.xactArrive xid m rd x dst
        else if d < 2 ^ 31 then s
        else s.setCopy xid m .performed
    | _, _ => s
def execWindowArrival (xid m : Nat) (s : State) : Host.Outcome State Fault Refusal := .next (s.windowArrival xid m)

/-! ## Acknowledgements, retransmission and uncertainty (R231, R284, R293, R294) -/

/-- A copy that awaits its acknowledgement. -/
def CopySt.unacked : CopySt → Bool
  | .sent => true | .performed => true | .berthed => true | _ => false

/-- An earlier transaction of the window has a copy for the member that awaits its acknowledgement. -/
def State.earlierUnacked (s : State) (x : Xact) (m : Nat) : Bool :=
  s.xacts.any (fun e => e.2.die == x.die && e.2.tcid == x.tcid && e.2.win == x.win && decide (e.2.seq < x.seq) &&
    (match storeFind e.2.copies m with | some c => c.unacked || c == .refused | none => false))

/-- A place outside the package. -/
def State.isAway (s : State) (w : Win) (m : Nat) : Bool :=
  match storeFind (s.members w) m with
  | some d => (s.dieOfDomain d.ddie).isNone
  | none => false

/-- WINDOW_ACK (R284, R293): an acknowledgement reaches the sender, in order. One that comes over a link may fail its tag there: it is
dropped, counted and treated as lost (R297). -/
def State.windowAck (s : State) (xid m : Nat) : State :=
  match storeFind s.xacts xid with
  | none => s
  | some x =>
    let go (c : CopySt) : State :=
      if s.earlierUnacked x m then s
      else if s.isAway (s.xactWin x) m ∧ Config.pick s.nfree % 2 = 1 then
        ({ s with nfree := s.nfree + 1 } : State).modDie x.die (fun d => { d with tagDrops := (d.tagDrops + 1) % 2 ^ 32 })
      else ((({ s with nfree := s.nfree + 1 } : State).setCopy xid m c).modWin x.die x.tcid x.win
        (fun w => { w with acks := storeSet w.acks m x.seq })).settleXact xid
    match storeFind x.copies m with
    | some .performed => go .acked
    | some .berthed => go .stored
    | _ => s
def execWindowAck (xid m : Nat) (s : State) : Host.Outcome State Fault Refusal := .next (s.windowAck xid m)

/-- A performed store or read-modify-write of an uncertain window stands in its home order, and counts as published from now on (R231). -/
def State.publishCopy (s : State) (x : Xact) (m : Nat) : State :=
  match s.xactDest x m with
  | some dst => s.publishUnits x.wid ((s.xactPlaces x dst).map (fun p => unitOf p.1))
  | none => s

/-- A transaction turns uncertain for its copies of some kinds; the fill of an atomic is lost (R231, R292, R294). Of a copy that has not been
performed whole, the strand's own loads go on returning its bytes (R223). -/
def State.xactUncertain (s : State) (xid : Nat) (p : CopySt → Bool) : State :=
  match storeFind s.xacts xid with
  | none => s
  | some x =>
    let cs := x.copies.filter (fun c => p c.2)
    if cs.isEmpty then s
    else
      let s := cs.foldl (fun s c =>
        let s := if s.hasStrand x.sid then s.noteLost x c.1 else s
        let s := if c.2 = .performed ∧ s.isAway (s.xactWin x) c.1 = false then s else s.keepMember x c.1 true
        (s.publishCopy x c.1).setCopy xid c.1 .uncertain) s
      let s := s.modXact xid (fun x => { x with todo := [] })
      let s := match s.xactReq x with
        | some r => if r.isRmw then s.loseFill x.sid r else s
        | none => s
      s.settleXact xid

/-- The window turns uncertain with some of its transactions (R294). -/
def State.windowUncertain (s : State) (die tcid win : Nat) (xs : List Nat) : State :=
  xs.foldl (fun s x => s.xactUncertain x CopySt.unacked) (s.modWin die tcid win (fun w => { w with unc := true }))

/-- The transactions of a window with unacknowledged copies. -/
def State.openXacts (s : State) (die tcid win : Nat) : List (Nat × Xact) :=
  s.xacts.filter (fun e => e.2.die == die && e.2.tcid == tcid && e.2.win == win && e.2.copies.any (fun c => c.2.unacked))

/-- A transaction is behind a refused one of its window: its destination refuses it too until the strand resumes, so it is held (R285). -/
def Win.holds (w : Win) (x : Xact) : Bool :=
  match w.refusing with
  | some r => decide (r < x.seq) && x.copies.all (fun c => !c.2.unacked || c.2 == .sent)
  | none => false

/-- RETRANSMIT_TIMEOUT (R293, R294): transactions unacknowledged for 20 µs are sent again, at most 8 times; then they are uncertain. -/
def State.retransmit (s : State) (die tcid win : Nat) : State :=
  let late := (s.openXacts die tcid win).filter (fun e => decide (die < 1024) && decide (e.2.sentAt + 20 ≤ s.time) && !((s.ctx die tcid).win win).holds e.2)
  let spent := (late.filter (fun e => decide (8 ≤ e.2.tries))).map (fun e => e.1)
  let again := (late.filter (fun e => decide (e.2.tries < 8))).map (fun e => e.1)
  let s := again.foldl (fun s x => s.modXact x (fun x => { x with tries := x.tries + 1, sentAt := s.time })) s
  let s := if again.isEmpty then s else s.modWin die tcid win (fun w => { w with retx := (w.retx + again.length) % 2 ^ 32 })
  if spent.isEmpty then s else s.windowUncertain die tcid win spent
def execRetransmitTimeout (die tcid win : Nat) (s : State) : Host.Outcome State Fault Refusal := .next (s.retransmit die tcid win)

/-- FILTER_STATE_LOST (R294, R376): a receiver's filter was lost by a reset. -/
def execFilterStateLost (die tcid win : Nat) (s : State) : Host.Outcome State Fault Refusal :=
  .next (s.windowUncertain die tcid win ((s.openXacts die tcid win).map (fun e => e.1)))

/-- GAP_TRANSACTION (R290): it takes an undeliverable copy's number at the member once a path exists. -/
def State.gapSend (s : State) (xid m : Nat) : State :=
  match storeFind s.xacts xid with
  | none => s
  | some x =>
    match storeFind x.copies m, s.xactDest x m with
    | some .undeliverable, some dst =>
      if s.pathTo (s.xactWin x).ue dst.ddie = false then s
      else
        match s.dieOfDomain dst.ddie with
        | none => (s.setCopy xid m .gapSent).settleXact xid
        | some rd =>
          let k := s.xactFilter x m rd
          if storeGet 0 s.filters k = x.seq then
            (({ s with filters := storeSet s.filters k ((x.seq + 1) % 2 ^ 32) } : State).setCopy xid m .gapSent).settleXact xid
          else s
    | _, _ => s
def execGapTransaction (xid m : Nat) (s : State) : Host.Outcome State Fault Refusal := .next (s.gapSend xid m)

/-- The strands whose CLEARUNC of a window is under way (R407). -/
def State.clearCallers (s : State) (die tcid win : Nat) : List Nat :=
  (s.strands.filter (fun e => e.2.die == die && e.2.tcid == tcid && s.hailing e.1 4 && (e.2.rs 2).toNat == win)).map (fun e => e.1)

/-- Every member has acknowledged its resynchronisation: UNC clears and the service completes (R294, R407). -/
def State.clearDone (s : State) (die tcid win : Nat) : State :=
  let w := (s.ctx die tcid).win win
  if w.clearing && w.resync.isEmpty then
    let s := s.modWin die tcid win (fun w => { w with unc := false, clearing := false, clearCmd := false })
    let s := if w.clearCmd then s.report (.command die tcid 0 0) else s
    (s.clearCallers die tcid win).foldl (fun s k => s.hailDone k 0 none) s
  else s

/-- RESYNC_TRANSACTION (R293, R294): the member's filter expects the window's next number. -/
def State.resyncSend (s : State) (die tcid win m : Nat) : State :=
  let w := (s.ctx die tcid).win win
  match w.resync.contains m, storeFind (s.members w) m with
  | true, some dst =>
    if s.pathTo w.ue dst.ddie = false then s
    else
      let s := match s.dieOfDomain dst.ddie with
        | some rd => { s with filters := storeSet s.filters (filterKey rd (s.domainIdx die) tcid win m) w.next }
        | none => s
      (s.modWin die tcid win (fun w => { w with resync := w.resync.filter (fun x => x != m) })).clearDone die tcid win
  | _, _ => s
def execResyncTransaction (die tcid win m : Nat) (s : State) : Host.Outcome State Fault Refusal := .next (s.resyncSend die tcid win m)

/-- CLEARUNC begins (R294): transactions sent before are never performed from now on, and every member is resynchronised; `false`
when one has no path. -/
def State.clearBegin (s : State) (die tcid win : Nat) (cmd : Bool) : Bool × State :=
  let w := (s.ctx die tcid).win win
  let ms := s.members w
  if ms.all (fun m => s.pathTo w.ue m.2.ddie) = false then (false, s)
  else
    let of_ (e : Nat × Xact) : Bool := e.2.die == die && e.2.tcid == tcid && e.2.win == win
    let s := ((s.xacts.filter of_).map (fun e => e.1)).foldl (fun s x => s.xactUncertain x (fun c => c.unacked || c == .refused)) s
    let gone := (s.xacts.filter (fun e => of_ e && e.2.copies.any (fun c => c.2 == .uncertain))).map (fun e => e.1)
    let bury (r : BerthRef) : BerthRef := if r.frag = false ∧ gone.contains r.id = true then { r with dead := true } else r
    let s : State := { s with ctxs := s.ctxs.map (fun (e : Nat × Ctx) => (e.1, { e.2 with berthL := e.2.berthL.map bury, berthQ := e.2.berthQ.map bury })) }
    let s : State := { s with xacts := s.xacts.filter (fun e => !(e.2.die == die && e.2.tcid == tcid && e.2.win == win &&
      e.2.copies.all (fun c => c.2.settled && c.2 != .stored))) }
    (true, (s.modWin die tcid win (fun w => { w with resync := ms.map (fun m => m.1), clearing := true, clearCmd := w.clearCmd || cmd, refusing := none })).clearDone
      die tcid win)

/-! ## Links (R275, R231, R292, R312) -/

/-- Ports 0 to 15 are UALink ports, 16 to 23 Ultra Ethernet ports. -/
def State.setPort (s : State) (port : Nat) (m : PortMode) : State :=
  { s with pkg := { s.pkg with
      ports := s.pkg.ports.zipIdx.map (fun p => if p.2 = port then m else p.1)
      uePorts := s.pkg.uePorts.zipIdx.map (fun p => if 16 + p.2 = port then m != .down else p.1) } }

/-- Loads through windows to other packages that were on their way: each is lost with the link or not, by a free choice (R231). -/
def State.loseLoads (s : State) : State :=
  s.strands.foldl (fun s e =>
    e.2.reqs.foldl (fun s r =>
      if r.kind = .load ∧ r.space = 4 ∧ r.held = false ∧ s.isAway ((s.ctx e.2.die e.2.tcid).win r.win) 0 = true then
        let n := s.nfree
        let s : State := { s with nfree := n + 1 }
        if Config.pick n % 2 = 1 then s.loseFill e.1 r else s
      else s) s) s

/-- Bells under way to other packages: each is lost with the link or not; a lost one makes its window uncertain and is complete for FENCE
(R312, R314). -/
def State.loseBells (s : State) : State :=
  s.bells.foldl (fun s e =>
    if e.2.away then
      let n := s.nfree
      let s : State := { s with nfree := n + 1 }
      if Config.pick n % 2 = 1 then
        let t := s.strand e.2.sid
        let s : State := { s with bells := storeErase s.bells e.1 }
        let s := match e.2.win with
          | some w => if s.hasStrand e.2.sid then s.modWin t.die t.tcid w (fun w => { w with unc := true }) else s
          | none => s
        if s.hasStrand e.2.sid then s.engineDone e.2.sid e.2.eid else s
      else s
    else s) s

/-- The flag of a fragment sets at its sender, and the fragment is complete for FENCE (R234, R308, R312). -/
def State.fragSettled (s : State) (f : Frag) (fid : Nat) : State :=
  let s : State := { s with frags := storeErase s.frags fid }
  if s.hasStrand f.sid then (s.engineDone f.sid f.eid).setFlag f.sid f.flag [] else s

/-- Fragments that other packages have not acknowledged: each is lost with the link or not, itself or its acknowledgement; a lost one makes its window uncertain, and its flag sets
(R312; log entry 86). -/
def State.loseFrags (s : State) : State :=
  s.frags.foldl (fun s e =>
    let w := (s.ctx e.2.die e.2.tcid).win e.2.win
    if e.2.copies.any (fun c => (c.2 == .sent || c.2 == .performed) && s.isAway w c.1) then
      let n := s.nfree
      let s : State := { s with nfree := n + 1 }
      if Config.pick n % 2 = 1 then (s.modWin e.2.die e.2.tcid e.2.win (fun w => { w with unc := true })).fragSettled e.2 e.1 else s
    else s) s

/-- LINK_FAILURE (R231, R292, R312). -/
def execLinkFailure (port : Nat) (s : State) : Host.Outcome State Fault Refusal := .next ((((s.setPort port .down).loseLoads).loseFrags).loseBells)
/-- LINK_TRAINING (R275): the peer's answer sets the port's mode. -/
def execLinkTraining (port : Nat) (ext : Bool) (s : State) : Host.Outcome State Fault Refusal :=
  .next (s.setPort port (if ext then .extended else .plain))

/-! ## Fragments (R308 to R312) -/

/-- The chunks of bytes at a window offset with the addresses they reach, or what they meet. A chunk stays inside an 8-byte unit of its
destination. -/
def State.fragPlaces (s : State) (f : Frag) (dst : Dest') : Except (Cause × Word) (List (Nat × List Byte)) :=
  (chunkUnits (f.bytes.length + 1) (dst.base + f.off) f.bytes).foldl (fun acc u =>
    match acc with
    | .error e => .error e
    | .ok l =>
      match windowTarget s f.die (s.ctx f.die f.tcid) f.win f.word .store dst (u.1 - dst.base) u.2.1 with
      | .ok (.here a) => .ok (l ++ [(a, leBytes u.2.1 u.2.2)])
      | .ok (.away _) => .ok l
      | .error e => .error e) (.ok [])

/-- The leaves of a fragment's destination in HBM take A and D (R130). -/
def State.fragTouchDest (s : State) (f : Frag) (dst : Dest') : State :=
  touchDest s ((s.ctx f.die f.tcid).win f.win) dst .store ((chunkUnits (f.bytes.length + 1) (dst.base + f.off) f.bytes).map
    (fun u => ⟨u.1 - dst.base, u.2.1, 0, 0⟩))

/-- Bytes written by a die's engines at their homes, published at DIE scope: the writes made. -/
def State.engineWrites (s : State) (die : Nat) (ps : List (Nat × List Byte)) : List Nat × State :=
  ps.foldl (fun p x => let r := p.2.deviceWrite die x.1 x.2 2; (p.1 ++ [r.1], r.2)) ([], s)

/-- The flag of a receiver sets; an invalid NIDX entry is counted (R309). -/
def State.receiverFlag (s : State) (die tcid nidx rflag : Nat) (wids : List Nat) : State :=
  match s.handlerTarget die tcid nidx with
  | some (k, _) => s.setFlag k rflag wids
  | none => s.modCtx die tcid (fun c => { c with hdrop := (c.hdrop + 1) % 2 ^ 32 })

/-- A change of a fragment. -/
def State.modFrag (s : State) (fid : Nat) (f : Frag → Frag) : State := { s with frags := storeMod s.frags fid f }

/-- A fragment of which every copy is settled is over: its flag sets (R308, R312). -/
def State.fragOver (s : State) (fid : Nat) : State :=
  match storeFind s.frags fid with
  | some f => if f.copies.all (fun c => c.2.settled && c.2 != .stored) then s.fragSettled f fid else s
  | none => s

/-- A copy of a fragment fails: WFLT is written and the cause raised; the copy is not sent again (R285, R312). -/
def State.fragFail (s : State) (fid m : Nat) (f : Frag) (c : Cause) (v : Word) : State :=
  let s := (s.modFrag fid (fun f => { f with copies := storeSet f.copies m .undeliverable })).fragOver fid
  if s.hasStrand f.sid then (s.writeFlt f.die f.tcid f.win c v).raiseCe f.sid ⟨c, v, f.tbun, 2 ^ Slot.bit .ce⟩ else s

/-- The element type and operation of a CRED (R308). -/
def credType (op : Nat) : Nat := if op % 2 = 0 then 1 else 0
def credOp (op : Nat) : RedOp := if op < 2 then .sum else .max

/-- The elements of a fragment. -/
def fragEls (w : Nat) (bs : List Byte) : List Nat := (List.range (bs.length / w)).map (fun i => leNat ((bs.drop (i * w)).take w))

/-- The result of a group: the tree of R112 over its contributors by domain die index, at every element (R310). -/
def RGroup.result (g : RGroup) : List Byte :=
  let w := tyWidth (credType g.op) / 8
  let cols := g.parts.map (fun p => fragEls w p.2)
  let n := (cols.head?.map (fun c => c.length)).getD 0
  (List.range n).flatMap (fun i =>
    leBytes w (treeReduce (credOp g.op) (credType g.op) 10 (cols.map (fun c => some (c.getD i 0)))))

/-- The window accesses of a group's result reach these addresses. -/
def State.groupPlaces (s : State) (f : Frag) (dst : Dest') (bs : List Byte) : Except (Cause × Word) (List (Nat × List Byte)) :=
  s.fragPlaces { f with bytes := bs } dst

/-- Bytes written for a fragment's sender, charged to it (R335): the writes made. -/
def State.fragWrites (s : State) (f : Frag) (dst : Dest') (rd : Nat) (ps : List (Nat × List Byte)) : List Nat × State :=
  ((s.fragTouchDest f dst).chargeServed f.die f.tcid (ps.map (fun p => p.1))).engineWrites rd ps

/-- A group with a new fragment is kept, or completes: its result is written, published and flagged, and the gang boosted (R310, R326). -/
def State.groupDone (s : State) (gid : Nat) (g : RGroup) (f : Frag) (dst : Dest') : State :=
  if g.parts.length < g.ncon + 1 then { s with groups := storeSet s.groups gid g }
  else
    let s : State := { s with groups := storeErase s.groups gid }
    match s.groupPlaces f dst g.result with
    | .error _ => s
    | .ok ps =>
      let r := s.fragWrites f dst g.die ps
      ((r.2.gangArrive g.die g.gang).receiverFlag g.die g.tcid g.nidx g.rflag r.1)

/-- The group that a CRED fragment joins at a die: the oldest with its identity that has no fragment of its sender yet (R310). -/
def State.groupFor (s : State) (rd : Nat) (f : Frag) (dst : Dest') : Option (Nat × RGroup) :=
  s.groups.find? (fun e => e.2.gang == f.gang && e.2.tag == f.tag && e.2.die == rd && e.2.tcid == dst.tcid && e.2.off == dst.base + f.off &&
    (storeFind e.2.parts (s.domainIdx f.die)).isNone)

/-- A fragment that does not fit its group's first (R310). -/
def Frag.unlike (f : Frag) (g : RGroup) : Bool :=
  (g.parts.head?.map (fun p => p.2.length)).getD 0 != f.bytes.length || f.op != some g.op || g.ncon != f.ncon

/-- A fragment that a group takes (R310). -/
def State.credTaken (s : State) (fid m rd : Nat) (f : Frag) (dst : Dest') (op : Nat) : State :=
  let sd := s.domainIdx f.die
  let took := s.modFrag fid (fun f => { f with copies := storeSet f.copies m .performed })
  match s.groupFor rd f dst with
  | none =>
    let w := (s.ctx f.die f.tcid).win f.win
    let x := took.fresh
    let g : RGroup := ⟨f.gang, f.tag, rd, dst.tcid, dst.base + f.off, w.dspace, w.dcl, op, f.ncon, f.rflag, f.nidx, [(sd, f.bytes)], s.time⟩
    x.2.groupDone x.1 g f dst
  | some (gid, g) =>
    if f.unlike g then took.modCtx rd dst.tcid (fun c => { c with cerr := (c.cerr + 1) % 2 ^ 32 })
    else took.groupDone gid { g with parts := storeSet g.parts sd f.bytes } f dst

/-- A CSEND fragment that is written (R309). -/
def State.csendTaken (s : State) (fid m rd : Nat) (f : Frag) (dst : Dest') (ps : List (Nat × List Byte)) : State :=
  let r := s.fragWrites f dst rd ps
  let s := (r.2.modFrag fid (fun f => { f with copies := storeSet f.copies m .performed })).gangArrive rd f.gang
  s.receiverFlag rd dst.tcid f.nidx f.rflag r.1

/-- A fragment's arrival writes memory: a CSEND, and the CRED with which its group completes. -/
def State.fragCompletes (s : State) (rd : Nat) (f : Frag) (dst : Dest') : Bool :=
  match f.op, s.groupFor rd f dst with
  | none, _ => true
  | some _, none => f.ncon == 0
  | some _, some g => !f.unlike g.2 && g.2.parts.length == g.2.ncon

/-- A fragment's copy fails at its destination for a cause: a drop for its partition is counted (R295). -/
def State.fragMiss (s : State) (fid m : Nat) (f : Frag) (dst : Dest') (c : Cause) (v : Word) : State :=
  (if c = .partition then s.partDrop (s.dropPoint f.die dst.ddie ((s.ctx f.die f.tcid).win f.win).ue f.word) f.die f.tcid else s).fragFail fid m f c v

/-- A fragment arrives at a die of the package (R286, R295, R309, R310): its writes' requests are made as far as there are tokens, and
once all are made it is taken (R340). -/
def State.fragArrive (s : State) (fid m rd : Nat) (f : Frag) (dst : Dest') : State :=
  let w := (s.ctx f.die f.tcid).win f.win
  match s.fragPlaces f dst with
  | .error (c, v) => s.fragMiss fid m f dst c v
  | .ok ps =>
    if w.dspace ≠ 3 ∧ (s.ctx rd dst.tcid).resident = false then
      match f.op with
      | some _ => s
      | none =>
        let r := s.fragRuns f dst
        let b := s.berthArrive rd dst.tcid fid m w.dcl true (recordsOf r.1 r.2)
        if b.1 then (b.2.modFrag fid (fun f => { f with copies := storeSet f.copies m .berthed })).gangArrive rd f.gang else b.2
    else
      let us := if s.fragCompletes rd f dst then (ps.map (fun p => p.1 / 128)).eraseDups else []
      let n := storeGet 0 f.paid m
      let a := s.admitUnits (s.ctx f.die f.tcid).tenant (us.drop n) n
      if a.1 < us.length then a.2.modFrag fid (fun f => { f with paid := storeSet f.paid m a.1 })
      else
        match f.op with
        | some op => a.2.credTaken fid m rd f dst op
        | none => a.2.csendTaken fid m rd f dst ps

/-- A fragment leaves the package: the check points of the way out first, then what the destination does, which is free (log entry 7). -/
def State.fragAway (s : State) (fid m : Nat) (f : Frag) (dst : Dest') : State :=
  match s.fragPlaces f dst with
  | .error (c, v) => s.fragMiss fid m f dst c v
  | .ok _ =>
    let n := s.nfree
    let s : State := { s with nfree := n + 1 }
    let r := Config.remoteReason dst.ddie n
    if r = 0 then s.modFrag fid (fun f => { f with copies := storeSet f.copies m .performed })
    else
      let e := awayFailure r f.win f.off
      (if e.1 = .partition then s.partDrop none f.die f.tcid else s).fragFail fid m f e.1 e.2

/-- FRAGMENT_ARRIVAL (R309, R310). -/
def State.fragmentArrival (s : State) (fid m : Nat) : State :=
  match storeFind s.frags fid with
  | none => s
  | some f =>
    match storeFind f.copies m, storeFind (s.members ((s.ctx f.die f.tcid).win f.win)) m with
    | some .sent, some dst =>
      match s.dieOfDomain dst.ddie with
      | some rd => s.fragArrive fid m rd f dst
      | none => s.fragAway fid m f dst
    | _, _ => s
def execFragmentArrival (fid m : Nat) (s : State) : Host.Outcome State Fault Refusal := .next (s.fragmentArrival fid m)

/-- FRAGMENT_ACK (R308): with the last acknowledgement the sender's flag sets. One that comes over a link may fail its tag there: it is
dropped and counted (R297). -/
def State.fragmentAck (s : State) (fid m : Nat) : State :=
  match storeFind s.frags fid with
  | none => s
  | some f =>
    match storeFind f.copies m with
    | some .performed =>
      let n := s.nfree
      if s.isAway ((s.ctx f.die f.tcid).win f.win) m ∧ Config.pick n % 2 = 1 then
        ({ s with nfree := n + 1 } : State).modDie f.die (fun d => { d with tagDrops := (d.tagDrops + 1) % 2 ^ 32 })
      else (({ s with nfree := n + 1 } : State).modFrag fid (fun f => { f with copies := storeSet f.copies m .acked })).fragOver fid
    | _ => s
def execFragmentAck (fid m : Nat) (s : State) : Host.Outcome State Fault Refusal := .next (s.fragmentAck fid m)

/-- REDUCTION_TIMEOUT (R311): a group that has not completed 10 ms after its first fragment is discarded. -/
def State.reductionTimeout (s : State) (gid : Nat) : State :=
  match storeFind s.groups gid with
  | none => s
  | some g =>
    if s.time < g.since + 10000 then s
    else ({ s with groups := storeErase s.groups gid } : State).modCtx g.die g.tcid (fun c => { c with cerr := (c.cerr + g.parts.length) % 2 ^ 32 })
def execReductionTimeout (gid : Nat) (s : State) : Host.Outcome State Fault Refusal := .next (s.reductionTimeout gid)

/-! ## Regions (R114, R287, R289) -/

/-- The five regions of a context: CLUSTER by cluster, then DIE, as (first byte, size). -/
def State.ctxRegions (s : State) (die tcid : Nat) : List (Nat × Nat) :=
  let c := s.ctx die tcid
  (List.range 4).map (fun cl => (c.regionBase die 1 cl, c.csize)) ++ [(c.regionBase die 2 0, c.dsize)]

/-- The bytes of a range that are not zero, by offset. -/
def State.cellsIn (s : State) (r : Nat × Nat) : List Host.Cell :=
  (s.mem.filter (fun c => decide (r.1 ≤ c.1) && decide (c.1 < r.1 + r.2))).map (fun c => (c.1 - r.1, c.2))

/-- The first 64 KiB boundary at which a size fits among intervals, below a limit. -/
def fitAt (used : List (Nat × Nat)) (size limit : Nat) : Option Nat :=
  ((List.range (limit / 65536 + 1)).find? (fun b => decide (65536 * b + size ≤ limit) &&
    (size == 0 || used.all (fun u => decide (u.1 + u.2 ≤ 65536 * b) || decide (65536 * b + size ≤ u.1))))).map (fun b => 65536 * b)

/-- Regions of the given sizes for a context, beside those of the other resident contexts of the die (R114). -/
def State.allocRegions (s : State) (die tcid csize dsize : Nat) : Option State :=
  let cs := (s.ctxs.filter (fun e => e.1 / 1024 == die && e.1 != ctxKey die tcid && e.2.bound && e.2.resident)).map (fun e => e.2)
  let cl (i : Nat) : Option Nat := fitAt ((cs.filter (fun c => 0 < c.csize)).map (fun c => (c.cbase.getD i 0, c.csize))) csize (8 * 2 ^ 20)
  match cl 0, cl 1, cl 2, cl 3, fitAt ((cs.filter (fun c => 0 < c.dsize)).map (fun c => (c.dbase, c.dsize))) dsize (32 * 2 ^ 20) with
  | some a, some b, some c, some d, some e =>
    some (s.modCtx die tcid (fun x => { x with csize := csize, dsize := dsize, cbase := [a, b, c, d], dbase := e }))
  | _, _, _, _, _ => none

/-- The regions of a context set to zero. -/
def State.zeroRegions (s : State) (die tcid : Nat) : State := (s.ctxRegions die tcid).foldl (fun s r => s.zeroRange r.1 r.2) s

/-- A strand state in which a context is not evicted (R287). -/
def FState.onCore : FState → Bool
  | .saving => false | .saved => false | _ => true

/-- Another context of the die wants room for its regions: it is bound and not resident, or not started yet (R287; log entry 87). -/
def State.wantsRoom (s : State) (die tcid : Nat) : Bool :=
  s.ctxs.any (fun e => e.1 / 1024 == die && e.1 % 1024 != tcid && e.2.bound && (!e.2.resident || e.2.bind == .locked || e.2.bind == .attested))

/-- The area of the supervisor region for the regions of a context: the one that it has, or one that the device OS takes (R287, R379). -/
def State.evictArea (s : State) (die tcid : Nat) : Option (Nat × State) :=
  let c := s.ctx die tcid
  match c.evictAt with
  | some a => some (a, s)
  | none => (s.allocOs die (max 65536 (4 * c.csize + c.dsize))).map (fun x => (hbmAddr die x.1, x.2))

/-- Regions with the places of their bytes in an area, one after another. -/
def evictPlaces : List (Nat × Nat) → Nat → List ((Nat × Nat) × Nat)
  | [], _ => []
  | r :: l, a => (r, a) :: evictPlaces l (a + r.2)

/-- The bytes of a range copied to another. -/
def State.copyCells (s : State) (r : Nat × Nat) (a : Nat) : State := s.pokeCells ((s.cellsIn r).map (fun x => (a + x.1, x.2)))

/-- EVICT_REGIONS (R287): the arrivals already accepted are performed, the regions copied to the supervisor region and released; the context is not resident from now on. -/
def State.evict (s : State) (die tcid : Nat) : State :=
  let c := s.ctx die tcid
  if c.bound = false ∨ c.resident = false ∨ s.wantsRoom die tcid = false ∨ (s.ctxStrands die tcid).any (fun k => (s.strand k).st.onCore) = true then s
  else
    match s.evictArea die tcid with
    | none => s
    | some (a, s) =>
      let s := s.finishXacts
      let s := (evictPlaces (s.ctxRegions die tcid) a).foldl (fun s p => (s.zeroRange p.2 p.1.2).copyCells p.1 p.2) s
      (s.zeroRegions die tcid).modCtx die tcid (fun c => { c with resident := false, evictAt := some a })
def execEvictRegions (die tcid : Nat) (s : State) : Host.Outcome State Fault Refusal := .next (s.evict die tcid)

/-- A byte range of a berth. -/
def State.berthRead (s : State) (die tcid off n : Nat) : List Byte :=
  (List.range n).map (fun i =>
    match deviceVa s die tcid ((s.ctx die tcid).bva + off + i) with
    | some a => s.byte a
    | none => 0)

/-- The translations that such a read uses (R130). -/
def State.berthTouch (s : State) (die tcid off n : Nat) : State :=
  (List.range (n / 4096 + 2)).foldl (fun s i => touchLeaf s die tcid ((s.ctx die tcid).bva + min (off + 4096 * i) (off + n - 1)) false) s

/-- The last record of an arrival is in place: a store's handler is taken, or a fragment's flag set (R289). -/
def State.berthTake (s : State) (die tcid : Nat) (r : BerthRef) (hd : List Byte) (wid : Nat) : State :=
  let b (i : Nat) : Nat := (hd.getD i 0).toNat
  if r.frag then s.receiverFlag die tcid (b 26 % 16) (b 25 % 64) [wid]
  else if b 6 < 128 then s
  else
    let wids := match storeFind s.xacts r.id with
      | some x => s.payloadWids die x.sid x.win x.wid
      | none => s.keysOf [wid]
    (s.handlerArrive die tcid (b 6 % 16) wids).getD { s with portHeld := s.portHeld ++ [⟨die, tcid, b 6 % 16, wids⟩] }

/-- The last record of an arrival has been dealt with: the arrival has left the berth, and its copy is performed. -/
def State.berthLast (s : State) (die tcid : Nat) (r : BerthRef) : State :=
  let s := if r.frag then s.modFrag r.id (fun f => { f with copies := storeSet f.copies r.member .performed })
    else
      match (storeFind s.xacts r.id).bind (fun x => storeFind x.copies r.member) with
      | some .stored => (s.setCopy r.id r.member .acked).settleXact r.id
      | some .berthed => s.setCopy r.id r.member .performed
      | _ => s
  s.modCtx die tcid (fun c => { c with berthL := c.berthL.drop 1 })

/-- Who a berthed arrival's bytes count as written by. -/
def State.berthWriter (s : State) (die : Nat) (r : BerthRef) : Writer × State :=
  match r.frag, storeFind s.xacts r.id with
  | false, some x => (x.writer none, s)
  | _, _ => let f := s.fresh; (⟨f.1, none, engineOf die, false, some 2, none⟩, f.2)

/-- A record fails its check value: CHECK_VALUE of the receiving context, with location 3 and the region offset, for the device OS (R289,
R298). -/
def State.berthCheck (s : State) (die tcid off : Nat) : State :=
  (s.modDie die (fun d => { d with errors := (d.errors + 1) % 2 ^ 32 })).report
    (.berthCheck die tcid (BitVec.ofNat 64 (3 * 2 ^ 62 + off % 2 ^ 48 / 64 * 64)))

/-- The bytes of a record written at their destination: the writes made, as views name them. A store whose window has turned uncertain
counts as published from now on (R231). -/
def State.berthWrite (s : State) (w : Writer) (r : BerthRef) (a : Nat) (pay : List Byte) : List WKey × State :=
  let ps := chunkUnits (pay.length + 1) a pay
  let us := ps.map (fun p => unitOf p.1)
  let s := s.homeWrite w ps
  let s := match (storeFind s.xacts r.id).bind (fun x => storeFind x.copies r.member) with
    | some .uncertain => if r.frag then s else s.publishUnits w.wid us
    | _ => s
  (us.map (fun u => (w.wid, u)), s)

/-- One record of the ring delivered: what it made visible; or nothing when its check value fails (R289), or its sender has cleared its window
since (R294). The handler or flag of the arrival follows its LAST record once that is in place. -/
def State.berthOne (s : State) (die tcid : Nat) (r : BerthRef) (hd pay : List Byte) : List WKey × State :=
  let b (i : Nat) : Nat := (hd.getD i 0).toNat
  let off := leNat ((hd.drop 8).take 8)
  let last := b 24 % 2 == 1
  if r.dead then ([], if last then s.berthLast die tcid r else s)
  else if crc32c (hd.take 20 ++ hd.drop 24 ++ pay) ≠ leNat ((hd.drop 20).take 4) then
    let s := s.berthCheck die tcid off
    ([], if last then s.berthLast die tcid r else s)
  else
    let w := s.berthWriter die r
    let x := w.2.berthWrite w.1 r ((s.ctx die tcid).regionBase die (b 7) r.cl + off) pay
    (x.1, if last then (x.2.berthTake die tcid r hd w.1.wid).berthLast die tcid r else x.2)

/-- The records of a berth delivered in ring order: the writes made. -/
def State.berthDeliver (die tcid : Nat) : Nat → State → List WKey × State
  | 0, s => ([], s)
  | n + 1, s =>
    let c := s.ctx die tcid
    if c.bused = 0 then ([], s)
    else
      let hd := s.berthRead die tcid c.bhead 32
      let len := leNat (hd.take 2)
      if len = 0 then
        State.berthDeliver die tcid n (s.modCtx die tcid (fun c => { c with bused := c.bused - (65536 - c.bhead), bhead := 0 }))
      else
        let size := 32 + (len + 31) / 32 * 32
        let r := c.berthL.headD ⟨0, 0, true, 0, 0, false⟩
        let x := (s.berthTouch die tcid c.bhead (32 + len)).berthOne die tcid (c.berthL.headD ((c.berthQ.headD r))) hd (s.berthRead die tcid (c.bhead + 32) len)
        let s := x.2.modCtx die tcid (fun c => { c with bused := c.bused - size, bhead := (c.bhead + size) % 65536 })
        let y := State.berthDeliver die tcid n s
        (x.1 ++ y.1, y.2)

/-- What the port holds for a context is released in arrival order: each arrival takes place at its destination (R289). -/
def State.berthRelease (s : State) (die tcid : Nat) : State :=
  let q := (s.ctx die tcid).berthQ
  q.foldl (fun s r => if r.frag then s.fragmentArrival r.id r.member else s.windowArrival r.id r.member)
    (s.modCtx die tcid (fun c => { c with berthQ := [] }))

/-- The context's regions are back in place, with their contents; the berth is delivered, and what it delivers joins the views of the context's
strands (R222, R287, R289). None when there is no room for the regions. -/
def State.bringIn (s : State) (die tcid : Nat) : Option State :=
  let c := s.ctx die tcid
  ((s.modCtx die tcid (fun c => { c with resident := true })).allocRegions die tcid c.csize c.dsize).map (fun s =>
    let s := match c.evictAt with
      | some a => (evictPlaces (s.ctxRegions die tcid) a).foldl (fun s p => ((s.zeroRange p.1.1 p.1.2).copyCells (p.2, p.1.2) p.1.1).zeroRange p.2 p.1.2) s
      | none => s
    let d := State.berthDeliver die tcid 4096 s
    let s := (s.ctxStrands die tcid).foldl (fun s k => s.modStrand k (fun t => { t with view := viewAdd t.view d.1 })) d.2
    s.berthRelease die tcid)

/-- The regions come back, and shares that waited for them may be admitted. -/
def State.bringBack (s : State) (die tcid : Nat) : State :=
  match s.bringIn die tcid with
  | none => s
  | some s => s.scan die

/-- RESIDENCY_RESTORE (R287, R289). -/
def execResidencyRestore (die tcid : Nat) (s : State) : Host.Outcome State Fault Refusal :=
  let c := s.ctx die tcid
  .next (if c.bound = true ∧ c.resident = false then s.bringBack die tcid else s)

end Sys2Proof.Machine
end

