-- ==== Sys2Proof/Machine/Digest.lean ====
section
/-! DEFINITION. The keyed digests of bell tags (R2, R396): HMAC with SM3 and with SHA-384. The two hash functions are those of their standards,
which the manual names and does not write out (PRESUMED, log entry 98). Words are numbers below 2^n, bytes in the big-endian order of both. -/
namespace Sys2Proof.Machine

/-- A word of n bits rotated left. -/
def rotW (n x k : Nat) : Nat := (x * 2 ^ (k % n) + x / 2 ^ (n - k % n)) % 2 ^ n
/-- The complement of a word of n bits. -/
def notW (n x : Nat) : Nat := 2 ^ n - 1 - x

/-- Bytes as a number, the first byte highest, and back. -/
def beNat (bs : List Byte) : Nat := bs.foldl (fun x b => x * 256 + b.toNat) 0
def beBytes (n x : Nat) : List Byte := (List.range n).map (fun i => BitVec.ofNat 8 (x / 256 ^ (n - 1 - i)))

/-- A message padded to blocks of `blk` bytes: a one bit, zeros, and its length in bits in the last `len` bytes. -/
def padMsg (blk len : Nat) (m : List Byte) : List Byte :=
  let z := (2 * blk - 1 - len - m.length % blk) % blk
  m ++ [0x80] ++ List.replicate z 0 ++ beBytes len (8 * m.length)

/-- The blocks of a padded message. -/
def msgBlocks (blk : Nat) (m : List Byte) : List (List Byte) := (List.range (m.length / blk)).map (fun i => (m.drop (blk * i)).take blk)

/-- The words of w bytes of a block. -/
def blockWords (w : Nat) (b : List Byte) : List Nat := (List.range (b.length / w)).map (fun i => beNat ((b.drop (w * i)).take w))

/-! ## SM3 -/

/-- The two permutations of SM3. -/
def sm3P0 (x : Nat) : Nat := x ^^^ rotW 32 x 9 ^^^ rotW 32 x 17
def sm3P1 (x : Nat) : Nat := x ^^^ rotW 32 x 15 ^^^ rotW 32 x 23

/-- The 68 expanded words, the newest first. -/
def sm3Expand : Nat → List Nat → List Nat
  | 0, ws => ws
  | n + 1, ws =>
    let w (i : Nat) : Nat := ws.getD (i - 1) 0
    sm3Expand n ((sm3P1 (w 16 ^^^ w 9 ^^^ rotW 32 (w 3) 15) ^^^ rotW 32 (w 13) 7 ^^^ w 6) :: ws)

/-- The chaining value of SM3 and of SHA-384: eight words. -/
structure Hash8 where
  a : Nat
  b : Nat
  c : Nat
  d : Nat
  e : Nat
  f : Nat
  g : Nat
  h : Nat
deriving DecidableEq, Repr

/-- The words in order. -/
def Hash8.words (v : Hash8) : List Nat := [v.a, v.b, v.c, v.d, v.e, v.f, v.g, v.h]

/-- One round of SM3 with its words W and W′. -/
def sm3Round (v : Hash8) (j w w' : Nat) : Hash8 :=
  let t := if j < 16 then 0x79cc4519 else 0x7a879d8a
  let ss1 := rotW 32 ((rotW 32 v.a 12 + v.e + rotW 32 t j) % 2 ^ 32) 7
  let ff := if j < 16 then v.a ^^^ v.b ^^^ v.c else (v.a &&& v.b) ||| (v.a &&& v.c) ||| (v.b &&& v.c)
  let gg := if j < 16 then v.e ^^^ v.f ^^^ v.g else (v.e &&& v.f) ||| (notW 32 v.e &&& v.g)
  let tt1 := (ff + v.d + (ss1 ^^^ rotW 32 v.a 12) + w') % 2 ^ 32
  let tt2 := (gg + v.h + ss1 + w) % 2 ^ 32
  ⟨tt1, v.a, rotW 32 v.b 9, v.c, sm3P0 tt2, v.e, rotW 32 v.f 19, v.g⟩

/-- A block taken into the chaining value of SM3. -/
def sm3Block (v : Hash8) (b : List Byte) : Hash8 :=
  let ws := (sm3Expand 52 (blockWords 4 b).reverse).reverse
  let r := (List.range 64).foldl (fun x j => sm3Round x j (ws.getD j 0) (ws.getD j 0 ^^^ ws.getD (j + 4) 0)) v
  ⟨r.a ^^^ v.a, r.b ^^^ v.b, r.c ^^^ v.c, r.d ^^^ v.d, r.e ^^^ v.e, r.f ^^^ v.f, r.g ^^^ v.g, r.h ^^^ v.h⟩

/-- SM3: 32 bytes. -/
def sm3 (m : List Byte) : List Byte :=
  let v := (msgBlocks 64 (padMsg 64 8 m)).foldl sm3Block
    ⟨0x7380166f, 0x4914b2b9, 0x172442d7, 0xda8a0600, 0xa96f30bc, 0x163138aa, 0xe38dee4d, 0xb0fb0e4e⟩
  v.words.flatMap (beBytes 4)

/-! ## SHA-384 -/

/-- The round constants: the first 64 bits of the fractions of the cube roots of the first 80 primes. -/
def shaK : List Nat :=
  [0x428a2f98d728ae22, 0x7137449123ef65cd, 0xb5c0fbcfec4d3b2f, 0xe9b5dba58189dbbc] ++
  [0x3956c25bf348b538, 0x59f111f1b605d019, 0x923f82a4af194f9b, 0xab1c5ed5da6d8118] ++
  [0xd807aa98a3030242, 0x12835b0145706fbe, 0x243185be4ee4b28c, 0x550c7dc3d5ffb4e2] ++
  [0x72be5d74f27b896f, 0x80deb1fe3b1696b1, 0x9bdc06a725c71235, 0xc19bf174cf692694] ++
  [0xe49b69c19ef14ad2, 0xefbe4786384f25e3, 0x0fc19dc68b8cd5b5, 0x240ca1cc77ac9c65] ++
  [0x2de92c6f592b0275, 0x4a7484aa6ea6e483, 0x5cb0a9dcbd41fbd4, 0x76f988da831153b5] ++
  [0x983e5152ee66dfab, 0xa831c66d2db43210, 0xb00327c898fb213f, 0xbf597fc7beef0ee4] ++
  [0xc6e00bf33da88fc2, 0xd5a79147930aa725, 0x06ca6351e003826f, 0x142929670a0e6e70] ++
  [0x27b70a8546d22ffc, 0x2e1b21385c26c926, 0x4d2c6dfc5ac42aed, 0x53380d139d95b3df] ++
  [0x650a73548baf63de, 0x766a0abb3c77b2a8, 0x81c2c92e47edaee6, 0x92722c851482353b] ++
  [0xa2bfe8a14cf10364, 0xa81a664bbc423001, 0xc24b8b70d0f89791, 0xc76c51a30654be30] ++
  [0xd192e819d6ef5218, 0xd69906245565a910, 0xf40e35855771202a, 0x106aa07032bbd1b8] ++
  [0x19a4c116b8d2d0c8, 0x1e376c085141ab53, 0x2748774cdf8eeb99, 0x34b0bcb5e19b48a8] ++
  [0x391c0cb3c5c95a63, 0x4ed8aa4ae3418acb, 0x5b9cca4f7763e373, 0x682e6ff3d6b2b8a3] ++
  [0x748f82ee5defb2fc, 0x78a5636f43172f60, 0x84c87814a1f0ab72, 0x8cc702081a6439ec] ++
  [0x90befffa23631e28, 0xa4506cebde82bde9, 0xbef9a3f7b2c67915, 0xc67178f2e372532b] ++
  [0xca273eceea26619c, 0xd186b8c721c0c207, 0xeada7dd6cde0eb1e, 0xf57d4f7fee6ed178] ++
  [0x06f067aa72176fba, 0x0a637dc5a2c898a6, 0x113f9804bef90dae, 0x1b710b35131c471b] ++
  [0x28db77f523047d84, 0x32caab7b40c72493, 0x3c9ebe0a15c9bebc, 0x431d67c49c100d4c] ++
  [0x4cc5d4becb3e42b6, 0x597f299cfc657e2a, 0x5fcb6fab3ad6faec, 0x6c44198c4a475817]

/-- The 80 expanded words, the newest first. -/
def shaExpand : Nat → List Nat → List Nat
  | 0, ws => ws
  | n + 1, ws =>
    let w (i : Nat) : Nat := ws.getD (i - 1) 0
    let s0 := rotW 64 (w 15) 63 ^^^ rotW 64 (w 15) 56 ^^^ w 15 / 2 ^ 7
    let s1 := rotW 64 (w 2) 45 ^^^ rotW 64 (w 2) 3 ^^^ w 2 / 2 ^ 6
    shaExpand n (((w 16 + s0 + w 7 + s1) % 2 ^ 64) :: ws)

/-- One round of SHA-384 with its constant and word added. -/
def shaRound (v : Hash8) (kw : Nat) : Hash8 :=
  let s1 := rotW 64 v.e 50 ^^^ rotW 64 v.e 46 ^^^ rotW 64 v.e 23
  let ch := (v.e &&& v.f) ^^^ (notW 64 v.e &&& v.g)
  let t1 := v.h + s1 + ch + kw
  let s0 := rotW 64 v.a 36 ^^^ rotW 64 v.a 30 ^^^ rotW 64 v.a 25
  let maj := (v.a &&& v.b) ^^^ (v.a &&& v.c) ^^^ (v.b &&& v.c)
  ⟨(t1 + s0 + maj) % 2 ^ 64, v.a, v.b, v.c, (v.d + t1) % 2 ^ 64, v.e, v.f, v.g⟩

/-- A block taken into the chaining value of SHA-384. -/
def shaBlock (v : Hash8) (b : List Byte) : Hash8 :=
  let ws := (shaExpand 64 (blockWords 8 b).reverse).reverse
  let r := (shaK.zip ws).foldl (fun x p => shaRound x (p.1 + p.2)) v
  let add (x y : Nat) : Nat := (x + y) % 2 ^ 64
  ⟨add r.a v.a, add r.b v.b, add r.c v.c, add r.d v.d, add r.e v.e, add r.f v.f, add r.g v.g, add r.h v.h⟩

/-- SHA-384: 48 bytes. -/
def sha384 (m : List Byte) : List Byte :=
  let v := (msgBlocks 128 (padMsg 128 16 m)).foldl shaBlock
    ⟨0xcbbb9d5dc1059ed8, 0x629a292a367cd507, 0x9159015a3070dd17, 0x152fecd8f70e5939, 0x67332667ffc00b31, 0x8eb44a8768581511,
     0xdb0c2e0d64f98fa7, 0x47b5481dbefa4fa4⟩
  (v.words.take 6).flatMap (beBytes 8)

/-! ## HMAC -/

/-- HMAC over a hash with blocks of `blk` bytes, under a key no longer than a block. -/
def hmac (hash : List Byte → List Byte) (blk : Nat) (key msg : List Byte) : List Byte :=
  let k := key ++ List.replicate (blk - key.length) 0
  hash (k.map (fun b => b ^^^ 0x5c) ++ hash (k.map (fun b => b ^^^ 0x36) ++ msg))

/-- The tag of a bell: the first 8 bytes of HMAC-SM3 for SUITE 1 and of HMAC-SHA-384 for SUITE 0 under the 32-byte bell key, the first byte
lowest (R396). -/
def bellTag (suite key : Nat) (msg : List Byte) : Word :=
  let k := leBytes 32 key
  BitVec.ofNat 64 (leNat ((if suite = 1 then hmac sm3 64 k msg else hmac sha384 128 k msg).take 8))

end Sys2Proof.Machine
end

