-- ==== Sys2Proof/Machine/Restore.lean ====
section
/-! DEFINITION. The restore of a saved strand (R287, R366, R367, R371 to R373), and the services of a fault strand that restore one (RESUME and
REDIRECT, R407). -/
namespace Sys2Proof.Machine

/-! ## Restore (R366, R371 to R373) -/

/-- A strand belongs to a crew or has an arrival recorded (R350, R373). -/
def State.inCrew (s : State) (k : Nat) : Bool :=
  (s.die (s.strand k).die).crews.any (fun e =>
    e.2.members.contains k || e.2.joining.contains k || e.2.arrived.contains k || e.2.nextArr.contains k)

/-- The cluster that the other placed strands of a strand's cluster group have on a die (R373). -/
def State.groupCluster (s : State) (k die : Nat) : Option Nat :=
  let t := s.strand k
  if t.cgrp = 0 then none
  else (s.strands.find? (fun e => e.1 != k && e.2.lid == t.lid && e.2.die == die && e.2.cgrp == t.cgrp && e.2.home.isSome)).map
    (fun e => e.2.cluster)

/-- The context of the strand's tenant on a die, bound and with the strand's image. -/
def State.restoreCtx (s : State) (k die : Nat) : Option Nat :=
  let t := s.strand k
  let c := s.ctx t.die t.tcid
  let tc := if die = t.die then some t.tcid else s.tenantCtx die c.tenant
  tc.filter (fun x => (s.ctx die x).bound && (s.imageOf die x t.image).isSome &&
    s.inService die)

/-- A strand is put onto a core: in place when it keeps its region there, else with the contents of its region (R359, R373). What a move frees is scanned for (R322). -/
def State.restoreAt (s : State) (k die tcid core : Nat) : State :=
  let t := s.strand k
  let old := t.die
  let inPlace := t.home.isSome && t.core == core
  let s :=
    if inPlace then s.placeAt k core
    else
      let img := if t.home.isSome then s.regionCells k else t.img
      let s := s.freeCore k
      let s := (s.modStrand k (fun t => { t with die := die, tcid := tcid, img := img })).placeAt k core
      (s.zeroRange (s.scratchAddr (s.strand k) 0 0) (t.csu * 32768)).loadImage k
  let s := (s.modStrand k (fun t => { t with runCount := 0, due := false })).shareHere die t.lid
  let s := if old = die then s else s.shareDone old t.lid
  if inPlace then s else s.scanAll

/-- The state in which a context's regions are in place (R287): none when there is no room for them. -/
def State.withRegions (s : State) (die tcid : Nat) : Option State := if (s.ctx die tcid).resident then some s else s.bringIn die tcid

/-- A restore of a saved strand onto a die under the serial named: its status, and the state after it; the context's regions come back first
(R287, R371 to R373). Among the cores that take it, its own comes first; otherwise a free choice decides (log entry 3). -/
def State.restoreTo (s : State) (k die serial : Nat) : Nat × State :=
  let t := s.strand k
  let move := die != t.die
  if move && s.inCrew k then (0x61, s)
  else if move && (t.range.outstanding || t.range.slot.isSome) then (0x62, s)
  else
    match (s.restoreCtx k die).bind (fun tc => (s.withRegions die tc).map (fun s1 => (tc, s1))) with
    | none => (0x63, s)
    | some (tc, s1) =>
      let s' := s1.modStrand k (fun t => { t with die := die, tcid := tc })
      let fits := (coresOf die none).filter (fun c => s'.coreFits c k)
      let shape := match s.groupCluster k die with
        | some cl => fits.filter (fun c => c % 64 / 16 == cl)
        | none => fits
      match fits, shape with
      | [], _ => (0x63, s)
      | _, [] => (0x60, s)
      | _, c :: r =>
        if imageGood s k serial = false then (0x64, (s.loseStrand k).scanAll)
        else
          let n := s1.nfree
          let core := if t.home.isSome && (c :: r).contains t.core then t.core else (c :: r).getD (Config.pick n % (r.length + 1)) c
          let s2 := ({ s1 with nfree := n + 1 } : State).restoreAt k die tc core
          (0, if (s.ctx die tc).resident then s2 else s2.scan die)

/-- RESTORE (R358, R366, R373): the device OS restores a strand whose cause it has served, or one that a checkpoint has saved. -/
def State.restore (s : State) (k die serial : Nat) : State :=
  let t := s.strand k
  if t.st = .saved ∧ (t.due = true ∨ t.saveKind = some .checkpoint) ∧ (s.die t.die).recovering = false then (s.restoreTo k die serial).2 else s
def execRestore (sid die serial : Nat) (s : State) : Host.Outcome State Fault Refusal := .next (s.restore sid die serial)

/-! ## Services of a fault strand (R407) -/

/-- The status of a restore as a service returns it. -/
def State.hailRestored (s : State) (caller st : Nat) : State :=
  if st = 0 then s.hailDone caller 0 none else s.hailDone caller 5 (some st)

/-- RESUME (R407). -/
def State.resumeService (s : State) (caller : Nat) : State :=
  if s.hailing caller 1 = false then s
  else
    match s.hailTarget caller with
    | none => s.hailDone caller 1 none
    | some k =>
      let r := s.restoreTo k (s.strand k).die (s.strand k).serial
      r.2.hailRestored caller r.1
def execResume (caller : Nat) (s : State) : Host.Outcome State Fault Refusal := .next (s.resumeService caller)

/-- A strand with a new position, and all that belonged to the old one cleared (R407). -/
def Strand.redirected (t : Strand) (pos : Nat) : Strand :=
  { t with
    pos := pos, next := .known, eres := 0, bres := 0, wait := .none, crewDone := false, drain := none, switchTo := none, parked := false
    loops := [], shadow := [], spilled := [], floor := 0, hsave := none, hndDue := false, causes := [], polls := 0
    wasRetiring := false, phased := false, suppress := 0, skipped := false }

/-- REDIRECT (R407). -/
def State.redirectService (s : State) (caller : Nat) : State :=
  if s.hailing caller 2 = false then s
  else
    match s.hailTarget caller with
    | none => s.hailDone caller 1 none
    | some k =>
      let pos := ((s.strand caller).rs 3).toNat % 65536
      let r := s.restoreTo k (s.strand k).die (s.strand k).serial
      let s := if r.1 = 0 then r.2.modStrand k (fun t => t.redirected pos) else r.2
      s.hailRestored caller r.1
def execRedirect (caller : Nat) (s : State) : Host.Outcome State Fault Refusal := .next (s.redirectService caller)

end Sys2Proof.Machine
end

