-- ==== Sys2Proof/Machine/Queues.lean ====
section
/-! DEFINITION. Queues and bells (R391 to R399), the pilot engine and its instructions (R400 to R404), the verifier (R405), and the
services on queues and pilot programs (R406 to R408). -/
namespace Sys2Proof.Machine

/-! ## Control blocks (R392, R393) -/

/-- Bytes 8 to 127 of a copy. -/
def Qcb.tailBytes (q : Qcb) : List Byte :=
  leBytes 4 q.head ++ leBytes 4 q.tail ++ leBytes 4 q.seq ++ leBytes 1 q.state ++ leBytes 1 q.lastdrop ++ leBytes 2 q.qslot ++
  leBytes 2 q.tcid ++ leBytes 2 q.prog ++ leBytes 1 q.log2n ++ leBytes 1 q.esz ++ leBytes 2 q.bkey ++ leBytes 8 q.ringva ++
  leBytes 4 q.accepted ++ leBytes 4 q.rejected ++ leBytes 16 0 ++
  (List.range 8).flatMap (fun i => leBytes 8 ((q.qw.getD i 0).toNat))

/-- The 128 bytes of a copy. -/
def Qcb.bytes (q : Qcb) : List Byte := leBytes 4 q.gen ++ leBytes 4 q.chk ++ q.tailBytes

/-- CRC-32C over bytes 0 to 3 and 8 to 127. -/
def Qcb.check (q : Qcb) : Nat := crc32c (leBytes 4 q.gen ++ q.tailBytes)
/-- A copy whose CHK matches. -/
def Qcb.valid (q : Qcb) : Bool := q.chk == q.check
/-- A copy with a generation and a fresh CHK. -/
def Qcb.sealed (q : Qcb) (gen : Nat) : Qcb :=
  let q : Qcb := { q with gen := gen % 2 ^ 32, chk := 0 }
  { q with chk := q.check }

/-- The active copy and whether it is copy A (R393). -/
def Queue.active (q : Queue) : Option (Bool × Qcb) :=
  if q.bad then none
  else
    match q.a.valid, q.b.valid with
    | true, true =>
      if q.b.gen = (q.a.gen + 1) % 2 ^ 32 then some (false, q.b)
      else if q.a.gen = (q.b.gen + 1) % 2 ^ 32 then some (true, q.a)
      else none
    | true, false => some (true, q.a)
    | false, true => some (false, q.b)
    | false, false => none

/-- An update: the whole inactive copy, with the next generation (R393). -/
def Queue.update (q : Queue) (f : Qcb → Qcb) : Queue :=
  match q.active with
  | some (true, c) => { q with b := (f c).sealed (c.gen + 1) }
  | some (false, c) => { q with a := (f c).sealed (c.gen + 1) }
  | none => q

/-- A physical queue of a die, and its change. -/
def State.queue (s : State) (die pq : Nat) : Queue := storeGet Queue.reset (s.die die).queues pq
def State.modQueue (s : State) (die pq : Nat) (f : Queue → Queue) : State :=
  s.modDie die (fun d => { d with queues := storeMod d.queues pq f })

/-- The key of stage 2 (R399). -/
def stageKey (tcid qslot : Nat) : Nat := tcid * 4096 + qslot
/-- The tenant and slot that own a physical queue; the device OS's queue has none (R391, R399). -/
def Die.queueOwner (d : Die) (pq : Nat) : Option (Nat × Nat) :=
  (d.supTable.find? (fun e => e.2 == pq)).map (fun e => (e.1 / 4096, e.1 % 4096))

/-- A queue enters an error state and its tenant is told (R394). -/
def State.queueError (s : State) (die pq st : Nat) (f : Queue → Queue) : State :=
  let s := s.modQueue die pq f
  match (s.die die).queueOwner pq with
  | some x => s.noticeWrite die x.1 1 st x.2 0
  | none => s

/-- No active copy is found: QERR_QCB (R393, R394). -/
def State.queueBad (s : State) (die pq : Nat) : State :=
  if (s.queue die pq).bad then s else s.queueError die pq 4 (fun q => { q with bad := true })

/-! ## Bells (R395 to R399) -/

/-- Bytes of a context's memory as the device reads them at their homes; `none` when an aligned unit of at most 8 bytes cannot be
read. Data from outside the package is free (log entry 7). -/
def tenantRead (s : State) (die tcid va n : Nat) : Option (List Byte) :=
  (chunkUnits (n + 1) va (List.replicate n 0)).foldl (fun (acc : Option (List Byte)) u =>
    acc.bind (fun bs =>
      match accessVa s die tcid 0 .load false false u.1 u.1 with
      | .ok (.here a) => if locExists (.here a) then some (bs ++ s.bytes a u.2.1) else none
      | .ok (.away d) => some (bs ++ leBytes u.2.1 ((Config.remoteData d (s.nfree + bs.length)).toNat % 256 ^ u.2.1))
      | .error _ => none)) (some [])

/-- The translations that such a read uses (R130). -/
def State.touchTenant (s : State) (die tcid va n : Nat) : State :=
  (chunkUnits (n + 1) va (List.replicate n 0)).foldl (fun s u =>
    match accessVa s die tcid 0 .load false false u.1 u.1 with
    | .ok _ => touchLeaf s die tcid u.1 false
    | .error _ => s) s

/-- Stage 1 and stage 2 of R399: the physical queue of a sub-queue. -/
def State.bellQueue (s : State) (die tcid sqid : Nat) : Option Nat :=
  let c := s.ctx die tcid
  match tenantRead s die tcid (c.sqva + 4 * sqid) 4 with
  | none => none
  | some bs =>
    let e := leNat bs
    if flg e 31 = false ∨ fld e 12 19 ≠ 0 ∨ c.qmax ≤ fld e 0 12 then none
    else storeFind (s.die die).supTable (stageKey tcid (fld e 0 12))

/-- The message under a bell's tag (R396). -/
def bellMsgBytes (m : BellMsg) : List Byte := leBytes 2 m.tcid ++ leBytes 2 m.sqid ++ leBytes 4 m.tail ++ leBytes 4 m.seq

/-- A bell on a queue with an active copy in RUN (R397). -/
def State.bellJudge (s : State) (m : BellMsg) (pq : Nat) (c : Qcb) : State :=
  let q := s.queue m.die pq
  let seq := if m.dev then (c.seq + 1) % 2 ^ 32 else m.seq
  let reject := s.modQueue m.die pq (fun q => q.update (fun c => { c with rejected := (c.rejected + 1) % 2 ^ 32 }))
  let d (x y : Nat) : Nat := (x + 2 ^ 32 - y) % 2 ^ 32
  if m.dev = false ∧ m.tag ≠ bellTag (s.ctx m.die m.tcid).suite q.key (bellMsgBytes m) then reject
  else if m.dev = false ∧ (d m.seq c.seq = 0 ∨ 2 ^ 31 - 1 < d m.seq c.seq) then reject
  else if 2 ^ c.log2n < d m.tail c.head then
    s.queueError m.die pq 2 (fun q => q.update (fun c => { c with state := 2, seq := seq }))
  else if d m.tail c.head < d c.tail c.head then reject
  else s.modQueue m.die pq (fun q => q.update (fun c => { c with tail := m.tail, seq := seq, accepted := (c.accepted + 1) % 2 ^ 32 }))

/-- A bell at a die's port that is not held (R395, R397). -/
def State.bellTake (s : State) (m : BellMsg) : State :=
  let drop := s.modDie m.die (fun d => { d with bellDrops := (d.bellDrops + 1) % 2 ^ 32 })
  if m.wellSized = false ∨ (s.ctx m.die m.tcid).bind ≠ .run then drop
  else
    let s := s.touchTenant m.die m.tcid ((s.ctx m.die m.tcid).sqva + 4 * m.sqid) 4
    match s.bellQueue m.die m.tcid m.sqid with
    | none => s.modDie m.die (fun d => { d with bellDrops := (d.bellDrops + 1) % 2 ^ 32 })
    | some pq =>
      match (s.queue m.die pq).active with
      | none => s.queueBad m.die pq
      | some (_, c) =>
        if c.state = 1 then s.bellJudge m pq c
        else s.modQueue m.die pq (fun q => q.update (fun c => { c with rejected := (c.rejected + 1) % 2 ^ 32 }))

/-- The oldest bell of the package under way that matches a message. -/
def State.bellFlight (s : State) (m : BellMsg) : Option (Nat × BellFly) := s.bells.find? (fun e => e.2.msg == m && !e.2.away)

/-- A bell that has been judged: its sender's operation is complete (R234, R314, R397). -/
def State.bellDone (s : State) (m : BellMsg) : State :=
  match m.dev, s.bellFlight m with
  | true, some (id, f) =>
    let s : State := { s with bells := storeErase s.bells id }
    if s.hasStrand f.sid then s.engineDone f.sid f.eid else s
  | _, _ => s

/-- How many bells of a message are under way, and how many of them a port holds. -/
def State.bellWaiting (s : State) (m : BellMsg) : Bool :=
  let n := (s.bells.filter (fun e => e.2.msg == m && !e.2.away)).length
  let h := ((s.die m.die).bellHeld.filter (fun x => x == m)).length
  !m.dev || decide (h < n)

/-- A bell of the package whose destination lies outside answers: it was handled there, or it failed; the answer is free (R295, R312,
R314; log entry 7). -/
def State.bellAway (s : State) (id : Nat) (f : BellFly) : State :=
  let t := s.strand f.sid
  let win := f.win.getD 0
  let n := s.nfree
  let s : State := { s with nfree := n + 1, bells := storeErase s.bells id }
  let r := Config.remoteReason ((s.ctx t.die t.tcid).win win).ddie n
  if s.hasStrand f.sid = false then s
  else
    let s := s.engineDone f.sid f.eid
    if r = 0 then s
    else
      let e := awayFailure r win 0
      ((if e.1 = .partition then s.partDrop none t.die t.tcid else s).writeFlt t.die t.tcid win e.1 e.2).raiseCe f.sid
        ⟨e.1, e.2, f.tbun, 2 ^ Slot.bit .ce⟩

/-- BELL (R397): a recovering die's port holds it (R411). A device-originated bell is one that is under way; one that goes to another
package is answered from there. -/
def State.bellArrive (s : State) (m : BellMsg) : State :=
  match if m.dev then s.bells.find? (fun e => e.2.msg == m && e.2.away) else none with
  | some e => s.bellAway e.1 e.2
  | none =>
  if s.bellWaiting m = false then s
  else if (s.die m.die).recovering then s.modDie m.die (fun d => { d with bellHeld := d.bellHeld ++ [m] })
  else (s.bellTake m).bellDone m
def execBell (m : BellMsg) (s : State) : Host.Outcome State Fault Refusal := .next (s.bellArrive m)

/-- The bells that a port held (R411). -/
def State.bellRelease (s : State) (die : Nat) : State :=
  (s.die die).bellHeld.foldl (fun s m => (s.bellTake m).bellDone m) (s.modDie die (fun d => { d with bellHeld := [] }))

/-! ## The verifier (R405) -/

/-- The loop bodies of a program: first and last index. -/
def pilotBodies (ws : List Nat) : List (Nat × Nat) :=
  ws.zipIdx.filterMap (fun x => match decodePilot x.1 with | some (.loop o) => some (x.2 + 1, x.2 + o.len) | _ => none)

/-- The bytes of a space as the verifier takes them (R401, R405). -/
def pilotSize : Nat → Nat
  | 0 => 256 | 2 => 1024 | _ => 64

/-- The forward distance of a branch. -/
def pilotBranch : Instr → Option Nat
  | .beq o | .bne o | .bltu o | .bgeu o => some o.off
  | _ => none
/-- An instruction that ends the entry. -/
def pilotEnds : Instr → Bool
  | .emitLaunch _ | .emitCopy _ | .emitBell _ | .drop _ => true
  | _ => false

/-- An access that rule 4 refuses. -/
def pilotAccBad (o : PM) (store : Bool) : Bool :=
  o.off % 2 ^ o.w != 0 || decide (pilotSize o.sp ≤ o.off) || (store && decide (o.sp < 2))

/-- The lowest-numbered rule of 1 to 5 that instruction i of a program of n fails. -/
def pilotRule (bs : List (Nat × Nat)) (n i w : Nat) : Option Nat :=
  match decodePilot w with
  | none => some 1
  | some x =>
    let inBody (b : Nat × Nat) (j : Nat) : Bool := decide (b.1 ≤ j) && decide (j ≤ b.2)
    let jump := match pilotBranch x with
      | some off => off == 0 || decide (n ≤ i + off) || bs.any (fun b => inBody b (i + off) && !inBody b i)
      | none => false
    let nest := decide (2 < (bs.filter (fun b => inBody b i)).length) ||
      (match x with
       | .loop o => o.len == 0 || decide (n ≤ i + o.len) || bs.any (fun b => inBody b i && decide (b.2 < i + o.len))
       | _ => false)
    let acc := match x with
      | .ldm o => pilotAccBad o false
      | .stm o => pilotAccBad o true
      | _ => false
    if jump then some 2 else if nest then some 3 else if acc then some 4
    else if i + 1 = n ∧ pilotEnds x = false then some 5 else none

/-- How often the bodies that contain an instruction have it counted. -/
def pilotWeight (ws : List Nat) (i : Nat) : Nat :=
  (ws.zipIdx.filterMap (fun x => match decodePilot x.1 with
    | some (.loop o) => if x.2 + 1 ≤ i ∧ i ≤ x.2 + o.len then some (o.n + 1) else none
    | _ => none)).foldl (· * ·) 1

/-- The longest path of a program whose branches go forward, each body counted n times. -/
def pilotLongest (ws : List Nat) : Nat :=
  (ws.zipIdx.foldr (fun x (ls : List Nat) =>
    let next := match decodePilot x.1 with
      | none => 0
      | some i =>
        if pilotEnds i then 0
        else match pilotBranch i with
          | some off => max (ls.headD 0) (ls.getD (off - 1) 0)
          | none => ls.headD 0
    (pilotWeight ws x.2 + next) :: ls) []).headD 0

/-- The failing rule and the index that LOADPILOT returns (R405). -/
def pilotVerify (ws : List Nat) : Option (Nat × Nat) :=
  let n := ws.length
  if n = 0 ∨ 256 < n then some (1, n)
  else
    let bs := pilotBodies ws
    match ws.zipIdx.findSome? (fun x => (pilotRule bs n x.2 x.1).map (fun r => (r, x.2))) with
    | some x => some x
    | none => if 512 < pilotLongest ws then some (6, n) else none

/-- The PKT extent of a program (R406). -/
def pilotExt (ws : List Nat) : Nat :=
  (ws.filterMap (fun w => match decodePilot w with
    | some (.ldm o) => if o.sp = 0 then some (o.off + 2 ^ o.w) else none
    | _ => none)).foldl max 0

/-! ## Lanes (R400, R401) -/

/-- The lane that a pilot instruction runs on. -/
def State.lane (s : State) : Lane := storeGet Lane.reset (s.die s.laneDie).lanes s.laneNum
def State.modLane (s : State) (f : Lane → Lane) : State :=
  s.modDie s.laneDie (fun d => { d with lanes := storeSet d.lanes s.laneNum (f (storeGet Lane.reset d.lanes s.laneNum)) })

/-- A pilot register. -/
def Lane.r (l : Lane) (n : Nat) : Word := storeGet 0 l.b n
def Lane.w (l : Lane) (n : Nat) (v : Word) : Lane := { l with b := storePut 0 l.b n v }

/-- The bytes of a space (R401). -/
def Lane.space (l : Lane) : Nat → List Byte
  | 0 => l.pkt
  | 1 => l.qcbv
  | 2 => l.scr
  | _ => l.qws

/-- The effective offset of an access (R401). -/
def Lane.offset (l : Lane) (o : PM) : Nat :=
  let x := ((l.r o.a).toNat + o.off) % (l.space o.sp).length
  x / 2 ^ o.w * 2 ^ o.w

/-- Bytes replaced in a list from an index on. -/
def bytesPut (l : List Byte) (at_ : Nat) (bs : List Byte) : List Byte := l.take at_ ++ bs ++ l.drop (at_ + bs.length)

/-- The index after the last instruction of a body or the next one (R403). -/
def pilotNext (pc : Nat) : List (Nat × Nat × Nat) → Nat × List (Nat × Nat × Nat)
  | [] => (pc + 1, [])
  | (a, e, c) :: r => if pc = e then (if 1 < c then (a, (a, e, c - 1) :: r) else pilotNext pc r) else (pc + 1, (a, e, c) :: r)

/-- Execution continues at the next instruction. -/
def Lane.seqNext (l : Lane) : Lane := let x := pilotNext l.pc l.loops; { l with pc := x.1, loops := x.2 }
/-- A taken branch: loops whose body it leaves end (R403). -/
def Lane.jump (l : Lane) (t : Nat) : Lane :=
  { l with pc := t, loops := l.loops.dropWhile (fun x => decide (t < x.1) || decide (x.2.1 < t)) }

/-- A pilot instruction acts on a lane that runs a program; elsewhere nothing happens. -/
def State.pilotOp (s : State) (f : Lane → Lane) : Host.Outcome State Fault Refusal :=
  .next (if s.lane.stage = .run then s.modLane f else s)

/-- Register to register. -/
def pilotAlu (f : Word → Word → Word) (o : PR) (s : State) : Host.Outcome State Fault Refusal :=
  s.pilotOp (fun l => (l.w o.d (f (l.r o.a) (l.r o.b))).seqNext)
/-- Register and immediate. -/
def pilotImm (f : Word → Word) (d a : Nat) (s : State) : Host.Outcome State Fault Refusal :=
  s.pilotOp (fun l => (l.w d (f (l.r a))).seqNext)
/-- A conditional branch. -/
def pilotIf (p : Word → Word → Bool) (o : PB) (s : State) : Host.Outcome State Fault Refusal :=
  s.pilotOp (fun l => if p (l.r o.a) (l.r o.b) then l.jump (l.pc + o.off) else l.seqNext)
/-- An emit or DROP ends the entry: the stores go to queue scratch next (R400). -/
def pilotEnd (e : Lane → Emit) (s : State) : Host.Outcome State Fault Refusal :=
  s.pilotOp (fun l => { l with emit := e l, stage := .scratch })

/-- A 20-bit immediate, sign-extended. -/
def pilotSext (imm : Nat) : Word := (BitVec.ofNat 20 imm).signExtend 64
/-- A 20-bit immediate, zero-extended. -/
def pilotZext (imm : Nat) : Word := BitVec.ofNat 64 (imm % 2 ^ 20)

/-- The pilot instructions (R403). -/
def execPilotAdd (o : PR) (s : State) : Host.Outcome State Fault Refusal := pilotAlu (fun a b => a + b) o s
def execPilotSub (o : PR) (s : State) : Host.Outcome State Fault Refusal := pilotAlu (fun a b => a - b) o s
def execPilotAnd (o : PR) (s : State) : Host.Outcome State Fault Refusal := pilotAlu (fun a b => a &&& b) o s
def execPilotOr (o : PR) (s : State) : Host.Outcome State Fault Refusal := pilotAlu (fun a b => a ||| b) o s
def execPilotXor (o : PR) (s : State) : Host.Outcome State Fault Refusal := pilotAlu (fun a b => a ^^^ b) o s
def execPilotMul (o : PR) (s : State) : Host.Outcome State Fault Refusal := pilotAlu (fun a b => a * b) o s
def execPilotShl (o : PI) (s : State) : Host.Outcome State Fault Refusal := pilotImm (fun a => a <<< (o.imm % 64)) o.d o.a s
def execPilotShr (o : PI) (s : State) : Host.Outcome State Fault Refusal := pilotImm (fun a => a >>> (o.imm % 64)) o.d o.a s
def execPilotAddi (o : PI) (s : State) : Host.Outcome State Fault Refusal := pilotImm (fun a => a + pilotSext o.imm) o.d o.a s
def execPilotAndi (o : PI) (s : State) : Host.Outcome State Fault Refusal := pilotImm (fun a => a &&& pilotZext o.imm) o.d o.a s
def execPilotOri (o : PI) (s : State) : Host.Outcome State Fault Refusal := pilotImm (fun a => a ||| pilotZext o.imm) o.d o.a s
def execPilotLi (o : PLi) (s : State) : Host.Outcome State Fault Refusal := pilotImm (fun _ => pilotSext o.imm) o.d 0 s

/-- LDM (R401): zero-extended. -/
def execLdm (o : PM) (s : State) : Host.Outcome State Fault Refusal :=
  s.pilotOp (fun l => (l.w o.d (BitVec.ofNat 64 (leNat (((l.space o.sp).drop (l.offset o)).take (2 ^ o.w))))).seqNext)
/-- STM (R401, R405): only queue scratch and QWS are written. -/
def execStm (o : PM) (s : State) : Host.Outcome State Fault Refusal :=
  s.pilotOp (fun l =>
    let bs := leBytes (2 ^ o.w) (l.r o.d).toNat
    let l := match o.sp with
      | 2 => { l with scr := bytesPut l.scr (l.offset o) bs }
      | 3 => { l with qws := bytesPut l.qws (l.offset o) bs }
      | _ => l
    l.seqNext)

def execBeq (o : PB) (s : State) : Host.Outcome State Fault Refusal := pilotIf (fun a b => a == b) o s
def execBne (o : PB) (s : State) : Host.Outcome State Fault Refusal := pilotIf (fun a b => a != b) o s
def execBltu (o : PB) (s : State) : Host.Outcome State Fault Refusal := pilotIf (fun a b => decide (a.toNat < b.toNat)) o s
def execBgeu (o : PB) (s : State) : Host.Outcome State Fault Refusal := pilotIf (fun a b => decide (b.toNat ≤ a.toNat)) o s
/-- LOOP (R403): the body runs n times. -/
def execLoop (o : PL) (s : State) : Host.Outcome State Fault Refusal :=
  s.pilotOp (fun l =>
    if o.len = 0 then l.seqNext else { l with pc := l.pc + 1, loops := (l.pc + 1, l.pc + o.len, o.n + 1) :: l.loops })

def execEmitLaunch (a : Nat) (s : State) : Host.Outcome State Fault Refusal := pilotEnd (fun l => .launch ((l.r a).toNat % 2 ^ 48)) s
def execEmitCopy (a : Nat) (s : State) : Host.Outcome State Fault Refusal := pilotEnd (fun l => .copy ((l.r a).toNat % 2 ^ 48)) s
def execEmitBell (o : PBell) (s : State) : Host.Outcome State Fault Refusal :=
  pilotEnd (fun l => .bell o.sqid ((l.r o.a).toNat % 2 ^ 32) (l.r o.b)) s
def execDrop (code : Nat) (s : State) : Host.Outcome State Fault Refusal := pilotEnd (fun _ => .drop (code % 256)) s

/-! ## An entry (R394, R398, R400) -/

/-- A buffered or travelling write of an 8-byte unit: its bytes and data. -/
def unitPart (u : Nat) (x : Nat × El) : List (BitVec 8 × Word) :=
  if unitOf x.1 = u then [(unitEn x.1 x.2.w, BitVec.ofNat 64 (x.2.data % 256 ^ x.2.w * 256 ^ (x.1 % 8)))] else []

/-- The writes of a unit that are on their way to its home: buffered stores and window stores (R398). -/
def State.pendingParts (s : State) (u : Nat) : List (BitVec 8 × Word) :=
  (s.strands.flatMap (fun e => e.2.reqs.flatMap (fun r =>
    if r.kind = .store ∧ r.held = false then (storeParts s e.1 r).flatMap (unitPart u) else []))) ++
  s.xacts.flatMap (fun e => if e.2.kind = .store then
    e.2.copies.flatMap (fun c => if c.2 = .sent then
      (match s.xactDest e.2 c.1 with
       | some dst => (s.xactPlaces e.2 dst).flatMap (unitPart u)
       | none => []) else []) else [])

/-- A unit as the lane reads it: with none, some first ones or all of the writes on their way, by a free choice. -/
def State.laneUnit (s : State) (u n : Nat) : Word :=
  let ps := s.pendingParts u
  (ps.take (Config.pick n % (ps.length + 1))).foldl (fun v p => overlay p.1 p.2 v) (s.unitVal u)

/-- The bytes of an entry, unit by unit; `none` when one fails translation, permission, a check value or ECC (R394). -/
def State.readEntry (s : State) (die tcid va n : Nat) : Option (List Byte) :=
  (chunkUnits (n + 1) va (List.replicate n 0)).foldl (fun (acc : Option (List Byte)) u =>
    acc.bind (fun bs =>
      match accessVa s die tcid 0 .load false false u.1 u.1 with
      | .ok (.here a) =>
        if locExists (.here a) = false then none
        else some (bs ++ ((leBytes 8 (s.laneUnit (a / 8) (s.nfree + bs.length)).toNat).drop (a % 8)).take u.2.1)
      | .ok (.away d) => some (bs ++ leBytes u.2.1 ((Config.remoteData d (s.nfree + bs.length)).toNat % 256 ^ u.2.1))
      | .error _ => none)) (some [])

/-- Queues that a lane may serve: in RUN with HEAD ≠ TAIL and no lane, or with control blocks that show no active copy. -/
def State.servable (s : State) (die : Nat) : List Nat :=
  let d := s.die die
  (d.queues.filter (fun e =>
    e.2.lane.isNone && !e.2.bad &&
    (match d.queueOwner e.1 with
     | some x => (s.ctx die x.1).bind == .run
     | none => e.1 == 0) &&
    (match e.2.active with
     | some (_, c) => c.state == 1 && c.head != c.tail
     | none => true))).map (fun e => e.1)

/-- The lane takes an entry: program handle first, then the entry, then it runs (R394, R400). -/
def State.takeEntry (s : State) (die l pq : Nat) : State :=
  match (s.queue die pq).active with
  | none => s.queueBad die pq
  | some (_, c) =>
    let fail (st : Nat) : State := s.queueError die pq st (fun q => q.update (fun c => { c with state := st }))
    match (storeFind (s.die die).pilots c.prog).filter (fun p => pq == 0 || p.tcid == c.tcid) with
    | none => fail 5
    | some p =>
      let esz := 64 * 2 ^ c.esz
      match s.readEntry die c.tcid (c.ringva + c.head % 2 ^ c.log2n * esz) esz with
      | none => fail 3
      | some pkt =>
        let s := s.touchTenant die c.tcid (c.ringva + c.head % 2 ^ c.log2n * esz) esz
        let ln : Lane := ⟨.run, pq, p.words, 0, storePut 0 [] 7 (BitVec.ofNat 64 c.head), [], pkt, c.bytes.take 64,
          (s.queue die pq).scratch, c.bytes.drop 64, .none⟩
        ({ s with nfree := s.nfree + esz } : State).modDie die (fun d =>
          { d with lanes := storeSet d.lanes l ln, queues := storeMod d.queues pq (fun q => { q with lane := some l }) })

/-- PILOT_ENTRY (R18, R400): a free one of the 16 lanes takes the entry at HEAD of one of the queues that wait, by a free choice. -/
def State.pilotEntry (s : State) (die l : Nat) : State :=
  let d := s.die die
  if 16 ≤ l ∨ d.boot ≠ .inService ∨ d.recovering = true ∨ (storeGet Lane.reset d.lanes l).stage ≠ .idle then s
  else
    match s.servable die with
    | [] => s
    | q :: r =>
      let n := s.nfree
      ({ s with nfree := n + 1 } : State).takeEntry die l ((q :: r).getD (Config.pick n % (r.length + 1)) q)
def execPilotEntry (die lane : Nat) (s : State) : Host.Outcome State Fault Refusal := .next (s.pilotEntry die lane)

/-! ## After the program (R400, R404) -/

/-- The words of a QWS block. -/
def qwOf (bs : List Byte) : List Word := (List.range 8).map (fun i => BitVec.ofNat 64 (leNat ((bs.drop (8 * i)).take 8)))

/-- Step 4: HEAD + 1, the QW words, and LASTDROP for a DROP. -/
def Lane.update (l : Lane) (c : Qcb) : Qcb :=
  { c with
    head := (c.head + 1) % 2 ^ 32, qw := qwOf l.qws
    lastdrop := match l.emit with | .drop code => code | _ => c.lastdrop }

/-- The card of an EMIT_COPY (R404): `none` while the die has no room for the job. -/
def State.emitCopy (s : State) (die tcid qslot idx va : Nat) : Option State :=
  match (if va % 128 = 0 then tenantRead s die tcid va 128 else none) with
  | none => some (s.noticeWrite die tcid 6 0 qslot idx)
  | some bs =>
    let s := s.touchTenant die tcid va 128
    let ws := (List.range 16).map (fun i => leNat ((bs.drop (8 * i)).take 8))
    let c := s.ctx die tcid
    match cardReject c none ws with
    | some _ => some s
    | none =>
      if jobRoom s die tcid = false then none
      else
        let h := freeHandle s die s.nfree
        let f := s.fresh
        let j := mkJob die tcid none h f.1 0 0 (c.tokens / 16) 0 0 0 0 ws va true
        some { f.2 with jobs := storeSet f.2.jobs f.1 j, nfree := f.2.nfree + 129 }

/-- Step 5: the emit of an entry; `none` while it waits. -/
def State.performEmit (s : State) (die pq : Nat) (c : Qcb) (e : Emit) : Option State :=
  match e with
  | .launch va => some (s.launchSubmit die c.tcid va (pq == 0))
  | .copy va => s.emitCopy die c.tcid c.qslot ((c.head + 2 ^ 32 - 1) % 2 ^ 32) va
  | .bell sqid tail data =>
    let f := s.fresh
    some { f.2 with bells := storeSet f.2.bells f.1 ⟨⟨die, c.tcid, sqid, tail, 0, data, true, true⟩, noSid, 0, 0, none, 0, false⟩ }
  | _ => some s

/-- The lane is free, and a queue that QDESTROY has cleared exists no more (R408). -/
def State.laneFree (s : State) (die l pq : Nat) : State :=
  s.modDie die (fun d =>
    let gone := pq != 0 && (d.queueOwner pq).isNone
    { d with
      lanes := storeSet d.lanes l Lane.reset
      queues := if gone then storeErase d.queues pq else storeMod d.queues pq (fun q => { q with lane := none }) })

/-- A lane's turn (R400): one instruction, or one of the steps that follow the program. -/
def State.laneTurn (ex : Instr → State → Host.Outcome State Fault Refusal) (s : State) (die l : Nat) : Host.Outcome State Fault Refusal :=
  let s : State := { s with laneDie := die, laneNum := l }
  let ln := s.lane
  match ln.stage with
  | .idle => .next s
  | .run =>
    match (ln.prog[ln.pc]?).bind decodePilot with
    | some i => ex i s
    | none => .next (s.modLane (fun l => { l with stage := .scratch }))
  | .scratch => .next ((s.modQueue die ln.pq (fun q => { q with scratch := ln.scr })).modLane (fun l => { l with stage := .update }))
  | .update => .next ((s.modQueue die ln.pq (fun q => q.update ln.update)).modLane (fun l => { l with stage := .emit }))
  | .emit =>
    match (s.queue die ln.pq).active with
    | none => .next (s.laneFree die l ln.pq)
    | some (_, c) =>
      match s.performEmit die ln.pq c ln.emit with
      | some s' => .next (s'.laneFree die l ln.pq)
      | none => .next s

/-- The lanes of a die stop at once (R400, R410): an entry whose control block was not yet written runs again, its stores made or
not; the inactive copy may be left half written; an emit that was still to come is lost. The losses by QSLOT and index. -/
def State.lanesStop (s : State) (die : Nat) : State × List (Nat × Nat × Nat) :=
  (s.die die).lanes.foldl (fun (p : State × List (Nat × Nat × Nat)) e =>
    let s := p.1
    let ln := e.2
    let n := s.nfree
    let s : State := { s with nfree := n + 2 }
    let half (q : Queue) : Queue :=
      match q.active with
      | some (true, c) => let x := (ln.update c).sealed (c.gen + 1); { q with b := { x with chk := (x.chk + 1) % 2 ^ 32 } }
      | some (false, c) => let x := (ln.update c).sealed (c.gen + 1); { q with a := { x with chk := (x.chk + 1) % 2 ^ 32 } }
      | none => q
    match ln.stage with
    | .scratch =>
      ((if Config.pick n % 2 = 1 then s.modQueue die ln.pq (fun q => { q with scratch := ln.scr }) else s).laneFree die e.1 ln.pq, p.2)
    | .update => ((if Config.pick n % 2 = 1 then s.modQueue die ln.pq half else s).laneFree die e.1 ln.pq, p.2)
    | .emit =>
      let lost := match ln.emit, (s.queue die ln.pq).active with
        | .drop _, _ => []
        | .none, _ => []
        | _, some (_, c) => if ln.pq = 0 then [] else [(c.tcid, c.qslot, (c.head + 2 ^ 32 - 1) % 2 ^ 32)]
        | _, none => []
      (s.laneFree die e.1 ln.pq, p.2 ++ lost)
    | .run => (s.laneFree die e.1 ln.pq, p.2)
    | .idle => (s, p.2)) (s, [])

end Sys2Proof.Machine
end

