-- ==== Sys2Proof/Machine/Peers.lean ====
section
/-! DEFINITION. What comes in over a link port: transactions of other packages (R275, R276, R293, R295 to R297), served as those of the package
are. Log entries 7 and 60. -/
namespace Sys2Proof.Machine

/-! ## The sender (R274) -/

/-- The die number under which another package's die stands: 1,024 and its domain index. -/
def Inbound.die (p : Inbound) : Nat := 1024 + p.sdie % 1024
/-- The number of its strand. -/
def Inbound.sid (p : Inbound) : Nat := 2 ^ 70 + (p.die * 1024 + p.stcid % 1024) * 2 ^ 32 + p.strand
/-- The number under which the sender's window stands here: one for each member and destination, which do not change while anything waits. -/
def Inbound.win (p : Inbound) : Nat :=
  p.swin % 16 + 16 * (1 + (((p.member * 1024 + p.ddie) * 1024 + p.dtcid) * 8 + p.dspace) * 4 + p.dcl)
/-- What the receiver knows of the sender's window: its destination (R278). -/
def Inbound.cfg (p : Inbound) : Word :=
  BitVec.ofNat 64 (p.dspace % 8 * 2 ^ 52 + p.ddie % 1024 * 2 ^ 42 + p.dtcid % 1024 * 2 ^ 32 + p.dcl % 4)
/-- The destination, from whose start the offsets count. -/
def Inbound.dest (p : Inbound) : Dest' := ⟨p.ddie % 1024, p.dtcid % 1024, 0⟩

/-- The gang of a word (R276). -/
def wordGang (w : BitVec 32) : Nat := fld w.toNat 16 16
/-- The handler index of a word (R276). -/
def wordHnd (w : BitVec 32) : Option Nat := if w.getLsbD 7 then some (fld w.toNat 3 4) else none

/-! ## The way in (R275, R295 to R297) -/

/-- A link port that works. -/
def State.portUp (s : State) (p : Nat) : Bool :=
  if p < 16 then s.pkg.ports.getD p .down != .down else s.pkg.uePorts.getD (p - 16) false

/-- The check points on the way in: the link port, and the quay dies from it to the die (R295). -/
def inPoints (port rd : Nat) : List Nat := (4 + port) :: (quayPath rd (if port < 16 then port / 4 else (port - 16) / 2)).reverse

/-- The receiver's map has a key for the partition and link key of a word (R296). -/
def State.lkeyHere (s : State) (w : BitVec 32) : Bool :=
  s.ctxs.any (fun e => e.2.bound && e.2.part == wordPart w && (storeFind e.2.lkeys (wordLkey w)).isSome)

/-- A drop counted at a check point (R295); the sender's PDROP is in its own package. -/
def State.countDrop (s : State) (p : Nat) : State :=
  { s with pkg := { s.pkg with pdrops := storePut 0 s.pkg.pdrops p ((storeGet 0 s.pkg.pdrops p + 1) % 2 ^ 32) } }

/-! ## Acts at the destination -/

/-- The sender's window as this package knows it. -/
def State.peerWin (s : State) (p : Inbound) : State := s.modWin p.die (p.stcid % 1024) p.win (fun w => { w with cfg := p.cfg })

/-- The transaction of an inbound that the port or a berth holds already (R288, R289). -/
def State.peerXact (s : State) (p : Inbound) : Option Nat :=
  (s.xacts.find? (fun e => e.2.die == p.die && e.2.tcid == p.stcid % 1024 && e.2.win == p.win && e.2.seq == p.seq % 2 ^ 32)).map (fun e => e.1)

/-- A copy that its receiver has taken or keeps to take later: only the next expected one (R36, R288, R293). -/
def State.peerKept (s : State) (xid rd : Nat) : Bool :=
  match storeFind s.xacts xid with
  | some x =>
    (match storeFind x.copies 0 with
     | some .sent => storeGet 0 s.filters (s.xactFilter x 0 rd) == x.seq
     | some .performed => true
     | some .berthed => true
     | _ => false)
  | none => false

/-- A window store, atomic or VRED arrives (R285, R286, R293): as WINDOW_ARRIVAL has it. What is refused or out of order goes back
to its sender, which keeps it. A load reads the destination and changes no more than A (R130). -/
def State.peerAccess (s : State) (p : Inbound) (rd : Nat) (w : BitVec 32) (kind : ReqKind) (els : List El) : State :=
  let s := s.peerWin p
  let f := match s.peerXact p with
    | some id => (id, s)
    | none => s.fresh
  let x : Xact := ⟨p.die, p.stcid % 1024, p.win, p.seq % 2 ^ 32, p.sid, 0, kind, els, wordGang w, wordHnd w, 0, 0, f.1, [(0, .sent)], p.die, s.time, w, none, []⟩
  if kind = .load then
    match s.xactMet x p.dest with
    | none => s.xactServe x p.dest
    | some _ => s
  else
    let s : State := { f.2 with xacts := if (storeFind f.2.xacts f.1).isSome then f.2.xacts else storeSet f.2.xacts f.1 x }
    let s := s.windowArrival f.1 0
    if s.peerKept f.1 rd then s else { s with xacts := storeErase s.xacts f.1 }

/-- A gap transaction takes an undeliverable copy's number; a resynchronisation sets the number expected (R290, R294). -/
def State.peerFilter (s : State) (p : Inbound) (rd : Nat) (resync : Bool) : State :=
  let k := filterKey rd (p.sdie % 1024) (p.stcid % 1024) p.win 0
  if resync then { s with filters := storeSet s.filters k (p.seq % 2 ^ 32) }
  else if storeGet 0 s.filters k = p.seq % 2 ^ 32 then { s with filters := storeSet s.filters k ((p.seq + 1) % 2 ^ 32) }
  else s

/-- A fragment arrives (R308 to R310); one that fails goes back to its sender. -/
def State.peerFragment (s : State) (p : Inbound) (w : BitVec 32) (off : Nat) (bytes : List Byte) (op : Option Nat)
    (tag ncon rflag nidx : Nat) : State :=
  let f := (s.peerWin p).fresh
  let g : Frag := ⟨p.die, p.stcid % 1024, p.sid, 0, 0, 0, p.win, wordGang w, off, rflag, nidx, ncon, op, tag, bytes, [(0, .sent)], w, []⟩
  ({ f.2 with frags := storeSet f.2.frags f.1 g } : State).fragmentArrival f.1 0

/-- A bell arrives (R314, R397): it is under way, then judged or held as any is. -/
def State.peerBell (s : State) (p : Inbound) (rd : Nat) (w : BitVec 32) (sqid tail : Nat) (data : Word) : State :=
  let f := s.fresh
  let m : BellMsg := ⟨rd, p.dtcid % 1024, sqid, tail % 2 ^ 32, 0, data, true, true⟩
  ({ f.2 with bells := storeSet f.2.bells f.1 ⟨m, p.sid, 0, 0, none, w, false⟩ } : State).bellArrive m

/-- An access to a page of this die's HBM by its physical address (R130, R131): a store, or a read-modify-write at its home (R144). -/
def State.peerMemory (s : State) (p : Inbound) (rd : Nat) (kind : ReqKind) (els : List El) : State :=
  let f := s.fresh
  let wr : Writer := ⟨f.1, some p.sid, p.die, kind == .store, none, none⟩
  let at_ (e : El) : Nat := hbmAddr rd e.off
  if els.any (fun e => decide (hbmBytes < e.off + e.w)) then s
  else
    match kind with
    | .load => s
    | .store => f.2.homeWrite wr (els.map (fun e => (at_ e, e.w, e.data)))
    | _ => (rmwEls wr 4 false kind f.2 (els.map (fun e => (bytesFrom (at_ e) e, e)))).2

/-- What an inbound does at a die of the package. -/
def State.peerAct (s : State) (p : Inbound) (rd : Nat) (w : BitVec 32) : State :=
  match p.act with
  | .access kind els => s.peerAccess p rd w kind els
  | .gap => s.peerFilter p rd false
  | .resync => s.peerFilter p rd true
  | .fragment off bytes op tag ncon rflag nidx => s.peerFragment p w off bytes op tag ncon rflag nidx
  | .bell sqid tail data => s.peerBell p rd w sqid tail data
  | .peer kind els => s.peerMemory p rd kind els
  | .publish => s.publish p.sid 4

/-- A transaction of another package comes in: on a port that does not negotiate the extension word it is taken with the port's defaults (R275);
a check point or an invalid link key drops it and counts it (R295, R296); one whose tag fails is dropped and counted (R297); any other is
served. -/
def State.inbound (s : State) (p : Inbound) : State :=
  match s.dieOfDomain p.ddie with
  | none => s
  | some rd =>
    if s.portUp p.port = false ∨ (s.dieOfDomain p.sdie).isSome = true then s
    else
      let w := s.portWord p.port p.word
      match (inPoints p.port rd).find? (fun x => !(s.pkg.permits.getD x []).contains (wordPart w)) with
      | some x => s.countDrop x
      | none =>
        if s.lkeyHere w = false then s.countDrop (4 + p.port)
        else
          let n := s.nfree
          let s : State := { s with nfree := n + 1 }
          if Config.pick n % 2 = 1 then s.modDie rd (fun d => { d with tagDrops := (d.tagDrops + 1) % 2 ^ 32 })
          else s.peerAct p rd w

end Sys2Proof.Machine
end

