-- ==== Sys2Proof/Machine/Harbour.lean ====
section
/-! DEFINITION. The harbourmaster: boot and election (R381, R382), SPDM (R383, R384), tenant binding (R385 to R389), per-tenant reset
(R375, R376), the services (R405 to R408), and watchdogs and recovery (R409 to R412). -/
namespace Sys2Proof.Machine

/-! ## Boot and election (R381, R382) -/

/-- A measurement block extended (R384). -/
def measureExt (ms : List (List (List Nat))) (i : Nat) (data : List Nat) : List (List (List Nat)) := ms.set i (ms.getD i [] ++ [data])

/-- The value of a measurement block in a hash: the chain of its extensions from zero, or for the link configuration and the die
identity one digest (R384). -/
def measureValue (hash i : Nat) (log : List (List Nat)) : Nat :=
  if 5 ≤ i then (match log with | d :: _ => Config.digest (hash :: d) | [] => 0)
  else log.foldl (fun a x => Config.digest [hash, a, Config.digest (hash :: x)]) 0

/-- A die's measurement blocks in the hash that its responder has negotiated. -/
def Die.measured (d : Die) : List Nat := d.measure.zipIdx.map (fun m => measureValue d.algs.hash m.2 m.1)

/-- The partitions that item 4 has installed for contexts: what the permit sets hold (R295; log entry 16). -/
def State.partitions (s : State) : List Nat :=
  ((s.ctxs.filter (fun e => e.2.bound && (storeFind e.2.items 1024).isSome)).map (fun e => e.2.part)).eraseDups

/-- The permit set of every check point follows the partitions. -/
def State.setPermits (s : State) : State :=
  let ps := s.partitions
  { s with pkg := { s.pkg with permits := List.replicate 28 ps } }

/-- RESET_RELEASE (R381): a failed check of the firmware stops the die in boot failure. A compute die that passes is in step 4, which
trains the links; a quay die, which has no complex, has no further step before its responder's (log entry 92). -/
def State.resetRelease (s : State) (die : Nat) : State :=
  if s.pkg.pwrgood = false ∨ (s.die die).boot ≠ .off then s
  else
    let n := s.nfree
    let s : State := { s with nfree := n + 1 }
    let up (b : BootSt) (ms : List (List (List Nat))) : State :=
      s.modDie die (fun _ => { Die.reset with boot := b, bootSince := s.time, measure := ms })
    if Config.bootPasses die n = false then (up (.failed 2) Die.reset.measure).report (.bootFailure die 2 (Config.bootReason die n))
    else
      let ms := measureExt (measureExt Die.reset.measure 0 [1, die]) 1 [2, die]
      if die < 8 then up (.booting 4) ms else up .inService (ms.set 6 [[16, Config.serialNo die, die]])
/-- The links have been trained: block 6 is fixed, the device OS is loaded and checked, and the die is at step 6 (R381, R384). -/
def State.bootNext (s : State) (die : Nat) : State :=
  if (s.die die).boot ≠ .booting 4 then s
  else
    let n := s.nfree
    let s : State := { s with nfree := n + 1 }
    let s := s.modDie die (fun d => { d with measure := d.measure.set 5 [s.pkg.ports.map (fun p => if p = .extended then 1 else 0)] })
    if Config.bootPasses die n = false then (s.modDie die (fun d => { d with boot := .failed 5 })).report (.bootFailure die 5 (Config.bootReason die n))
    else s.modDie die (fun d =>
      { d with boot := .booting 6, measure := measureExt d.measure 2 [3, die], harts := hartsUp })
def execResetRelease (die : Nat) (s : State) : Host.Outcome State Fault Refusal := .next (s.resetRelease die)

/-- BOOT_TIMEOUT (R381): not in service 20 s after the release of reset. -/
def State.bootTimeout (s : State) (die : Nat) : State :=
  match (s.die die).boot with
  | .off | .inService | .outOfService => s
  | _ =>
    if s.time < (s.die die).bootSince + 20000000 then s
    else (s.modDie die (fun d => { d with boot := .outOfService })).report (.outOfService die)
def execBootTimeout (die : Nat) (s : State) : Host.Outcome State Fault Refusal := .next (s.bootTimeout die)

/-- The lowest-numbered of some dies. -/
def lowest (ds : List Nat) : Option Nat := (List.range 8).find? (fun d => ds.contains d)

/-- A die takes its leader. -/
def Die.elect (d : Die) : Die := { d with leader := lowest d.candidates }

/-- A die has reached step 6. -/
def BootSt.atElection : BootSt → Bool
  | .booting 6 => true
  | _ => false

/-- CANDIDACY (R382): a die hears of a candidate; with all eight it chooses at once. -/
def State.candidacy (s : State) (die frm : Nat) : State :=
  let up (b : BootSt) : Bool := b.atElection || b == .inService
  if (s.die die).boot.atElection = false ∨ up (s.die frm).boot = false ∨ (s.die die).leader.isSome = true ∨
      (s.die die).candidates.contains frm = true then s
  else
    s.modDie die (fun d =>
      let d := { d with candidates := d.candidates ++ [frm], firstCand := d.firstCand.orElse (fun _ => some s.time) }
      if d.candidates.length = 8 then d.elect else d)
def execCandidacy (die frm : Nat) (s : State) : Host.Outcome State Fault Refusal := .next (s.candidacy die frm)

/-- ELECTION_TIMEOUT (R382): 500 ms after the first candidacy. -/
def State.electionTimeout (s : State) (die : Nat) : State :=
  match (s.die die).firstCand with
  | some t =>
    if (s.die die).boot.atElection = true ∧ (s.die die).leader = none ∧ t + 500000 ≤ s.time then s.modDie die Die.elect else s
  | none => s
def execElectionTimeout (die : Nat) (s : State) : Host.Outcome State Fault Refusal := .next (s.electionTimeout die)

/-- The blocks of a quay die that the package number completes: the link configuration and the identity (R384; log entry 92). -/
def State.quayMeasure (s : State) (d p : Nat) : State :=
  let ports := s.pkg.ports.map (fun x => if x = .extended then 1 else 0)
  s.modDie d (fun x => if x.boot = .inService ∧ x.void = false then { x with measure := (x.measure.set 5 [ports]).set 6 [[16, Config.serialNo d, d, p]] } else x)

/-- A die that has its leader and its domain index goes through steps 7 and 8 (R381, R384). -/
def Die.enterService (d : Die) (die p time : Nat) : Die :=
  { d with
    boot := .inService, domain := some (8 * p + die), measure := (measureExt d.measure 3 [4, die]).set 6 [[16, Config.serialNo die, die, p]]
    serviceAt := time, refillAt := time, remtAt := time, watchdogAt := time, lastReconcile := time, lastStep := time }

/-- PACKAGE_NUMBER (R274, R382): the leader sends p to every die. -/
def State.packageNumber (s : State) (p : Nat) : State :=
  if (List.range 8).any (fun d => (s.die d).leader == some d && ((s.die d).boot.atElection || s.inService d)) = false then s
  else
    let p := s.pkg.number.getD p
    [8, 9, 10, 11].foldl (fun s d => s.quayMeasure d p) ((List.range 8).foldl (fun s d =>
      if (s.die d).boot.atElection && (s.die d).leader.isSome && !(s.die d).void then s.modDie d (fun x => x.enterService d p s.time) else s)
      { s with pkg := { s.pkg with number := some p } })
def execPackageNumber (p : Nat) (s : State) : Host.Outcome State Fault Refusal := .next (s.packageNumber p)

/-! ## Per-tenant reset (R375, R376) -/

/-- Step 1: the context's strands stop, its jobs end with status 0x04, and its lanes stop. -/
def State.ctxStop (s : State) (die tcid : Nat) : State :=
  let s := (s.ctxStrands die tcid).foldl (fun s k => s.stopStrand k) s
  let s := (s.jobs.filter (fun e => e.2.die == die && e.2.tcid == tcid)).foldl (fun s e => s.killJob e.1) s
  let mine (pq : Nat) : Bool := match (s.die die).queueOwner pq with | some x => x.1 == tcid | none => false
  s.modDie die (fun d =>
    { d with
      lanes := d.lanes.map (fun e => if mine e.2.pq && e.2.stage != .idle then (e.1, Lane.reset) else e)
      queues := d.queues.map (fun e => if mine e.1 then (e.1, { e.2 with lane := none }) else e) })

/-- A bound context enters ERROR, and the frames of its strands are free (R322, R385). -/
def State.ctxError (s : State) (die tcid : Nat) : State :=
  ((s.ctxStop die tcid).modCtx die tcid (fun c => { c with bind := .error })).scanAll

/-- Steps 2 and 3: what the context has sent is performed or killed, by a free choice; peers forget its numbers. -/
def State.ctxDrain (s : State) (die tcid : Nat) : State :=
  let mine (x : Xact) : Bool := x.die == die && x.tcid == tcid
  let s := (s.xacts.filter (fun e => mine e.2)).foldl (fun s e =>
    e.2.copies.foldl (fun s c =>
      let n := s.nfree
      let s : State := { s with nfree := n + 1 }
      if c.2 = .sent ∧ Config.pick n % 2 = 1 then s.windowArrival e.1 c.1 else s) s) s
  let key (k : Nat) : Nat × Nat := (k / 2 ^ 20 % 1024, k / 1024 % 1024)
  { s with
    xacts := s.xacts.filter (fun e => !mine e.2)
    frags := s.frags.filter (fun e => !(e.2.die == die && e.2.tcid == tcid))
    filters := s.filters.filter (fun e => key e.1 != (s.domainIdx die, tcid)) }

/-- The windows of other contexts whose duplicate filters the context held turn uncertain (R294, R376). -/
def State.peersTold (s : State) (die tcid : Nat) : State :=
  s.ctxs.foldl (fun s e =>
    e.2.wins.foldl (fun s w =>
      let d := e.1 / 1024
      let t := e.1 % 1024
      let hit := (s.members w.2).filter (fun m => s.dieOfDomain m.2.ddie == some die && m.2.tcid == tcid &&
        storeGet 0 s.filters (filterKey die (s.domainIdx d) t w.1 m.1) != 0)
      if hit.isEmpty ∨ e.1 = ctxKey die tcid then s
      else
        let s := hit.foldl (fun (s : State) m => { s with filters := storeErase s.filters (filterKey die (s.domainIdx d) t w.1 m.1) }) s
        s.windowUncertain d t w.1 ((s.openXacts d t w.1).map (fun x => x.1))) s) s

/-- Berthed copies whose berth is cleared are back on their way, to be refused; acknowledged ones are settled. -/
def State.berthDrop (s : State) (die tcid : Nat) : State :=
  let c := s.ctx die tcid
  let s : State := (c.berthL.filter (fun r => r.frag)).foldl (fun (s : State) r =>
    s.modFrag r.id (fun f => if storeFind f.copies r.member = some .berthed then { f with copies := storeSet f.copies r.member .sent } else f)) s
  let s : State := (c.berthL.filter (fun r => !r.frag)).foldl (fun (s : State) r =>
    match (storeFind s.xacts r.id).bind (fun x => storeFind x.copies r.member) with
    | some .berthed => s.setCopy r.id r.member .sent
    | some .stored => (s.setCopy r.id r.member .acked).settleXact r.id
    | _ => s) s
  (List.range 16).foldl (fun s i =>
    match (storeFind c.items 1280).bind (fun _ => deviceVa s die tcid (c.bva + 4096 * i)) with
    | some a => s.zeroRange a 4096
    | none => s) s

/-- Entries of the group table that no window names are free (R280; log entry 35). -/
def State.tidyGroups (s : State) : State :=
  { s with pkg := { s.pkg with groups := s.pkg.groups.filter (fun g => s.ctxs.any (fun e => e.2.wins.any (fun w => w.2.mc && w.2.ddie == g.1))) } }

/-- Steps 4 and 5, and the release of everything the context holds: what it had reads zero, its TCID is free, and with its tenant's last
context in the package the tenant's index (R23). -/
def State.ctxRelease (s : State) (die tcid : Nat) : State :=
  let c := s.ctx die tcid
  let s := (s.finishXacts).berthDrop die tcid
  let s := if c.resident then s.zeroRegions die tcid else s
  let s := match c.evictAt with | some a => s.zeroRange a (4 * c.csize + c.dsize) | none => s
  let last := !s.ctxs.any (fun e => e.1 != ctxKey die tcid && e.1 / 1024 == die && e.2.bound && e.2.tenant == c.tenant)
  let lastTen := !s.ctxs.any (fun e => e.1 != ctxKey die tcid && e.2.bound && e.2.tenant == c.tenant)
  let lastAll := !s.ctxs.any (fun e => e.1 != ctxKey die tcid && e.2.bound && e.2.tenant == c.tenant && e.2.qenr)
  let mine (d : Die) (pq : Nat) : Bool := match d.queueOwner pq with | some x => x.1 == tcid | none => false
  let s := s.modDie die (fun d =>
    { d with
      tlb := d.tlb.filter (fun e => e.tcid != tcid)
      crews := d.crews.filter (fun e => e.1 / 256 != tcid)
      gangs := d.gangs.filter (fun g => !c.gangs.contains g.gid)
      queues := d.queues.filter (fun e => !mine d e.1)
      supTable := d.supTable.filter (fun e => e.1 / 4096 != tcid)
      pilots := d.pilots.filter (fun e => e.2.tcid != tcid)
      slices := if last then d.slices.map (fun sl =>
        { sl with
          weight := storeErase sl.weight c.tenant, critical := sl.critical.filter (fun t => t != c.tenant)
          target := storeErase sl.target c.tenant, missed := sl.missed.filter (fun t => t != c.tenant), reads := storeErase sl.reads c.tenant }) else d.slices })
  let s : State := { s with
    cores := s.cores.map (fun e => if e.1 / 64 = die then (e.1, { e.2 with rows := e.2.rows.filter (fun r => r.1 != tcid) }) else e)
    jobs := s.jobs.filter (fun e => !(e.2.die == die && e.2.tcid == tcid))
    groups := s.groups.filter (fun e => !(e.2.die == die && e.2.tcid == tcid))
    portHeld := s.portHeld.filter (fun h => !(h.die == die && h.tcid == tcid))
    ctxs := storeErase s.ctxs (ctxKey die tcid) }
  ((({ s with pkg := { s.pkg with
      tenants := if lastTen then storeErase s.pkg.tenants c.tenant else s.pkg.tenants
      quayKeys := if lastAll then s.pkg.quayKeys.filter (fun k => k.1 != c.tenant) else s.pkg.quayKeys } } : State).tidyGroups).setPermits).scanAll

/-- The launches that have a part in a context. -/
def State.ctxLaunches (s : State) (die tcid : Nat) : List Nat :=
  (s.launches.filter (fun e => (e.2.die == die && e.2.tcid == tcid) || (e.2.dies.contains die && s.launchCtx e.2 die == some tcid))).map
    (fun e => e.1)

/-- A launch ends with RESET: its record is written, and shares that wait for their first admission leave their dies. Strands of it in other
tenant contexts do not stop, those that a checkpoint has saved come back (R333), and the launch lasts until they retire (R319, R375). -/
def State.resetLaunch (s : State) (die lid : Nat) : State :=
  let l := s.launch lid
  let s := if l.doneva = 0 then s else s.writeRecord l.die l.tcid l.doneva 0x52 0
  let s := l.dies.foldl (fun s d => s.modDie d (fun x => { x with shares := x.shares.filter (fun h => !(h.lid == lid && (d == die || (h.pending && !h.again)))) })) s
  if (s.allStrands lid).isEmpty then { s with launches := storeErase s.launches lid }
  else s.modLaunch lid (fun l => { l with doneva := 0 })

/-- The core-scratch regions that strands of a context hold. -/
def State.heldRegions (s : State) (die tcid : Nat) : List (Nat × Nat) :=
  (s.ctxStrands die tcid).filterMap (fun k =>
    let t := s.strand k
    if t.home.isSome then some (s.scratchAddr t 0 0, t.csu * 32768) else none)

/-- The reset of R375, after which the context is unbound (R385). -/
def State.tenantReset (s : State) (die tcid : Nat) : State :=
  let rs := s.heldRegions die tcid
  let s := (s.ctxStop die tcid).ctxDrain die tcid
  let s := rs.foldl (fun s r => s.zeroRange r.1 r.2) s
  let s := (s.ctxLaunches die tcid).foldl (fun s l => s.resetLaunch die l) s
  (s.peersTold die tcid).ctxRelease die tcid

/-! ## SPDM (R383, R384) -/

/-- A responder accepts requests: its die is in service and does not recover (R381, R411; log entry 5). -/
def State.responds (s : State) (r : Nat) : Bool := s.inService r && !(s.die r).recovering

/-- A session of a responder. -/
def State.session (s : State) (r sess : Nat) : Option Session := (s.die r).sessions.find? (fun x => x.sess == sess)
def State.modSession (s : State) (r sess : Nat) (f : Session → Session) : State :=
  s.modDie r (fun d => { d with sessions := d.sessions.map (fun x => if x.sess = sess then f x else x) })

/-- A request in no session, over MCTP, or in a session that lives, over MCTP or a fabric: the session's time starts anew (R383). -/
def State.spdm (s : State) (q : Spdm) (f : State → State) : State :=
  if s.responds q.resp = false then s
  else if q.sess = 0 then (if q.via = .mctp then f s else s)
  else if (s.session q.resp q.sess).isSome then f (s.modSession q.resp q.sess (fun x => { x with last := s.time })) else s

/-- A reply whose content is free (log entry 5). -/
def State.spdmAnswer (s : State) (kind : Nat) (q : Spdm) : State :=
  s.spdm q (fun s => s.report (.spdm kind q.resp q.sess [Config.spdmReply kind q.resp q.arg]))

def execGetVersion (q : Spdm) (s : State) : Host.Outcome State Fault Refusal := .next (s.spdmAnswer 1 q)
def execGetCapabilities (q : Spdm) (s : State) : Host.Outcome State Fault Refusal := .next (s.spdmAnswer 2 q)
/-- NEGOTIATE_ALGORITHMS (R383): what the requester chooses, a bit for each kind of algorithm, holds for the responder. -/
def execNegotiateAlgorithms (q : Spdm) (s : State) : Host.Outcome State Fault Refusal :=
  .next (s.spdm q (fun s =>
    (s.modDie q.resp (fun d => { d with algs := ⟨q.arg % 2, q.arg / 2 % 2, q.arg / 4 % 2, q.arg / 8 % 2⟩ })).report
      (.spdm 3 q.resp q.sess [Config.spdmReply 3 q.resp (q.arg % 16)])))
def execGetDigests (q : Spdm) (s : State) : Host.Outcome State Fault Refusal := .next (s.spdmAnswer 4 q)
def execGetCertificate (q : Spdm) (s : State) : Host.Outcome State Fault Refusal := .next (s.spdmAnswer 5 q)
def execChallenge (q : Spdm) (s : State) : Host.Outcome State Fault Refusal := .next (s.spdmAnswer 6 q)

/-- GET_MEASUREMENTS (R384): blocks 1 to 6 and 0x10, or the one that is asked for, and a signature. -/
def execGetMeasurements (q : Spdm) (s : State) : Host.Outcome State Fault Refusal :=
  .next (s.spdm q (fun s =>
    let ms := (s.die q.resp).measured
    let out := if 1 ≤ q.arg ∧ q.arg ≤ 6 then [ms.getD (q.arg - 1) 0] else if q.arg = 16 then [ms.getD 6 0] else ms
    s.report (.spdm 7 q.resp q.sess (out ++ [Config.signature q.resp ((s.die q.resp).algs.asym :: out)]))))

/-- KEY_EXCHANGE (R383): a session of at most 64; `arg` names the requester, which stands for a tenant. -/
def execKeyExchange (q : Spdm) (s : State) : Host.Outcome State Fault Refusal :=
  .next (s.spdm q (fun s =>
    if 64 ≤ (s.die q.resp).sessions.length then s.report (.spdm 8 q.resp 0 [])
    else
      let f := s.fresh
      (f.2.modDie q.resp (fun d => { d with sessions := d.sessions ++ [⟨f.1, q.arg, false, s.time⟩] })).report (.spdm 8 q.resp f.1 [])))

/-- FINISH (R383): the session is secured. -/
def execFinish (q : Spdm) (s : State) : Host.Outcome State Fault Refusal :=
  .next (s.spdm q (fun s =>
    if q.sess = 0 then s else (s.modSession q.resp q.sess (fun x => { x with secured := true })).report (.spdm 9 q.resp q.sess [])))

/-- KEY_UPDATE and HEARTBEAT (R383). -/
def State.sessionOnly (s : State) (kind : Nat) (q : Spdm) : State :=
  s.spdm q (fun s => if q.sess = 0 then s else s.report (.spdm kind q.resp q.sess []))
def execKeyUpdate (q : Spdm) (s : State) : Host.Outcome State Fault Refusal := .next (s.sessionOnly 10 q)
def execHeartbeat (q : Spdm) (s : State) : Host.Outcome State Fault Refusal := .next (s.sessionOnly 11 q)

/-- A session ends: contexts it locked that are not started return to UNBOUND (R385). -/
def State.sessionEnd (s : State) (die sess : Nat) : State :=
  let s := s.modDie die (fun d => { d with sessions := d.sessions.filter (fun x => x.sess != sess) })
  (s.ctxs.filter (fun e => e.1 / 1024 == die && e.2.sess == sess && (e.2.bind == .locked || e.2.bind == .attested))).foldl
    (fun s e => s.ctxRelease die (e.1 % 1024)) s

def execEndSession (q : Spdm) (s : State) : Host.Outcome State Fault Refusal :=
  .next (s.spdm q (fun s => if q.sess = 0 then s else (s.sessionEnd q.resp q.sess).report (.spdm 12 q.resp q.sess [])))

/-- SESSION_HEARTBEAT_LAPSE (R383): 60 s without a message. -/
def execSessionHeartbeatLapse (die sess : Nat) (s : State) : Host.Outcome State Fault Refusal :=
  .next (match s.session die sess with
    | some x => if x.last + 60000000 ≤ s.time then s.sessionEnd die sess else s
    | none => s)

/-! ## Binding (R385 to R389) -/

/-- The answer to a binding command: its status and a value (R386). -/
def State.answer (s : State) (b : Bind) (status value : Nat) : State := s.report (.command b.die b.tcid status value)

/-- A command in a secured session of a die that accepts requests. -/
def State.secured (s : State) (die sess : Nat) : Option Session :=
  if s.responds die then (s.session die sess).filter (fun x => x.secured) else none
/-- Its session's time starts anew. -/
def State.heard (s : State) (die sess : Nat) : State := s.modSession die sess (fun x => { x with last := s.time })

/-- The feature word that the part offers (R388). -/
def offered : Nat := 0x7FFF
/-- The working word until ATTEST, then the negotiated word (R389). -/
def Ctx.word (c : Ctx) : Nat := c.negotiated.getD ((c.features.getD offered) &&& offered)

/-- The features that a window needs (R388). -/
def winNeeds (cfg : Word) : Nat := 8 + (if cfg.getLsbD 62 then 16 else 0) + (if cfg.getLsbD 58 then 128 else 0)
/-- An item that is installed. -/
def Ctx.has (c : Ctx) (item : Nat) : Bool := c.items.any (fun e => e.1 / 256 == item)
/-- The features that the installed items of a context need (R388, R389). -/
def State.itemNeeds (s : State) (die tcid : Nat) : Nat :=
  let c := s.ctx die tcid
  c.wins.foldl (fun n w => n ||| winNeeds w.2.cfg) 0 |||
  (if c.has 4 then (if c.suite = 1 then 2 ^ 11 else 2 ^ 12) else 0) |||
  (if c.has 17 then 2 ^ 5 else 0) ||| (if c.has 14 then 2 ^ 6 else 0) ||| (if c.has 13 then 2 ^ 13 else 0) |||
  (if c.critical.isEmpty then 0 else 2 ^ 14)
/-- A feature set inside a word. -/
def inWord (needs word : Nat) : Bool := needs &&& word == needs

/-- The package tenant index of a requester: the one that it holds (R23). -/
def State.tenantIdx (s : State) (requester : Nat) : Option Nat := (s.pkg.tenants.find? (fun e => e.2 == requester)).map (fun e => e.1)

/-- The index for a requester's next context: its own, or with its first context in the package a free one, by a free choice (R23). -/
def State.assignIdx (s : State) (requester : Nat) : Option (Nat × State) :=
  match s.tenantIdx requester with
  | some i => some (i, s)
  | none =>
    match (List.range 256).filter (fun i => (storeFind s.pkg.tenants i).isNone) with
    | [] => none
    | i0 :: l =>
      let i := (i0 :: l).getD (Config.pick s.nfree % (l.length + 1)) i0
      some (i, { s with nfree := s.nfree + 1, pkg := { s.pkg with tenants := storeSet s.pkg.tenants i requester } })

/-- What the contexts bound on a die hold of a resource, but for one of them. -/
def State.heldBy (s : State) (die tcid : Nat) (f : Ctx → Nat) : Nat :=
  (s.ctxs.filter (fun e => e.1 / 1024 == die && e.1 != ctxKey die tcid && e.2.bound)).foldl (fun n e => n + f e.2) 0

/-- The resources of a LOCK are reserved for a context, or none of them is (R385, R386; log entry 90). -/
def State.reserve (s : State) (t : Nat) (r : LockReq) : Option State :=
  if osBase < (s.heldBy r.die t (fun c => c.quota) + r.mem) * 2 ^ 21 ∨ 256 < s.heldBy r.die t (fun c => c.crewq) + r.crews then none
  else
    (s.allocRegions r.die t r.csize r.dsize).map (fun s =>
      (s.zeroRegions r.die t).modCtx r.die t (fun c => { c with quota := r.mem, crewq := r.crews }))

/-- LOCK (R23, R385, R386): a free TCID, by a free choice, for the session's tenant, with the resources requested. -/
def State.lock (s : State) (r : LockReq) : State :=
  match s.secured r.die r.sess with
  | none => s
  | some x =>
    let s := s.heard r.die r.sess
    match (List.range 1024).filter (fun t => !(s.ctx r.die t).bound) with
    | [] => s.report (.command r.die 0 3 0)
    | t0 :: l =>
      let n := s.nfree
      let t := (t0 :: l).getD (Config.pick n % (l.length + 1)) t0
      match (({ s with nfree := n + 1 } : State).assignIdx x.requester).bind (fun y =>
          (y.2.modCtx r.die t (fun _ => { Ctx.reset with bind := .locked, sess := r.sess, tenant := y.1 })).reserve t r) with
      | none => s.report (.command r.die 0 3 0)
      | some s => s.report (.command r.die t 0 t)
def execLock (r : LockReq) (s : State) : Host.Outcome State Fault Refusal := .next (s.lock r)

/-- An INSTALL of an item, under its number and part: refused outside LOCKED and the session that locked, or with the item's status;
an item with keys puts the context into ERROR when their installation fails (R385 to R387). -/
def State.install (s : State) (b : Bind) (item part : Nat) (content : List Nat) (keyed : Bool) (f : State → Nat × State) : State :=
  match s.secured b.die b.sess with
  | none => s
  | some _ =>
    let s := s.heard b.die b.sess
    let c := s.ctx b.die b.tcid
    if c.bind ≠ .locked ∨ c.sess ≠ b.sess then s.answer b 1 0
    else
      let n := s.nfree
      let r := f { s with nfree := n + 1 }
      if r.1 ≠ 0 then s.answer b r.1 0
      else if keyed && !Config.keyInstalls b.die n then (({ s with nfree := n + 1 } : State).ctxError b.die b.tcid).answer b 5 0
      else (r.2.modCtx b.die b.tcid (fun c => { c with items := storeSet c.items (item * 256 + part) (Config.digest content) })).answer b 0 0

/-- A change of the context under a limit and a feature. -/
def State.itemSet (b : Bind) (limit : Bool) (needs : Nat) (f : Ctx → Ctx) (s : State) : Nat × State :=
  if limit = false then (2, s)
  else if inWord needs (s.ctx b.die b.tcid).word = false then (4, s)
  else (0, s.modCtx b.die b.tcid f)

/-- A resource that a later item may exceed: status 3. -/
def within (ok : Bool) (x : Nat × State) (s : State) : Nat × State := if x.1 = 0 ∧ ok = false then (3, s) else x

def execInstallKeys (b : Bind) (keys : List (Nat × Nat)) (s : State) : Host.Outcome State Fault Refusal :=
  let ids := keys.map (fun k => k.1)
  .next (s.install b 1 0 ids true (fun s =>
    let mine := (s.ctx b.die b.tcid).tenant
    s.itemSet b (decide (keys.length ≤ 16) && decide (ids.eraseDups.length = ids.length) &&
      ids.all (fun i => decide (1 ≤ i) && decide (i ≤ 1023) &&
        !s.ctxs.any (fun e => e.2.bound && e.2.tenant != mine && e.2.keys.any (fun k => k.1 == i)))) 0 (fun c => { c with keys := keys })))
def execInstallLinkkeys (b : Bind) (j keyid key : Nat) (s : State) : Host.Outcome State Fault Refusal :=
  .next (s.install b 2 j [j, keyid] true (fun s =>
    s.itemSet b (decide (j < 8) && decide (keyid < 1024)) 0 (fun c => { c with lkeys := storeSet c.lkeys j (keyid, key) })))
def execInstallSavekeys (b : Bind) (key tag : Nat) (s : State) : Host.Outcome State Fault Refusal :=
  .next (s.install b 3 0 [] true (fun s => s.itemSet b true 0 (fun c => { c with saveKeys := some (key, tag) })))
/-- Item 4: the permit sets take the partition (R295, R387; log entry 16). -/
def execInstallPart (b : Bind) (part suite : Nat) (s : State) : Host.Outcome State Fault Refusal :=
  .next ((s.install b 4 0 [part, suite] false (fun s =>
    s.itemSet b (decide (part < 256) && decide (suite < 2)) (if suite = 1 then 2 ^ 11 else 2 ^ 12)
      (fun c => { c with part := part, suite := suite }))).setPermits)
/-- Item 5 (R114, R287): the regions are taken at once and read zero. -/
def execInstallRegions (b : Bind) (csize dsize bva : Nat) (s : State) : Host.Outcome State Fault Refusal :=
  .next (s.install b 5 0 [csize, dsize, bva] false (fun s =>
    if csize % 65536 ≠ 0 ∨ dsize % 65536 ≠ 0 ∨ bva % 65536 ≠ 0 ∨ 2 ^ 48 ≤ bva then (2, s)
    else
      match s.allocRegions b.die b.tcid csize dsize with
      | some s' => (0, (s'.zeroRegions b.die b.tcid).modCtx b.die b.tcid (fun c => { c with bva := bva }))
      | none => (3, s)))
/-- Item 6: quotas together lie below the device OS's part of the HBM (log entry 12). -/
def execInstallMemory (b : Bind) (quota : Nat) (s : State) : Host.Outcome State Fault Refusal :=
  .next (s.install b 6 0 [quota] false (fun s =>
    let rest := s.heldBy b.die b.tcid (fun c => c.quota)
    within (decide ((rest + quota) * 2 ^ 21 ≤ osBase)) (s.itemSet b true 0 (fun c => { c with quota := quota })) s))
/-- Item 7 (R316, R326, R328, R334, R348): ENBAL becomes 256 × CAP. -/
def execInstallAccount (b : Bind) (a : Account) (s : State) : Host.Outcome State Fault Refusal :=
  .next (s.install b 7 0 [a.cap, a.refill, a.fairpm, a.inc, a.crewq, a.tokens] false (fun s =>
    let rest := s.heldBy b.die b.tcid (fun c => c.crewq)
    within (decide (rest + a.crewq ≤ 256))
      (s.itemSet b (decide (a.fairpm ≤ 1000) && decide (a.inc ≤ 63) && decide (a.crewq ≤ 256) && decide (a.tokens ≤ 255)) 0 (fun c =>
        { c with
          energy := { c.energy with cap := a.cap, refill := a.refill, enbal := 256 * (a.cap : Int) }
          fairpm := a.fairpm, inc := a.inc, crewq := a.crewq, tokens := a.tokens })) s))
/-- Item 8 (R340, R342). -/
def execInstallBandwidth (b : Bind) (sl weight : Nat) (critical : Bool) (target : Nat) (s : State) : Host.Outcome State Fault Refusal :=
  .next (s.install b 8 sl [sl, weight, critical.toNat, target] false (fun s =>
    let t := (s.ctx b.die b.tcid).tenant
    let r := s.itemSet b (decide (sl < 2) && decide (1 ≤ weight) && decide (weight ≤ 255)) (if critical then 2 ^ 14 else 0) id
    let out (l : List Nat) (y : Nat) : List Nat := l.filter (fun x => x != y)
    (r.1, if r.1 = 0 then (s.modSlice (b.die, sl) (fun x =>
      { x with
        weight := storeSet x.weight t weight, target := storeSet x.target t target
        critical := if critical then out x.critical t ++ [t] else out x.critical t
        missed := if critical then x.missed else out x.missed t, reads := if critical then x.reads else storeErase x.reads t })).modCtx b.die b.tcid
          (fun c => { c with critical := if critical then out c.critical sl ++ [sl] else out c.critical sl }) else s)))
def execInstallGangs (b : Bind) (gangs : List Nat) (s : State) : Host.Outcome State Fault Refusal :=
  .next (s.install b 9 0 gangs false (fun s =>
    let mine := (s.ctx b.die b.tcid).tenant
    s.itemSet b (decide (gangs.length ≤ 16) && decide (gangs.eraseDups.length = gangs.length) &&
      gangs.all (fun g => decide (1 ≤ g) && decide (g < 65536) &&
        !s.ctxs.any (fun e => e.2.bound && e.2.tenant != mine && e.2.gangs.contains g))) 0 (fun c => { c with gangs := gangs })))

/-! ### Windows -/

/-- A multicast window whose group stands in the table for another window agrees with the entry (R280). -/
def groupAgrees (s : State) (b : Bind) (w : WinSet) : Bool :=
  let g := fld w.wcfg.toNat 42 10
  let others := s.ctxs.any (fun e => e.2.wins.any (fun x => (e.1 != ctxKey b.die b.tcid || x.1 != w.n) && x.2.mc && x.2.ddie == g))
  match if others then storeFind s.pkg.groups g else none with
  | none => true
  | some g => g.members == w.members && g.dspace == fld w.wcfg.toNat 52 3 && g.size == w.wsize

/-- The limits of a window's CSRs (R278 to R280). -/
def winLegal (s : State) (b : Bind) (w : WinSet) : Bool :=
  let cfg := w.wcfg.toNat
  let sp := fld cfg 52 3
  decide (w.n < 16) && !w.wcfg.getLsbD 61 && fld cfg 2 30 == 0 && (sp == 1 || sp == 2 || sp == 3) && decide (w.wbase < 2 ^ 48) &&
  decide (w.wsize < 2 ^ 48) && decide (4096 ≤ w.wsize) && w.wsize % 4096 == 0 && decide (w.ceil < 65536) &&
  (!w.wcfg.getLsbD 62 || (decide (1 ≤ w.members.length) && decide (w.members.length ≤ 64) &&
    w.members.all (fun m => decide (m.1 < 1024) && decide (m.2.1 < 1024) && decide (m.2.2 < 2 ^ 48)) && groupAgrees s b w))

/-- A window as it is installed or rewritten: NEXT is 1, ACKED is 0, and every member is to be resynchronised first (R278, R293). -/
def winFrom (w : WinSet) : Win :=
  let ms := if w.wcfg.getLsbD 62 then List.range w.members.length else [0]
  { Win.reset with
    cfg := w.wcfg, base := w.wbase, size := w.wsize, next := 1, acks := ms.map (fun m => (m, 0))
    memb := BitVec.ofNat 64 (ms.foldl (fun x m => x + 2 ^ m) 0), ceil := w.ceil, ident := w.ident, resync := ms }

/-- A window set in a context; a multicast window's group enters the table, and groups that no window names leave it (R280; log
entry 35). -/
def State.winPut (s : State) (b : Bind) (w : WinSet) : Nat × State :=
  let r := s.itemSet b (winLegal s b w) (winNeeds w.wcfg) (fun c => { c with wins := storeSet c.wins w.n (winFrom w) })
  if r.1 = 0 ∧ w.wcfg.getLsbD 62 = true then
    (0, ({ r.2 with pkg := { r.2.pkg with
      groups := storeSet r.2.pkg.groups (fld w.wcfg.toNat 42 10) ⟨w.members, fld w.wcfg.toNat 52 3, w.wsize⟩ } } : State).tidyGroups)
  else (r.1, r.2.tidyGroups)

/-- Numbers of a window for its digest. -/
def winContent (w : WinSet) : List Nat :=
  [w.n, w.wcfg.toNat, w.wbase, w.wsize, w.ceil, w.ident] ++ w.members.flatMap (fun m => [m.1, m.2.1, m.2.2])

def execInstallWindow (b : Bind) (w : WinSet) (s : State) : Host.Outcome State Fault Refusal :=
  .next (s.install b 10 w.n (winContent w) false (fun s => s.winPut b w))

/-! ### Queues, notices, delegation, handlers, policies, features -/

def execInstallQueues (b : Bind) (qmax sqva : Nat) (s : State) : Host.Outcome State Fault Refusal :=
  .next (s.install b 11 0 [qmax, sqva] false (fun s =>
    s.itemSet b (decide (qmax ≤ 4095) && decide (sqva < 2 ^ 48)) 0 (fun c => { c with qmax := qmax, sqva := sqva })))
def execInstallNotice (b : Bind) (addr : Nat) (s : State) : Host.Outcome State Fault Refusal :=
  .next (s.install b 12 0 [addr] false (fun s =>
    s.itemSet b (addr % 8192 == 0 && decide (addr < 2 ^ 48)) 0 (fun c => { c with notice := some addr, nnext := 0, nlost := 0 })))

/-- Item 13 and the DELEG service (R356). -/
def State.delegSet (b : Bind) (r : DelegRec) (s : State) : Nat × State :=
  s.itemSet b (decide (r.fflag < 64) && r.frva % 32768 == 0 && decide (r.frva < 2 ^ 48)) (2 ^ 13) (fun c => { c with deleg := ⟨some r, 0⟩ })
def delegContent (r : DelegRec) : List Nat := [r.dmask.toNat, r.flaunch, r.fstrand, r.fflag, r.frva]
def execInstallDeleg (b : Bind) (r : DelegRec) (s : State) : Host.Outcome State Fault Refusal :=
  .next (s.install b 13 0 (delegContent r) false (State.delegSet b r))

/-- Item 14 and the HANDLERS service (R35): entries that are not given are invalid. -/
def State.handlersSet (b : Bind) (t : List (Nat × HEntry)) (s : State) : Nat × State :=
  s.itemSet b (t.all (fun e => decide (e.1 < 16) && decide (e.2.entry < 65536))) (2 ^ 6) (fun c =>
    { c with handlers := t.foldl (fun m e => storeSet m e.1 e.2) [] })
def execInstallHandlers (b : Bind) (t : List (Nat × HEntry)) (s : State) : Host.Outcome State Fault Refusal :=
  .next (s.install b 14 0 (t.flatMap (fun e => [e.1, e.2.launch, e.2.strand, e.2.entry])) false (State.handlersSet b t))

/-- Item 15 and the FAULTPOL service. -/
def State.faultpolSet (b : Bind) (p : Nat) (s : State) : Nat × State := s.itemSet b (decide (p < 4)) 0 (fun c => { c with faultpol := p })
def execInstallFaultpol (b : Bind) (p : Nat) (s : State) : Host.Outcome State Fault Refusal :=
  .next (s.install b 15 0 [p] false (State.faultpolSet b p))

/-- Item 16 (R389). -/
def execInstallFeatures (b : Bind) (w : Nat) (s : State) : Host.Outcome State Fault Refusal :=
  .next (s.install b 16 0 [w] false (fun s =>
    if inWord (s.itemNeeds b.die b.tcid) (w &&& offered) then s.itemSet b true 0 (fun c => { c with features := some w }) else (4, s)))

/-- Item 17 (R281, R311): one key slot of the 64 of each quay die. -/
def execInstallQuayenrol (b : Bind) (key : Nat) (s : State) : Host.Outcome State Fault Refusal :=
  .next (s.install b 17 0 [] true (fun s =>
    let t := (s.ctx b.die b.tcid).tenant
    let rest := s.pkg.quayKeys.filter (fun k => k.1 != t)
    let r := within (decide (rest.length < 64)) (s.itemSet b true (2 ^ 5) (fun c => { c with qenr := true })) s
    (r.1, if r.1 = 0 then { r.2 with pkg := { r.2.pkg with quayKeys := rest ++ [(t, key)] } } else r.2)))

/-- The berth's pages (R130, R387): APER 2, RD = 1 and WR = 0, under the context's first key. -/
def State.mapBerth (s : State) (die tcid : Nat) : Option State :=
  let c := s.ctx die tcid
  if c.has 5 = false then some s
  else
    (s.allocOs die 65536).bind (fun x =>
      (List.range 16).foldl (fun (o : Option State) i => o.bind (fun s =>
        s.mapLeaf die tcid (c.bva + 4096 * i) 3
          (leafBits true false false 2 (x.1 + 4096 * i) ((c.keys.head?.map (fun k => k.1)).getD 0) c.part (s.domainIdx die)))) (some x.2))

/-- ATTEST (R385, R386, R389): the parameters and the negotiated word are fixed, and the report is returned. -/
def State.attest (s : State) (b : Bind) (nonce : Nat) : State :=
  match s.secured b.die b.sess with
  | none => s
  | some _ =>
    let s := s.heard b.die b.sess
    let c := s.ctx b.die b.tcid
    if c.bind ≠ .locked ∨ c.sess ≠ b.sess then s.answer b 1 0
    else
      match s.mapBerth b.die b.tcid with
      | none => s.answer b 3 0
      | some s =>
        let content := (s.die b.die).measured.take 6 ++ [c.word] ++ c.items.flatMap (fun e => [e.1, e.2]) ++ [nonce]
        ((s.modCtx b.die b.tcid (fun x => { x with bind := .attested, negotiated := some c.word })).report
          (.attest b.die b.tcid content (Config.signature b.die ((s.die b.die).algs.asym :: content)))).answer b 0 0
def execAttest (b : Bind) (nonce : Nat) (s : State) : Host.Outcome State Fault Refusal := .next (s.attest b nonce)

/-- START (R385, R386). -/
def State.start (s : State) (b : Bind) : State :=
  match s.secured b.die b.sess with
  | none => s
  | some _ =>
    let s := s.heard b.die b.sess
    let c := s.ctx b.die b.tcid
    if c.bind ≠ .attested ∨ c.sess ≠ b.sess then s.answer b 1 0
    else (s.modCtx b.die b.tcid (fun x => { x with bind := .run })).answer b 0 0
def execStart (b : Bind) (s : State) : Host.Outcome State Fault Refusal := .next (s.start b)

/-- UNBIND (R385): in any session of the tenant. -/
def State.unbind (s : State) (b : Bind) : State :=
  match s.secured b.die b.sess with
  | none => s
  | some x =>
    let s := s.heard b.die b.sess
    let c := s.ctx b.die b.tcid
    if (c.bind ≠ .run ∧ c.bind ≠ .error) ∨ s.tenantIdx x.requester ≠ some c.tenant then s.answer b 1 0
    else (s.tenantReset b.die b.tcid).answer b 0 0
def execUnbind (b : Bind) (s : State) : Host.Outcome State Fault Refusal := .next (s.unbind b)

/-! ## Services (R406 to R408) -/

/-- A SERVICE command in RUN, in a session of the tenant; its status and value are returned. A refused service changes nothing, but for status
5: the installation of a key has failed, and the context is in ERROR (R385). -/
def State.service (s : State) (b : Bind) (f : State → Nat × Nat × State) : State :=
  match s.secured b.die b.sess with
  | none => s
  | some x =>
    let s := s.heard b.die b.sess
    let c := s.ctx b.die b.tcid
    if c.bind ≠ .run ∨ s.tenantIdx x.requester ≠ some c.tenant then s.answer b 1 0
    else
      let r := f s
      if r.1 = 0 ∨ r.1 = 5 then r.2.2.answer b r.1 r.2.1 else s.answer b r.1 r.2.1

/-- A service without a value. -/
def plainly (x : Nat × State) : Nat × Nat × State := (x.1, 0, x.2)

/-! ### Pages -/

/-- The bytes that a request's leaf maps: 64 KiB with C64. -/
def reqSize (p : PageReq) : Nat := if p.level = 3 ∧ p.leaf.getLsbD 9 = true then 65536 else levelSize p.level

/-- A request that the device OS does not map: a field it may not hold, a page that is not free for the tenant, or an address that is
mapped already. -/
def pageBad (s : State) (b : Bind) (p : PageReq) : Bool :=
  let c := s.ctx b.die b.tcid
  let e := Pte.ofNat p.leaf.toNat
  let size := reqSize p
  let own := s.domainIdx b.die
  let others := s.ctxs.filter (fun x => x.2.bound && x.2.tenant != c.tenant)
  let mates := s.ctxs.filter (fun x => x.2.bound && x.2.tenant == c.tenant)
  decide (p.level = 0) || decide (3 < p.level) || p.va % size != 0 || decide (2 ^ 48 ≤ p.va) || !e.v || !e.leaf || e.reserved ||
  decide (1 < e.aper) || (e.c64 && decide (p.level ≠ 3)) || e.pa % size != 0 || !c.keys.any (fun k => k.1 == e.keyid) ||
  (e.aper == 0 && e.home != own) || (e.aper == 1 && e.home == own) ||
  ((s.dieOfDomain e.home).isSome && (decide (osBase < e.pa + size) || others.any (fun x => x.2.pages.any (fun g => meetsPage s e.home e.pa size g x)))) ||
  (e.aper == 1 && (s.dieOfDomain e.home).isSome && !mates.any (fun x => s.domainIdx (x.1 / 1024) == e.home &&
    x.2.pages.any (fun g => meetsPage s e.home e.pa size g x))) ||
  (List.range (size / levelSize p.level)).any (fun i => (walk s b.die b.tcid (p.va + i * levelSize p.level)).isOk)

/-- Pages of HBM come under a key identifier. What was written under another one reads as free bytes from then on (R297; log entry 80). -/
def State.keyPages (s : State) (a size key : Nat) : State :=
  (List.range (size / 4096)).foldl (fun s i =>
    let g := a / 4096 + i
    let n := s.nfree
    let s : State := match storeFind s.pkg.pageKeys g with
      | some k => if k = key then s
        else ({ s with nfree := n + 1 } : State).pokeBytes (4096 * g) ((List.range 4096).map (fun j => Config.otherKey (4096 * g + j) n))
      | none => s
    { s with pkg := { s.pkg with pageKeys := storeSet s.pkg.pageKeys g key } }) s

/-- One page of MAP: within the quota, RAP with feature bit 8, and its old translations invalidated (R380, R408). -/
def State.mapOne (s : State) (b : Bind) (p : PageReq) : Nat × State :=
  let c := s.ctx b.die b.tcid
  let e := Pte.ofNat p.leaf.toNat
  let size := reqSize p
  if pageBad s b p then (2, s)
  else if e.rap = true ∧ inWord 256 c.word = false then (4, s)
  else if e.aper = 0 ∧ c.quota * 2 ^ 21 < c.used + size then (3, s)
  else
    match (List.range (size / levelSize p.level)).foldl (fun (o : Option State) i => o.bind (fun s =>
        s.mapLeaf b.die b.tcid (p.va + i * levelSize p.level) p.level (p.leaf.toNat + i * levelSize p.level))) (some s) with
    | none => (3, s)
    | some s =>
      let s := match s.dieOfDomain e.home with
        | some d => s.keyPages (hbmAddr d e.pa) size e.keyid
        | none => s
      (0, (s.modCtx b.die b.tcid (fun c => { c with
        used := c.used + (if e.aper = 0 then size else 0), pages := c.pages ++ [(p.va, p.level, e.home, e.pa)] })).invalidate b.die b.tcid p.va size false)

/-- The leaf of a tenant page at an address and level; the berth's are the device OS's own. -/
def tenantLeaf (s : State) (b : Bind) (va level : Nat) : Option Leaf :=
  match walk s b.die b.tcid va with
  | .ok l => if l.level = level ∧ (pageOf l va).1 = va ∧ (Pte.ofNat l.bits).aper ≠ 2 then some l else none
  | .error _ => none

/-- One page of UNMAP. -/
def State.unmapOne (s : State) (b : Bind) (va level : Nat) : Nat × State :=
  match tenantLeaf s b va level with
  | none => (2, s)
  | some l =>
    let p := pageOf l va
    let n := if (Pte.ofNat l.bits).aper = 0 then p.2.1 * p.2.2 else 0
    (0, (s.changeLeaf b.die b.tcid va (fun _ _ => 0)).modCtx b.die b.tcid (fun c =>
      { c with used := c.used - n, pages := c.pages.filter (fun g => !(g.1 == va && g.2.1 == level)) }))

/-- One page of PROTECT: its RD, WR and RAP. -/
def State.protectOne (s : State) (b : Bind) (p : PageReq) : Nat × State :=
  match tenantLeaf s b p.va p.level with
  | none => (2, s)
  | some _ =>
    if p.leaf.getLsbD 5 = true ∧ inWord 256 (s.ctx b.die b.tcid).word = false then (4, s)
    else (0, s.changeLeaf b.die b.tcid p.va (fun _ x =>
      x - (fld x 2 1 * 4 + fld x 3 1 * 8 + fld x 5 1 * 32) + fld p.leaf.toNat 2 1 * 4 + fld p.leaf.toNat 3 1 * 8 + fld p.leaf.toNat 5 1 * 32))

/-- Pages one after another; the first that is refused refuses them all. -/
def eachPage {α : Type} (f : State → α → Nat × State) (l : List α) (s : State) : Nat × State :=
  l.foldl (fun x p => if x.1 = 0 then f x.2 p else x) (0, s)

def execMap (b : Bind) (pages : List PageReq) (s : State) : Host.Outcome State Fault Refusal :=
  .next (s.service b (fun s => plainly (eachPage (fun s p => s.mapOne b p) pages s)))
def execUnmap (b : Bind) (pages : List (Nat × Nat)) (s : State) : Host.Outcome State Fault Refusal :=
  .next (s.service b (fun s => plainly (eachPage (fun s p => s.unmapOne b p.1 p.2) pages s)))
def execProtect (b : Bind) (pages : List PageReq) (s : State) : Host.Outcome State Fault Refusal :=
  .next (s.service b (fun s => plainly (eachPage (fun s p => s.protectOne b p) pages s)))

/-! ### Queues and pilot programs -/

/-- QCREATE (R391, R406, R408): a free physical queue by a free choice; both copies are written, B active. A handle that names no program
of the context is not refused: its queue meets QERR_PROGRAM (R394). Where the installation of its bell key fails, the context enters ERROR
(R385). -/
def State.qcreate (s : State) (b : Bind) (q : QReq) : Nat × Nat × State :=
  let c := s.ctx b.die b.tcid
  let d := s.die b.die
  let free := ((List.range 4096).drop 1).filter (fun p => (storeFind d.queues p).isNone)
  let ext := match storeFind d.pilots q.prog with
    | some p => if p.tcid = b.tcid then p.ext else 0
    | none => 0
  let bad := decide (c.qmax ≤ q.qslot) || decide (q.log2n < 4) || decide (16 < q.log2n) || decide (2 < q.esz) || decide (2 ^ 48 ≤ q.ringva) ||
    (storeFind d.supTable (stageKey b.tcid q.qslot)).isSome ||
    decide (64 * 2 ^ q.esz < ext) || decide (65536 ≤ q.prog)
  if bad then (2, 0, s)
  else
    match free with
    | [] => (3, 0, s)
    | p0 :: r =>
      if 65536 ≤ q.bkey ∨ d.queues.any (fun e => e.2.a.bkey == q.bkey) = true then (3, 0, s)
      else
        let n := s.nfree
        let pq := (p0 :: r).getD (Config.pick n % (r.length + 1)) p0
        let base : Qcb := { Qcb.reset with
          state := 1, qslot := q.qslot, tcid := b.tcid, prog := q.prog, log2n := q.log2n, esz := q.esz, bkey := q.bkey, ringva := q.ringva
          qw := List.replicate 8 0 }
        if Config.keyInstalls b.die n = false then (5, 0, ({ s with nfree := n + 1 } : State).ctxError b.die b.tcid)
        else (0, 0, ({ s with nfree := n + 1 } : State).modDie b.die (fun d =>
          { d with
            supTable := storeSet d.supTable (stageKey b.tcid q.qslot) pq
            queues := storeSet d.queues pq ⟨base.sealed 0, base.sealed 1, List.replicate 1024 0, q.key, false, none⟩ }))
def execQcreate (b : Bind) (q : QReq) (s : State) : Host.Outcome State Fault Refusal := .next (s.service b (fun s => s.qcreate b q))

/-- QDESTROY (R399, R408): stage 2 is cleared; a queue that a lane serves goes when its entry is complete. -/
def State.qdestroy (s : State) (b : Bind) (qslot : Nat) : Nat × Nat × State :=
  match storeFind (s.die b.die).supTable (stageKey b.tcid qslot) with
  | none => (2, 0, s)
  | some pq =>
    (0, 0, s.modDie b.die (fun d =>
      { d with
        supTable := storeErase d.supTable (stageKey b.tcid qslot)
        queues := if (storeGet Queue.reset d.queues pq).lane.isSome then d.queues else storeErase d.queues pq }))
def execQdestroy (b : Bind) (qslot : Nat) (s : State) : Host.Outcome State Fault Refusal := .next (s.service b (fun s => s.qdestroy b qslot))

/-- The two copies that QRESET writes (R408). -/
def Queue.restart (q : Queue) (idx : Nat) : Queue :=
  let at_ (c : Qcb) : Qcb := { c with head := idx % 2 ^ 32, tail := idx % 2 ^ 32, state := 1 }
  match q.active with
  | some (true, c) => { q with b := (at_ c).sealed (c.gen + 1), a := (at_ c).sealed (c.gen + 2) }
  | some (false, c) => { q with a := (at_ c).sealed (c.gen + 1), b := (at_ c).sealed (c.gen + 2) }
  | none =>
    let c := if q.b.valid && (!q.a.valid || decide (q.a.gen < q.b.gen)) then q.b else q.a
    let c := { c with seq := if c.valid then c.seq else 0 }
    { q with a := (at_ c).sealed 0, b := (at_ c).sealed 1, bad := false }

/-- QRESET of a sub-queue's queue: `none` while a lane serves it. -/
def State.qresetAt (s : State) (die tcid sqid idx : Nat) : Option (Bool × State) :=
  if 4096 ≤ sqid then some (false, s)
  else
    match s.bellQueue die tcid sqid with
    | none => some (false, s)
    | some pq =>
      if (s.queue die pq).lane.isSome then none
      else some (true, s.modQueue die pq (fun q => q.restart idx))

/-- QRESET (R407, R408): as a command, or for the strand whose HAIL asks for it with s2 and s3. It waits for an entry in progress. -/
def State.qreset (s : State) (b : Bind) (sqid idx : Nat) (caller : Option Nat) : State :=
  match caller with
  | some k =>
    if s.hailing k 5 = false then s
    else
      let t := s.strand k
      match s.qresetAt t.die t.tcid (t.rs 2).toNat ((t.rs 3).toNat % 2 ^ 32) with
      | none => s
      | some (ok, s') => s'.hailDone k (if ok then 0 else 1) none
  | none =>
    if s.qresetAt b.die b.tcid sqid idx = none then s
    else s.service b (fun s =>
      match s.qresetAt b.die b.tcid sqid idx with
      | some (true, s') => (0, 0, s')
      | _ => (2, 0, s))
def execQreset (b : Bind) (sqid idx : Nat) (caller : Option Nat) (s : State) : Host.Outcome State Fault Refusal :=
  .next (s.qreset b sqid idx caller)

/-- LOADPILOT (R384, R405, R406): a free handle by a free choice, or the failing rule in bits 31 to 16 over the index. -/
def State.loadpilot (s : State) (b : Bind) (words : List Nat) : Nat × Nat × State :=
  let ws := words.map (fun w => w % 2 ^ 32)
  match pilotVerify ws with
  | some (r, i) => (2, r * 65536 + i, s)
  | none =>
    let used := (s.die b.die).pilots.map (fun e => e.1)
    let n := s.nfree
    let a := Config.pick n % 65536
    match ((List.range (used.length + 1)).map (fun i => (a + i) % 65536)).find? (fun h => !used.contains h) with
    | none => (3, 0, s)
    | some h =>
      (0, h, ({ s with nfree := n + 1 } : State).modDie b.die (fun d =>
        { d with pilots := storeSet d.pilots h ⟨ws, pilotExt ws, b.tcid⟩, measure := measureExt d.measure 4 ws }))
def execLoadpilot (b : Bind) (words : List Nat) (s : State) : Host.Outcome State Fault Refusal :=
  .next (s.service b (fun s => s.loadpilot b words))

/-- PDROP (R406): refused while a queue names the handle. -/
def State.pdropHandle (s : State) (b : Bind) (handle : Nat) : Nat × Nat × State :=
  let d := s.die b.die
  match storeFind d.pilots handle with
  | none => (2, 0, s)
  | some p =>
    if p.tcid ≠ b.tcid then (2, 0, s)
    else if d.queues.any (fun e => e.2.a.prog == handle) then (1, 0, s)
    else (0, 0, s.modDie b.die (fun d => { d with pilots := storeErase d.pilots handle }))
def execPdrop (b : Bind) (handle : Nat) (s : State) : Host.Outcome State Fault Refusal := .next (s.service b (fun s => s.pdropHandle b handle))

/-! ### Windows, delegation, handlers, policy, restore -/

/-- A transaction of the context through the window is unacknowledged (R408). -/
def State.winBusy (s : State) (die tcid n : Nat) : Bool :=
  (s.ctxStrands die tcid).any (fun k =>
    let t := s.strand k
    storeGet 0 t.allowOut n != 0 || t.reqs.any (fun r => r.space == 4 && r.win == n)) ||
  !(s.openXacts die tcid n).isEmpty || s.frags.any (fun e => e.2.die == die && e.2.tcid == tcid && e.2.win == n) ||
  s.bells.any (fun e => e.2.win == some n && (s.strand e.2.sid).die == die && (s.strand e.2.sid).tcid == tcid)

/-- WINDOW (R293, R408): callers of a CLEARUNC of the window are answered, since it is certain again. -/
def State.windowSet (s : State) (b : Bind) (w : WinSet) : Nat × Nat × State :=
  if s.winBusy b.die b.tcid w.n then (1, 0, s)
  else
    let r := s.winPut b w
    if r.1 ≠ 0 then plainly r
    else
      let s := (s.clearCallers b.die b.tcid w.n).foldl (fun s k => s.hailDone k 0 none) r.2
      plainly (0, { s with
        strands := s.strands.map (fun e => if e.2.die = b.die ∧ e.2.tcid = b.tcid then
          (e.1, { e.2 with allowLim := storePut 0 e.2.allowLim w.n w.ceil }) else e)
        xacts := s.xacts.filter (fun e => !(e.2.die == b.die && e.2.tcid == b.tcid && e.2.win == w.n)) })
def execWindow (b : Bind) (w : WinSet) (s : State) : Host.Outcome State Fault Refusal := .next (s.service b (fun s => s.windowSet b w))

/-- CLEARUNC (R294, R407): it is answered at once when a member has no path, else once every member is resynchronised. -/
def State.clearunc (s : State) (b : Bind) (win : Nat) (caller : Option Nat) : State :=
  match caller with
  | some k =>
    if s.hailing k 4 = false then s
    else
      let t := s.strand k
      let n := (t.rs 2).toNat
      if 16 ≤ n ∨ (storeFind (s.ctx t.die t.tcid).wins n).isNone = true then s.hailDone k 1 none
      else if ((s.ctx t.die t.tcid).win n).clearing then s
      else
        let r := s.clearBegin t.die t.tcid n false
        if r.1 then r.2 else s.hailDone k 4 none
  | none =>
    match s.secured b.die b.sess with
    | none => s
    | some x =>
      let s := s.heard b.die b.sess
      let c := s.ctx b.die b.tcid
      if c.bind ≠ .run ∨ s.tenantIdx x.requester ≠ some c.tenant then s.answer b 1 0
      else if 16 ≤ win ∨ (storeFind c.wins win).isNone = true then s.answer b 2 0
      else
        let r := s.clearBegin b.die b.tcid win true
        if r.1 then r.2 else s.answer b 4 0
def execClearunc (b : Bind) (win : Nat) (caller : Option Nat) (s : State) : Host.Outcome State Fault Refusal :=
  .next (s.clearunc b win caller)

def execDeleg (b : Bind) (r : DelegRec) (s : State) : Host.Outcome State Fault Refusal :=
  .next (s.service b (fun s => plainly (State.delegSet b r s)))
def execHandlers (b : Bind) (t : List (Nat × HEntry)) (s : State) : Host.Outcome State Fault Refusal :=
  .next (s.service b (fun s => plainly (State.handlersSet b t s)))
def execFaultpol (b : Bind) (p : Nat) (s : State) : Host.Outcome State Fault Refusal :=
  .next (s.service b (fun s => plainly (State.faultpolSet b p s)))

/-- RESTORE (R366, R367, R373, R408): the status of the restore is returned; payloads are rewritten first. -/
def State.restoreCommand (s : State) (b : Bind) (serial die : Nat) (rw : List Rewrite) : State :=
  match s.secured b.die b.sess with
  | none => s
  | some x =>
    let s := s.heard b.die b.sess
    let c := s.ctx b.die b.tcid
    if c.bind ≠ .run ∨ s.tenantIdx x.requester ≠ some c.tenant then s.answer b 1 0
    else
      match s.bySerial b.die b.tcid serial with
      | none => s.answer b 2 0
      | some k =>
        let r := ((s.modStrand k (fun t => t.rewrite rw)).resave k).restoreTo k die serial
        r.2.answer b r.1 0
def execRestoreService (b : Bind) (serial die : Nat) (rw : List Rewrite) (s : State) : Host.Outcome State Fault Refusal :=
  .next (s.restoreCommand b serial die rw)

/-! ## Watchdogs and recovery (R409 to R412) -/

/-- Another die of the package works and watches (R409). -/
def State.watched (s : State) (die : Nat) : Bool := s.working.any (fun d => d != die && !(s.die d).recovering)

/-- Recovery begins (R410, R411): the pilot lanes stop, and the sessions with the die end. -/
def State.recover (s : State) (die : Nat) : State :=
  if s.inService die = false ∨ (s.die die).recovering = true ∨ s.watched die = false then s
  else
    let r := s.lanesStop die
    let s := ((r.1.die die).sessions.map (fun x => x.sess)).foldl (fun s x => s.sessionEnd die x) r.1
    s.modDie die (fun d => { d with recovering := true, recoverAt := s.time, lostEmits := d.lostEmits ++ r.2, bootBad := false, harts := Die.reset.harts })

/-- WATCHDOG_EXPIRY (R409): 25 ms after the last restart. -/
def execWatchdogExpiry (die : Nat) (s : State) : Host.Outcome State Fault Refusal :=
  .next (if (s.die die).watchdogAt + 25000 ≤ s.time then s.recover die else s)
/-- MACHINE_CHECK_STOP (R409, R419). -/
def execMachineCheckStop (die : Nat) (s : State) : Host.Outcome State Fault Refusal := .next (s.recover die)

/-- The contexts bound on a die. -/
def State.boundOn (s : State) (die : Nat) : List Nat := (s.ctxs.filter (fun e => e.1 / 1024 == die && e.2.bound)).map (fun e => e.1 % 1024)

/-- Steps 3 to 5 of R410: contexts whose table fails its tag enter ERROR, lost emits and the restart are told, and admission and the
held bells go on. -/
def State.recovered (s : State) (die : Nat) : State :=
  let s := (s.boundOn die).foldl (fun s t =>
    let n := s.nfree
    let s : State := { s with nfree := n + 1 }
    if Config.tablesPass die t n then s else s.ctxError die t) s
  let s := (s.die die).lostEmits.foldl (fun s x => s.noticeWrite die x.1 3 0 x.2.1 x.2.2) s
  let s := (s.boundOn die).foldl (fun s t => s.noticeWrite die t 4 0 0 0) s
  let s := s.modDie die (fun d => { d with recovering := false, lostEmits := [], watchdogAt := s.time, harts := hartsUp })
  (s.bellRelease die).scan die

/-- The boot of a recovery, from step 2 of R381: a check of the firmware or of the device OS that fails leaves the die in boot failure, which
is reported; else the recovery goes on (R410). -/
def State.reboot (s : State) (die : Nat) : State :=
  let n := s.nfree
  let s : State := { s with nfree := n + 2 }
  let fail (step i : Nat) : State := (s.modDie die (fun d => { d with bootBad := true })).report (.bootFailure die step (Config.bootReason die i))
  if (s.die die).bootBad then s
  else if Config.bootPasses die n = false then fail 2 n
  else if Config.bootPasses die (n + 1) = false then fail 5 (n + 1)
  else s.recovered die

/-- WATCHDOG_RESTART (R409). The restart by a recovering die's firmware is the end of its recovery (log entry 17). -/
def State.watchdogRestart (s : State) (die : Nat) : State :=
  if s.inService die = false then s
  else if (s.die die).recovering then s.reboot die
  else s.modDie die (fun d => { d with watchdogAt := s.time })
def execWatchdogRestart (die : Nat) (s : State) : Host.Outcome State Fault Refusal := .next (s.watchdogRestart die)

/-- A die goes out of service (R412): its strands stop, their launches end with RESET, the tenants are told on their other dies, and the
lowest-numbered working die leads. Every die scans for what the launches have freed (R322). -/
def State.dieOut (s : State) (die : Nat) : State :=
  let cs := s.boundOn die
  let ls := ((s.strands.filter (fun e => e.2.die == die)).map (fun e => e.2.lid)).eraseDups
  let s := cs.foldl (fun s t => s.ctxStop die t) s
  let s := ls.foldl (fun s l => s.endLaunch l 0x52 0) s
  let s := s.modDie die (fun d => { d with boot := .outOfService, recovering := false, bootBad := false, lostEmits := [] })
  let s := cs.foldl (fun s t =>
    let tenant := (s.ctx die t).tenant
    (s.ctxs.filter (fun e => e.1 / 1024 != die && e.2.bound && e.2.tenant == tenant)).foldl
      (fun s e => s.noticeWrite (e.1 / 1024) (e.1 % 1024) 5 0 0 0) s) s
  let lead := lowest s.working
  let s : State := { s with dies := s.dies.map (fun e => if e.2.leader = some die then (e.1, { e.2 with leader := lead }) else e) }
  (s.report (.outOfService die)).scanAll

/-- RECOVERY_TIMEOUT (R412): 50 ms without reaching step 5. -/
def execRecoveryTimeout (die : Nat) (s : State) : Host.Outcome State Fault Refusal :=
  .next (if (s.die die).recovering = true ∧ (s.die die).recoverAt + 50000 ≤ s.time then s.dieOut die else s)

end Sys2Proof.Machine
end

