-- ==== Sys2Proof/Machine/Package.lean ====
section
/-! DEFINITION. The package: power and temperature (R414 to R417), scrubbing (R419, R420), error reporting (R421), the load of an image
(R45, R178, R389), and the move of a retired page (R374). -/
namespace Sys2Proof.Machine

/-! ## Power and temperature (R414 to R416) -/

/-- Links drop, dies stop, and all state is lost (R415); what has been reported, the reference clock and the counters of the model itself
remain. A die or package without a stated behaviour has none before the next power-up (R414, R416). -/
def State.lose (s : State) (good : Bool) : State :=
  { State.reset with
    pkg := { Package.reset with
      pwrgood := good, reports := s.pkg.reports, thermtrip := s.pkg.thermtrip, tripAt := s.pkg.tripAt, teleAt := s.time }
    dies := s.dies.map (fun (e : Nat × Die) => (e.1, { Die.reset with void := e.2.void }))
    stuck := s.stuck, time := s.time, agenda := s.agenda, nextId := s.nextId, nfree := s.nfree }

/-- POWER_LOSS (R415): PWRGOOD falls. -/
def State.powerLoss (s : State) : State := s.lose false
def execPowerLoss (s : State) : Host.Outcome State Fault Refusal := .next s.powerLoss

/-- RESET_N is asserted while the package is powered (R415). -/
def State.resetAsserted (s : State) : State := s.lose s.pkg.pwrgood

/-- POWER_GOOD (R414 to R416): the power-up that ends a state without a stated behaviour; the core rails stand at 0.55 V, and reset may be
released. Nothing where the power is good already. -/
def State.powerUp (s : State) : State :=
  if s.pkg.pwrgood then s
  else
    { s with
      pkg := { s.pkg with pwrgood := true, thermtrip := false }
      dies := s.dies.map (fun (e : Nat × Die) => (e.1, { e.2 with void := false, setPoint := 550 })), stuck := none }
def execPowerGood (s : State) : Host.Outcome State Fault Refusal := .next s.powerUp

/-- SET_POWER_LIMIT (R416): 2,000 W to 6,000 W; only clock steps follow from it. -/
def execSetPowerLimit (watts : Nat) (s : State) : Host.Outcome State Fault Refusal :=
  .next (if 2000 ≤ watts ∧ watts ≤ 6000 then { s with pkg := { s.pkg with limit := watts } } else s)

/-- A die's thermal stepping starts at 105 °C, with its report, and lasts until the temperature falls below 100 °C (R416, R421). The steps
are CLOCK_STEP's. -/
def State.thermalAt (s : State) (die temp : Nat) : State :=
  if 105 ≤ temp ∧ (s.die die).thermal = false then (s.modDie die (fun d => { d with thermal := true })).report (.thermal die temp)
  else if temp < 100 ∧ (s.die die).thermal = true then s.modDie die (fun d => { d with thermal := false })
  else s

/-- At 115 °C THERMTRIP_N is asserted, with its report; the board has 10 ms to remove power (R416, R421). -/
def State.tripOn (s : State) (die temp : Nat) : State :=
  if 115 ≤ temp ∧ s.pkg.thermtrip = false then
    ({ s with pkg := { s.pkg with thermtrip := true, tripAt := s.time } } : State).report (.thermal die temp)
  else s

/-- THERMAL_STEP (R416): a die's temperature passes one of the limits. -/
def execThermalStep (die temp : Nat) (s : State) : Host.Outcome State Fault Refusal := .next ((s.thermalAt die temp).tripOn die temp)

/-- THERMTRIP (R416): a die's temperature reaches 115 °C. -/
def execThermtrip (die temp : Nat) (s : State) : Host.Outcome State Fault Refusal :=
  .next (if 115 ≤ temp then (s.thermalAt die temp).tripOn die temp else s)

/-- Power stayed on after THERMTRIP: no behaviour is stated (R416). -/
def State.tripCheck (s : State) : State :=
  if s.pkg.thermtrip = true ∧ s.pkg.pwrgood = true ∧ s.pkg.tripAt + 10000 < s.time then s.jam .noStatedBehaviour else s

/-- The quay dies (R18), records 8 to 11 of `dies`. -/
def quayDies : List Nat := [8, 9, 10, 11]

/-- The dies that a rail feeds, by the table of R414: 0 to 7 VDD_CORE_D0 to D7, 8 VDD_QUAY, 9 to 11 the rails of the HBM stacks, 12 and
13 those of the link ports, which the quay dies end, 14 VDD_HM, and 15 VDD_IO. -/
def railDies (rail : Nat) : List Nat :=
  if rail < 8 then [rail]
  else if rail = 8 ∨ rail = 12 ∨ rail = 13 then quayDies
  else if rail = 15 then List.range 12
  else List.range 8

/-- RAIL_OUTSIDE_TOLERANCE (R414): no behaviour is stated for the dies that the rail feeds until the next power-up (log entry 18). -/
def execRailOutsideTolerance (rail : Nat) (s : State) : Host.Outcome State Fault Refusal :=
  .next ((railDies rail).foldl (fun s d => s.modDie d (fun x => { x with void := true })) s)

/-- The dies at which a strand's request is performed: its own, and the quay dies when it reaches another die (R414). -/
def State.requestDies (s : State) (k rid : Nat) : List Nat :=
  let t := s.strand k
  let far (r : Req) : Bool := r.space == 4 || (placed s k r).any (fun e => homeDie e.1 != t.die)
  t.die :: (if t.reqs.any (fun r => r.id == rid && far r) then quayDies else [])

/-- The dies at which an event acts, as far as it names them: of a strand, a job, a transaction or a message, the die that it belongs to or
comes from, and the quay dies where it passes between dies or through a link port (R414). -/
def State.eventDies (s : State) : Instr → List Nat
  | .emptyIssueCycle c | .resultLand c | .runLimit c | .mxOpStart c | .mxCommit c | .mxOpEnd c | .tmovComplete c | .jobAccept c
  | .strandSelect c | .saveCaptureComplete c | .quantumExpiry c | .starvationTimeout c | .prioritySwitchRequest c => [c / 64]
  | .mxTokenGain d | .preemptCheck d | .boostDecay d | .remtTick d | .energyRefill d
  | .chargeReconcile d | .clockStep d | .resetRelease d | .bootTimeout d | .electionTimeout d | .watchdogRestart d
  | .watchdogExpiry d | .machineCheckStop d | .recoveryTimeout d | .release d _ | .shareReserveTimeout d _
  | .sliceWindow d _ | .shrinkAdjust d _ _ _ | .filterStateLost d _ _
  | .evictRegions d _ | .residencyRestore d _ | .invalidate d _ _ _ _ | .candidacy d _ | .sessionHeartbeatLapse d _
  | .thermalStep d _ | .thermtrip d _ | .imageLoad d _ _ | .retiredPageMove d _ _ | .pilotEntry d _ => [d]
  | .jobSegment d | .shareArrival d _ | .retransmitTimeout d _ _ | .resyncTransaction d _ _ _ => d :: quayDies
  | .linkFailure _ | .linkTraining _ _ => quayDies
  | .storePerform k r | .atomicPerform k r | .latchFill k r => s.requestDies k r
  | .accessFaultReport k | .phaseComplete k | .spinWaitTimeout k
  | .rowLoadComplete k | .retire k | .saveComplete k | .resume k | .redirect k | .endstrand k => [(s.strand k).die]
  | .restore k d _ => [d, (s.strand k).die]
  | .jobComplete j => match storeFind s.jobs j with | some j => [j.die] | none => []
  | .windowArrival x _ | .windowAck x _ | .gapTransaction x _ => match storeFind s.xacts x with | some x => x.die :: quayDies | none => []
  | .fragmentArrival f _ | .fragmentAck f _ => match storeFind s.frags f with | some f => f.die :: quayDies | none => []
  | .getVersion q | .getCapabilities q | .negotiateAlgorithms q | .getDigests q | .getCertificate q | .challenge q
  | .getMeasurements q | .keyExchange q | .finish q | .keyUpdate q | .heartbeat q | .endSession q => [q.resp]
  | .lock r => [r.die]
  | .bell m => [m.die]
  | .reductionTimeout g => match storeFind s.groups g with | some g => [g.die] | none => []
  | .patrolScrub b _ => [homeDie (eccAddr b)]
  | .installKeys b _ | .installLinkkeys b _ _ _ | .installSavekeys b _ _ | .installPart b _ _ | .installRegions b _ _ _
  | .installMemory b _ | .installAccount b _ | .installBandwidth b _ _ _ _ | .installGangs b _ | .installWindow b _
  | .installQueues b _ _ | .installNotice b _ | .installDeleg b _ | .installHandlers b _ | .installFaultpol b _
  | .installFeatures b _ | .installQuayenrol b _ | .attest b _ | .start b | .unbind b | .map b _ | .unmap b _
  | .protect b _ | .qcreate b _ | .qdestroy b _ | .qreset b _ _ _ | .loadpilot b _ | .pdrop b _ | .window b _
  | .clearunc b _ _ | .deleg b _ | .handlers b _ | .faultpol b _ => [b.die]
  | .restoreService b _ d _ => [b.die, d]
  | _ => []

/-- The store that an address lies in: 0 HBM, 1 core, 2 cluster, 3 die scratch, 4 a die's private SRAM. -/
def storeOf (a : Nat) : Nat :=
  if a < 2 ^ 50 then 0 else if a < 2 ^ 51 then 1 else if a < 2 ^ 52 then 2 else if a < 2 ^ 53 then 3 else 4

/-- An address that names a byte of the package. -/
def inPackage (a : Nat) : Bool :=
  if a < 2 ^ 50 then decide (a / 2 ^ 46 < 8) && decide (a % 2 ^ 46 < hbmBytes)
  else if a < 2 ^ 51 then decide (a - 2 ^ 50 < 512 * 2 ^ 20)
  else if a < 2 ^ 52 then decide (a - 2 ^ 51 < 32 * 2 ^ 23)
  else if a < 2 ^ 53 then decide (a - 2 ^ 52 < 8 * 2 ^ 25)
  else decide (a - 2 ^ 53 < 8 * 2 ^ 23)

/-- A store whose blocks have a check value that a read compares: HBM, cluster scratch and die scratch (R298). -/
def checkedStore (a : Nat) : Bool := storeOf a == 0 || storeOf a == 2 || storeOf a == 3

/-! ## Acts from outside without an operation of the opcode table -/

/-- The operation reads a vector register or a hold latch (R69, R70, R419). -/
def readsReg : Instr → Bool
  | .movh _ | .vadd _ | .vsub _ | .vmul _ | .vfma _ | .vfms _ | .vfnma _ | .vmin _ | .vmax _ | .vabs _ | .vneg _ | .vcpys _ | .vrcp _ | .vrsq _
  | .vsqrt _ | .vexp2 _ | .vlog2 _ | .vcmp _ | .viadd _ | .visub _ | .vimul _ | .vimulh _ | .vimin _ | .vimax _ | .viabs _ | .vand _ | .vor _
  | .vxor _ | .vandn _ | .vshl _ | .vshr _ | .vsar _ | .vcvt _ | .vcvti _ | .vcvtf _ | .vqfp4 _ | .vdqfp4 _ | .vexpmax _ | .vscale _ | .vmov _
  | .vperm _ | .vshuf _ | .vslide _ | .vsel _ | .vxfer _ | .vmovh _ | .vlane _ | .vrsum _ | .vrmax _ | .vrmin _ | .mlds _ | .mwr _ | .ldvg _
  | .stv _ | .stvs _ | .stvm _ | .stvh _ | .vred _ => true
  | _ => false

/-- The bundle that the strand has issued has such an operation in a slot. -/
def State.slotReads (s : State) (k : Nat) (sl : Slot) : Bool :=
  let t := s.strand k
  match decodeBundle (s.imageWords t) t.bun.addr with
  | .ok b => b.syls.any (fun x => x.slot == sl && (match x.op with | .ok i => readsReg i | .error _ => false))
  | .error _ => false

/-- An uncorrectable error that a slot's read of a vector register or hold latch meets: its cause is due at the end of the issue cycle
(R419). -/
def State.regError (s : State) (c : Nat) (sl : Slot) : State :=
  match s.issuer c with
  | none => s
  | some k =>
    if s.slotReads k sl = false then s
    else (({ s with nfree := s.nfree + 1 } : State).modStrand k (fun t =>
      t.addCause ⟨.eccUncorrectable, Config.eccFval s.nfree, t.bun.addr, 2 ^ Slot.bit sl⟩)).report (.uncorrectable 5 (c / 64) (Slot.bit sl))

/-- A row of instruction memory that cannot be corrected: it is loaded again from its image before it is fetched, and reported (R419,
R421). -/
def State.rowError (s : State) (c : Nat) (r : Nat × Nat × Nat) : State :=
  if (s.core c).rows.contains r then s.report (.uncorrectable 6 (c / 64) r.2.2) else s

/-- The state that follows in the controller of the test access port, in the order of IEEE 1149.1's table: Test-Logic-Reset, Run-Test/Idle,
the seven states of the data column, the seven of the instruction column (R2, R413; PRESUMED, log entry 99). -/
def tapNext (st : Nat) (tms : Bool) : Nat :=
  ([(1, 0), (1, 2), (3, 9), (4, 5), (4, 5), (6, 8), (6, 7), (4, 8), (1, 2), (10, 0), (11, 12), (11, 12), (13, 15), (13, 14), (11, 15),
    (1, 2)].map (fun x => if tms then x.2 else x.1)).getD st 0

/-- A rising edge of TCK: the bypass register is cleared in Capture-DR and takes TDI in Shift-DR. -/
def Tap.edge (t : Tap) (tms tdi : Bool) : Tap :=
  ⟨tapNext t.st tms, if t.st = 3 then false else if t.st = 4 then tdi else t.bypass⟩

/-- The device OS makes its own queue, physical queue 0 (R391), in the form of R392 and with a program of its own under the handle that the
control block names; both copies are written as QCREATE writes them. The context through which its ring is read is the control
block's TCID (log entry 93). -/
def State.osQueue (s : State) (die : Nat) (c : Qcb) (words : List Nat) : State :=
  let ws := words.map (fun w => w % 2 ^ 32)
  if (s.die die).boot ≠ .inService ∨ c.log2n < 4 ∨ 16 < c.log2n ∨ 2 < c.esz ∨ (pilotVerify ws).isSome = true ∨ (s.queue die 0).lane.isSome = true
  then s
  else
    let base : Qcb := { c with head := 0, tail := 0, seq := 0, state := 1, accepted := 0, rejected := 0, lastdrop := 0, qw := List.replicate 8 0 }
    s.modDie die (fun d =>
      { d with
        queues := storeSet d.queues 0 ⟨base.sealed 0, base.sealed 1, List.replicate 1024 0, 0, false, none⟩
        pilots := storeSet d.pilots c.prog ⟨ws, pilotExt ws, c.tcid⟩ })

/-- The device OS is a writer of control blocks (R393): it gives its own queue, in RUN, a new tail within the ring. -/
def State.osTail (s : State) (die tail : Nat) : State :=
  match (s.queue die 0).active with
  | some (_, c) =>
    if c.state = 1 ∧ (tail % 2 ^ 32 + 2 ^ 32 - c.head) % 2 ^ 32 ≤ 2 ^ c.log2n then
      s.modQueue die 0 (fun q => q.update (fun c =>
        { c with tail := tail % 2 ^ 32, seq := (c.seq + 1) % 2 ^ 32, accepted := (c.accepted + 1) % 2 ^ 32 }))
    else s
  | none => s

/-- A corrected error of a store is counted, in 32 bits (R419, R421). -/
def State.countCorrected (s : State) (store : Nat) : State :=
  { s with pkg := { s.pkg with corrected := storePut 0 s.pkg.corrected store ((storeGet 0 s.pkg.corrected store + 1) % 2 ^ 32) } }

/-- What the device OS sets, and a block that decays: a charge class (R335), the POOL of a slice (R340), the weights of the power limit
(R338), a plain port's defaults (R275), a block whose check value no longer matches (R298), an error in a
register or latch, found by a slot that reads it (R419); a damaged save area (R372); a
persistent table of a bound context that fails its tag (R385); the part of the boot that follows the training of the links (R381);
the device OS's own queue and what it writes in its die's HBM (R379, R391); a damaged control block (R393); a corrected error, and
an error of instruction memory (R419); a transaction of another package (R275); the set point of a core rail, which the die's
harbourmaster sets in steps of 5 mV (R414); RESET_N (R415); and what the program of a hart leaves in its registers and an edge of TCK in
the test access port (R2; log entries 84 and 99). -/
def State.outside (s : State) (a : Outside) : State :=
  match a with
  | .chg d c v => if d < 8 ∧ c < 13 then s.modDie d (fun x => { x with chg := x.chg.zipIdx.map (fun y => if y.2 = c then v else y.1) }) else s
  | .pool d sl n => s.modSlice (d, sl) (fun x => { x with pool := n })
  | .weights w => { s with pkg := { s.pkg with weights := w } }
  | .portDefault p part key =>
    let put (l : List Nat) (v : Nat) : List Nat := l.zipIdx.map (fun y => if y.2 = p then v else y.1)
    { s with pkg := { s.pkg with portPart := put s.pkg.portPart (part % 256), portKey := put s.pkg.portKey (key % 8) } }
  | .badCheck b => if inPackage (64 * b) && checkedStore (64 * b) && !s.badCheck.contains b then { s with badCheck := s.badCheck ++ [b] } else s
  | .regError c sl => s.regError c sl
  | .accError c a => s.accError c a
  | .areaByte k off b =>
    match (s.strand k).area with
    | some a => if off < areaSize then s.pokeBytes (a + off) [b] else s
    | none => s
  | .tableError d t => if (s.ctx d t).bound then s.ctxError d t else s
  | .bootNext d => s.bootNext d
  | .osQueue d c w => if d < 8 then s.osQueue d c w else s
  | .osTail d t => if d < 8 then s.osTail d t else s
  | .osWrite d a bs => if d < 8 ∧ a + bs.length ≤ hbmBytes then s.pokeBytes (d * 2 ^ 46 + a) bs else s
  | .qcbError d pq copyB =>
    if d < 8 ∧ (storeFind (s.die d).queues pq).isSome = true then
      s.modQueue d pq (fun q =>
        if copyB then { q with b := { q.b with chk := q.b.chk + 1 } } else { q with a := { q.a with chk := q.a.chk + 1 } })
    else s
  | .corrected st => if st < 7 then s.countCorrected st else s
  | .rowError c r => s.rowError c r
  | .inbound p => s.inbound p
  | .setPoint d v => if d < 8 ∧ 450 ≤ v ∧ v ≤ 600 ∧ v % 5 = 0 ∧ (s.die d).boot ≠ .off then s.modDie d (fun x => { x with setPoint := v }) else s
  | .resetN => s.resetAsserted
  | .hart d n h => if d < 8 ∧ n < 4 ∧ (s.die d).boot ≠ .off then s.modDie d (fun x => { x with harts := x.harts.set n h }) else s
  | .tck tms tdi => { s with pkg := { s.pkg with tap := s.pkg.tap.edge tms tdi } }

/-! ## Scrubbing (R419, R420) -/

/-- PATROL_SCRUB of a block of HBM, or a row of another store (R419 to R421): a corrected error is counted; one that cannot be corrected is marked poisoned and reported;
one of a complex's SRAM stops that complex by a machine check, and its recovery begins. -/
def execPatrolScrub (blk : Nat) (r : ScrubResult) (s : State) : Host.Outcome State Fault Refusal :=
  let a := eccAddr blk
  .next (
    if inPackage a = false then s
    else
      match r with
      | .clean => s
      | .corrected => s.countCorrected (storeOf a)
      | .uncorrectable =>
        let s := ({ s with poisoned := if s.poisoned.contains blk then s.poisoned else s.poisoned ++ [blk] } : State).report
          (.uncorrectable (storeOf a) (homeDie a) a)
        if storeOf a = 4 then s.recover (homeDie a) else s)

/-! ## Reports (R421) -/

/-- The power of the 16 rails of R414, the f of the 8 compute dies, and the junction temperatures of these and the 4 quay dies; power and
temperatures are free (log entry 6). -/
def State.telemetry (s : State) : State :=
  let n := s.nfree
  let vs := (List.range 16).map (fun r => Config.railPower r n) ++ (List.range 8).map (fun d => (s.die d).clock) ++
    (List.range 12).map (fun d => Config.temperature d n)
  ({ s with nfree := n + 1 } : State).report (.power vs)

/-- The report of every 100 ms is sent once its time has come, while the package is powered (R421). -/
def State.telemetryTick (s : State) : State :=
  if s.pkg.pwrgood = false ∨ s.time < s.pkg.teleAt + 100000 then s
  else ({ s with pkg := { s.pkg with teleAt := s.time } } : State).telemetry
/-- TELEMETRY_REPORT (R421). -/
def execTelemetryReport (s : State) : Host.Outcome State Fault Refusal := .next s.telemetryTick
/-- TELEMETRY_REQUEST (R421). -/
def execTelemetryRequest (s : State) : Host.Outcome State Fault Refusal := .next s.telemetry
/-- ERROR_COUNTER_REQUEST (R421): corrected errors per store of R419, the numbers of storeOf and then 5 for accumulators, vector files and
hold latches, 6 for instruction memory; partition drops per check point (R295); bell drops, dropped link tags and
berth records dropped for their check value, per die. -/
def execErrorCounterRequest (s : State) : Host.Outcome State Fault Refusal :=
  .next (s.report (.counters ((List.range 7).map (fun i => storeGet 0 s.pkg.corrected i) ++
    (List.range 28).map (fun p => storeGet 0 s.pkg.pdrops p) ++ (List.range 8).flatMap (fun d => [(s.die d).bellDrops, (s.die d).tagDrops, (s.die d).errors]))))

/-! ## Image load (R45, R178, R388, R389) -/

/-- The bundles of an image, from the first word on. -/
def imageBundles (ws : List Nat) : Nat → Nat → List Sys2Proof.Bundle
  | 0, _ => []
  | fuel + 1, a =>
    if ws.length ≤ a then []
    else
      match decodeBundle ws a with
      | .ok b => b :: imageBundles ws fuel (max (Sys2Proof.Bundle.succ b) (a + 1))
      | .error _ => imageBundles ws fuel (a + 1)

/-- The "image load" features that an operation uses (R388). -/
def opFeatures : Instr → Nat
  | .mcallMmab _ => 1
  | .mcallSplit _ | .mcallSlmma _ | .mcallFold _ => 2
  | .vcvt o | .vcvti o => if o.src = 6 then 4 else 0
  | .csend _ | .cred _ => 8
  | .cbell o => if o.loc then 0 else 8
  | .sts o | .stvh o => if o.h then 64 else 0
  | .stv o | .stvs o => if o.h then 64 else 0
  | .stvm o => if o.h then 64 else 0
  | _ => 0

/-- The features of a syllable; type code 6 of the vector slots stands in [11:8] (R57). -/
def sylFeatures (x : Sys2Proof.Syl) : Nat :=
  match x.op with
  | .ok i => opFeatures i ||| (if (x.slot = .va ∨ x.slot = .vb) ∧ fld x.raw 8 4 = 6 then 4 else 0)
  | .error _ => 0

/-- The features that an image uses: of its operations, and windows through a layout entry with SPACE 4. -/
def imageFeatures (i : Image) (bs : List Sys2Proof.Bundle) : Nat :=
  bs.foldl (fun n b => b.syls.foldl (fun n x => n ||| sylFeatures x) n) 0 |||
  (if i.layouts.any (fun e => (imageLay i e.1).space == 4) then 8 else 0)

/-- A loop body as the loader sees it: the first address after its LSET, and its last line (R170). -/
structure LoopBody where
  start : Nat
  endl : Nat
deriving DecidableEq, Repr

/-- The operations of a bundle that decode, with whether each always or never takes effect (R54). -/
def bundleOps (b : Sys2Proof.Bundle) : List (Instr × Guard) :=
  b.syls.filterMap (fun x => match x.op with | .ok i => some (i, Sys2Proof.Syl.guard x) | .error _ => none)

/-- The bodies of an image. -/
def imageLoops (bs : List Sys2Proof.Bundle) : List LoopBody :=
  bs.flatMap (fun b => (bundleOps b).filterMap (fun x =>
    match x.1 with
    | .lset o => some ⟨Sys2Proof.Bundle.succ b, lineOf b.addr + o.e⟩
    | _ => none))

/-- The bodies that hold an address, innermost first. -/
def bodiesAt (ls : List LoopBody) (a : Nat) : List LoopBody :=
  let hold := ls.filter (fun l => decide (l.start ≤ a) && decide (a < (l.endl + 1) * 16))
  hold.foldl (fun acc x => acc.filter (fun y => decide (x.start < y.start)) ++ [x] ++ acc.filter (fun y => !decide (x.start < y.start))) []

/-- The transfers that the loader follows from a bundle: target, or `none` where a stop test ends the path, and the cycles it adds. A
transfer that always happens hides the sequential successor (R172 to R174, R176, R178). -/
def bundleEdges (ls : List LoopBody) (b : Sys2Proof.Bundle) : List (Option Nat × Nat) :=
  let enc := bodiesAt ls b.addr
  let edgeNext (rest : List LoopBody) (l : Nat) : List (Option Nat × Nat) :=
    [(if rest.any (fun x => x.endl == l) then none else some ((l + 1) * 16), 2)]
  let always (g : Guard) : Bool := g.p == 0 && !g.n
  let never (g : Guard) : Bool := g.p == 0 && g.n
  let ops := (bundleOps b).filter (fun x => !never x.2)
  let jumps := ops.flatMap (fun x =>
    match x.1 with
    | .bri o => [(some ((b.addr + ((BitVec.ofNat 32 o.imm).signExtend 64).toNat) % 65536), 2)]
    | .lset o => (match o.cnt with
      | .imm 0 => edgeNext enc (lineOf b.addr + o.e)
      | .imm _ => []
      | .reg _ => edgeNext enc (lineOf b.addr + o.e))
    | .lbrk o => (match (enc.drop (o.n - 1)).head? with
      | some l => edgeNext (enc.drop o.n) l.endl
      | none => [])
    | _ => [])
  let leaves (x : Instr × Guard) : Bool :=
    match x.1 with
    | .br _ | .bri _ | .call _ | .calli _ | .ret _ | .hret _ | .endStrand _ | .lbrk _ => always x.2
    | .lset o => always x.2 && o.cnt == .imm 0
    | _ => false
  let pushes := ops.any (fun x => match x.1 with | .lset o => o.cnt != .imm 0 | _ => false)
  let tested := Sys2Proof.Bundle.endsLine b && enc.any (fun l => l.endl == lineOf b.addr) && !pushes
  let bad := b.syls.any (fun x => match x.op with | .ok _ => false | .error _ => true)
  if bad then [] else jumps ++ (if ops.any leaves || tested then [] else [(some (Sys2Proof.Bundle.succ b), 0)])

/-- The longest path from each bundle, found in as many rounds as there are bundles, and one more round: a path that still grows is
a cycle (R178). -/
def pathRound (es : List (Nat × Nat × List (Option Nat × Nat))) (w : Store Nat) : Store Nat :=
  es.map (fun e => (e.1, e.2.1 + (e.2.2.map (fun t => ((t.1.bind (fun a => storeFind w a)).getD 0) + t.2)).foldl max 0))

/-- R178: no path of more than 4,096 issue cycles and no cycle passes without a stop test. A bundle with PARK ends the paths to it. -/
def pathsOk (bs : List Sys2Proof.Bundle) : Bool :=
  let ls := imageLoops bs
  let park (a : Nat) : Bool := bs.any (fun b => b.addr == a && b.hdr.park)
  let es := bs.map (fun b => (b.addr, 1 + b.hdr.erun, (bundleEdges ls b).map (fun t => (t.1.filter (fun a => !park a), t.2))))
  let w := iter (pathRound es) bs.length (es.map (fun e => (e.1, e.2.1)))
  w.all (fun e => decide (e.2 ≤ 4096)) && pathRound es w == w

/-- IMAGE_LOAD (R45, R178, R389): an image that a check rejects is not loaded. -/
def State.imageLoad (s : State) (die tcid : Nat) (i : Image) : State :=
  let c := s.ctx die tcid
  let bs := imageBundles i.words (i.words.length + 1) 0
  if c.bound = false ∨ 64 < imageRows i ∨ imageFeatures i bs &&& i.features ≠ imageFeatures i bs ∨ pathsOk bs = false then s
  else s.modCtx die tcid (fun c => { c with images := storeSet c.images i.id i })
def execImageLoad (die tcid : Nat) (img : Image) (s : State) : Host.Outcome State Fault Refusal := .next (s.imageLoad die tcid img)

/-! ## Retired pages (R374) -/

/-- A save area moves to a new page of the supervisor region, with its tags unchanged (R374). -/
def State.retireArea (s : State) (die src dst : Nat) : State :=
  match s.strands.find? (fun e => e.2.area == some (hbmAddr die src)) with
  | none => s
  | some (k, _) =>
    if dst % areaSize ≠ 0 ∨ dst < osBase + (s.die die).nalloc ∨ hbmBytes < dst + areaSize then s
    else
      (((s.copyPage (hbmAddr die src) (hbmAddr die dst) areaSize).zeroRange (hbmAddr die src) areaSize).modStrand k (fun t =>
        { t with area := some (hbmAddr die dst) })).modDie die (fun d => { d with nalloc := dst + areaSize - osBase })

/-- RETIRED_PAGE_MOVE (R374): a save area moves to a page of the supervisor region that is free; a tenant page of a die moves to a page
that no context's page meets, and every leaf for it is rewritten. -/
def State.retirePage (s : State) (die src dst : Nat) : State :=
  let home := s.domainIdx die
  match (s.leafUses home).find? (fun u => u.meets src 1) with
  | none => s.retireArea die src dst
  | some u =>
    let r := s.moveRange home u.pa u.size
    if dst % r.2 ≠ 0 ∨ osBase < dst + r.2 ∨ (decide (dst < r.1 + r.2) && decide (r.1 < dst + r.2)) = true ∨
        s.ctxs.any (fun x => x.2.pages.any (fun q => meetsPage s home dst r.2 q x)) = true then s
    else
      let s := s.quiet home r.1 r.2
      (((s.copyPage (hbmAddr die r.1) (hbmAddr die dst) r.2).zeroRange (hbmAddr die r.1) r.2).moveUses home r.1 r.2 die dst)
def execRetiredPageMove (die src dst : Nat) (s : State) : Host.Outcome State Fault Refusal := .next (s.retirePage die src dst)

end Sys2Proof.Machine
end

