-- ==== Sys2Proof/Machine/Scalar.lean ====
section
/-! DEFINITION. The scalar operations of the S slot (R152 to R158): each reads its sources at issue and lands one scalar
register or predicate at the latency of R83. -/
namespace Sys2Proof.Machine

/-- A scalar operation: the value from the strand's sources, landed in sd after l issue cycles (R151, R152). -/
def scalarOp (i : Instr) (g : Guard) (sd l : Nat) (v : Strand → Word) : Op :=
  Op.plain i .s g (fun s => s.landWord (.sreg sd) l (v s.me) .s)

/-- A predicate operation (R80). -/
def predOp (i : Instr) (g : Guard) (pd : Nat) (v : Strand → Bool) : Op :=
  Op.plain i .s g (fun s => s.landBit (.preg pd) 1 (v s.me) .s)

/-- Bits [127:64] of the signed product (R152). -/
def mulHigh (a b : Word) : Word := BitVec.ofInt 64 (a.toInt * b.toInt / 2 ^ 64)
/-- Bits [127:64] of the unsigned product (R152). -/
def mulHighU (a b : Word) : Word := BitVec.ofNat 64 (a.toNat * b.toNat / 2 ^ 64)
/-- DIV (R153). -/
def divS (a b : Word) : Word := if b = 0 then BitVec.allOnes 64 else BitVec.ofInt 64 (a.toInt.tdiv b.toInt)
/-- REM (R153). -/
def remS (a b : Word) : Word := if b = 0 then a else BitVec.ofInt 64 (a.toInt.tmod b.toInt)
/-- DIVU (R153). -/
def divU (a b : Word) : Word := if b = 0 then BitVec.allOnes 64 else BitVec.ofNat 64 (a.toNat / b.toNat)
/-- REMU (R153). -/
def remU (a b : Word) : Word := if b = 0 then a else BitVec.ofNat 64 (a.toNat % b.toNat)
/-- The shift amount: b[5:0] (R154). -/
def amount (b : Word) : Nat := b.toNat % 64
/-- ROTL (R154). -/
def rotLeft (a : Word) (k : Nat) : Word := BitVec.ofNat 64 (a.toNat * 2 ^ k + a.toNat / 2 ^ (64 - k))
/-- The number of leading zero bits (R152). -/
def countLead (a : Word) : Nat := if a = 0 then 64 else 63 - Nat.log2 a.toNat
/-- The number of set bits among the low n. -/
def countOnes (a : Nat) : Nat → Nat
  | 0 => 0
  | n + 1 => (if a.testBit n then 1 else 0) + countOnes a n
/-- Lesser and greater, signed (R152). -/
def minS (a b : Word) : Word := if b.slt a then b else a
def maxS (a b : Word) : Word := if a.slt b then b else a
/-- Lesser and greater, unsigned (R152). -/
def minU (a b : Word) : Word := if b.ult a then b else a
def maxU (a b : Word) : Word := if a.ult b then b else a

/-- ADD (R152). -/
def execAdd (o : RRR) (s : State) : Host.Outcome State Fault Refusal :=
  (scalarOp (.add o) o.g o.sd 1 (fun t => t.rs o.sa + t.rs o.sb)).run s
/-- SUB (R152). -/
def execSub (o : RRR) (s : State) : Host.Outcome State Fault Refusal :=
  (scalarOp (.sub o) o.g o.sd 1 (fun t => t.rs o.sa - t.rs o.sb)).run s
/-- ADDI (R152). -/
def execAddi (o : RRI) (s : State) : Host.Outcome State Fault Refusal :=
  (scalarOp (.addi o) o.g o.sd 1 (fun t => t.rs o.sa + t.src (.imm o.imm))).run s
/-- MUL (R152). -/
def execMul (o : RRS) (s : State) : Host.Outcome State Fault Refusal :=
  (scalarOp (.mul o) o.g o.sd 3 (fun t => t.rs o.sa * t.src o.b)).run s
/-- MULH (R152). -/
def execMulh (o : RRR) (s : State) : Host.Outcome State Fault Refusal :=
  (scalarOp (.mulh o) o.g o.sd 3 (fun t => mulHigh (t.rs o.sa) (t.rs o.sb))).run s
/-- MULHU (R152). -/
def execMulhu (o : RRR) (s : State) : Host.Outcome State Fault Refusal :=
  (scalarOp (.mulhu o) o.g o.sd 3 (fun t => mulHighU (t.rs o.sa) (t.rs o.sb))).run s
/-- DIV (R153). -/
def execDiv (o : RRR) (s : State) : Host.Outcome State Fault Refusal :=
  (scalarOp (.div o) o.g o.sd 18 (fun t => divS (t.rs o.sa) (t.rs o.sb))).run s
/-- DIVU (R153). -/
def execDivu (o : RRR) (s : State) : Host.Outcome State Fault Refusal :=
  (scalarOp (.divu o) o.g o.sd 18 (fun t => divU (t.rs o.sa) (t.rs o.sb))).run s
/-- REM (R153). -/
def execRem (o : RRR) (s : State) : Host.Outcome State Fault Refusal :=
  (scalarOp (.rem o) o.g o.sd 18 (fun t => remS (t.rs o.sa) (t.rs o.sb))).run s
/-- REMU (R153). -/
def execRemu (o : RRR) (s : State) : Host.Outcome State Fault Refusal :=
  (scalarOp (.remu o) o.g o.sd 18 (fun t => remU (t.rs o.sa) (t.rs o.sb))).run s
/-- AND (R152). -/
def execAnd (o : RRS) (s : State) : Host.Outcome State Fault Refusal :=
  (scalarOp (.and o) o.g o.sd 1 (fun t => t.rs o.sa &&& t.src o.b)).run s
/-- OR (R152). -/
def execOr (o : RRS) (s : State) : Host.Outcome State Fault Refusal :=
  (scalarOp (.or o) o.g o.sd 1 (fun t => t.rs o.sa ||| t.src o.b)).run s
/-- XOR (R152). -/
def execXor (o : RRS) (s : State) : Host.Outcome State Fault Refusal :=
  (scalarOp (.xor o) o.g o.sd 1 (fun t => t.rs o.sa ^^^ t.src o.b)).run s
/-- ANDN (R152). -/
def execAndn (o : RRS) (s : State) : Host.Outcome State Fault Refusal :=
  (scalarOp (.andn o) o.g o.sd 1 (fun t => t.rs o.sa &&& ~~~(t.src o.b))).run s
/-- SHL (R154). -/
def execShl (o : RRS) (s : State) : Host.Outcome State Fault Refusal :=
  (scalarOp (.shl o) o.g o.sd 1 (fun t => t.rs o.sa <<< amount (t.src o.b))).run s
/-- SHR (R154). -/
def execShr (o : RRS) (s : State) : Host.Outcome State Fault Refusal :=
  (scalarOp (.shr o) o.g o.sd 1 (fun t => t.rs o.sa >>> amount (t.src o.b))).run s
/-- SAR (R154). -/
def execSar (o : RRS) (s : State) : Host.Outcome State Fault Refusal :=
  (scalarOp (.sar o) o.g o.sd 1 (fun t => (t.rs o.sa).sshiftRight (amount (t.src o.b)))).run s
/-- ROTL (R154). -/
def execRotl (o : RRS) (s : State) : Host.Outcome State Fault Refusal :=
  (scalarOp (.rotl o) o.g o.sd 1 (fun t => rotLeft (t.rs o.sa) (amount (t.src o.b)))).run s
/-- CLZ (R152). -/
def execClz (o : RR) (s : State) : Host.Outcome State Fault Refusal :=
  (scalarOp (.clz o) o.g o.sd 1 (fun t => BitVec.ofNat 64 (countLead (t.rs o.sa)))).run s
/-- POPC (R152). -/
def execPopc (o : RR) (s : State) : Host.Outcome State Fault Refusal :=
  (scalarOp (.popc o) o.g o.sd 1 (fun t => BitVec.ofNat 64 (countOnes (t.rs o.sa).toNat 64))).run s
/-- MIN (R152). -/
def execMin (o : RRS) (s : State) : Host.Outcome State Fault Refusal :=
  (scalarOp (.min o) o.g o.sd 1 (fun t => minS (t.rs o.sa) (t.src o.b))).run s
/-- MAX (R152). -/
def execMax (o : RRS) (s : State) : Host.Outcome State Fault Refusal :=
  (scalarOp (.max o) o.g o.sd 1 (fun t => maxS (t.rs o.sa) (t.src o.b))).run s
/-- MINU (R152). -/
def execMinu (o : RRS) (s : State) : Host.Outcome State Fault Refusal :=
  (scalarOp (.minu o) o.g o.sd 1 (fun t => minU (t.rs o.sa) (t.src o.b))).run s
/-- MAXU (R152). -/
def execMaxu (o : RRS) (s : State) : Host.Outcome State Fault Refusal :=
  (scalarOp (.maxu o) o.g o.sd 1 (fun t => maxU (t.rs o.sa) (t.src o.b))).run s
/-- SEL (R155). -/
def execSel (o : SelOps) (s : State) : Host.Outcome State Fault Refusal :=
  (scalarOp (.sel o) o.g o.sd 1 (fun t => if t.rp o.k then t.rs o.sa else t.rs o.sb)).run s
/-- LI (R155). -/
def execLi (o : RI) (s : State) : Host.Outcome State Fault Refusal :=
  (scalarOp (.li o) o.g o.sd 1 (fun t => t.src (.imm o.imm))).run s
/-- LIH: reads its own destination (R155). -/
def execLih (o : RI) (s : State) : Host.Outcome State Fault Refusal :=
  (scalarOp (.lih o) o.g o.sd 1 (fun t => BitVec.ofNat 64 (o.imm * 2 ^ 32 + (t.rs o.sd).toNat % 2 ^ 32))).run s
/-- CMP (R156). -/
def execCmp (o : CmpOps) (s : State) : Host.Outcome State Fault Refusal :=
  (predOp (.cmp o) o.g o.pd (fun t => scalarCond o.cc (t.rs o.sa) (t.rs o.sb))).run s
/-- CMPI (R156). -/
def execCmpi (o : CmpIOps) (s : State) : Host.Outcome State Fault Refusal :=
  (predOp (.cmpi o) o.g o.pd (fun t => scalarCond o.cc (t.rs o.sa) (t.src (.imm o.imm)))).run s
/-- PAND (R157). -/
def execPand (o : PPP) (s : State) : Host.Outcome State Fault Refusal :=
  (predOp (.pand o) o.g o.pd (fun t => POp.and.eval (t.rp o.pa != o.na) (t.rp o.pb != o.nb))).run s
/-- POR (R157). -/
def execPor (o : PPP) (s : State) : Host.Outcome State Fault Refusal :=
  (predOp (.por o) o.g o.pd (fun t => POp.or.eval (t.rp o.pa != o.na) (t.rp o.pb != o.nb))).run s
/-- PXOR (R157). -/
def execPxor (o : PPP) (s : State) : Host.Outcome State Fault Refusal :=
  (predOp (.pxor o) o.g o.pd (fun t => POp.xor.eval (t.rp o.pa != o.na) (t.rp o.pb != o.nb))).run s
/-- PNOT (R157). -/
def execPnot (o : PP) (s : State) : Host.Outcome State Fault Refusal :=
  (predOp (.pnot o) o.g o.pd (fun t => !(t.rp o.pa != o.na))).run s

/-- MOVH: one word of a latch; a pending fill stalls, and without K the full bit clears at issue (R70, R158). -/
def opMovh (o : MovhOps) (s : State) : Op :=
  let t := s.me
  { i := .movh o, slot := .s, g := o.g, chk := latchChk t o.h, dyn := latchDyn (.movh o) t o.h, emul := false
    stall := latchStall t o.h
    eff := fun s =>
      (s.landWord (.sreg o.sd) 1 (BitVec.ofNat 64 ((s.me.rh o.h).data.toNat / 2 ^ (64 * o.w))) .s).onMe
        (fun t => t.takeLatch o.h o.keep) }
def execMovh (o : MovhOps) (s : State) : Host.Outcome State Fault Refusal := (opMovh o s).run s

end Sys2Proof.Machine
end

