-- ==== Sys2Proof/Machine/System.lean ====
section
/-! DEFINITION. CSR access (R159), TRAP and HAIL (R160), and the layout table's LAYW and LAYR (R148). -/
namespace Sys2Proof.Machine

/-- CSRR (R159): the value read at issue lands after 2 issue cycles. -/
def execCsrr (o : CsrrOps) (s : State) : Host.Outcome State Fault Refusal :=
  (Op.plain (.csrr o) .s o.g (fun s => s.landWord (.sreg o.sd) 2 (s.csr s.me o.csr) .s)).run s

/-- CSRW, CSRS and CSRC (R71, R159): a tenant's write of a privileged CSR raises PRIV_OP before issue; a write of a read-only
CSR has no effect; otherwise the RW fields land after 1 issue cycle. -/
def opCsrw (i : Instr) (op : CsrOp) (o : CsrwOps) (s : State) : Op :=
  let t := s.me
  { Op.plain i .s o.g (fun s =>
      if csrRw o.csr = 0 then s else s.landWord (.csr o.csr) 1 (s.csrNew s.me op o.csr (s.me.rs o.sa)) .s) with
    chk := cond (csrPriv o.csr && !t.supervisor) .privOp }
/-- CSRW (R159). -/
def execCsrw (o : CsrwOps) (s : State) : Host.Outcome State Fault Refusal := (opCsrw (.csrw o) .w o s).run s
/-- CSRS (R159). -/
def execCsrs (o : CsrwOps) (s : State) : Host.Outcome State Fault Refusal := (opCsrw (.csrs o) .s o s).run s
/-- CSRC (R159). -/
def execCsrc (o : CsrwOps) (s : State) : Host.Outcome State Fault Refusal := (opCsrw (.csrc o) .c o s).run s

/-- A cause that the S slot makes due at the end of the issue cycle (R160, R355). -/
def codeOp (i : Instr) (c : Cause) (o : CodeOps) : Op :=
  Op.plain i .s o.g (fun s => s.onMe (fun t => t.addCause ⟨c, BitVec.ofNat 64 o.code, t.bun.addr, 2 ^ Slot.bit .s⟩))
/-- TRAP (R160). -/
def execTrap (o : CodeOps) (s : State) : Host.Outcome State Fault Refusal := (codeOp (.trap o) .softwareTrap o).run s
/-- HAIL (R160). -/
def execHail (o : CodeOps) (s : State) : Host.Outcome State Fault Refusal := (codeOp (.hail o) .hail o).run s

/-- The bits of a layout word that are not reserved (R116, R148). -/
def layReadable (k : Nat) (dims0 : Bool) : Word :=
  match k with
  | 0 => ~~~(0x10 : Word)
  | 1 => if dims0 then 0x0000FFFFFFFFFFFF else BitVec.allOnes 64
  | 3 => ~~~(0xFFFF03E0 : Word)
  | _ => BitVec.allOnes 64

/-- LAYW (R148): any value is stored; memory operations issued 2 or more issue cycles later use it. -/
def execLayw (o : LaywOps) (s : State) : Host.Outcome State Fault Refusal :=
  (Op.plain (.layw o) .s o.g (fun s => s.landWord (.lay (4 * o.n + o.k)) 2 (s.me.rs o.sa) .s)).run s
/-- LAYR (R148): reserved fields read zero. -/
def execLayr (o : LayrOps) (s : State) : Host.Outcome State Fault Refusal :=
  (Op.plain (.layr o) .s o.g (fun s =>
    s.landWord (.sreg o.sd) 2 (s.me.layWord (4 * o.n + o.k) &&& layReadable o.k (fld (s.me.layWord (4 * o.n)).toNat 6 2 == 0)) .s)).run s

end Sys2Proof.Machine
end

