-- ==== Sys2Proof/Machine/Vector.lean ====
section
/-! DEFINITION. The operations of the VA and VB slots (R184 to R216): sources are read at issue, and lanes land at the
latency of R83 under the write mask read at issue (R185). -/
namespace Sys2Proof.Machine

/-! ## Shared forms -/

/-- The conditions every vector operation checks: its registers by file, and no handler (R77, R187). -/
def vecChk (t : Strand) (regs : List (VFile × Nat)) : List Cause :=
  regs.flatMap (fun r => vreg t r.1 r.2) ++ noHandler t

/-- A vector result: data, byte enables, and the landing trap with its FVAL (R104, R185). -/
structure VRes where
  v : Vec
  en : Mask
  trap : Option Nat

/-- A vector operation that lands in a register of a file after l issue cycles (R185). -/
def vecOp (i : Instr) (f : VFile) (g : Guard) (vd l : Nat) (regs : List (VFile × Nat)) (r : Strand → VRes) (s : State) : Op :=
  { Op.plain i f.slot g (fun s =>
      let x := r s.me
      s.pushIn ⟨.vreg f vd, l, x.v, x.en, false, x.trap.map (fun n => (.convertOverflow, BitVec.ofNat 64 n)), f.slot, s.me.bun.addr⟩)
    with chk := vecChk s.me regs }

/-- Lanes of w bits under a lane mask (R58, R185). -/
def lanesRes (w : Nat) (m : Mask) (l : List Nat) : VRes := ⟨vecOf w l, laneEn m w, none⟩

/-- A mask bit governs a lane of w bits (R58). -/
def governs (m : Mask) (w i : Nat) : Bool := m.getLsbD (if w < 8 then i / 2 else i)

/-- Lanes that may overflow under TRAP: the lowest enabled lane without a result makes the landing trap (R104). -/
def trapRes (w : Nat) (m : Mask) (l : List (Option Nat)) : VRes :=
  ⟨vecOf w (l.map (fun x => x.getD 0)), laneEn m w,
   (List.range l.length).find? (fun i => governs m w i && (l.getD i none).isNone)⟩

/-- Lane-wise maps over registers of a file by type. -/
def Strand.map1 (t : Strand) (f : VFile) (ty a : Nat) (op : Nat → Nat) : List Nat := (lanesOf (t.rv f a) (tyWidth ty)).map op
def Strand.map2 (t : Strand) (f : VFile) (ty a b : Nat) (op : Nat → Nat → Nat) : List Nat :=
  List.zipWith op (lanesOf (t.rv f a) (tyWidth ty)) (lanesOf (t.rv f b) (tyWidth ty))

/-- One source (R187). -/
def vec2T (i : Instr) (o : V2T) (l : Nat) (op : Nat → Nat) : State → Op :=
  vecOp i o.f o.g o.vd l [(o.f, o.vd), (o.f, o.vs1)]
    (fun t => lanesRes (tyWidth o.ty) (t.rm o.f o.msel) (t.map1 o.f o.ty o.vs1 op))
/-- Two sources (R187). -/
def vec3T (i : Instr) (o : V3T) (l : Nat) (op : Nat → Nat → Nat) : State → Op :=
  vecOp i o.f o.g o.vd l [(o.f, o.vd), (o.f, o.vs1), (o.f, o.vs2)]
    (fun t => lanesRes (tyWidth o.ty) (t.rm o.f o.msel) (t.map2 o.f o.ty o.vs1 o.vs2 op))
/-- Floating arithmetic on two sources (R188). -/
def vec3R (i : Instr) (o : V3R) (op : FOp) : State → Op :=
  vecOp i o.f o.g o.vd 4 [(o.f, o.vd), (o.f, o.vs1), (o.f, o.vs2)]
    (fun t => lanesRes (tyWidth o.ty) (t.rm o.f o.msel) (t.map2 o.f o.ty o.vs1 o.vs2 (floatBin op o.ty o.rnd)))
/-- Fused arithmetic (R189). -/
def vec4R (i : Instr) (o : V4R) (negProd subC : Bool) : State → Op :=
  vecOp i o.f o.g o.vd 4 [(o.f, o.vd), (o.f, o.vs1), (o.f, o.vs2), (o.f, o.vs3)]
    (fun t => lanesRes (tyWidth o.ty) (t.rm o.f o.msel)
      (List.zipWith (fun ab c => floatFma negProd subC o.ty o.rnd ab.1 ab.2 c)
        (List.zip (lanesOf (t.rv o.f o.vs1) (tyWidth o.ty)) (lanesOf (t.rv o.f o.vs2) (tyWidth o.ty)))
        (lanesOf (t.rv o.f o.vs3) (tyWidth o.ty))))
/-- Square root and transcendental operations (R192). -/
def vec2R (i : Instr) (o : V2R) (l : Nat) (op : Approx) : State → Op :=
  vecOp i o.f o.g o.vd l [(o.f, o.vd), (o.f, o.vs1)]
    (fun t => lanesRes (tyWidth o.ty) (t.rm o.f o.msel) (t.map1 o.f o.ty o.vs1 (approxResult op o.ty o.rnd)))
/-- Exact integer arithmetic under an overflow policy (R102, R197). -/
def vec3O (i : Instr) (o : V3O) (l : Nat) (op : Int → Int → Int) : State → Op :=
  vecOp i o.f o.g o.vd l [(o.f, o.vd), (o.f, o.vs1), (o.f, o.vs2)]
    (fun t => trapRes (tyWidth o.ty) (t.rm o.f o.msel)
      (List.zipWith (fun a b => intResult o.ty o.ovf (op (intOf o.ty a) (intOf o.ty b)))
        (lanesOf (t.rv o.f o.vs1) (tyWidth o.ty)) (lanesOf (t.rv o.f o.vs2) (tyWidth o.ty))))
/-- Logic on whole registers under 32-bit unit masking (R185, R198). -/
def vec3L (i : Instr) (o : V3L) (op : Vec → Vec → Vec) : State → Op :=
  vecOp i o.f o.g o.vd 2 [(o.f, o.vd), (o.f, o.vs1), (o.f, o.vs2)]
    (fun t => ⟨op (t.rv o.f o.vs1) (t.rv o.f o.vs2), laneEn (t.rm o.f o.msel) 32, none⟩)
/-- The second operand of format VS as an unsigned number: a register, or IMM11 zero-extended (R199). -/
def Strand.vsU (t : Strand) : Src → Nat
  | .reg r => (t.rs r).toNat
  | .imm v => v
/-- The second operand of format VS as a signed number: a register, or IMM11 sign-extended (R208, R210). -/
def Strand.vsS (t : Strand) : Src → Int
  | .reg r => (t.rs r).toInt
  | .imm v => signedOf 11 v
/-- Shifts by lane (R199). -/
def vecShift (i : Instr) (o : VSS) (op : Nat → Nat → Nat) : State → Op :=
  vecOp i o.f o.g o.vd 2 [(o.f, o.vd), (o.f, o.vs1)]
    (fun t => lanesRes (tyWidth o.ty) (t.rm o.f o.msel) (t.map1 o.f o.ty o.vs1 (fun a => op a (t.vsU o.b))))

/-- VSHL on a lane of w bits (R199). -/
def laneShl (w a k : Nat) : Nat := if w ≤ k then 0 else a * 2 ^ k % 2 ^ w
/-- VSHR (R199). -/
def laneShr (w a k : Nat) : Nat := if w ≤ k then 0 else a / 2 ^ k
/-- VSAR (R199). -/
def laneSar (w a k : Nat) : Nat := lowBits w (signedOf w a / (2 ^ (if w ≤ k then w else k) : Nat))

/-- The sign bit of a floating lane (R191). -/
def signBit (ty : Nat) : Nat := 2 ^ (tyWidth ty - 1)
/-- VABS, VNEG and VCPYS on encodings (R191). -/
def laneAbs (ty a : Nat) : Nat := a % signBit ty
def laneNeg (ty a : Nat) : Nat := if a < signBit ty then a + signBit ty else a - signBit ty
def laneCpys (ty a b : Nat) : Nat := a % signBit ty + b / signBit ty * signBit ty

/-- VIMULH, VIMIN, VIMAX and VIABS on lanes (R197). -/
def laneMulh (ty a b : Nat) : Nat := lowBits (tyWidth ty) (intOf ty a * intOf ty b / (2 ^ tyWidth ty : Nat))
def laneMin (ty a b : Nat) : Nat := if intOf ty b < intOf ty a then b else a
def laneMax (ty a b : Nat) : Nat := if intOf ty a < intOf ty b then b else a
def laneIabs (ty a : Nat) : Nat := lowBits (tyWidth ty) (intOf ty a).natAbs

/-- A conversion of the lanes that both widths have (R201). -/
def vecCvt (i : Instr) (o : VCvtOps) : State → Op :=
  vecOp i o.f o.g o.vd 4 [(o.f, o.vd), (o.f, o.vs1)]
    (fun t =>
      let ws := tyWidth o.src
      let wd := tyWidth o.ty
      let n := 1024 / max ws wd
      let l := (lanesOf (t.rv o.f o.vs1) ws).take n
      let r := trapRes wd (t.rm o.f o.msel) (l.map (fun a => convert o.ty o.rnd o.ovf (valueOf o.src a)))
      -- lanes at or above n keep their values
      { r with en := r.en &&& BitVec.ofNat 128 (2 ^ (n * wd / 8) - 1) })

/-- The band scale of VQFP4 and VDQFP4: BF16 in bits [15:0] (R202, R204). -/
def bandScale (v : Vec) : FVal := (fmtOf 1).decode (v.toNat % 65536)
/-- Positive and finite. -/
def posFinite : FVal → Bool
  | .fin neg n _ => !neg && n != 0
  | _ => false

/-- The byte enables of VQFP4: five bytes for each enabled block, and bytes 40 to 127 always (R202). -/
def quantEn (m : Mask) : Mask :=
  BitVec.ofNat 128 ((List.range 128).foldl (fun x i =>
    if (if i < 32 then m.getLsbD (i / 4) else if i < 40 then m.getLsbD (i - 32) else true) then x + 2 ^ i else x) 0)

/-- VQFP4 on eight blocks of eight elements (R202, R203). -/
def quantRes (o : VQOps) (t : Strand) : VRes :=
  let m := t.rm o.f o.msel
  let xs := (lanesOf (t.rv o.f o.vs1) 32 ++ lanesOf (t.rv o.f o.vs2) 32).map (fmtOf 0).decode
  let c := bandScale (t.rv o.f o.vs3)
  let on (j : Nat) : Bool := m.getLsbD j
  let bs : List QBlock := (List.range 8).map (fun j =>
    if posFinite c then quantBlock o.rnd o.ovf c ((xs.drop (8 * j)).take 8)
    else ⟨0, List.replicate 8 0, List.replicate 8 (o.ovf == 3)⟩)
  let data := packLanes 4 (bs.flatMap (fun b => b.elems)) + 2 ^ 256 * packLanes 8 (bs.map (fun b => b.scale))
  ⟨BitVec.ofNat 1024 data, quantEn m,
   (List.range 64).find? (fun k => on (k / 8) && ((bs.getD (k / 8) ⟨0, [], []⟩).bad.getD (k % 8) false))⟩

/-- VDQFP4 on 64 elements (R204). -/
def dequantRes (o : VQOps) (t : Strand) : VRes :=
  let es := (lanesOf (t.rv o.f o.vs1) 4).take 64
  let ss := lanesOf (t.rv o.f o.vs2) 8
  let c := bandScale (t.rv o.f o.vs3)
  trapRes 16 (t.rm o.f o.msel) ((List.range 64).map (fun k =>
    convert 1 o.rnd o.ovf (bk8Value (es.getD k 0) (ss.getD (32 + k / 8) 0) c)))

/-- A mask operation (R216). -/
def maskOp (i : Instr) (f : VFile) (g : Guard) (md : Nat) (r : Strand → Mask) (s : State) : Op :=
  { Op.plain i f.slot g (fun s => s.land (.mask f md) 1 ((r s.me).setWidth 1024) f.slot) with chk := noHandler s.me }

/-- A reduction over the participating lanes, written to every lane (R112, R215). -/
def vecRed (i : Instr) (o : V2T) (l : Nat) (op : RedOp) : State → Op :=
  vecOp i o.f o.g o.vd l [(o.f, o.vd), (o.f, o.vs1)]
    (fun t =>
      let w := tyWidth o.ty
      let m := t.rm o.f o.msel
      let ls := lanesOf (t.rv o.f o.vs1) w
      let x := treeReduce op o.ty (Nat.log2 (1024 / w)) ((List.range ls.length).map (fun i =>
        if governs m w i then some (ls.getD i 0) else none))
      ⟨vecOf w (List.replicate (1024 / w) x), fullEn, none⟩)

/-! ## Meanings -/

/-- VADD (R188). -/
def execVadd (o : V3R) (s : State) : Host.Outcome State Fault Refusal := (vec3R (.vadd o) o .add s).run s
/-- VSUB (R188). -/
def execVsub (o : V3R) (s : State) : Host.Outcome State Fault Refusal := (vec3R (.vsub o) o .sub s).run s
/-- VMUL (R188). -/
def execVmul (o : V3R) (s : State) : Host.Outcome State Fault Refusal := (vec3R (.vmul o) o .mul s).run s
/-- VFMA (R189). -/
def execVfma (o : V4R) (s : State) : Host.Outcome State Fault Refusal := (vec4R (.vfma o) o false false s).run s
/-- VFMS (R189). -/
def execVfms (o : V4R) (s : State) : Host.Outcome State Fault Refusal := (vec4R (.vfms o) o false true s).run s
/-- VFNMA (R189). -/
def execVfnma (o : V4R) (s : State) : Host.Outcome State Fault Refusal := (vec4R (.vfnma o) o true false s).run s
/-- VMIN (R190). -/
def execVmin (o : V3T) (s : State) : Host.Outcome State Fault Refusal := (vec3T (.vmin o) o 4 (floatMinMax o.ty false) s).run s
/-- VMAX (R190). -/
def execVmax (o : V3T) (s : State) : Host.Outcome State Fault Refusal := (vec3T (.vmax o) o 4 (floatMinMax o.ty true) s).run s
/-- VABS (R191). -/
def execVabs (o : V2T) (s : State) : Host.Outcome State Fault Refusal := (vec2T (.vabs o) o 4 (laneAbs o.ty) s).run s
/-- VNEG (R191). -/
def execVneg (o : V2T) (s : State) : Host.Outcome State Fault Refusal := (vec2T (.vneg o) o 4 (laneNeg o.ty) s).run s
/-- VCPYS (R191). -/
def execVcpys (o : V3T) (s : State) : Host.Outcome State Fault Refusal := (vec3T (.vcpys o) o 4 (laneCpys o.ty) s).run s
/-- VRCP (R192). -/
def execVrcp (o : V2R) (s : State) : Host.Outcome State Fault Refusal := (vec2R (.vrcp o) o 8 .rcp s).run s
/-- VRSQ (R192). -/
def execVrsq (o : V2R) (s : State) : Host.Outcome State Fault Refusal := (vec2R (.vrsq o) o 8 .rsq s).run s
/-- VSQRT (R192). -/
def execVsqrt (o : V2R) (s : State) : Host.Outcome State Fault Refusal := (vec2R (.vsqrt o) o 12 .sqrt s).run s
/-- VEXP2 (R192). -/
def execVexp2 (o : V2R) (s : State) : Host.Outcome State Fault Refusal := (vec2R (.vexp2 o) o 12 .exp2 s).run s
/-- VLOG2 (R192). -/
def execVlog2 (o : V2R) (s : State) : Host.Outcome State Fault Refusal := (vec2R (.vlog2 o) o 12 .log2 s).run s
/-- VCMP: compared lanes under the mask, bits at or above n cleared (R195, R196). -/
def opVcmp (o : VCmpOps) (s : State) : Op :=
  { Op.plain (.vcmp o) o.f.slot o.g (fun s =>
      let t := s.me
      let w := tyWidth o.ty
      let n := 1024 / w
      let m := t.rm o.f o.msel
      let bits := t.map2 o.f o.ty o.vs1 o.vs2 (fun a b =>
        (if isIntTy o.ty then intCond o.cond (intOf o.ty a) (intOf o.ty b)
         else floatCond o.cond ((fmtOf o.ty).decode a) ((fmtOf o.ty).decode b)).toNat)
      let en : Mask := (m &&& BitVec.ofNat 128 (2 ^ n - 1)) ||| ~~~(BitVec.ofNat 128 (2 ^ n - 1))
      s.pushIn ⟨.mask o.f o.md, 2, BitVec.ofNat 1024 (packLanes 1 bits), en, false, none, o.f.slot, t.bun.addr⟩) with
    chk := vecChk s.me [(o.f, o.vs1), (o.f, o.vs2)] }
def execVcmp (o : VCmpOps) (s : State) : Host.Outcome State Fault Refusal := (opVcmp o s).run s
/-- VIADD (R197). -/
def execViadd (o : V3O) (s : State) : Host.Outcome State Fault Refusal := (vec3O (.viadd o) o 2 (fun a b => a + b) s).run s
/-- VISUB (R197). -/
def execVisub (o : V3O) (s : State) : Host.Outcome State Fault Refusal := (vec3O (.visub o) o 2 (fun a b => a - b) s).run s
/-- VIMUL (R197). -/
def execVimul (o : V3O) (s : State) : Host.Outcome State Fault Refusal := (vec3O (.vimul o) o 4 (fun a b => a * b) s).run s
/-- VIMULH (R197). -/
def execVimulh (o : V3T) (s : State) : Host.Outcome State Fault Refusal := (vec3T (.vimulh o) o 4 (laneMulh o.ty) s).run s
/-- VIMIN (R197). -/
def execVimin (o : V3T) (s : State) : Host.Outcome State Fault Refusal := (vec3T (.vimin o) o 2 (laneMin o.ty) s).run s
/-- VIMAX (R197). -/
def execVimax (o : V3T) (s : State) : Host.Outcome State Fault Refusal := (vec3T (.vimax o) o 2 (laneMax o.ty) s).run s
/-- VIABS (R197). -/
def execViabs (o : V2T) (s : State) : Host.Outcome State Fault Refusal := (vec2T (.viabs o) o 2 (laneIabs o.ty) s).run s
/-- VAND (R198). -/
def execVand (o : V3L) (s : State) : Host.Outcome State Fault Refusal := (vec3L (.vand o) o (fun a b => a &&& b) s).run s
/-- VOR (R198). -/
def execVor (o : V3L) (s : State) : Host.Outcome State Fault Refusal := (vec3L (.vor o) o (fun a b => a ||| b) s).run s
/-- VXOR (R198). -/
def execVxor (o : V3L) (s : State) : Host.Outcome State Fault Refusal := (vec3L (.vxor o) o (fun a b => a ^^^ b) s).run s
/-- VANDN (R198). -/
def execVandn (o : V3L) (s : State) : Host.Outcome State Fault Refusal := (vec3L (.vandn o) o (fun a b => a &&& ~~~b) s).run s
/-- VSHL (R199). -/
def execVshl (o : VSS) (s : State) : Host.Outcome State Fault Refusal := (vecShift (.vshl o) o (laneShl (tyWidth o.ty)) s).run s
/-- VSHR (R199). -/
def execVshr (o : VSS) (s : State) : Host.Outcome State Fault Refusal := (vecShift (.vshr o) o (laneShr (tyWidth o.ty)) s).run s
/-- VSAR (R199). -/
def execVsar (o : VSS) (s : State) : Host.Outcome State Fault Refusal := (vecShift (.vsar o) o (laneSar (tyWidth o.ty)) s).run s
/-- VCVT (R200, R201). -/
def execVcvt (o : VCvtOps) (s : State) : Host.Outcome State Fault Refusal := (vecCvt (.vcvt o) o s).run s
/-- VCVTI (R200, R201). -/
def execVcvti (o : VCvtOps) (s : State) : Host.Outcome State Fault Refusal := (vecCvt (.vcvti o) o s).run s
/-- VCVTF (R200, R201). -/
def execVcvtf (o : VCvtOps) (s : State) : Host.Outcome State Fault Refusal := (vecCvt (.vcvtf o) o s).run s
/-- VQFP4 (R202 to R204). -/
def execVqfp4 (o : VQOps) (s : State) : Host.Outcome State Fault Refusal := (vecOp (.vqfp4 o) o.f o.g o.vd 6 [(o.f, o.vd), (o.f, o.vs1), (o.f, o.vs2), (o.f, o.vs3)] (quantRes o) s).run s
/-- VDQFP4 (R202 to R204). -/
def execVdqfp4 (o : VQOps) (s : State) : Host.Outcome State Fault Refusal := (vecOp (.vdqfp4 o) o.f o.g o.vd 6 [(o.f, o.vd), (o.f, o.vs1), (o.f, o.vs2), (o.f, o.vs3)] (dequantRes o) s).run s
/-- VEXPMAX (R205). -/
def execVexpmax (o : V3T) (s : State) : Host.Outcome State Fault Refusal := (vec3T (.vexpmax o) o 4 (expMax o.ty) s).run s
/-- VSCALE: vs2 holds a signed exponent of the lane's own width (R206). -/
def execVscale (o : VScaleOps) (s : State) : Host.Outcome State Fault Refusal :=
  (vecOp (.vscale o) o.f o.g o.vd 2 [(o.f, o.vd), (o.f, o.vs1), (o.f, o.vs2)]
    (fun t => trapRes (tyWidth o.ty) (t.rm o.f o.msel)
      (List.zipWith (fun a k => scaleResult o.ty o.rnd o.ovf a (signedOf (tyWidth o.ty) k))
        (lanesOf (t.rv o.f o.vs1) (tyWidth o.ty)) (lanesOf (t.rv o.f o.vs2) (tyWidth o.ty)))) s).run s
/-- VMOV (R207). -/
def execVmov (o : V2L) (s : State) : Host.Outcome State Fault Refusal :=
  (vecOp (.vmov o) o.f o.g o.vd 1 [(o.f, o.vd), (o.f, o.vs1)]
    (fun t => ⟨t.rv o.f o.vs1, laneEn (t.rm o.f o.msel) 32, none⟩) s).run s
/-- VBCAST (R208). -/
def execVbcast (o : VBcastOps) (s : State) : Host.Outcome State Fault Refusal :=
  (vecOp (.vbcast o) o.f o.g o.vd 2 [(o.f, o.vd)]
    (fun t => lanesRes (tyWidth o.ty) (t.rm o.f o.msel)
      (List.replicate (1024 / tyWidth o.ty) (lowBits (tyWidth o.ty) (t.vsS o.b)))) s).run s
/-- VPERM (R209). -/
def execVperm (o : V3T) (s : State) : Host.Outcome State Fault Refusal :=
  (vecOp (.vperm o) o.f o.g o.vd 3 [(o.f, o.vd), (o.f, o.vs1), (o.f, o.vs2)]
    (fun t =>
      let w := tyWidth o.ty
      let a := lanesOf (t.rv o.f o.vs1) w
      lanesRes w (t.rm o.f o.msel) ((lanesOf (t.rv o.f o.vs2) w).map (fun x => a.getD (x % (1024 / w)) 0))) s).run s
/-- VSHUF: the old value of vd is the second table (R209). -/
def execVshuf (o : V3T) (s : State) : Host.Outcome State Fault Refusal :=
  (vecOp (.vshuf o) o.f o.g o.vd 3 [(o.f, o.vd), (o.f, o.vs1), (o.f, o.vs2)]
    (fun t =>
      let w := tyWidth o.ty
      let a := lanesOf (t.rv o.f o.vs1) w ++ lanesOf (t.rv o.f o.vd) w
      lanesRes w (t.rm o.f o.msel) ((lanesOf (t.rv o.f o.vs2) w).map (fun x => a.getD (x % (2 * (1024 / w))) 0))) s).run s
/-- VSLIDE (R210). -/
def execVslide (o : VSS) (s : State) : Host.Outcome State Fault Refusal :=
  (vecOp (.vslide o) o.f o.g o.vd 2 [(o.f, o.vd), (o.f, o.vs1)]
    (fun t =>
      let w := tyWidth o.ty
      let a := lanesOf (t.rv o.f o.vs1) w
      let k := t.vsS o.b
      lanesRes w (t.rm o.f o.msel) ((List.range (1024 / w)).map (fun (i : Nat) =>
        let j := (i : Int) - k
        if 0 ≤ j ∧ j < (1024 / w : Nat) then a.getD j.toNat 0 else 0))) s).run s
/-- VSEL: 32-bit units by the selecting mask (R211). -/
def execVsel (o : VSelOps) (s : State) : Host.Outcome State Fault Refusal :=
  (vecOp (.vsel o) o.f o.g o.vd 1 [(o.f, o.vd), (o.f, o.vs1), (o.f, o.vs2)]
    (fun t => ⟨blend (laneEn (t.rm o.f o.sel) 32) (t.rv o.f o.vs1) (t.rv o.f o.vs2), laneEn (t.rm o.f o.msel) 32, none⟩) s).run s
/-- VXFER: the source is in the other file (R212). -/
def execVxfer (o : V2L) (s : State) : Host.Outcome State Fault Refusal :=
  (vecOp (.vxfer o) o.f o.g o.vd 2 [(o.f, o.vd), ((VFile.other o.f), o.vs1)]
    (fun t => ⟨t.rv (VFile.other o.f) o.vs1, laneEn (t.rm o.f o.msel) 32, none⟩) s).run s
/-- VMOVH: all bits of a latch (R70, R213). -/
def opVmovh (o : VMovhOps) (s : State) : Op :=
  let t := s.me
  { i := .vmovh o, slot := o.f.slot, g := o.g, chk := vecChk t [(o.f, o.vd)] ++ latchChk t o.h
    dyn := latchDyn (.vmovh o) t o.h, emul := false, stall := latchStall t o.h
    eff := fun s =>
      (s.pushIn ⟨.vreg o.f o.vd, 1, (s.me.rh o.h).data, laneEn (s.me.rm o.f o.msel) 32, false, none, o.f.slot, s.me.bun.addr⟩).onMe
        (fun t => t.takeLatch o.h o.keep) }
def execVmovh (o : VMovhOps) (s : State) : Host.Outcome State Fault Refusal := (opVmovh o s).run s
/-- VLANE (R214). -/
def opVlane (o : VLaneOps) (s : State) : Op :=
  { Op.plain (.vlane o) o.f.slot o.g (fun s =>
      let t := s.me
      let w := tyWidth o.ty
      s.landWord (.sreg o.sd) 3 (extendTy o.ty ((lanesOf (t.rv o.f o.vs1) w).getD (t.vsU o.b % (1024 / w)) 0)) o.f.slot) with
    chk := vecChk s.me [(o.f, o.vs1)] }
def execVlane (o : VLaneOps) (s : State) : Host.Outcome State Fault Refusal := (opVlane o s).run s
/-- VRSUM (R215). -/
def execVrsum (o : V2T) (s : State) : Host.Outcome State Fault Refusal := (vecRed (.vrsum o) o 10 .sum s).run s
/-- VRMAX (R215). -/
def execVrmax (o : V2T) (s : State) : Host.Outcome State Fault Refusal := (vecRed (.vrmax o) o 6 .max s).run s
/-- VRMIN (R215). -/
def execVrmin (o : V2T) (s : State) : Host.Outcome State Fault Refusal := (vecRed (.vrmin o) o 6 .min s).run s
/-- MAND (R216). -/
def execMand (o : MMM) (s : State) : Host.Outcome State Fault Refusal := (maskOp (.mand o) o.f o.g o.md (fun t => t.rm o.f o.m1 &&& t.rm o.f o.m2) s).run s
/-- MOR (R216). -/
def execMor (o : MMM) (s : State) : Host.Outcome State Fault Refusal := (maskOp (.mor o) o.f o.g o.md (fun t => t.rm o.f o.m1 ||| t.rm o.f o.m2) s).run s
/-- MXOR (R216). -/
def execMxor (o : MMM) (s : State) : Host.Outcome State Fault Refusal := (maskOp (.mxor o) o.f o.g o.md (fun t => t.rm o.f o.m1 ^^^ t.rm o.f o.m2) s).run s
/-- MNOT (R216). -/
def execMnot (o : MM) (s : State) : Host.Outcome State Fault Refusal := (maskOp (.mnot o) o.f o.g o.md (fun t => ~~~(t.rm o.f o.m1)) s).run s
/-- MPOP (R216). -/
def opMpop (o : MPopOps) (s : State) : Op :=
  { Op.plain (.mpop o) o.f.slot o.g (fun s =>
      s.landWord (.sreg o.sd) 2 (BitVec.ofNat 64 (((List.range 128).filter (fun i => (s.me.rm o.f o.m1).getLsbD i)).length)) o.f.slot) with
    chk := noHandler s.me }
def execMpop (o : MPopOps) (s : State) : Host.Outcome State Fault Refusal := (opMpop o s).run s

end Sys2Proof.Machine
end

