-- ==== Sys2Proof/Machine/Dispatch.lean ====
section
/-! DEFINITION. The dispatcher: one arm per constructor of Instr, each one direct call of its meaning. -/
namespace Sys2Proof.Machine

def exec (i : Instr) (s : State) : Host.Outcome State Fault Refusal :=
  match i with
  | .emptyBundle o => Sys2Proof.Machine.execEmptyBundle o s
  | .add o => Sys2Proof.Machine.execAdd o s
  | .sub o => Sys2Proof.Machine.execSub o s
  | .addi o => Sys2Proof.Machine.execAddi o s
  | .mul o => Sys2Proof.Machine.execMul o s
  | .mulh o => Sys2Proof.Machine.execMulh o s
  | .mulhu o => Sys2Proof.Machine.execMulhu o s
  | .div o => Sys2Proof.Machine.execDiv o s
  | .divu o => Sys2Proof.Machine.execDivu o s
  | .rem o => Sys2Proof.Machine.execRem o s
  | .remu o => Sys2Proof.Machine.execRemu o s
  | .and o => Sys2Proof.Machine.execAnd o s
  | .or o => Sys2Proof.Machine.execOr o s
  | .xor o => Sys2Proof.Machine.execXor o s
  | .andn o => Sys2Proof.Machine.execAndn o s
  | .shl o => Sys2Proof.Machine.execShl o s
  | .shr o => Sys2Proof.Machine.execShr o s
  | .sar o => Sys2Proof.Machine.execSar o s
  | .rotl o => Sys2Proof.Machine.execRotl o s
  | .clz o => Sys2Proof.Machine.execClz o s
  | .popc o => Sys2Proof.Machine.execPopc o s
  | .min o => Sys2Proof.Machine.execMin o s
  | .max o => Sys2Proof.Machine.execMax o s
  | .minu o => Sys2Proof.Machine.execMinu o s
  | .maxu o => Sys2Proof.Machine.execMaxu o s
  | .sel o => Sys2Proof.Machine.execSel o s
  | .li o => Sys2Proof.Machine.execLi o s
  | .lih o => Sys2Proof.Machine.execLih o s
  | .cmp o => Sys2Proof.Machine.execCmp o s
  | .cmpi o => Sys2Proof.Machine.execCmpi o s
  | .pand o => Sys2Proof.Machine.execPand o s
  | .por o => Sys2Proof.Machine.execPor o s
  | .pxor o => Sys2Proof.Machine.execPxor o s
  | .pnot o => Sys2Proof.Machine.execPnot o s
  | .br o => Sys2Proof.Machine.execBr o s
  | .bri o => Sys2Proof.Machine.execBri o s
  | .call o => Sys2Proof.Machine.execCall o s
  | .calli o => Sys2Proof.Machine.execCalli o s
  | .ret g => Sys2Proof.Machine.execRet g s
  | .csrr o => Sys2Proof.Machine.execCsrr o s
  | .csrw o => Sys2Proof.Machine.execCsrw o s
  | .csrs o => Sys2Proof.Machine.execCsrs o s
  | .csrc o => Sys2Proof.Machine.execCsrc o s
  | .trap o => Sys2Proof.Machine.execTrap o s
  | .hail o => Sys2Proof.Machine.execHail o s
  | .layw o => Sys2Proof.Machine.execLayw o s
  | .layr o => Sys2Proof.Machine.execLayr o s
  | .movh o => Sys2Proof.Machine.execMovh o s
  | .vadd o => Sys2Proof.Machine.execVadd o s
  | .vsub o => Sys2Proof.Machine.execVsub o s
  | .vmul o => Sys2Proof.Machine.execVmul o s
  | .vfma o => Sys2Proof.Machine.execVfma o s
  | .vfms o => Sys2Proof.Machine.execVfms o s
  | .vfnma o => Sys2Proof.Machine.execVfnma o s
  | .vmin o => Sys2Proof.Machine.execVmin o s
  | .vmax o => Sys2Proof.Machine.execVmax o s
  | .vabs o => Sys2Proof.Machine.execVabs o s
  | .vneg o => Sys2Proof.Machine.execVneg o s
  | .vcpys o => Sys2Proof.Machine.execVcpys o s
  | .vrcp o => Sys2Proof.Machine.execVrcp o s
  | .vrsq o => Sys2Proof.Machine.execVrsq o s
  | .vsqrt o => Sys2Proof.Machine.execVsqrt o s
  | .vexp2 o => Sys2Proof.Machine.execVexp2 o s
  | .vlog2 o => Sys2Proof.Machine.execVlog2 o s
  | .vcmp o => Sys2Proof.Machine.execVcmp o s
  | .viadd o => Sys2Proof.Machine.execViadd o s
  | .visub o => Sys2Proof.Machine.execVisub o s
  | .vimul o => Sys2Proof.Machine.execVimul o s
  | .vimulh o => Sys2Proof.Machine.execVimulh o s
  | .vimin o => Sys2Proof.Machine.execVimin o s
  | .vimax o => Sys2Proof.Machine.execVimax o s
  | .viabs o => Sys2Proof.Machine.execViabs o s
  | .vand o => Sys2Proof.Machine.execVand o s
  | .vor o => Sys2Proof.Machine.execVor o s
  | .vxor o => Sys2Proof.Machine.execVxor o s
  | .vandn o => Sys2Proof.Machine.execVandn o s
  | .vshl o => Sys2Proof.Machine.execVshl o s
  | .vshr o => Sys2Proof.Machine.execVshr o s
  | .vsar o => Sys2Proof.Machine.execVsar o s
  | .vcvt o => Sys2Proof.Machine.execVcvt o s
  | .vcvti o => Sys2Proof.Machine.execVcvti o s
  | .vcvtf o => Sys2Proof.Machine.execVcvtf o s
  | .vqfp4 o => Sys2Proof.Machine.execVqfp4 o s
  | .vdqfp4 o => Sys2Proof.Machine.execVdqfp4 o s
  | .vexpmax o => Sys2Proof.Machine.execVexpmax o s
  | .vscale o => Sys2Proof.Machine.execVscale o s
  | .vmov o => Sys2Proof.Machine.execVmov o s
  | .vbcast o => Sys2Proof.Machine.execVbcast o s
  | .vperm o => Sys2Proof.Machine.execVperm o s
  | .vshuf o => Sys2Proof.Machine.execVshuf o s
  | .vslide o => Sys2Proof.Machine.execVslide o s
  | .vsel o => Sys2Proof.Machine.execVsel o s
  | .vxfer o => Sys2Proof.Machine.execVxfer o s
  | .vmovh o => Sys2Proof.Machine.execVmovh o s
  | .vlane o => Sys2Proof.Machine.execVlane o s
  | .vrsum o => Sys2Proof.Machine.execVrsum o s
  | .vrmax o => Sys2Proof.Machine.execVrmax o s
  | .vrmin o => Sys2Proof.Machine.execVrmin o s
  | .mand o => Sys2Proof.Machine.execMand o s
  | .mor o => Sys2Proof.Machine.execMor o s
  | .mxor o => Sys2Proof.Machine.execMxor o s
  | .mnot o => Sys2Proof.Machine.execMnot o s
  | .mpop o => Sys2Proof.Machine.execMpop o s
  | .mcallMma o => Sys2Proof.Machine.execMcallMma o s
  | .mcallMmat o => Sys2Proof.Machine.execMcallMmat o s
  | .mcallMmab o => Sys2Proof.Machine.execMcallMmab o s
  | .mcallSplit o => Sys2Proof.Machine.execMcallSplit o s
  | .mcallSlmma o => Sys2Proof.Machine.execMcallSlmma o s
  | .mcallFold o => Sys2Proof.Machine.execMcallFold o s
  | .mcallTrans o => Sys2Proof.Machine.execMcallTrans o s
  | .mcallMcopy o => Sys2Proof.Machine.execMcallMcopy o s
  | .mpar o => Sys2Proof.Machine.execMpar o s
  | .mlds o => Sys2Proof.Machine.execMlds o s
  | .mplane o => Sys2Proof.Machine.execMplane o s
  | .mrd o => Sys2Proof.Machine.execMrd o s
  | .mwr o => Sys2Proof.Machine.execMwr o s
  | .mclr o => Sys2Proof.Machine.execMclr o s
  | .mnorm o => Sys2Proof.Machine.execMnorm o s
  | .mfmt o => Sys2Proof.Machine.execMfmt o s
  | .mstat o => Sys2Proof.Machine.execMstat o s
  | .lds o => Sys2Proof.Machine.execLds o s
  | .ldv o => Sys2Proof.Machine.execLdv o s
  | .ldvg o => Sys2Proof.Machine.execLdvg o s
  | .ldh o => Sys2Proof.Machine.execLdh o s
  | .tmov o => Sys2Proof.Machine.execTmov o s
  | .sts o => Sys2Proof.Machine.execSts o s
  | .stv o => Sys2Proof.Machine.execStv o s
  | .stvs o => Sys2Proof.Machine.execStvs o s
  | .stvm o => Sys2Proof.Machine.execStvm o s
  | .stvh o => Sys2Proof.Machine.execStvh o s
  | .aadd o => Sys2Proof.Machine.execAadd o s
  | .aaddf o => Sys2Proof.Machine.execAaddf o s
  | .amin o => Sys2Proof.Machine.execAmin o s
  | .amax o => Sys2Proof.Machine.execAmax o s
  | .aand o => Sys2Proof.Machine.execAand o s
  | .aor o => Sys2Proof.Machine.execAor o s
  | .axor o => Sys2Proof.Machine.execAxor o s
  | .aswp o => Sys2Proof.Machine.execAswp o s
  | .acas o => Sys2Proof.Machine.execAcas o s
  | .vred o => Sys2Proof.Machine.execVred o s
  | .cjob o => Sys2Proof.Machine.execCjob o s
  | .cwait o => Sys2Proof.Machine.execCwait o s
  | .cpoll o => Sys2Proof.Machine.execCpoll o s
  | .ckill o => Sys2Proof.Machine.execCkill o s
  | .csend o => Sys2Proof.Machine.execCsend o s
  | .cred o => Sys2Proof.Machine.execCred o s
  | .cbell o => Sys2Proof.Machine.execCbell o s
  | .lset o => Sys2Proof.Machine.execLset o s
  | .lbrk o => Sys2Proof.Machine.execLbrk o s
  | .endStrand g => Sys2Proof.Machine.execEndStrand g s
  | .phase o => Sys2Proof.Machine.execPhase o s
  | .fence g => Sys2Proof.Machine.execFence g s
  | .waitf o => Sys2Proof.Machine.execWaitf o s
  | .setf o => Sys2Proof.Machine.execSetf o s
  | .clrf o => Sys2Proof.Machine.execClrf o s
  | .spin o => Sys2Proof.Machine.execSpin o s
  | .join o => Sys2Proof.Machine.execJoin o s
  | .leave o => Sys2Proof.Machine.execLeave o s
  | .cbar o => Sys2Proof.Machine.execCbar o s
  | .yield g => Sys2Proof.Machine.execYield g s
  | .take o => Sys2Proof.Machine.execTake o s
  | .hret g => Sys2Proof.Machine.execHret g s
  | .pilotAdd o => Sys2Proof.Machine.execPilotAdd o s
  | .pilotSub o => Sys2Proof.Machine.execPilotSub o s
  | .pilotAnd o => Sys2Proof.Machine.execPilotAnd o s
  | .pilotOr o => Sys2Proof.Machine.execPilotOr o s
  | .pilotXor o => Sys2Proof.Machine.execPilotXor o s
  | .pilotMul o => Sys2Proof.Machine.execPilotMul o s
  | .pilotShl o => Sys2Proof.Machine.execPilotShl o s
  | .pilotShr o => Sys2Proof.Machine.execPilotShr o s
  | .pilotAddi o => Sys2Proof.Machine.execPilotAddi o s
  | .pilotAndi o => Sys2Proof.Machine.execPilotAndi o s
  | .pilotOri o => Sys2Proof.Machine.execPilotOri o s
  | .pilotLi o => Sys2Proof.Machine.execPilotLi o s
  | .ldm o => Sys2Proof.Machine.execLdm o s
  | .stm o => Sys2Proof.Machine.execStm o s
  | .beq o => Sys2Proof.Machine.execBeq o s
  | .bne o => Sys2Proof.Machine.execBne o s
  | .bltu o => Sys2Proof.Machine.execBltu o s
  | .bgeu o => Sys2Proof.Machine.execBgeu o s
  | .loop o => Sys2Proof.Machine.execLoop o s
  | .emitLaunch a => Sys2Proof.Machine.execEmitLaunch a s
  | .emitCopy a => Sys2Proof.Machine.execEmitCopy a s
  | .emitBell o => Sys2Proof.Machine.execEmitBell o s
  | .drop code => Sys2Proof.Machine.execDrop code s
  | .emptyIssueCycle core => Sys2Proof.Machine.execEmptyIssueCycle core s
  | .resultLand core => Sys2Proof.Machine.execResultLand core s
  | .runLimit core => Sys2Proof.Machine.execRunLimit core s
  | .mxOpStart core => Sys2Proof.Machine.execMxOpStart core s
  | .mxCommit core => Sys2Proof.Machine.execMxCommit core s
  | .mxOpEnd core => Sys2Proof.Machine.execMxOpEnd core s
  | .mxTokenGain die => Sys2Proof.Machine.execMxTokenGain die s
  | .tmovComplete core => Sys2Proof.Machine.execTmovComplete core s
  | .storePerform sid rid => Sys2Proof.Machine.execStorePerform sid rid s
  | .atomicPerform sid rid => Sys2Proof.Machine.execAtomicPerform sid rid s
  | .latchFill sid rid => Sys2Proof.Machine.execLatchFill sid rid s
  | .accessFaultReport sid => Sys2Proof.Machine.execAccessFaultReport sid s
  | .jobAccept core => Sys2Proof.Machine.execJobAccept core s
  | .jobSegment die => Sys2Proof.Machine.execJobSegment die s
  | .jobComplete jid => Sys2Proof.Machine.execJobComplete jid s
  | .phaseComplete sid => Sys2Proof.Machine.execPhaseComplete sid s
  | .spinWaitTimeout sid => Sys2Proof.Machine.execSpinWaitTimeout sid s
  | .stealRequest mid => Sys2Proof.Machine.execStealRequest mid s
  | .stealGrant mid => Sys2Proof.Machine.execStealGrant mid s
  | .strandSelect core => Sys2Proof.Machine.execStrandSelect core s
  | .rowLoadComplete sid => Sys2Proof.Machine.execRowLoadComplete sid s
  | .release die lid => Sys2Proof.Machine.execRelease die lid s
  | .retire sid => Sys2Proof.Machine.execRetire sid s
  | .shareArrival die lid => Sys2Proof.Machine.execShareArrival die lid s
  | .shareReserveTimeout die lid => Sys2Proof.Machine.execShareReserveTimeout die lid s
  | .preemptCheck die => Sys2Proof.Machine.execPreemptCheck die s
  | .saveCaptureComplete core => Sys2Proof.Machine.execSaveCaptureComplete core s
  | .saveComplete sid => Sys2Proof.Machine.execSaveComplete sid s
  | .quantumExpiry core => Sys2Proof.Machine.execQuantumExpiry core s
  | .starvationTimeout core => Sys2Proof.Machine.execStarvationTimeout core s
  | .prioritySwitchRequest core => Sys2Proof.Machine.execPrioritySwitchRequest core s
  | .boostDecay die => Sys2Proof.Machine.execBoostDecay die s
  | .remtTick die => Sys2Proof.Machine.execRemtTick die s
  | .energyRefill die => Sys2Proof.Machine.execEnergyRefill die s
  | .chargeReconcile die => Sys2Proof.Machine.execChargeReconcile die s
  | .clockStep die => Sys2Proof.Machine.execClockStep die s
  | .sliceWindow die sl => Sys2Proof.Machine.execSliceWindow die sl s
  | .shrinkAdjust die sl tenant p99 => Sys2Proof.Machine.execShrinkAdjust die sl tenant p99 s
  | .windowArrival xid m => Sys2Proof.Machine.execWindowArrival xid m s
  | .windowAck xid m => Sys2Proof.Machine.execWindowAck xid m s
  | .retransmitTimeout die tcid win => Sys2Proof.Machine.execRetransmitTimeout die tcid win s
  | .gapTransaction xid m => Sys2Proof.Machine.execGapTransaction xid m s
  | .resyncTransaction die tcid win m => Sys2Proof.Machine.execResyncTransaction die tcid win m s
  | .linkFailure port => Sys2Proof.Machine.execLinkFailure port s
  | .linkTraining port ext => Sys2Proof.Machine.execLinkTraining port ext s
  | .fragmentArrival fid m => Sys2Proof.Machine.execFragmentArrival fid m s
  | .fragmentAck fid m => Sys2Proof.Machine.execFragmentAck fid m s
  | .reductionTimeout gid => Sys2Proof.Machine.execReductionTimeout gid s
  | .evictRegions die tcid => Sys2Proof.Machine.execEvictRegions die tcid s
  | .residencyRestore die tcid => Sys2Proof.Machine.execResidencyRestore die tcid s
  | .restore sid die serial => Sys2Proof.Machine.execRestore sid die serial s
  | .invalidate die tcid va size all => Sys2Proof.Machine.execInvalidate die tcid va size all s
  | .resetRelease die => Sys2Proof.Machine.execResetRelease die s
  | .bootTimeout die => Sys2Proof.Machine.execBootTimeout die s
  | .candidacy die frm => Sys2Proof.Machine.execCandidacy die frm s
  | .electionTimeout die => Sys2Proof.Machine.execElectionTimeout die s
  | .packageNumber p => Sys2Proof.Machine.execPackageNumber p s
  | .getVersion q => Sys2Proof.Machine.execGetVersion q s
  | .getCapabilities q => Sys2Proof.Machine.execGetCapabilities q s
  | .negotiateAlgorithms q => Sys2Proof.Machine.execNegotiateAlgorithms q s
  | .getDigests q => Sys2Proof.Machine.execGetDigests q s
  | .getCertificate q => Sys2Proof.Machine.execGetCertificate q s
  | .challenge q => Sys2Proof.Machine.execChallenge q s
  | .getMeasurements q => Sys2Proof.Machine.execGetMeasurements q s
  | .keyExchange q => Sys2Proof.Machine.execKeyExchange q s
  | .finish q => Sys2Proof.Machine.execFinish q s
  | .keyUpdate q => Sys2Proof.Machine.execKeyUpdate q s
  | .heartbeat q => Sys2Proof.Machine.execHeartbeat q s
  | .endSession q => Sys2Proof.Machine.execEndSession q s
  | .sessionHeartbeatLapse die sess => Sys2Proof.Machine.execSessionHeartbeatLapse die sess s
  | .lock r => Sys2Proof.Machine.execLock r s
  | .installKeys b keys => Sys2Proof.Machine.execInstallKeys b keys s
  | .installLinkkeys b j keyid key => Sys2Proof.Machine.execInstallLinkkeys b j keyid key s
  | .installSavekeys b key tag => Sys2Proof.Machine.execInstallSavekeys b key tag s
  | .installPart b part suite => Sys2Proof.Machine.execInstallPart b part suite s
  | .installRegions b csize dsize bva => Sys2Proof.Machine.execInstallRegions b csize dsize bva s
  | .installMemory b quota => Sys2Proof.Machine.execInstallMemory b quota s
  | .installAccount b a => Sys2Proof.Machine.execInstallAccount b a s
  | .installBandwidth b sl weight critical target => Sys2Proof.Machine.execInstallBandwidth b sl weight critical target s
  | .installGangs b gangs => Sys2Proof.Machine.execInstallGangs b gangs s
  | .installWindow b w => Sys2Proof.Machine.execInstallWindow b w s
  | .installQueues b qmax sqva => Sys2Proof.Machine.execInstallQueues b qmax sqva s
  | .installNotice b addr => Sys2Proof.Machine.execInstallNotice b addr s
  | .installDeleg b r => Sys2Proof.Machine.execInstallDeleg b r s
  | .installHandlers b t => Sys2Proof.Machine.execInstallHandlers b t s
  | .installFaultpol b p => Sys2Proof.Machine.execInstallFaultpol b p s
  | .installFeatures b w => Sys2Proof.Machine.execInstallFeatures b w s
  | .installQuayenrol b key => Sys2Proof.Machine.execInstallQuayenrol b key s
  | .attest b nonce => Sys2Proof.Machine.execAttest b nonce s
  | .start b => Sys2Proof.Machine.execStart b s
  | .unbind b => Sys2Proof.Machine.execUnbind b s
  | .map b pages => Sys2Proof.Machine.execMap b pages s
  | .unmap b pages => Sys2Proof.Machine.execUnmap b pages s
  | .protect b pages => Sys2Proof.Machine.execProtect b pages s
  | .qcreate b q => Sys2Proof.Machine.execQcreate b q s
  | .qdestroy b qslot => Sys2Proof.Machine.execQdestroy b qslot s
  | .qreset b sqid idx caller => Sys2Proof.Machine.execQreset b sqid idx caller s
  | .loadpilot b words => Sys2Proof.Machine.execLoadpilot b words s
  | .pdrop b handle => Sys2Proof.Machine.execPdrop b handle s
  | .window b w => Sys2Proof.Machine.execWindow b w s
  | .clearunc b win caller => Sys2Proof.Machine.execClearunc b win caller s
  | .deleg b r => Sys2Proof.Machine.execDeleg b r s
  | .handlers b t => Sys2Proof.Machine.execHandlers b t s
  | .faultpol b p => Sys2Proof.Machine.execFaultpol b p s
  | .restoreService b serial die rw => Sys2Proof.Machine.execRestoreService b serial die rw s
  | .resume caller => Sys2Proof.Machine.execResume caller s
  | .redirect caller => Sys2Proof.Machine.execRedirect caller s
  | .endstrand caller => Sys2Proof.Machine.execEndstrand caller s
  | .bell m => Sys2Proof.Machine.execBell m s
  | .pilotEntry die lane => Sys2Proof.Machine.execPilotEntry die lane s
  | .watchdogRestart die => Sys2Proof.Machine.execWatchdogRestart die s
  | .watchdogExpiry die => Sys2Proof.Machine.execWatchdogExpiry die s
  | .machineCheckStop die => Sys2Proof.Machine.execMachineCheckStop die s
  | .recoveryTimeout die => Sys2Proof.Machine.execRecoveryTimeout die s
  | .powerGood => Sys2Proof.Machine.execPowerGood s
  | .powerLoss => Sys2Proof.Machine.execPowerLoss s
  | .setPowerLimit watts => Sys2Proof.Machine.execSetPowerLimit watts s
  | .thermalStep die temp => Sys2Proof.Machine.execThermalStep die temp s
  | .thermtrip die temp => Sys2Proof.Machine.execThermtrip die temp s
  | .patrolScrub blk r => Sys2Proof.Machine.execPatrolScrub blk r s
  | .telemetryReport => Sys2Proof.Machine.execTelemetryReport s
  | .telemetryRequest => Sys2Proof.Machine.execTelemetryRequest s
  | .errorCounterRequest => Sys2Proof.Machine.execErrorCounterRequest s
  | .imageLoad die tcid img => Sys2Proof.Machine.execImageLoad die tcid img s
  | .filterStateLost die tcid win => Sys2Proof.Machine.execFilterStateLost die tcid win s
  | .railOutsideTolerance rail => Sys2Proof.Machine.execRailOutsideTolerance rail s
  | .retiredPageMove die src dst => Sys2Proof.Machine.execRetiredPageMove die src dst s

end Sys2Proof.Machine
end

