-- ==== Sys2Proof/Machine/Turn.lean ====
section
/-! DEFINITION. One turn of the package: what the agenda names next (an event of the outside world or of a unit, a core, a pilot lane, a
die clock or the reference clock advancing), or, with an empty agenda, a clock cycle of the current core. -/
namespace Sys2Proof.Machine

/-- An event of the agenda may be delivered: the operations of strands and lanes are not events, since cores and lanes issue them. -/
def isEvent (i : Instr) : Bool :=
  match i with
  | .emptyBundle _ => false
  | i => (slotOf i).isNone && !isPilot i

/-- The power events of R415, which end a state that has no stated behaviour. -/
def powerTurn (t : Turn) (s : State) : Option State :=
  match t with
  | .event .powerLoss => some s.powerLoss
  | .event .powerGood => some s.powerUp
  | _ => none

/-- A die for which no behaviour is stated (R414). -/
def State.isVoid (s : State) (d : Nat) : Bool := (s.die d).void

/-- A clock cycle of a die ends and the next begins (R327, R328, R339, R341): the boosts are summed at the end of the one, then comes
the count and what happens at its multiples. What the other agents do in the new cycle follows. -/
def State.dieCycle (s : State) (d : Nat) : State :=
  let s := (s.countBoosts d).modDie d (fun x => { x with cycle := x.cycle + 1, lastTurn := none })
  (((s.boostDecay d).tokenGain d).sliceWindow d 0).sliceWindow d 1

/-- A core's turn in a clock cycle of its die: cores have theirs in ascending order, each one, so that the operations on a crew in one cycle
come in that order (R348). A turn of a core that is not above the last belongs to the next cycle. -/
def State.coreTurn (s : State) (c : Nat) : State :=
  let d := c / 64
  let again := match (s.die d).lastTurn with
    | some x => decide (c ≤ x)
    | none => false
  (if again then s.dieCycle d else s).modDie d (fun x => { x with lastTurn := some c })

/-- What a microsecond brings on one die (R332, R334, R336, R338). -/
def State.dieUsec (s : State) (d : Nat) : State := (((s.remtTick d).energyRefill d).reconcile d).clockStep d

/-- A microsecond of the reference clock, and what it brings on the dies that have a stated behaviour (R414). -/
def State.usec (s : State) : State :=
  (((List.range 8).foldl (fun (s : State) d => if s.isVoid d then s else s.dieUsec d) { s with time := s.time + 1 }).tripCheck).telemetryTick

/-- The dies at which an act from outside takes place (R414). -/
def State.outsideDies (s : State) : Outside → List Nat
  | .chg d _ _ | .pool d _ _ | .tableError d _ | .bootNext d | .osQueue d _ _ | .osTail d _ | .osWrite d _ _ | .qcbError d _ _ | .setPoint d _
  | .hart d _ _ => [d]
  | .badCheck b => [homeDie (64 * b)]
  | .regError c _ | .accError c _ | .rowError c _ => [c / 64]
  | .areaByte k _ _ => [(s.strand k).die]
  | .portDefault _ _ _ => quayDies
  | .inbound p => quayDies ++ (s.dieOfDomain p.ddie).toList
  | .weights _ | .corrected _ | .resetN | .tck _ _ => []

/-- A turn at which no power event stands. A turn of a die for which no behaviour is stated stops, and so does an event or an act from
outside at such a die (R414). -/
def State.runTurn (ex : Instr → State → Host.Outcome State Fault Refusal) (s : State) (t : Turn) : Host.Outcome State Fault Refusal :=
  match t with
  | .event i =>
    if isEvent i = false then .next s
    else if (s.eventDies i).any s.isVoid || (List.range 8).all s.isVoid then .fault .noStatedBehaviour
    else ex i s
  | .strand c => if s.isVoid (c / 64) then .fault .noStatedBehaviour else (s.coreTurn c).coreCycle ex c
  | .lane d l => if s.isVoid d then .fault .noStatedBehaviour else s.laneTurn ex d l
  | .clock d => if s.isVoid d then .fault .noStatedBehaviour else .next (s.dieCycle d)
  | .usec => .next s.usec
  | .outside a => if (s.outsideDies a).any s.isVoid then .fault .noStatedBehaviour else .next (s.outside a)

/-- The next turn. A machine that has stopped stays stopped until a power event. -/
def State.turn (ex : Instr → State → Host.Outcome State Fault Refusal) (s : State) : Host.Outcome State Fault Refusal :=
  let t := s.agenda.headD (.strand s.cur)
  let s : State := { s with agenda := s.agenda.tail }
  match powerTurn t s with
  | some s' => .next s'
  | none =>
    match s.stuck with
    | some f => .fault f
    | none => s.runTurn ex t

end Sys2Proof.Machine
end

