-- ==== Sys2Proof/Machine/Step.lean ====
section
/-! DEFINITION. One step of the package, and the placement of one instruction where the next step fetches it. -/
namespace Sys2Proof.Machine

/-- One step: the next turn, with exec as the meaning of instructions and events. -/
def step (s : State) : Host.Outcome State Fault Refusal := s.turn exec

/-- The words of an opcode-table instruction, low word first. -/
def tableWords (nbits w : Nat) : List Nat :=
  if nbits ≤ 32 then [fld w 0 32] else [fld w 0 32, fld w 32 32, fld w 64 32]

/-- Die 0 in service, and nothing before the next turn. -/
def State.ready (s : State) : State :=
  { s.modDie 0 (fun d => { d with boot := .inService, void := false, recovering := false, lastTurn := none }) with stuck := none, mode := .whole }

/-- A pilot instruction as the program of lane 0 of die 0 (log entry 20). -/
def State.withPilotWord (s : State) (w : Nat) : State :=
  let z (n : Nat) : List Byte := List.replicate n 0
  { s.ready.modDie 0 (fun d => { d with lanes := storeSet d.lanes 0 ⟨.run, 0, [w], 0, [], [], z 64, z 64, z 1024, z 64, .none⟩ }) with
    agenda := [.lane 0 0] }

/-- An image of the given words. -/
def wordImage (ws : List Nat) : Image := ⟨0, 0, ws, [(0, 0)], 8, 8, 16, 2, [], [], [], [], []⟩

/-- A strand that issues for the words of an image from address 0, with a full allocation (log entry 20). -/
def wordStrand : Strand :=
  { Strand.reset with st := .issuing, place := some 0, home := some 0, ga := 8, gb := 8, nlatch := 16, ntile := 2 }

/-- A bundle as the image of the strand that core 0 issues for (log entry 20). -/
def State.withBundleWords (s : State) (ws : List Nat) : State :=
  let s := s.ready
  { s with
    ctxs := storeSet s.ctxs 0 { s.ctx 0 0 with bind := .run, images := storeSet (s.ctx 0 0).images 0 (wordImage ws) }
    strands := storeSet s.strands 0 wordStrand
    cores := storeSet s.cores 0 { s.core 0 with issuing := some 0, frozen := false, frames := storeSet (s.core 0).frames 0 0, bank := 0, skipRun := false }
    cur := 0, agenda := [] }

/-- The state with an opcode-table instruction placed where the next step fetches (log entry 20). -/
def State.withFetchWord (s : State) (nbits w : Nat) : State :=
  if nbits ≤ 32 ∧ fld w 26 6 ≠ 0 then s.withPilotWord (fld w 0 32) else s.withBundleWords (tableWords nbits w)

end Sys2Proof.Machine
end

