-- ==== Sys2Proof/Safety.lean ====
section
/-! DEFINITION. The terms in which the statements speak: what a safe run is, the state of a core that is about to make one
operation, and the shapes of the operations' effects (a result on its way, a change of the strand, a request). -/
namespace Sys2Proof.Machine

/-- A run of n steps that meets no fault and no refusal. -/
def SafeRun (n : Nat) (s : State) : Prop := ∃ t, Host.Core.run Sys2Proof.core n s = .next t

/-- The current core issues for strand k and makes one operation on its own. -/
def Issues (s : State) (k : Nat) : Prop := s.self = some k ∧ s.mode = .whole

/-- Every register named lies within the strand's allocation of its file (R77). -/
def Within (t : Strand) (rs : List (VFile × Nat)) : Prop := ∀ r ∈ rs, r.2 < 32 * t.granules r.1

/-- The file of the slot of an operation of a vector slot, and the vector registers that it names (R77). -/
def vecRegs : Instr → Option (VFile × List (VFile × Nat))
  | .vadd o | .vsub o | .vmul o => some (o.f, [(o.f, o.vd), (o.f, o.vs1), (o.f, o.vs2)])
  | .vfma o | .vfms o | .vfnma o => some (o.f, [(o.f, o.vd), (o.f, o.vs1), (o.f, o.vs2), (o.f, o.vs3)])
  | .vmin o | .vmax o | .vcpys o | .vimulh o | .vimin o | .vimax o | .vexpmax o | .vperm o | .vshuf o =>
    some (o.f, [(o.f, o.vd), (o.f, o.vs1), (o.f, o.vs2)])
  | .vabs o | .vneg o | .viabs o | .vrsum o | .vrmax o | .vrmin o => some (o.f, [(o.f, o.vd), (o.f, o.vs1)])
  | .vrcp o | .vrsq o | .vsqrt o | .vexp2 o | .vlog2 o => some (o.f, [(o.f, o.vd), (o.f, o.vs1)])
  | .vcmp o => some (o.f, [(o.f, o.vs1), (o.f, o.vs2)])
  | .viadd o | .visub o | .vimul o => some (o.f, [(o.f, o.vd), (o.f, o.vs1), (o.f, o.vs2)])
  | .vand o | .vor o | .vxor o | .vandn o => some (o.f, [(o.f, o.vd), (o.f, o.vs1), (o.f, o.vs2)])
  | .vshl o | .vshr o | .vsar o | .vslide o => some (o.f, [(o.f, o.vd), (o.f, o.vs1)])
  | .vcvt o | .vcvti o | .vcvtf o => some (o.f, [(o.f, o.vd), (o.f, o.vs1)])
  | .vqfp4 o | .vdqfp4 o => some (o.f, [(o.f, o.vd), (o.f, o.vs1), (o.f, o.vs2), (o.f, o.vs3)])
  | .vscale o => some (o.f, [(o.f, o.vd), (o.f, o.vs1), (o.f, o.vs2)])
  | .vmov o => some (o.f, [(o.f, o.vd), (o.f, o.vs1)])
  | .vxfer o => some (o.f, [(o.f, o.vd), (VFile.other o.f, o.vs1)])
  | .vbcast o => some (o.f, [(o.f, o.vd)])
  | .vsel o => some (o.f, [(o.f, o.vd), (o.f, o.vs1), (o.f, o.vs2)])
  | .vmovh o => some (o.f, [(o.f, o.vd)])
  | .vlane o => some (o.f, [(o.f, o.vs1)])
  | _ => none

/-- An operation that its bundle may issue: its guard is true, it meets no condition of R51 and no precise trap, and nothing makes it
wait (R54, R81). -/
def Op.Clear (o : Op) (t : Strand) : Prop := t.guard o.g = true ∧ o.findings t = [] ∧ o.stall = false

/-- A result on its way: destination, latency, data, byte enables and landing trap (R14, R79). -/
def onWay (t : Strand) (sl : Slot) (d : Dest) (l : Nat) (v : Vec) (en : Mask) (trap : Option (Cause × Word)) : InFlight :=
  ⟨d, l, v, en, false, trap, sl, t.bun.addr⟩

/-- The state in which strand k has one result more on its way and nothing else differs. -/
def landed (s : State) (k : Nat) (e : InFlight) : State := s.modStrand k (fun t => { t with inflight := t.inflight ++ [e] })

/-- An S-slot operation whose only effect, when its guard is true, is one 64-bit result for a scalar register. -/
def LandsScalar (i : Instr) (g : Guard) (sd l : Nat) (v : Strand → Word) : Prop :=
  ∀ s k, Issues s k → (s.strand k).guard g = true →
    exec i s = .next (landed s k (onWay (s.strand k) .s (.sreg sd) l ((v (s.strand k)).setWidth 1024) fullEn none))

/-- An S-slot operation whose only effect, when its guard is true, is one bit for a predicate. -/
def LandsPred (i : Instr) (g : Guard) (pd : Nat) (v : Strand → Bool) : Prop :=
  ∀ s k, Issues s k → (s.strand k).guard g = true →
    exec i s = .next (landed s k (onWay (s.strand k) .s (.preg pd) 1 (if v (s.strand k) then 1 else 0) fullEn none))

/-- A vector operation outside a handler, on registers within the allocation, whose only effect is one result. -/
def LandsVector (i : Instr) (g : Guard) (rs : List (VFile × Nat)) (e : Strand → InFlight) : Prop :=
  ∀ s k, Issues s k → (s.strand k).guard g = true → Within (s.strand k) rs → (s.strand k).hsave = none →
    exec i s = .next (landed s k (e (s.strand k)))

/-- Lanes of w bits for a vector register under the lane mask (R185). -/
def lanesTo (t : Strand) (f : VFile) (vd l w : Nat) (m : Mask) (ls : List Nat) : InFlight :=
  onWay t f.slot (.vreg f vd) l (vecOf w ls) (laneEn m w) none

/-- An operation whose only effect, once it is clear to issue, is a change of its strand. -/
def ChangesMe (op : State → Op) (i : Instr) (f : Strand → Strand) : Prop :=
  ∀ s k, Issues s k → (op s).Clear (s.strand k) → exec i s = .next (s.modStrand k f)

/-- From s to t, strand k's core has taken one more operation into its CE queue, with the next identity (R303). -/
def CeQueued (s t : State) (k : Nat) (op : CeOp) : Prop :=
  (t.core (s.strand k).core).ceq =
    (s.core (s.strand k).core).ceq ++ [⟨s.nextId, k, (s.strand k).core, (s.strand k).tcid, (s.strand k).bun.addr, (s.strand k).fence, op, 0⟩]

/-- From s to t, latch h of strand k has been bound to the operation with the next identity (R80). -/
def LatchBound (s t : State) (k h : Nat) : Prop :=
  (t.strand k).rh h = { (s.strand k).rh h with full := false, pend := some s.nextId, lost := false }

/-- From s to t, strand k has on its way only one entry more, which clears flag f (R79). -/
def FlagClears (s t : State) (k f : Nat) : Prop :=
  ∃ e, (t.strand k).inflight = (s.strand k).inflight ++ [e] ∧ e.dest = .flag f ∧ e.data = 0 ∧ e.rem = 1

/-- From s to t, no byte of memory and no scalar register of strand k has changed. -/
def KeepsData (s t : State) (k : Nat) : Prop := t.mem = s.mem ∧ ∀ r, (t.strand k).rs r = (s.strand k).rs r

/-- One issue cycle as far as results go: each comes one cycle nearer, and those that are due land (R79). -/
def issueCycle (k : Nat) (s : State) : State := (s.tick k false).landDue k false

/-- A context that is locked, with a command in the secured session that locked it (R385, R386). -/
def Locking (s : State) (b : Bind) : Prop :=
  (s.secured b.die b.sess).isSome = true ∧ (s.ctx b.die b.tcid).bind = .locked ∧ (s.ctx b.die b.tcid).sess = b.sess

/-- A context in RUN, with a command in a secured session of its tenant (R385, R408). -/
def Serving (s : State) (b : Bind) : Prop :=
  ∃ x, s.secured b.die b.sess = some x ∧ (s.ctx b.die b.tcid).bind = .run ∧ s.tenantIdx x.requester = some (s.ctx b.die b.tcid).tenant

end Sys2Proof.Machine
end

