-- ==== Sys2Proof/Certificates/Slice0/Obligations.lean ====
section
/-! DEFINITION. The statements for the provers. Each docstring names the rules of spec/ that it formalises. -/
section Statements
open Sys2Proof Sys2Proof.Machine

/-! ## Scalar slot -/

/-- R152: the arithmetic, logic, counting and extremum operations: each, with its guard true, completes by sending its result of the table to sd with
the latency of R83, and changes nothing else; and its opcode is the table's. Completes add, sub, addi, mul, mulh, mulhu, and, or, xor, andn, clz,
popc, min, max, minu and maxu. -/
def Obligations.ScalarArithmetic : Prop :=
  (∀ o : RRR, LandsScalar (.add o) o.g o.sd 1 (fun t => t.rs o.sa + t.rs o.sb)) ∧
  (∀ o : RRR, LandsScalar (.sub o) o.g o.sd 1 (fun t => t.rs o.sa - t.rs o.sb)) ∧
  (∀ o : RRI, LandsScalar (.addi o) o.g o.sd 1 (fun t => t.rs o.sa + (BitVec.ofNat 32 o.imm).signExtend 64)) ∧
  (∀ o : RRS, LandsScalar (.mul o) o.g o.sd 3 (fun t => BitVec.ofNat 64 ((t.rs o.sa).toNat * (t.src o.b).toNat))) ∧
  (∀ o : RRR, LandsScalar (.mulh o) o.g o.sd 3 (fun t => BitVec.ofInt 64 ((t.rs o.sa).toInt * (t.rs o.sb).toInt / 2 ^ 64))) ∧
  (∀ o : RRR, LandsScalar (.mulhu o) o.g o.sd 3 (fun t => BitVec.ofNat 64 ((t.rs o.sa).toNat * (t.rs o.sb).toNat / 2 ^ 64))) ∧
  (∀ o : RRS, LandsScalar (.and o) o.g o.sd 1 (fun t => t.rs o.sa &&& t.src o.b)) ∧
  (∀ o : RRS, LandsScalar (.or o) o.g o.sd 1 (fun t => t.rs o.sa ||| t.src o.b)) ∧
  (∀ o : RRS, LandsScalar (.xor o) o.g o.sd 1 (fun t => t.rs o.sa ^^^ t.src o.b)) ∧
  (∀ o : RRS, LandsScalar (.andn o) o.g o.sd 1 (fun t => t.rs o.sa &&& ~~~(t.src o.b))) ∧
  (∀ o : RR, LandsScalar (.clz o) o.g o.sd 1 (fun t =>
    BitVec.ofNat 64 (((List.range 64).takeWhile (fun i => !(t.rs o.sa).getMsbD i)).length))) ∧
  (∀ o : RR, LandsScalar (.popc o) o.g o.sd 1 (fun t =>
    BitVec.ofNat 64 (((List.range 64).filter (fun i => (t.rs o.sa).getLsbD i)).length))) ∧
  (∀ o : RRS, LandsScalar (.min o) o.g o.sd 1 (fun t => if (t.rs o.sa).toInt ≤ (t.src o.b).toInt then t.rs o.sa else t.src o.b)) ∧
  (∀ o : RRS, LandsScalar (.max o) o.g o.sd 1 (fun t => if (t.rs o.sa).toInt ≤ (t.src o.b).toInt then t.src o.b else t.rs o.sa)) ∧
  (∀ o : RRS, LandsScalar (.minu o) o.g o.sd 1 (fun t => if (t.rs o.sa).toNat ≤ (t.src o.b).toNat then t.rs o.sa else t.src o.b)) ∧
  (∀ o : RRS, LandsScalar (.maxu o) o.g o.sd 1 (fun t => if (t.rs o.sa).toNat ≤ (t.src o.b).toNat then t.src o.b else t.rs o.sa)) ∧
  (∀ o : RRR, encodeSyllable (.add o) = RRR.enc 0x01 o ∧ encodeSyllable (.sub o) = RRR.enc 0x02 o ∧
    encodeSyllable (.mulh o) = RRR.enc 0x05 o ∧ encodeSyllable (.mulhu o) = RRR.enc 0x06 o) ∧
  (∀ o : RRI, encodeSyllable (.addi o) = RRI.enc 0x03 o) ∧
  (∀ o : RRS, encodeSyllable (.mul o) = RRS.enc 0x04 o ∧ encodeSyllable (.and o) = RRS.enc 0x0B o ∧
    encodeSyllable (.or o) = RRS.enc 0x0C o ∧ encodeSyllable (.xor o) = RRS.enc 0x0D o ∧ encodeSyllable (.andn o) = RRS.enc 0x0E o ∧
    encodeSyllable (.min o) = RRS.enc 0x15 o ∧ encodeSyllable (.max o) = RRS.enc 0x16 o ∧
    encodeSyllable (.minu o) = RRS.enc 0x17 o ∧ encodeSyllable (.maxu o) = RRS.enc 0x18 o) ∧
  (∀ o : RR, encodeSyllable (.clz o) = RR.enc 0x13 o ∧ encodeSyllable (.popc o) = RR.enc 0x14 o)

/-- R153: division and remainder complete for every operand, with the corner cases of the rule's code, after 18 issue cycles; their encoding is format
SR with I = 0. Completes div, divu, rem and remu. -/
def Obligations.DivisionResults : Prop :=
  (∀ o : RRR, LandsScalar (.div o) o.g o.sd 18 (fun t =>
    let a := t.rs o.sa
    let b := t.rs o.sb
    if b = 0 then BitVec.ofNat 64 (2 ^ 64 - 1)
    else if a.toInt = -2 ^ 63 ∧ b.toInt = -1 then BitVec.ofNat 64 (2 ^ 63) else BitVec.ofInt 64 (a.toInt.tdiv b.toInt))) ∧
  (∀ o : RRR, LandsScalar (.rem o) o.g o.sd 18 (fun t =>
    let a := t.rs o.sa
    let b := t.rs o.sb
    if b = 0 then a else if a.toInt = -2 ^ 63 ∧ b.toInt = -1 then 0 else BitVec.ofInt 64 (a.toInt.tmod b.toInt))) ∧
  (∀ o : RRR, LandsScalar (.divu o) o.g o.sd 18 (fun t =>
    if t.rs o.sb = 0 then BitVec.ofNat 64 (2 ^ 64 - 1) else BitVec.ofNat 64 ((t.rs o.sa).toNat / (t.rs o.sb).toNat))) ∧
  (∀ o : RRR, LandsScalar (.remu o) o.g o.sd 18 (fun t =>
    if t.rs o.sb = 0 then t.rs o.sa else BitVec.ofNat 64 ((t.rs o.sa).toNat % (t.rs o.sb).toNat))) ∧
  (∀ o : RRR, encodeSyllable (.div o) = encSR 0x07 o.g o.sd o.sa o.sb false 0 ∧
    encodeSyllable (.divu o) = encSR 0x08 o.g o.sd o.sa o.sb false 0 ∧ encodeSyllable (.rem o) = encSR 0x09 o.g o.sd o.sa o.sb false 0 ∧
    encodeSyllable (.remu o) = encSR 0x0A o.g o.sd o.sa o.sb false 0)

/-- R154: the shifts and the rotation by k, the low six bits of the second operand. Completes shl, shr, sar and rotl. -/
def Obligations.ShiftResults : Prop :=
  (∀ o : RRS, LandsScalar (.shl o) o.g o.sd 1 (fun t =>
    BitVec.ofNat 64 ((t.rs o.sa).toNat * 2 ^ ((t.src o.b).toNat % 64)))) ∧
  (∀ o : RRS, LandsScalar (.shr o) o.g o.sd 1 (fun t =>
    BitVec.ofNat 64 ((t.rs o.sa).toNat / 2 ^ ((t.src o.b).toNat % 64)))) ∧
  (∀ o : RRS, LandsScalar (.sar o) o.g o.sd 1 (fun t =>
    BitVec.ofInt 64 ((t.rs o.sa).toInt / 2 ^ ((t.src o.b).toNat % 64)))) ∧
  (∀ o : RRS, LandsScalar (.rotl o) o.g o.sd 1 (fun t => (t.rs o.sa).rotateLeft ((t.src o.b).toNat % 64)))

/-- R155: SEL, LI and LIH, with their encodings: LIH reads its own destination. Completes sel, li and lih. -/
def Obligations.SelectAndImmediates : Prop :=
  (∀ o : SelOps, LandsScalar (.sel o) o.g o.sd 1 (fun t => if t.rp o.k then t.rs o.sa else t.rs o.sb)) ∧
  (∀ o : RI, LandsScalar (.li o) o.g o.sd 1 (fun _ => (BitVec.ofNat 32 o.imm).signExtend 64)) ∧
  (∀ o : RI, LandsScalar (.lih o) o.g o.sd 1 (fun t =>
    ((BitVec.ofNat 32 o.imm).setWidth 64 <<< 32) ||| ((t.rs o.sd).setWidth 32).setWidth 64)) ∧
  (∀ o : SelOps, encodeSyllable (.sel o) = enc64 0x19 o.g [(32, o.k), (1, 0), (6, o.sb), (6, o.sa), (6, o.sd)]) ∧
  (∀ o : RI, encodeSyllable (.li o) = enc64 0x1A o.g [(32, o.imm), (1, 1), (6, 0), (6, 0), (6, o.sd)] ∧
    encodeSyllable (.lih o) = enc64 0x1B o.g [(32, o.imm), (1, 1), (6, 0), (6, 0), (6, o.sd)])

/-- R56 and R157: compares under every condition, and the predicate operations, which are encoded in format SQ, send one bit to their predicate after
1 issue cycle. Completes cmp, cmpi, pand, por, pxor and pnot. -/
def Obligations.ComparesAndPredicates : Prop :=
  (∀ o : CmpOps, o.cc < 8 → LandsPred (.cmp o) o.g o.pd (fun t =>
    let a := t.rs o.sa
    let b := t.rs o.sb
    [decide (a = b), decide (a ≠ b), decide (a.toInt < b.toInt), decide (b.toInt ≤ a.toInt), decide (a.toNat < b.toNat),
      decide (b.toNat ≤ a.toNat), decide (a &&& b ≠ 0), decide (a &&& b = 0)].getD o.cc false)) ∧
  (∀ o : CmpIOps, o.cc < 8 → LandsPred (.cmpi o) o.g o.pd (fun t =>
    let a := t.rs o.sa
    let b := (BitVec.ofNat 32 o.imm).signExtend 64
    [decide (a = b), decide (a ≠ b), decide (a.toInt < b.toInt), decide (b.toInt ≤ a.toInt), decide (a.toNat < b.toNat),
      decide (b.toNat ≤ a.toNat), decide (a &&& b ≠ 0), decide (a &&& b = 0)].getD o.cc false)) ∧
  (∀ o : PPP, LandsPred (.pand o) o.g o.pd (fun t => (t.rp o.pa).xor o.na && (t.rp o.pb).xor o.nb)) ∧
  (∀ o : PPP, LandsPred (.por o) o.g o.pd (fun t => (t.rp o.pa).xor o.na || (t.rp o.pb).xor o.nb)) ∧
  (∀ o : PPP, LandsPred (.pxor o) o.g o.pd (fun t => ((t.rp o.pa).xor o.na).xor ((t.rp o.pb).xor o.nb))) ∧
  (∀ o : PP, LandsPred (.pnot o) o.g o.pd (fun t => !(t.rp o.pa).xor o.na)) ∧
  (∀ o : PPP, encodeSyllable (.pand o) = encSQ 0x1E o.g o.pd o.pa o.pb o.na o.nb ∧
    encodeSyllable (.por o) = encSQ 0x1F o.g o.pd o.pa o.pb o.na o.nb ∧ encodeSyllable (.pxor o) = encSQ 0x20 o.g o.pd o.pa o.pb o.na o.nb) ∧
  (∀ o : PP, encodeSyllable (.pnot o) = encSQ 0x21 o.g o.pd o.pa 0 o.na false)

/-- R158, R159, R160 and R148: MOVH of a full latch, CSR access, TRAP and HAIL, LAYW and LAYR complete with exactly the effects of their rules.
Completes movh, csrr, csrw, csrs, csrc, trap, hail, layw and layr. -/
def Obligations.SystemOperations : Prop :=
  (∀ (o : MovhOps) s k, Issues s k → (s.strand k).guard o.g = true → o.h < (s.strand k).nlatch → ((s.strand k).rh o.h).full = true →
    ((s.strand k).rh o.h).pend = none →
    exec (.movh o) s = .next ((landed s k (onWay (s.strand k) .s (.sreg o.sd) 1
      ((BitVec.ofNat 64 (((s.strand k).rh o.h).data.toNat / 2 ^ (64 * o.w))).setWidth 1024) fullEn none)).modStrand k
        (fun t => if o.keep then t else t.wh o.h { t.rh o.h with full := false }))) ∧
  (∀ (o : CsrrOps) s k, Issues s k → (s.strand k).guard o.g = true →
    exec (.csrr o) s = .next (landed s k (onWay (s.strand k) .s (.sreg o.sd) 2 ((s.csr (s.strand k) o.csr).setWidth 1024) fullEn none))) ∧
  (∀ (o : CsrwOps) s k, Issues s k → (s.strand k).guard o.g = true → (csrPriv o.csr = true → (s.strand k).supervisor = true) →
    csrRw o.csr ≠ 0 →
    exec (.csrw o) s = .next (landed s k (onWay (s.strand k) .s (.csr o.csr) 1
      ((s.csrNew (s.strand k) .w o.csr ((s.strand k).rs o.sa)).setWidth 1024) fullEn none)) ∧
    exec (.csrs o) s = .next (landed s k (onWay (s.strand k) .s (.csr o.csr) 1
      ((s.csrNew (s.strand k) .s o.csr ((s.strand k).rs o.sa)).setWidth 1024) fullEn none)) ∧
    exec (.csrc o) s = .next (landed s k (onWay (s.strand k) .s (.csr o.csr) 1
      ((s.csrNew (s.strand k) .c o.csr ((s.strand k).rs o.sa)).setWidth 1024) fullEn none))) ∧
  (∀ (o : CodeOps) s k, Issues s k → (s.strand k).guard o.g = true →
    exec (.trap o) s = .next (s.modStrand k (fun t =>
      { t with causes := t.causes ++ [⟨.softwareTrap, BitVec.ofNat 64 o.code, t.bun.addr, 2 ^ Slot.bit .s⟩] })) ∧
    exec (.hail o) s = .next (s.modStrand k (fun t =>
      { t with causes := t.causes ++ [⟨.hail, BitVec.ofNat 64 o.code, t.bun.addr, 2 ^ Slot.bit .s⟩] }))) ∧
  (∀ (o : LaywOps) s k, Issues s k → (s.strand k).guard o.g = true →
    exec (.layw o) s = .next (landed s k (onWay (s.strand k) .s (.lay (4 * o.n + o.k)) 2 (((s.strand k).rs o.sa).setWidth 1024) fullEn none))) ∧
  (∀ (o : LayrOps) s k, Issues s k → (s.strand k).guard o.g = true →
    exec (.layr o) s = .next (landed s k (onWay (s.strand k) .s (.sreg o.sd) 2
      (((s.strand k).layWord (4 * o.n + o.k) &&& layReadable o.k (fld ((s.strand k).layWord (4 * o.n)).toNat 6 2 == 0)).setWidth 1024)
      fullEn none)))

/-- R71 and R159: the three CSR writes of a privileged CSR by a tenant's strand take the PRIV_OP trap, whatever the guard; of another
read-only CSR they change nothing. -/
def Obligations.CsrWritesRefused : Prop :=
  ∀ (o : CsrwOps) s k, Issues s k →
    (csrPriv o.csr = true → (s.strand k).supervisor = false → ∀ i, i = .csrw o ∨ i = .csrs o ∨ i = .csrc o →
      exec i s = .next (s.takeTrap k ⟨.privOp, syllableOf i, (s.strand k).bun.addr, 2 ^ Slot.bit .s⟩ false)) ∧
    (csrPriv o.csr = false → csrRw o.csr = 0 →
      exec (.csrw o) s = .next s ∧ exec (.csrs o) s = .next s ∧ exec (.csrc o) s = .next s)

/-! ## Results land -/

/-- R79 and R69: a result for a scalar register that is the only one on its way, with l ≥ 1 issue cycles to go, leaves every register as
it is until the l-th issue cycle from then, and in that cycle the register reads the value, s0 still reads zero, and every other register
is unchanged. -/
def Obligations.ScalarResultLands : Prop :=
  ∀ (s : State) (k sd l : Nat) (v : Word) (sl : Slot) (n : Nat),
    (s.strand k).inflight = [onWay (s.strand k) sl (.sreg sd) (l + 1) (v.setWidth 1024) fullEn none] →
    (n ≤ l → ∀ r, ((iter (issueCycle k) n s).strand k).rs r = (s.strand k).rs r) ∧
    (∀ r, ((iter (issueCycle k) (l + 1) s).strand k).rs r = if r = 0 then 0 else if r = sd then v else (s.strand k).rs r)
/-! ## Branches, calls and loops -/

/-- R161, R162, R165 and R166: a taken branch, call or return completes by making its target the next position after two empty issue cycles; a call
sends its successor's address to s62 and pushes it with the loop depth, which becomes the floor; a return pops it. Completes br, bri, call, calli and
ret. -/
def Obligations.TransfersComplete : Prop :=
  (∀ (o : BrOps) s k, Issues s k → (s.strand k).guard o.g = true →
    exec (.br o) s = .next (s.modStrand k (fun t => t.branchTo ((t.rs o.sa).toNat % 65536)))) ∧
  (∀ (o : BriOps) s k, Issues s k → (s.strand k).guard o.g = true →
    exec (.bri o) s = .next (s.modStrand k (fun t =>
      t.branchTo ((t.bun.addr + ((BitVec.ofNat 32 o.imm).signExtend 64).toNat) % 65536)))) ∧
  (∀ (o : BrOps) s k, Issues s k → (s.strand k).guard o.g = true → (s.strand k).held < 576 → (s.strand k).shadow.length < 64 →
    exec (.call o) s = .next ((landed s k (onWay (s.strand k) .s (.sreg 62) 1
      ((BitVec.ofNat 64 (s.strand k).bun.succ).setWidth 1024) fullEn none)).modStrand k (fun t =>
        { t with
          shadow := ⟨t.bun.succ % 65536, t.loops.length⟩ :: t.shadow, floor := t.loops.length
          pos := (t.rs o.sa).toNat % 65536, bres := 2, next := .known }))) ∧
  (∀ (o : BriOps) s k, Issues s k → (s.strand k).guard o.g = true → (s.strand k).held < 576 → (s.strand k).shadow.length < 64 →
    exec (.calli o) s = .next ((landed s k (onWay (s.strand k) .s (.sreg 62) 1
      ((BitVec.ofNat 64 (s.strand k).bun.succ).setWidth 1024) fullEn none)).modStrand k (fun t =>
        { t with
          shadow := ⟨t.bun.succ % 65536, t.loops.length⟩ :: t.shadow, floor := t.loops.length
          pos := (t.bun.addr + ((BitVec.ofNat 32 o.imm).signExtend 64).toNat) % 65536, bres := 2, next := .known }))) ∧
  (∀ (g : Guard) s k e r, Issues s k → (s.strand k).guard g = true → (s.strand k).shadow = e :: r →
    (s.strand k).shadowBase < (s.strand k).held → (s.strand k).rs 62 = BitVec.ofNat 64 e.ret →
    ∃ t, exec (.ret g) s = .next t ∧ (t.strand k).shadow = r ∧ (t.strand k).pos = e.ret ∧ (t.strand k).bres = 2 ∧
      (t.strand k).loops.length ≤ e.depth ∧ t.mem = s.mem ∧ (∀ n, (t.strand k).rs n = (s.strand k).rs n))

/-- R173: a taken transfer to a target makes it the next position, owes two empty issue cycles, and pops, from the innermost level
outwards, exactly the levels above the floor whose body does not hold the target. -/
def Obligations.TransferPops : Prop :=
  ∀ (t : Strand) (target : Nat), ∃ n, n ≤ t.loops.length ∧
    (t.branchTo target).loops = t.loops.drop n ∧ (t.branchTo target).pos = target ∧ (t.branchTo target).bres = 2 ∧
    (∀ i l, i < n → t.loops[i]? = some l → t.floor < t.loops.length - i ∧ ¬(l.start ≤ target ∧ target < (l.endl + 1) * 16)) ∧
    (∀ l, t.loops[n]? = some l → t.floor < t.loops.length - n → l.start ≤ target ∧ target < (l.endl + 1) * 16) ∧
    (∀ r, (t.branchTo target).rs r = t.rs r) ∧ (t.branchTo target).preg = t.preg ∧ (t.branchTo target).shadow = t.shadow

/-- R170 and R174: LSET pushes a level whose count is its operand less one, or, with a count of zero, skips its body after two empty issue cycles;
LBRK pops its number of levels and leaves the last one's body after two empty issue cycles. Completes lset and lbrk. -/
def Obligations.LoopOperations : Prop :=
  (∀ (o : LsetOps) s k, Issues s k → (opLset o s).Clear (s.strand k) → lsetCount (s.strand k) o.cnt ≠ 0 →
    exec (.lset o) s = .next (s.modStrand k (fun t =>
      { t with
        loops := ⟨t.bun.succ, t.bun.addr / 16 + o.e, o.depth, o.f, lsetCount t o.cnt - 1⟩ :: t.loops
        ldone := if 0 < o.depth then 0 else t.ldone
        pos := t.bun.succ, next := .known }))) ∧
  (∀ (o : LsetOps) s k, Issues s k → (opLset o s).Clear (s.strand k) → lsetCount (s.strand k) o.cnt = 0 →
    exec (.lset o) s = .next (s.modStrand k (fun t =>
      { t with bres := 2, next := .eval ((t.bun.addr / 16 + o.e + 1) * 16) (some (t.bun.addr / 16 + o.e)) }))) ∧
  (∀ (o : NumOps) s k l, Issues s k → (s.strand k).guard o.g = true → 1 ≤ o.n →
    o.n ≤ (s.strand k).loops.length - (s.strand k).floor → (s.strand k).loops[o.n - 1]? = some l →
    ∃ t, exec (.lbrk o) s = .next t ∧ (t.strand k).loops = (s.strand k).loops.drop o.n ∧ (t.strand k).bres = 2 ∧
      (t.strand k).next = .eval ((l.endl + 1) * 16) (some l.endl) ∧ t.mem = s.mem ∧ (∀ r, (t.strand k).rs r = (s.strand k).rs r))

/-- R170 and R174: an LSET of an empty body (its end line comes before its successor's line), one at LDEPTH 6, one whose body is not nested in the
innermost level above the floor, a second drainable level, and an LBRK of more levels than stand above the floor take the ILLEGAL_OP trap with the
syllable in FVAL. -/
def Obligations.LoopTraps : Prop :=
  (∀ (o : LsetOps) s k, Issues s k → (s.strand k).guard o.g = true →
    (s.strand k).bun.addr / 16 + o.e < (s.strand k).bun.succ / 16 ∨ (s.strand k).loops.length = 6 ∨
      (∃ l r, (s.strand k).loops = l :: r ∧ (s.strand k).floor < (s.strand k).loops.length ∧ l.endl < (s.strand k).bun.addr / 16 + o.e) ∨
      (0 < o.depth ∧ ∃ l ∈ (s.strand k).loops, 0 < l.depth) →
    exec (.lset o) s = .next (s.takeTrap k ⟨.illegalOp, syllableOf (.lset o), (s.strand k).bun.addr, 2 ^ Slot.bit .sy⟩ false)) ∧
  (∀ (o : NumOps) s k, Issues s k → (s.strand k).guard o.g = true → (s.strand k).loops.length - (s.strand k).floor < o.n →
    exec (.lbrk o) s = .next (s.takeTrap k ⟨.illegalOp, syllableOf (.lbrk o), (s.strand k).bun.addr, 2 ^ Slot.bit .sy⟩ false))

/-- R172 and R175: the search for the next position on a line, without a stop, when the innermost level above the floor ends there:
with count left its back edge is taken and the count falls by one; with none left it is popped. -/
def Obligations.BackEdges : Prop :=
  ∀ (l : Loop) (r : List Loop) (floor line succ lb ld : Nat) (e : Bool), floor < (l :: r).length → l.endl = line →
    (0 < l.count → (edgeWalk floor line succ false (l :: r) lb ld e).pos = l.start ∧
      (edgeWalk floor line succ false (l :: r) lb ld e).loops = { l with count := l.count - 1 } :: r ∧
      (edgeWalk floor line succ false (l :: r) lb ld e).edge = true) ∧
    (l.count = 0 → (r = [] ∨ floor = r.length ∨ ∃ m q, r = m :: q ∧ m.endl ≠ line) →
      (edgeWalk floor line succ false (l :: r) lb ld e).pos = succ ∧ (edgeWalk floor line succ false (l :: r) lb ld e).loops = r)

/-! ## Synchronisation, ending and handlers -/

/-- R179, R180, R234, R345, R233: YIELD, END, FENCE, SETF, CLRF, WAITF and PHASE complete with the effects of their rules: a switch is asked for, a
mark is set, a flag is on its way, the flag's wait or the PHASE's wait begins, or the PHASE is done at once. Completes yield, endStrand, fence, setf,
clrf, waitf and phase. -/
def Obligations.SyncOperations : Prop :=
  (∀ (g : Guard) s k, Issues s k → (s.strand k).guard g = true → (s.strand k).hsave = none →
    exec (.yield g) s = .next (s.modStrand k (fun t => { t with switchTo := some .yield })) ∧
    exec (.endStrand g) s = .next (s.modStrand k (fun t => { t with switchTo := some .ended, next := .known }))) ∧
  (∀ (g : Guard) s k, Issues s k → (s.strand k).guard g = true →
    exec (.fence g) s = .next (s.modStrand k (fun t => { t with fence := s.nextId }))) ∧
  (∀ (o : NumOps) s k, Issues s k → (s.strand k).guard o.g = true →
    exec (.setf o) s = .next (landed s k (onWay (s.strand k) .sy (.flag o.n) 1 1 fullEn none)) ∧
    exec (.clrf o) s = .next (landed s k (onWay (s.strand k) .sy (.flag o.n) 1 0 fullEn none))) ∧
  (∀ (o : WaitfOps) s k, Issues s k → (s.strand k).guard o.g = true → (s.strand k).hsave = none →
    exec (.waitf o) s = .next (
      if (s.strand k).rf o.flag = false then s.modStrand k (fun t => { t with switchTo := some (.wait (.flag o.flag o.c)) })
      else if o.c then landed s k (onWay (s.strand k) .sy (.flag o.flag) 1 0 fullEn none) else s)) ∧
  (∀ (o : NumOps) s k, Issues s k → (s.strand k).guard o.g = true → (s.strand k).hsave = none →
    exec (.phase o) s = .next (
      if phaseReady s k o.n s.nextId then s.phaseDone k o.n s.nextId (s.strand k).bun.addr
      else s.modStrand k (fun t => { t with switchTo := some (.wait (.phase o.n s.nextId t.bun.addr)) })))

/-- R346: a SPIN that finds its condition true ends the penalty and its poll count and renews the strand's view. Completes spin. -/
def Obligations.SpinCompletes : Prop :=
  ∀ (o : SpinOps) s k, Issues s k → (opSpin o s).Clear (s.strand k) → spinOver s (s.strand k) = false → spinTrue s o = true →
    exec (.spin o) s = .next ((s.modStrand k (fun t => { t with pen := false, polls := 0 })).renew k)

/-- R39, R40, R349, R351: JOIN and LEAVE while no generation of the crew is open change its members at once and nothing else; CBAR of a member whose
arrival leaves the open generation incomplete records the arrival and waits for the crew; a TAKE from a range that keeps something, with no request
held, takes its chunk, sends the first index and the count to its register pair, and changes nothing else. Completes join, leave, cbar and take. -/
def Obligations.CrewAndRange : Prop :=
  (∀ (o : NumOps) s k, Issues s k → (s.strand k).guard o.g = true → (s.strand k).hsave = none →
    o.n < (s.ctx (s.strand k).die (s.strand k).tcid).crewq →
    (s.crew (s.strand k).die (s.strand k).tcid o.n).arrived = [] →
    ((s.crew (s.strand k).die (s.strand k).tcid o.n).members.contains k = false →
      (s.crew (s.strand k).die (s.strand k).tcid o.n).joining.contains k = false →
      exec (.join o) s = .next (s.setCrew (s.strand k).die (s.strand k).tcid o.n
        { s.crew (s.strand k).die (s.strand k).tcid o.n with members := (s.crew (s.strand k).die (s.strand k).tcid o.n).members ++ [k] })) ∧
    exec (.leave o) s = .next (s.setCrew (s.strand k).die (s.strand k).tcid o.n
      { s.crew (s.strand k).die (s.strand k).tcid o.n with
        members := (s.crew (s.strand k).die (s.strand k).tcid o.n).members.filter (· != k)
        joining := (s.crew (s.strand k).die (s.strand k).tcid o.n).joining.filter (· != k)
        nextArr := (s.crew (s.strand k).die (s.strand k).tcid o.n).nextArr.filter (· != k) })) ∧
  (∀ (o : NumOps) s k m, Issues s k → (s.strand k).guard o.g = true → (s.strand k).hsave = none →
    o.n < (s.ctx (s.strand k).die (s.strand k).tcid).crewq →
    (s.crew (s.strand k).die (s.strand k).tcid o.n).members.contains k = true →
    (s.crew (s.strand k).die (s.strand k).tcid o.n).joining.contains k = false →
    m ∈ (s.crew (s.strand k).die (s.strand k).tcid o.n).members → m ≠ k →
    (s.crew (s.strand k).die (s.strand k).tcid o.n).arrived.contains m = false →
    ∃ t, exec (.cbar o) s = .next t ∧ (t.strand k).switchTo = some (.wait (.crew o.n)) ∧
      (t.crew (s.strand k).die (s.strand k).tcid o.n).arrived = (s.crew (s.strand k).die (s.strand k).tcid o.n).arrived ++ [k] ∧
      t.mem = s.mem ∧ (∀ r, (t.strand k).rs r = (s.strand k).rs r)) ∧
  (∀ (o : TakeOps) s k, Issues s k → (s.strand k).guard o.g = true → (s.strand k).hsave = none → o.d % 2 = 0 →
    (s.strand k).range.next < (s.strand k).range.limit → (s.strand k).range.slot = none →
    (s.strand k).range.next + o.chunk < (s.strand k).range.limit →
    exec (.take o) s = .next (landed (landed (s.modStrand k (fun t => { t with range := { t.range with next := t.range.next + o.chunk } }))
      k (onWay (s.strand k) .sy (.sreg o.d) 2 ((BitVec.ofNat 64 (s.strand k).range.next).setWidth 1024) fullEn none))
      k (onWay (s.strand k) .sy (.sreg (o.d + 1)) 2 ((wordOf [(62, 0), (0, o.chunk)]).setWidth 1024) fullEn none)))

/-- R37 and R181: HRET with no entry left of the handler's calls restores the predicates, the floor and the position of the interrupted code, with the
causes that came while the handler ran, pops the levels that the handler pushed, owes two empty issue cycles and ends the handler; a wait that it
interrupted, other than of a SPIN, is taken up again. Outside a handler it takes the ILLEGAL_OP trap. Completes hret. -/
def Obligations.HandlerReturn : Prop :=
  (∀ (g : Guard) s k h, Issues s k → (s.strand k).guard g = true → (s.strand k).hsave = some h → (s.strand k).held ≤ h.shadow →
    exec (.hret g) s = .next (s.modStrand k (fun t =>
      { t with
        loops := t.loops.drop (t.loops.length - h.depth), preg := h.preds, floor := h.floor, hsave := none
        pos := h.pos, bres := 2, next := .known, causes := t.causes ++ h.causes
        switchTo := match h.wait with
          | .none => t.switchTo
          | .spin _ => t.switchTo
          | w => some (.wait w) }))) ∧
  (∀ (g : Guard) s k, Issues s k → (s.strand k).guard g = true → (s.strand k).hsave = none →
    exec (.hret g) s = .next (s.takeTrap k ⟨.illegalOp, syllableOf (.hret g), (s.strand k).bun.addr, 2 ^ Slot.bit .sy⟩ false))

/-- R54: an operation's guard is p[G] XOR N; an operation of any slot that meets no condition of R51, no precise trap and no wait takes its
full effect when its guard is true, and changes nothing at all, raising no trap of its own, when it is false; with G = 0 and N = 1 it is
never true. -/
def Obligations.FalseGuard : Prop :=
  (∀ (t : Strand) (g : Guard), t.guard g = (t.rp g.p).xor g.n) ∧
  (∀ (t : Strand), t.guard ⟨0, true⟩ = false) ∧
  (∀ (o : Op) s k, Issues s k → (s.strand k).guard o.g = true → o.chk = [] → o.dyn = none → o.stall = false →
    o.run s = .next (o.eff s)) ∧
  (∀ (o : Op) s k, Issues s k → o.chk = [] → (s.strand k).guard o.g = false → o.run s = .next s) ∧
  (∀ s k, Issues s k →
    (∀ o : RRR, (s.strand k).guard o.g = false → exec (.add o) s = .next s ∧ exec (.div o) s = .next s) ∧
    (∀ o : V3R, (s.strand k).guard o.g = false → (s.strand k).hsave = none → Within (s.strand k) [(o.f, o.vd), (o.f, o.vs1), (o.f, o.vs2)] →
      exec (.vadd o) s = .next s) ∧
    (∀ o : StOps, (s.strand k).guard o.g = false → exec (.sts o) s = .next s) ∧
    (∀ o : AtomOps, (s.strand k).guard o.g = false → o.hl = none → exec (.aadd o) s = .next s) ∧
    (∀ o : BrOps, (s.strand k).guard o.g = false → exec (.br o) s = .next s ∧ exec (.call o) s = .next s) ∧
    (∀ o : NumOps, (s.strand k).guard o.g = false → (s.strand k).hsave = none → exec (.phase o) s = .next s))
/-! ## Vector slots -/

/-- R185, R188 to R191: floating addition, subtraction, multiplication, the fused forms, minimum, maximum and the sign operations send one lane result
per lane of the type, each made from the same lanes of the sources, under the lane mask, after 4 issue cycles. Completes vadd, vsub, vmul, vfma, vfms,
vfnma, vmin, vmax, vcpys, vabs and vneg. -/
def Obligations.VectorFloat : Prop :=
  (∀ o : V3R, ∀ i op, (i, op) ∈ [(Instr.vadd o, FOp.add), (.vsub o, .sub), (.vmul o, .mul)] →
    LandsVector i o.g [(o.f, o.vd), (o.f, o.vs1), (o.f, o.vs2)] (fun t =>
      lanesTo t o.f o.vd 4 (tyWidth o.ty) (t.rm o.f o.msel)
        (List.zipWith (floatBin op o.ty o.rnd) (lanesOf (t.rv o.f o.vs1) (tyWidth o.ty)) (lanesOf (t.rv o.f o.vs2) (tyWidth o.ty))))) ∧
  (∀ o : V4R, ∀ i np sc, (i, np, sc) ∈ [(Instr.vfma o, false, false), (.vfms o, false, true), (.vfnma o, true, false)] →
    LandsVector i o.g [(o.f, o.vd), (o.f, o.vs1), (o.f, o.vs2), (o.f, o.vs3)] (fun t =>
      lanesTo t o.f o.vd 4 (tyWidth o.ty) (t.rm o.f o.msel)
        (List.zipWith (fun ab c => floatFma np sc o.ty o.rnd ab.1 ab.2 c)
          (List.zip (lanesOf (t.rv o.f o.vs1) (tyWidth o.ty)) (lanesOf (t.rv o.f o.vs2) (tyWidth o.ty)))
          (lanesOf (t.rv o.f o.vs3) (tyWidth o.ty))))) ∧
  (∀ o : V3T, ∀ i op, (i, op) ∈ [(Instr.vmin o, floatMinMax o.ty false), (.vmax o, floatMinMax o.ty true), (.vcpys o, laneCpys o.ty)] →
    LandsVector i o.g [(o.f, o.vd), (o.f, o.vs1), (o.f, o.vs2)] (fun t =>
      lanesTo t o.f o.vd 4 (tyWidth o.ty) (t.rm o.f o.msel)
        (List.zipWith op (lanesOf (t.rv o.f o.vs1) (tyWidth o.ty)) (lanesOf (t.rv o.f o.vs2) (tyWidth o.ty))))) ∧
  (∀ o : V2T, ∀ i op, (i, op) ∈ [(Instr.vabs o, laneAbs o.ty), (.vneg o, laneNeg o.ty)] →
    LandsVector i o.g [(o.f, o.vd), (o.f, o.vs1)] (fun t =>
      lanesTo t o.f o.vd 4 (tyWidth o.ty) (t.rm o.f o.msel) ((lanesOf (t.rv o.f o.vs1) (tyWidth o.ty)).map op)))

/-- R192, R193: the reciprocal, the roots, the power and the logarithm complete for every operand, lane by lane, after 8 or 12 issue cycles. Which
value within the bound of R193 an approximate lane takes is the model's free value (log entry 4). Completes vrcp, vrsq, vsqrt, vexp2 and vlog2. -/
def Obligations.VectorApproximate : Prop :=
  ∀ o : V2R, ∀ i op l, (i, op, l) ∈ [(Instr.vrcp o, Approx.rcp, 8), (.vrsq o, .rsq, 8), (.vsqrt o, .sqrt, 12), (.vexp2 o, .exp2, 12),
      (.vlog2 o, .log2, 12)] →
    LandsVector i o.g [(o.f, o.vd), (o.f, o.vs1)] (fun t =>
      lanesTo t o.f o.vd l (tyWidth o.ty) (t.rm o.f o.msel)
        ((lanesOf (t.rv o.f o.vs1) (tyWidth o.ty)).map (approxResult op o.ty o.rnd)))

/-- R197 to R199: integer arithmetic under an overflow policy, high products, extrema, absolute values, logic and shifts, lane by lane; under the
trapping policy the lowest enabled lane that overflows makes the landing trap. Completes viadd, visub, vimul, vimulh, vimin, vimax, vexpmax, viabs,
vand, vor, vxor, vandn, vshl, vshr and vsar. -/
def Obligations.VectorInteger : Prop :=
  (∀ o : V3O, ∀ (i : Instr) (op : Int → Int → Int) (l : Nat),
      (i = .viadd o ∧ op = (fun a b => a + b) ∧ l = 2) ∨ (i = .visub o ∧ op = (fun a b => a - b) ∧ l = 2) ∨
        (i = .vimul o ∧ op = (fun a b => a * b) ∧ l = 4) →
    LandsVector i o.g [(o.f, o.vd), (o.f, o.vs1), (o.f, o.vs2)] (fun t =>
      let w := tyWidth o.ty
      let m := t.rm o.f o.msel
      let ls := List.zipWith (fun a b => intResult o.ty o.ovf (op (intOf o.ty a) (intOf o.ty b)))
        (lanesOf (t.rv o.f o.vs1) w) (lanesOf (t.rv o.f o.vs2) w)
      onWay t o.f.slot (.vreg o.f o.vd) l (vecOf w (ls.map (fun x => x.getD 0))) (laneEn m w)
        (((List.range ls.length).find? (fun j => governs m w j && (ls.getD j none).isNone)).map
          (fun j => (.convertOverflow, BitVec.ofNat 64 j))))) ∧
  (∀ o : V3T, ∀ i op l, (i, op, l) ∈ [(Instr.vimulh o, laneMulh o.ty, 4), (.vimin o, laneMin o.ty, 2), (.vimax o, laneMax o.ty, 2),
      (.vexpmax o, expMax o.ty, 4)] →
    LandsVector i o.g [(o.f, o.vd), (o.f, o.vs1), (o.f, o.vs2)] (fun t =>
      lanesTo t o.f o.vd l (tyWidth o.ty) (t.rm o.f o.msel)
        (List.zipWith op (lanesOf (t.rv o.f o.vs1) (tyWidth o.ty)) (lanesOf (t.rv o.f o.vs2) (tyWidth o.ty))))) ∧
  (∀ o : V2T, LandsVector (.viabs o) o.g [(o.f, o.vd), (o.f, o.vs1)] (fun t =>
      lanesTo t o.f o.vd 2 (tyWidth o.ty) (t.rm o.f o.msel)
        ((lanesOf (t.rv o.f o.vs1) (tyWidth o.ty)).map (fun a => lowBits (tyWidth o.ty) (intOf o.ty a).natAbs)))) ∧
  (∀ o : V3L, ∀ (i : Instr) (op : Vec → Vec → Vec),
      (i = .vand o ∧ op = (fun a b => a &&& b)) ∨ (i = .vor o ∧ op = (fun a b => a ||| b)) ∨
        (i = .vxor o ∧ op = (fun a b => a ^^^ b)) ∨ (i = .vandn o ∧ op = (fun a b => a &&& ~~~b)) →
    LandsVector i o.g [(o.f, o.vd), (o.f, o.vs1), (o.f, o.vs2)] (fun t =>
      onWay t o.f.slot (.vreg o.f o.vd) 2 (op (t.rv o.f o.vs1) (t.rv o.f o.vs2)) (laneEn (t.rm o.f o.msel) 32) none)) ∧
  (∀ o : VSS, ∀ i op, (i, op) ∈ [(Instr.vshl o, laneShl (tyWidth o.ty)), (.vshr o, laneShr (tyWidth o.ty)), (.vsar o, laneSar (tyWidth o.ty))] →
    LandsVector i o.g [(o.f, o.vd), (o.f, o.vs1)] (fun t =>
      lanesTo t o.f o.vd 2 (tyWidth o.ty) (t.rm o.f o.msel)
        ((lanesOf (t.rv o.f o.vs1) (tyWidth o.ty)).map (fun a => op a (t.vsU o.b)))))

/-- R201 to R206: conversions, block quantisation and scaling complete and send their results. Completes vcvt, vcvti, vcvtf, vqfp4, vdqfp4 and vscale.
-/
def Obligations.VectorConversions : Prop :=
  (∀ o : VCvtOps, ∀ i, i ∈ [Instr.vcvt o, .vcvti o, .vcvtf o] →
    LandsVector i o.g [(o.f, o.vd), (o.f, o.vs1)] (fun t =>
      let n := 1024 / max (tyWidth o.src) (tyWidth o.ty)
      let r := trapRes (tyWidth o.ty) (t.rm o.f o.msel)
        (((lanesOf (t.rv o.f o.vs1) (tyWidth o.src)).take n).map (fun a => convert o.ty o.rnd o.ovf (valueOf o.src a)))
      onWay t o.f.slot (.vreg o.f o.vd) 4 r.v (r.en &&& BitVec.ofNat 128 (2 ^ (n * tyWidth o.ty / 8) - 1))
        (r.trap.map (fun j => (.convertOverflow, BitVec.ofNat 64 j))))) ∧
  (∀ o : VQOps, ∀ (i : Instr) (r : VQOps → Strand → VRes), (i = .vqfp4 o ∧ r = quantRes) ∨ (i = .vdqfp4 o ∧ r = dequantRes) →
    LandsVector i o.g [(o.f, o.vd), (o.f, o.vs1), (o.f, o.vs2), (o.f, o.vs3)] (fun t =>
      onWay t o.f.slot (.vreg o.f o.vd) 6 (r o t).v (r o t).en ((r o t).trap.map (fun j => (.convertOverflow, BitVec.ofNat 64 j))))) ∧
  (∀ o : VScaleOps, LandsVector (.vscale o) o.g [(o.f, o.vd), (o.f, o.vs1), (o.f, o.vs2)] (fun t =>
      let r := trapRes (tyWidth o.ty) (t.rm o.f o.msel)
        (List.zipWith (fun a k => scaleResult o.ty o.rnd o.ovf a (signedOf (tyWidth o.ty) k))
          (lanesOf (t.rv o.f o.vs1) (tyWidth o.ty)) (lanesOf (t.rv o.f o.vs2) (tyWidth o.ty)))
      onWay t o.f.slot (.vreg o.f o.vd) 2 r.v r.en (r.trap.map (fun j => (.convertOverflow, BitVec.ofNat 64 j)))))

/-- R207 to R215: moves, broadcast, permutations, slides, selection, transfer between files, latch moves, lane extraction, compares and reductions
complete and send their results. Completes vmov, vxfer, vbcast, vperm, vshuf, vslide, vsel, vmovh, vlane, vcmp, vrsum, vrmax and vrmin. -/
def Obligations.VectorMoves : Prop :=
  (∀ o : V2L, LandsVector (.vmov o) o.g [(o.f, o.vd), (o.f, o.vs1)] (fun t =>
      onWay t o.f.slot (.vreg o.f o.vd) 1 (t.rv o.f o.vs1) (laneEn (t.rm o.f o.msel) 32) none)) ∧
  (∀ o : V2L, LandsVector (.vxfer o) o.g [(o.f, o.vd), (Machine.VFile.other o.f, o.vs1)] (fun t =>
      onWay t o.f.slot (.vreg o.f o.vd) 2 (t.rv (Machine.VFile.other o.f) o.vs1) (laneEn (t.rm o.f o.msel) 32) none)) ∧
  (∀ o : VBcastOps, LandsVector (.vbcast o) o.g [(o.f, o.vd)] (fun t =>
      lanesTo t o.f o.vd 2 (tyWidth o.ty) (t.rm o.f o.msel)
        (List.replicate (1024 / tyWidth o.ty) (lowBits (tyWidth o.ty) (t.vsS o.b))))) ∧
  (∀ o : V3T, LandsVector (.vperm o) o.g [(o.f, o.vd), (o.f, o.vs1), (o.f, o.vs2)] (fun t =>
      lanesTo t o.f o.vd 3 (tyWidth o.ty) (t.rm o.f o.msel) ((lanesOf (t.rv o.f o.vs2) (tyWidth o.ty)).map (fun x =>
        (lanesOf (t.rv o.f o.vs1) (tyWidth o.ty)).getD (x % (1024 / tyWidth o.ty)) 0)))) ∧
  (∀ o : V3T, LandsVector (.vshuf o) o.g [(o.f, o.vd), (o.f, o.vs1), (o.f, o.vs2)] (fun t =>
      lanesTo t o.f o.vd 3 (tyWidth o.ty) (t.rm o.f o.msel) ((lanesOf (t.rv o.f o.vs2) (tyWidth o.ty)).map (fun x =>
        (lanesOf (t.rv o.f o.vs1) (tyWidth o.ty) ++ lanesOf (t.rv o.f o.vd) (tyWidth o.ty)).getD (x % (2 * (1024 / tyWidth o.ty))) 0)))) ∧
  (∀ o : VSS, LandsVector (.vslide o) o.g [(o.f, o.vd), (o.f, o.vs1)] (fun t =>
      lanesTo t o.f o.vd 2 (tyWidth o.ty) (t.rm o.f o.msel) ((List.range (1024 / tyWidth o.ty)).map (fun (i : Nat) =>
        if 0 ≤ (i : Int) - t.vsS o.b ∧ (i : Int) - t.vsS o.b < (1024 / tyWidth o.ty : Nat) then
          (lanesOf (t.rv o.f o.vs1) (tyWidth o.ty)).getD ((i : Int) - t.vsS o.b).toNat 0 else 0)))) ∧
  (∀ o : VSelOps, LandsVector (.vsel o) o.g [(o.f, o.vd), (o.f, o.vs1), (o.f, o.vs2)] (fun t =>
      onWay t o.f.slot (.vreg o.f o.vd) 1 (blend (laneEn (t.rm o.f o.sel) 32) (t.rv o.f o.vs1) (t.rv o.f o.vs2))
        (laneEn (t.rm o.f o.msel) 32) none)) ∧
  (∀ (o : VMovhOps) s k, Issues s k → (s.strand k).guard o.g = true → Within (s.strand k) [(o.f, o.vd)] → (s.strand k).hsave = none →
    o.h < (s.strand k).nlatch → ((s.strand k).rh o.h).full = true → ((s.strand k).rh o.h).pend = none →
    exec (.vmovh o) s = .next ((landed s k (onWay (s.strand k) o.f.slot (.vreg o.f o.vd) 1 ((s.strand k).rh o.h).data
      (laneEn ((s.strand k).rm o.f o.msel) 32) none)).modStrand k
        (fun t => if o.keep then t else t.wh o.h { t.rh o.h with full := false }))) ∧
  (∀ o : VLaneOps, LandsVector (.vlane o) o.g [(o.f, o.vs1)] (fun t =>
      onWay t o.f.slot (.sreg o.sd) 3 ((extendTy o.ty ((lanesOf (t.rv o.f o.vs1) (tyWidth o.ty)).getD
        (t.vsU o.b % (1024 / tyWidth o.ty)) 0)).setWidth 1024) fullEn none)) ∧
  (∀ o : VCmpOps, LandsVector (.vcmp o) o.g [(o.f, o.vs1), (o.f, o.vs2)] (fun t =>
      let n := 1024 / tyWidth o.ty
      let low : Mask := BitVec.ofNat 128 (2 ^ n - 1)
      onWay t o.f.slot (.mask o.f o.md) 2 (BitVec.ofNat 1024 (packLanes 1 (List.zipWith (fun a b =>
        (if isIntTy o.ty then intCond o.cond (intOf o.ty a) (intOf o.ty b)
         else floatCond o.cond ((fmtOf o.ty).decode a) ((fmtOf o.ty).decode b)).toNat)
        (lanesOf (t.rv o.f o.vs1) (tyWidth o.ty)) (lanesOf (t.rv o.f o.vs2) (tyWidth o.ty)))))
        ((t.rm o.f o.msel &&& low) ||| ~~~low) none)) ∧
  (∀ o : V2T, ∀ i op l, (i, op, l) ∈ [(Instr.vrsum o, RedOp.sum, 10), (.vrmax o, .max, 6), (.vrmin o, .min, 6)] →
    LandsVector i o.g [(o.f, o.vd), (o.f, o.vs1)] (fun t =>
      let w := tyWidth o.ty
      let ls := lanesOf (t.rv o.f o.vs1) w
      onWay t o.f.slot (.vreg o.f o.vd) l (vecOf w (List.replicate (1024 / w) (treeReduce op o.ty (Nat.log2 (1024 / w))
        ((List.range ls.length).map (fun j => if governs (t.rm o.f o.msel) w j then some (ls.getD j 0) else none))))) fullEn none))

/-- R216: the mask operations send a mask, and MPOP the number of set bits, to their destination. Completes mand, mor, mxor, mnot and mpop. -/
def Obligations.MaskOperations : Prop :=
  (∀ o : MMM, ∀ (i : Instr) (op : Mask → Mask → Mask),
      (i = .mand o ∧ op = (fun a b => a &&& b)) ∨ (i = .mor o ∧ op = (fun a b => a ||| b)) ∨ (i = .mxor o ∧ op = (fun a b => a ^^^ b)) →
    LandsVector i o.g [] (fun t => onWay t o.f.slot (.mask o.f o.md) 1 ((op (t.rm o.f o.m1) (t.rm o.f o.m2)).setWidth 1024) fullEn none)) ∧
  (∀ o : MM, LandsVector (.mnot o) o.g [] (fun t => onWay t o.f.slot (.mask o.f o.md) 1 ((~~~(t.rm o.f o.m1)).setWidth 1024) fullEn none)) ∧
  (∀ o : MPopOps, LandsVector (.mpop o) o.g [] (fun t => onWay t o.f.slot (.sreg o.sd) 2
    ((BitVec.ofNat 64 (((List.range 128).filter (fun j => (t.rm o.f o.m1).getLsbD j)).length)).setWidth 1024) fullEn none))

/-- R58: of a vector register's 1024 / w lanes, a result that is masked by m when it was issued gives lane i where bit i of m is set (for
4-bit types bit i / 2), and every other lane keeps the value it held before the landing (w one of 4, 8, 16, 32 and 64). -/
def Obligations.LanesLand : Prop :=
  ∀ (t u : Strand) (f : VFile) (vd w i : Nat) (ls : List Nat) (m : Mask), w ∈ [4, 8, 16, 32, 64] → i < 1024 / w → ls.length = 1024 / w →
    (∀ x ∈ ls, x < 2 ^ w) →
    (lanesOf ((t.landReg (lanesTo u f vd 1 w m ls)).rv f vd) w).getD i 0 =
      if m.getLsbD (if w = 4 then i / 2 else i) then ls.getD i 0 else (lanesOf (t.rv f vd) w).getD i 0

/-- R51, R52, R77: an operation of a vector slot, of any guard and outside a handler, that names a vector register beyond the allocation of its
file, a source or its destination, takes the REG_RANGE trap with its syllable in FVAL and its slot in TSLOT, and lands nothing. Of VMOVH, with
a latch that is full. -/
def Obligations.RegRangeTrap : Prop :=
  ∀ (i : Instr) (f : VFile) (rs : List (VFile × Nat)) s k, vecRegs i = some (f, rs) → Issues s k → (s.strand k).hsave = none →
    (∃ r ∈ rs, 32 * (s.strand k).granules r.1 ≤ r.2) → (∀ o, i = .vmovh o → ((s.strand k).rh o.h).full = true) →
    exec i s = .next (s.takeTrap k ⟨.regRange, syllableOf i, (s.strand k).bun.addr, 2 ^ f.slot.bit⟩ false)
/-! ## Matrix unit -/

/-- R236, R245, R250 to R253, R256: every queued matrix operation that is clear to issue completes by entering the queue with the words it captures at
issue; it starts two issue cycles later at the earliest and not before the operations queued earlier have ended. Completes mcallMma, mcallMmat,
mcallMmab, mcallSplit, mcallSlmma, mcallFold, mcallTrans, mcallMcopy, mlds, mplane, mclr and mnorm. -/
def Obligations.MatrixQueueing : Prop :=
  (∀ (o : McallOps) s k i kind, (i, kind) ∈ [(Instr.mcallMma o, MKind.mma), (.mcallMmat o, .mmat), (.mcallMmab o, .mmab),
      (.mcallSplit o, .split), (.mcallSlmma o, .slmma), (.mcallFold o, .fold), (.mcallTrans o, .trans), (.mcallMcopy o, .mcopy)] →
    Issues s k → (opMcall i kind o s).Clear (s.strand k) →
    ∃ t op, exec i s = .next t ∧ (t.strand k).mq = (s.strand k).mq ++ [op] ∧ op.kind = kind ∧ op.t = o.t.toNat ∧ op.mp = o.mp ∧
      op.par = parWords (s.strand k) kind o.mp ∧ op.fmt = (s.strand k).format ∧
      (s.strand k).icyc + 2 ≤ op.start ∧ (∀ p ∈ (s.strand k).mq, p.ends ≤ op.start) ∧
      t.mem = s.mem ∧ (∀ r, (t.strand k).rs r = (s.strand k).rs r) ∧ (t.strand k).tiles = (s.strand k).tiles) ∧
  (∀ (o : MldsOps) s k, Issues s k → (opMlds o s).Clear (s.strand k) →
    ∃ t op, exec (.mlds o) s = .next t ∧ (t.strand k).mq = (s.strand k).mq ++ [op] ∧
      op.kind = .mlds o.plane o.row ((s.strand k).rv o.fl o.vr) ∧ (s.strand k).icyc + 2 ≤ op.start ∧
      (∀ p ∈ (s.strand k).mq, p.ends ≤ op.start) ∧ t.mem = s.mem) ∧
  (∀ (o : MplaneOps) s k, Issues s k → (opMplane o s).Clear (s.strand k) →
    ∃ t op, exec (.mplane o) s = .next t ∧ (t.strand k).mq = (s.strand k).mq ++ [op] ∧ op.kind = .mplane o.plane o.tile ∧
      op.opnds = [(s.strand k).layEntry o.le] ∧ (s.strand k).icyc + 2 ≤ op.start ∧ (∀ p ∈ (s.strand k).mq, p.ends ≤ op.start) ∧
      t.mem = s.mem) ∧
  (∀ (o : MtOps) s k i kind, (i, kind) ∈ [(Instr.mclr o, MKind.mclr), (.mnorm o, .mnorm)] →
    Issues s k → (opMtile i kind o s).Clear (s.strand k) →
    ∃ t op, exec i s = .next t ∧ (t.strand k).mq = (s.strand k).mq ++ [op] ∧ op.kind = kind ∧ op.t = o.t.toNat ∧
      (s.strand k).icyc + 2 ≤ op.start ∧ (∀ p ∈ (s.strand k).mq, p.ends ≤ op.start) ∧ t.mem = s.mem ∧
      (t.strand k).tiles = (s.strand k).tiles)

/-- R251, R254, R255, R257, R258: MPAR, MRD, MWR, MFMT and MSTAT complete by sending one result. Completes mpar, mrd, mwr, mfmt and mstat. -/
def Obligations.MatrixTransfers : Prop :=
  (∀ o : MparOps, LandsVector (.mpar o) o.g [] (fun t => onWay t .mx (.mpShadow o.mp) 1 ((t.rs o.ss).setWidth 1024) fullEn none)) ∧
  (∀ (o : MrwOps) s k, Issues s k → (opMrd o s).Clear (s.strand k) →
    exec (.mrd o) s = .next (landed s k (onWay (s.strand k) .mx (.vreg o.fl o.vr) 8
      ((s.strand k).bandRead o.t.toNat o.row o.seg o.raw (s.strand k).rofmt).1 fullEn
      ((s.strand k).bandRead o.t.toNat o.row o.seg o.raw (s.strand k).rofmt).2))) ∧
  (∀ (o : MrwOps) s k, Issues s k → (opMwr o s).Clear (s.strand k) →
    exec (.mwr o) s = .next (landed s k (onWay (s.strand k) .mx (.band o.t.toNat o.row o.seg o.raw (s.strand k).rofmt) 8
      ((s.strand k).rv o.fl o.vr) fullEn none))) ∧
  (∀ (o : MfmtOps) s k, Issues s k → (opMfmt o s).Clear (s.strand k) →
    exec (.mfmt o) s = .next (landed s k (onWay (s.strand k) .mx .rofmt 1 ((storeGet 0 (s.strand k).ftab o.k).setWidth 1024) fullEn none))) ∧
  (∀ o : MstatOps, LandsVector (.mstat o) o.g [] (fun t => onWay t .mx (.sreg o.ss) 2 ((mstatValue t o.sel).setWidth 1024) fullEn none))

/-! ## Loads, stores and atomics -/

/-- R134, R127: LDS, LDV and LDVG that are clear to issue complete: they read core scratch at issue and send the value to their register
after 6 issue cycles; one whose misaligned access the device OS has made sends the value that it kept. Nothing else changes, no byte of
memory among it. That the device OS makes a misaligned access at the save and keeps the load's value for the resumed issue is the model's
means, log entry 69. Completes lds, ldv and ldvg, in both forms. -/
def Obligations.LoadsComplete : Prop :=
  (∀ (o : LdOps) s k, Issues s k → (opLds o s).Clear (s.strand k) →
    ((s.strand k).emulated .ld = false →
      exec (.lds o) s = .next (landed s k { onWay (s.strand k) .ld (.sreg o.d) 6 (ldsVal s (s.strand k) (ldsAcc (s.strand k) o)) fullEn none with
        poison := corePoison s (s.strand k) (ldsAcc (s.strand k) o).els })) ∧
    ((s.strand k).emulated .ld = true →
      exec (.lds o) s = .next (landed s k (onWay (s.strand k) .ld (.sreg o.d) 6 (s.strand k).emuData fullEn none)))) ∧
  (∀ (o : LdvOps) s k, Issues s k → (opLdv o s).Clear (s.strand k) →
    ((s.strand k).emulated .ld = false →
      exec (.ldv o) s = .next (landed s k { onWay (s.strand k) .ld (.vreg o.fl o.d) 6
        (coreVec s (s.strand k) (ldvAcc (s.strand k) o).els) fullEn none with
        poison := corePoison s (s.strand k) (ldvAcc (s.strand k) o).els })) ∧
    ((s.strand k).emulated .ld = true →
      exec (.ldv o) s = .next (landed s k (onWay (s.strand k) .ld (.vreg o.fl o.d) 6 (s.strand k).emuData fullEn none)))) ∧
  (∀ (o : LdvgOps) s k, Issues s k → (opLdvg o s).Clear (s.strand k) →
    ((s.strand k).emulated .ld = false →
      exec (.ldvg o) s = .next (landed s k { onWay (s.strand k) .ld (.vreg o.fl o.d) 6
        (coreVec s (s.strand k) (ldvgAcc (s.strand k) o).els) fullEn none with
        poison := corePoison s (s.strand k) (ldvgAcc (s.strand k) o).els })) ∧
    ((s.strand k).emulated .ld = true →
      exec (.ldvg o) s = .next (landed s k (onWay (s.strand k) .ld (.vreg o.fl o.d) 6 (s.strand k).emuData fullEn none))))

/-- R135, R143, R142, R141, R145: LDH, the atomics, VRED outside core scratch or behind an .ACQ, and the stores outside core scratch that write a byte complete by
making one request with the elements located at issue; a return latch is bound; no byte of memory and no register changes. A store or a VRED
of core scratch is on its way for the next issue cycle, and one that writes no byte, or that the device OS has made, changes nothing;
that it makes a misaligned access at the save, byte by byte, is the model's means, log entry 69. Completes ldh, aadd, aaddf, amin, amax, aand, aor, axor, aswp, acas, vred, sts, stv, stvs, stvm and stvh. -/
def Obligations.RequestsMade : Prop :=
  (∀ (o : LdOps) s k, Issues s k → (opLdh o s).Clear (s.strand k) →
    ∃ t q, exec (.ldh o) s = .next t ∧ (t.strand k).reqs = (s.strand k).reqs ++ [q] ∧ q.kind = .load ∧ q.id = s.nextId ∧
      q.latch = some o.d ∧ q.space = ((s.strand k).layOf o.le).space ∧
      (t.strand k).rh o.d = { (s.strand k).rh o.d with full := false, pend := some s.nextId, lost := false } ∧
      t.mem = s.mem ∧ (∀ r, (t.strand k).rs r = (s.strand k).rs r)) ∧
  (∀ (o : AtomOps) s k i op, (i, op) ∈ [(Instr.aadd o, AOp.add), (.aaddf o, .addf), (.amin o, .min), (.amax o, .max), (.aand o, .and),
      (.aor o, .or), (.axor o, .xor), (.aswp o, .swp), (.acas o, .cas)] →
    Issues s k → (opAtomic i op o s).Clear (s.strand k) →
    ∃ t q, exec i s = .next t ∧ (t.strand k).reqs = (s.strand k).reqs ++ [q] ∧ q = atomReq (s.strand k) op o s.nextId ∧
      (∀ h, o.hl = some h → (t.strand k).rh h = { (s.strand k).rh h with full := false, pend := some s.nextId, lost := false }) ∧
      (t.strand k).lastAcq = (if o.acq then some s.nextId else (s.strand k).lastAcq) ∧ t.mem = s.mem ∧
      (∀ r, (t.strand k).rs r = (s.strand k).rs r)) ∧
  (∀ (o : StvOps) s k, Issues s k → (opVred o s).Clear (s.strand k) → ((s.strand k).layOf o.le).space = 0 →
    acqBefore (s.strand k) s.nextId = false →
    exec (.vred o) s = .next (landed s k (onWay (s.strand k) .st (.coreRed ((s.strand k).layOf o.le).ty
      ((vecData (vredAcc (s.strand k) o).els ((s.strand k).rv o.fl o.d)).map (fun e => (e.1.phys, e.2)))) 1 0 fullEn none))) ∧
  (∀ (o : StvOps) s k, Issues s k → (opVred o s).Clear (s.strand k) →
    ((s.strand k).layOf o.le).space ≠ 0 ∨ acqBefore (s.strand k) s.nextId = true →
    ∃ t q, exec (.vred o) s = .next t ∧ (t.strand k).reqs = (s.strand k).reqs ++ [q] ∧
      q.kind = .vred ((s.strand k).layOf o.le).ty ∧ q.id = s.nextId ∧ t.mem = s.mem ∧ (∀ r, (t.strand k).rs r = (s.strand k).rs r)) ∧
  (∀ (s : State) k i m data h hidx,
    (∃ o : StOps, i = .sts o ∧ m = stsAcc (s.strand k) o ∧ data = scalarData m.els ((s.strand k).rs o.d) ∧ h = o.h ∧ hidx = o.hidx ∧
      (opSts o s).Clear (s.strand k)) ∨
    (∃ o : StvOps, i = .stv o ∧ m = stvAcc (s.strand k) o ∧ data = vecData m.els ((s.strand k).rv o.fl o.d) ∧ h = o.h ∧ hidx = o.hidx ∧
      (opStv o s).Clear (s.strand k)) ∨
    (∃ o : StvOps, i = .stvs o ∧ m = stvsAcc (s.strand k) o ∧ data = vecData m.els ((s.strand k).rv o.fl o.d) ∧ h = o.h ∧ hidx = o.hidx ∧
      (opStvs o s).Clear (s.strand k)) ∨
    (∃ o : StvmOps, i = .stvm o ∧ m = stvmAcc (s.strand k) o ∧ data = vecData m.els ((s.strand k).rv o.fl o.d) ∧ h = o.h ∧ hidx = o.hidx ∧
      (opStvm o s).Clear (s.strand k)) ∨
    (∃ o : StOps, i = .stvh o ∧ m = stvhAcc (s.strand k) o ∧ data = vecData m.els ((s.strand k).rh o.d).data ∧ h = o.h ∧ hidx = o.hidx ∧
      (opStvh o s).Clear (s.strand k)) →
    Issues s k →
    ((s.strand k).emulated .st = true ∨ m.els = [] → exec i s = .next s) ∧
    ((s.strand k).emulated .st = false → m.els ≠ [] → m.lay.space = 0 →
      exec i s = .next (landed s k (onWay (s.strand k) .st (.core (coreCells data)) 1 0 fullEn none))) ∧
    ((s.strand k).emulated .st = false → m.els ≠ [] → m.lay.space ≠ 0 →
      ∃ t q, exec i s = .next t ∧ (t.strand k).reqs = (s.strand k).reqs ++ [q] ∧ q.kind = .store ∧ q.id = s.nextId ∧
        q.els = reqEls false data ∧ q.hnd = (if h then some hidx else none) ∧ t.mem = s.mem ∧
        (∀ r, (t.strand k).rs r = (s.strand k).rs r) ∧
        storeGet 0 (t.strand k).allowOut m.lay.win = storeGet 0 (s.strand k).allowOut m.lay.win +
          (if m.lay.space = 4 then winUnits (reqEls false data) else 0)))

/-- R79, R140, R150: a store of cells to core scratch that lands writes each cell's byte at its offset in the strand's region and no other
byte of memory; of several cells at one offset the last counts. -/
def Obligations.CoreStoreLands : Prop :=
  ∀ (s : State) (k : Nat) (cells : List Host.Cell) (a : Nat),
    (s.landOne k (onWay (s.strand k) .st (.core cells) 0 0 fullEn none)).byte a =
      match (cells.reverse.find? (fun c => s.scratchAddr (s.strand k) 0 c.1 == a)) with
      | some c => c.2
      | none => s.byte a

/-- R121, R117: a store of any of the five forms, of registers or a latch that it may name, whose layout entry is malformed takes the
LAYOUT_BOUNDS trap with reason 6. It stores nothing: the strand has no request and no result on its way that it did not have, and where the
cause is not delegated no byte of memory changes. -/
def Obligations.MalformedLayoutTraps : Prop :=
  ∀ (s : State) k i g le, Issues s k → (s.strand k).guard g = true → (s.strand k).emulated .st = false →
    ((s.strand k).layOf le).bad = true →
    (∃ o : StOps, i = .sts o ∧ g = o.g ∧ le = o.le) ∨
    (∃ o : StvOps, (i = .stv o ∨ i = .stvs o) ∧ g = o.g ∧ le = o.le ∧ Within (s.strand k) [(o.fl, o.d)]) ∨
    (∃ o : StvmOps, i = .stvm o ∧ g = o.g ∧ le = o.le ∧ Within (s.strand k) [(o.fl, o.d)]) ∨
    (∃ o : StOps, i = .stvh o ∧ g = o.g ∧ le = o.le ∧ o.d < (s.strand k).nlatch ∧
      (((s.strand k).rh o.d).full = true ∨ ((s.strand k).rh o.d).pend.isSome = true)) →
    let t := s.takeTrap k ⟨.layoutBounds, layFval (6, 0), (s.strand k).bun.addr, 2 ^ Slot.bit .st⟩ false
    exec i s = .next t ∧ (t.strand k).reqs = (s.strand k).reqs ∧ (t.strand k).inflight = (s.strand k).inflight ∧
      ((∀ r, (s.ctx (s.strand k).die (s.strand k).tcid).deleg.entry = some r → r.dmask.getLsbD Cause.layoutBounds.code = false) → t.mem = s.mem)

/-- R137, R138: a TMOV that is clear to issue enters its core's queue as an engine operation of its strand and clears its flag. Completes tmov. -/
def Obligations.TileMoveQueued : Prop :=
  ∀ (o : TmovOps) s k, Issues s k → (opTmov o s).Clear (s.strand k) →
    ∃ t q, exec (.tmov o) s = .next t ∧ (t.core (s.strand k).core).tmq = (s.core (s.strand k).core).tmq ++ [q] ∧
      q.id = s.nextId ∧ q.sid = k ∧ q.flag = o.fg ∧ q.fence = (s.strand k).fence ∧
      (t.strand k).engOps = (s.strand k).engOps ++ [s.nextId] ∧
      (∃ e, (t.strand k).inflight = (s.strand k).inflight ++ [e] ∧ e.dest = .flag o.fg ∧ e.data = 0 ∧ e.rem = 1) ∧
      (∀ r, (t.strand k).rs r = (s.strand k).rs r)

/-- R303, R304, R307, R308, R314: CJOB, CWAIT, CPOLL, CKILL, CSEND, CRED and CBELL that are clear to issue complete by entering their
core's queue with what they read at issue (a card is read in the next issue cycle); a latch that they name is bound and a flag that they
name clears; no byte of memory and no register changes. Completes cjob, cwait, cpoll, ckill, csend, cred and cbell. -/
def Obligations.EngineOperationsQueued : Prop :=
  (∀ (o : CjobOps) s k, Issues s k → (opCjob o s).Clear (s.strand k) →
    ∃ t, exec (.cjob o) s = .next t ∧
      (let l := (s.strand k).layOf o.le
       let c : C4 := ⟨((s.strand k).rs o.sa).toNat, 0, 0, 0⟩
       CeQueued s t k (.job [] ((s.strand k).icyc + 1) (l.phys (l.off c) c) o.hl o.fg (s.strand k).prioCeil)) ∧
      LatchBound s t k o.hl ∧ FlagClears s t k o.fg ∧ KeepsData s t k) ∧
  (∀ (o : ChOps) s k, Issues s k → (s.strand k).guard o.g = true → o.hl < (s.strand k).nlatch → (s.core (s.strand k).core).ceq.length < 16 →
    latchStallFull s (s.strand k) = false →
    (∃ t, exec (.cwait o) s = .next t ∧ CeQueued s t k (.wait (((s.strand k).rs o.sa).toNat % 65536) o.hl) ∧ LatchBound s t k o.hl ∧
      KeepsData s t k) ∧
    (∃ t, exec (.cpoll o) s = .next t ∧ CeQueued s t k (.poll (((s.strand k).rs o.sa).toNat % 65536) o.hl) ∧ LatchBound s t k o.hl ∧
      KeepsData s t k)) ∧
  (∀ (o : CkillOps) s k, Issues s k → (s.strand k).guard o.g = true → (s.core (s.strand k).core).ceq.length < 16 →
    ∃ t, exec (.ckill o) s = .next t ∧ CeQueued s t k (.kill (((s.strand k).rs o.sa).toNat % 65536)) ∧ KeepsData s t k) ∧
  (∀ (o : CfragOps) s k, Issues s k → (opFrag (.csend o) o false s).Clear (s.strand k) →
    ∃ t, exec (.csend o) s = .next t ∧
      (let l := (s.strand k).layOf o.le
       let c : C4 := ⟨((s.strand k).rs o.sa).toNat, 0, 0, 0⟩
       CeQueued s t k (.send [(l.space, l.phys (l.off c) c, 128 * (o.len + 1))] ((s.strand k).rs o.sb) (o.len + 1) o.fg)) ∧
      FlagClears s t k o.fg ∧ KeepsData s t k) ∧
  (∀ (o : CfragOps) s k, Issues s k → (opFrag (.cred o) o true s).Clear (s.strand k) →
    ∃ t, exec (.cred o) s = .next t ∧
      (let l := (s.strand k).layOf o.le
       let c : C4 := ⟨((s.strand k).rs o.sa).toNat, 0, 0, 0⟩
       CeQueued s t k (.red [(l.space, l.phys (l.off c) c, 128 * (o.len + 1))] ((s.strand k).rs o.sb) o.op o.tag (o.len + 1) o.fg)) ∧
      FlagClears s t k o.fg ∧ KeepsData s t k) ∧
  (∀ (o : CbellOps) s k, Issues s k → (opCbell o s).Clear (s.strand k) →
    ∃ t, exec (.cbell o) s = .next t ∧
      CeQueued s t k (.bell (((s.strand k).rs o.sa).toNat % 2 ^ 32) ((s.strand k).rs o.sb) o.loc o.win o.sqid) ∧ KeepsData s t k)
/-! ## Pilot engine -/

/-- R401, R403: on a lane that runs a program and is in no loop, the arithmetic and logic instructions write their result, taken mod 2^64, to bd and
go on at the next instruction; nothing else in the package changes. Completes pilotAdd, pilotSub, pilotAnd, pilotOr, pilotXor, pilotMul, pilotShl,
pilotShr, pilotAddi, pilotAndi, pilotOri and pilotLi. -/
def Obligations.PilotArithmetic : Prop :=
  ∀ s : State, s.lane.stage = .run → s.lane.loops = [] →
    (∀ (o : PR) (i : Instr) (f : Word → Word → Word),
      (i = .pilotAdd o ∧ f = (fun a b => a + b)) ∨ (i = .pilotSub o ∧ f = (fun a b => a - b)) ∨ (i = .pilotAnd o ∧ f = (fun a b => a &&& b)) ∨
        (i = .pilotOr o ∧ f = (fun a b => a ||| b)) ∨ (i = .pilotXor o ∧ f = (fun a b => a ^^^ b)) ∨ (i = .pilotMul o ∧ f = (fun a b => a * b)) →
      exec i s = .next (s.modLane (fun l => { l with b := storePut 0 l.b o.d (f (l.r o.a) (l.r o.b)), pc := l.pc + 1 }))) ∧
    (∀ (o : PI) (i : Instr) (f : Word → Word),
      (i = .pilotShl o ∧ f = (fun a : Word => a <<< (o.imm % 64))) ∨ (i = .pilotShr o ∧ f = (fun a : Word => a >>> (o.imm % 64))) ∨
        (i = .pilotAddi o ∧ f = (fun a : Word => a + (BitVec.ofNat 20 o.imm).signExtend 64)) ∨
        (i = .pilotAndi o ∧ f = (fun a : Word => a &&& (BitVec.ofNat 20 o.imm).setWidth 64)) ∨
        (i = .pilotOri o ∧ f = (fun a : Word => a ||| (BitVec.ofNat 20 o.imm).setWidth 64)) →
      exec i s = .next (s.modLane (fun l => { l with b := storePut 0 l.b o.d (f (l.r o.a)), pc := l.pc + 1 }))) ∧
    (∀ o : PLi, exec (.pilotLi o) s =
      .next (s.modLane (fun l => { l with b := storePut 0 l.b o.d ((BitVec.ofNat 20 o.imm).signExtend 64), pc := l.pc + 1 })))

/-- R401: LDM reads the bytes at the effective offset, zero-extended; STM writes the low bytes of its register there, in queue scratch and in the QWS
block. Completes ldm and stm. -/
def Obligations.PilotMemory : Prop :=
  ∀ (s : State) (o : PM), s.lane.stage = .run → s.lane.loops = [] → o.w ≤ 3 →
    (s.lane.pkt.length % 64 = 0 ∧ 0 < s.lane.pkt.length ∧ s.lane.qcbv.length = 64 ∧ s.lane.scr.length = 1024 ∧ s.lane.qws.length = 64) →
    (let at_ := ((s.lane.r o.a).toNat + o.off) % (s.lane.space o.sp).length / 2 ^ o.w * 2 ^ o.w
     at_ + 2 ^ o.w ≤ (s.lane.space o.sp).length ∧
     exec (.ldm o) s = .next (s.modLane (fun l =>
       { l with b := storePut 0 l.b o.d (BitVec.ofNat 64 (leNat (((l.space o.sp).drop at_).take (2 ^ o.w)))), pc := l.pc + 1 })) ∧
     (o.sp = 2 → exec (.stm o) s = .next (s.modLane (fun l =>
       { l with scr := l.scr.take at_ ++ leBytes (2 ^ o.w) (l.r o.d).toNat ++ l.scr.drop (at_ + 2 ^ o.w), pc := l.pc + 1 }))) ∧
     (o.sp = 3 → exec (.stm o) s = .next (s.modLane (fun l =>
       { l with qws := l.qws.take at_ ++ leBytes (2 ^ o.w) (l.r o.d).toNat ++ l.qws.drop (at_ + 2 ^ o.w), pc := l.pc + 1 }))))

/-- R403: the branches compare unsigned and go to pc + OFF when taken, else to pc + 1; LOOP enters its body with its count. Completes beq, bne, bltu,
bgeu and loop. -/
def Obligations.PilotControl : Prop :=
  ∀ s : State, s.lane.stage = .run → s.lane.loops = [] →
    (∀ (o : PB) (i : Instr) (p : Word → Word → Bool),
      (i = .beq o ∧ p = (fun a b => decide (a = b))) ∨ (i = .bne o ∧ p = (fun a b => decide (a ≠ b))) ∨
        (i = .bltu o ∧ p = (fun a b => decide (a.toNat < b.toNat))) ∨ (i = .bgeu o ∧ p = (fun a b => decide (b.toNat ≤ a.toNat))) →
      exec i s = .next (s.modLane (fun l => { l with pc := if p (l.r o.a) (l.r o.b) then l.pc + o.off else l.pc + 1 }))) ∧
    (∀ o : PL, exec (.loop o) s = .next (s.modLane (fun l =>
      if o.len = 0 then { l with pc := l.pc + 1 }
      else { l with pc := l.pc + 1, loops := [(l.pc + 1, l.pc + o.len, o.n + 1)] })))

/-- R403: a body of one instruction under a LOOP of count n runs n + 1 times: after the body's last instruction the lane goes back n times
and then goes on behind the body, out of the loop. -/
def Obligations.PilotLoopCount : Prop :=
  ∀ (l : Lane) (a e n : Nat), l.pc = e → l.loops = [(a, e, n + 1)] →
    (0 < n → l.seqNext.pc = a ∧ l.seqNext.loops = [(a, e, n)]) ∧
    (n = 0 → l.seqNext.pc = e + 1 ∧ l.seqNext.loops = [])

/-- R400, R403, R404: an emit or a DROP ends the program of its entry with what it names; on a lane that runs no program every pilot instruction
changes nothing. Completes emitLaunch, emitCopy, emitBell and drop. -/
def Obligations.PilotEnds : Prop :=
  (∀ (s : State), s.lane.stage = .run →
    (∀ a, exec (.emitLaunch a) s = .next (s.modLane (fun l => { l with emit := .launch ((l.r a).toNat % 2 ^ 48), stage := .scratch })) ∧
      exec (.emitCopy a) s = .next (s.modLane (fun l => { l with emit := .copy ((l.r a).toNat % 2 ^ 48), stage := .scratch }))) ∧
    (∀ o : PBell, exec (.emitBell o) s =
      .next (s.modLane (fun l => { l with emit := .bell o.sqid ((l.r o.a).toNat % 2 ^ 32) (l.r o.b), stage := .scratch }))) ∧
    (∀ c, exec (.drop c) s = .next (s.modLane (fun l => { l with emit := .drop (c % 256), stage := .scratch })))) ∧
  (∀ (s : State) (i : Instr), s.lane.stage ≠ .run → isPilot i = true → exec i s = .next s)

/-! ## Steps -/

/-- A step runs the decoded instruction: an event of the agenda that acts at no die for which no behaviour is stated is made by exec; a lane
that runs a program makes exec of the instruction that the word at its pc decodes to; a core whose strand owes nothing begins an issue cycle
and issues the bundle that its image's words decode to at its position (a PARK bundle once its stop test is made); a core that is not above the
last one that had its turn in the clock cycle has its turn in the next cycle of its die (log entry 15); and a bundle of one
operation that meets no condition, does not stall, and finds its tokens and its core-scratch banks is that operation's exec, with the bundle
named, its reads counted, its tail still to come, and the end of the issue cycle after it. The turns of the agenda and of an empty agenda are
log entry 15, the tokens log entry 64, the banks log entry 70 and the dies without behaviour log entry 18. -/
def Obligations.StepRunsDecoded : Prop :=
  (∀ (s : State) i r, s.agenda = .event i :: r → isEvent i = true → i ≠ .powerLoss → i ≠ .powerGood → s.stuck = none →
    (s.eventDies i).any s.isVoid = false → (∃ d < 8, (s.die d).void = false) → step s = exec i { s with agenda := r }) ∧
  (∀ (s : State) d l r w i, s.agenda = .lane d l :: r → s.stuck = none → (s.die d).void = false →
    (storeGet Lane.reset (s.die d).lanes l).stage = .run →
    (storeGet Lane.reset (s.die d).lanes l).prog[(storeGet Lane.reset (s.die d).lanes l).pc]? = some w → decodePilot w = some i →
    step s = exec i { s with agenda := r, laneDie := d, laneNum := l }) ∧
  (∀ (s : State) k b, s.agenda = [] → s.stuck = none → (s.die (s.cur / 64)).void = false →
    (∀ x, (s.die (s.cur / 64)).lastTurn = some x → x < s.cur) → (s.core s.cur).frozen = false →
    s.self = some k → (s.strand k).st ≠ .retiring → (s.strand k).drain = none → (s.strand k).causes = [] → (s.strand k).residue = 0 →
    (s.strand k).hndDue = false → decodeBundle (s.imageWords (s.strand k)) (s.strand k).pos = .ok b →
    (b.hdr.park = false ∨ (s.strand k).tested = true) →
    let a := s.modDie (s.cur / 64) (fun d => { d with lastTurn := some s.cur })
    let u := ({ a with mode := .whole, found := [], stall := false } : State).beginCycle k
    canSkip (u.strand k) b = false → (u.strand k).atLimit = false → step s = u.issueBundle exec k b) ∧
  (∀ (s : State) x, s.agenda = [] → s.stuck = none → (s.die (s.cur / 64)).void = false → (s.die (s.cur / 64)).lastTurn = some x → s.cur ≤ x →
    step s = ((s.dieCycle (s.cur / 64)).modDie (s.cur / 64) (fun d => { d with lastTurn := some s.cur })).coreCycle exec s.cur) ∧
  (∀ (s : State) k b x i, b.syls = [x] → x.op = .ok i →
    let n := s.nameBundle k b
    let p := n.payTokens k (bundleTokens n k b)
    let ds := bundleDemands (n.strand k) b
    (n.checkOps exec b).found = [] → (n.checkOps exec b).stall = false → p.1 = true → spinOf (n.strand k) b = none →
    bankStalls (ds ++ n.cardDemands k) ≤ (n.core (n.strand k).core).bank →
    s.issueBundle exec k b =
      match exec i { (p.2.countBundle k b).header k 0 with mode := .whole } with
      | .next t => .next ((t.modStrand k (fun t => { t with eres := b.hdr.erun })).issued k b ds.eraseDups.length)
      | .fault f => .fault f
      | .refused x => .refused x)
/-! ## Events of cores, clocks and strands -/

/-- R49, R163, R79, R177, R245, R238, R268, R236: EMPTY_BUNDLE, after its stop test when PARK is set and unless that parks the strand, makes
its empty cycles due and nothing else; an empty issue cycle takes one folded cycle, or else one of a transfer, and where nothing is in
flight it changes nothing else of the strand but its counts, and no byte of memory; a result that is due lands; at the limit RUN_LIMIT is
taken; an operation that starts makes its words the active copies; what is due in the chain leaves it, and an error found in an element of
the accumulator is a cause with its coordinates in FVAL and is reported; complete operations leave the queue. When an operation is complete is log entry 66, the report log entry 41 and the bundle of the error log
entry 88. Completes emptyBundle, emptyIssueCycle, resultLand, runLimit, mxOpStart, mxCommit and mxOpEnd. -/
def Obligations.CoreEvents : Prop :=
  (∀ (s : State) k o, s.self = some k →
    let u := if o.park then s.stopTest k else s
    ((u.strand k).drain = none →
      exec (.emptyBundle o) s = .next (u.modStrand k (fun t => { t with
        tested := false, eres := o.erun, next := .eval t.bun.succ (if t.bun.ends then some (lineOf t.bun.addr) else none) }))) ∧
    ((u.strand k).drain ≠ none → exec (.emptyBundle o) s = .next u) ∧
    ((s.strand k).hsave = none → stopPending (s.strand k) (s.ctx (s.strand k).die (s.strand k).tcid) = false →
      s.stopTest k = s.modStrand k (fun t => { t with runCount := 0 }))) ∧
  (∀ (s : State) c k, s.issuer c = some k → (s.strand k).st = .issuing → (s.strand k).drain = none → 0 < (s.strand k).residue →
    (s.strand k).causes = [] →
    let u := s.beginCycle k
    ((u.strand k).atLimit = false →
      exec (.emptyIssueCycle c) s = .next (((u.modStrand k (fun t =>
        if 0 < t.eres then { t with eres := t.eres - 1 } else { t with bres := t.bres - 1 })).countCycle k true).endCycle k)) ∧
    ((s.strand k).atLimit = false → 2 ≤ (s.strand k).residue → (s.strand k).skipped = false → (s.strand k).inflight = [] →
      (s.strand k).mq = [] → (s.strand k).chain = [] → (s.strand k).accBad = [] →
      ∃ t, exec (.emptyIssueCycle c) s = .next t ∧ t.mem = s.mem ∧
        t.strand k = { s.strand k with
          icyc := (s.strand k).icyc + 1, runCount := (s.strand k).runCount + 1, skipped := false, resumed := false, tokPaid := []
          eres := (s.strand k).eres - 1, bres := if 0 < (s.strand k).eres then (s.strand k).bres else (s.strand k).bres - 1 })) ∧
  (∀ (s : State) c k e n, s.issuer c = some k → (s.strand k).inflight = [e] → e.rem = 0 → e.dest = .sreg n → e.trap = none →
    e.poison = false →
    exec (.resultLand c) s = .next (s.modStrand k (fun t => { t.ws n (e.data.setWidth 64) with inflight := [] }))) ∧
  (∀ (s : State) c k, s.issuer c = some k →
    let u := s.beginCycle k
    let t := u.strand k
    t.st = .issuing → t.drain = none → t.causes = [] → t.atLimit = true →
    (0 < t.residue ∨ (t.hndDue = false ∧
      ∀ b, decodeBundle (u.imageWords t) t.pos = .ok b → canSkip t b = false ∧ (b.hdr.park = true → t.tested = true))) →
    exec (.runLimit c) s =
      .next ((u.modStrand k (fun t => { t with pos := u.duePos k })).takeTrap k
        ⟨.runLimit, BitVec.ofNat 64 t.imaxrun, if 0 < t.eres then t.bun.addr else u.duePos k, 0⟩ false)) ∧
  (∀ (s : State) c k o, s.issuer c = some k → (s.strand k).mq.filter (fun x => x.start == (s.strand k).icyc) = [o] →
    ∃ t, exec (.mxOpStart c) s = .next t ∧ (∀ j, j ≠ k → t.strand j = s.strand j) ∧ t.mem = s.mem ∧
      (∀ i < o.par.length, storeGet 0 (t.strand k).mpActive (o.mp + i) = o.par.getD i 0)) ∧
  (∀ (s : State) c k o e, s.issuer c = some k → (s.strand k).mq = [o] → (s.strand k).chain = [e] → e.due = (s.strand k).icyc →
    e.op = o.id → o.start + 8 ≠ (s.strand k).icyc →
    exec (.mxCommit c) s = .next (s.modStrand k (fun t => commitOne { t with chain := [] } o.kind e))) ∧
  (∀ (s : State) c k a, s.issuer c = some k → (s.strand k).skipped = true → (s.strand k).mq = [] →
    a.1 < (s.strand k).ntile → a.2.1 < 128 → a.2.2 < 128 →
    let t := s.accError c a
    ∃ p, (t.strand k).causes = (s.strand k).causes ++ [p] ∧
      p.cause = .eccUncorrectable ∧ p.fval = BitVec.ofNat 64 (2 ^ 63 + 2 ^ 62 + a.1 * 128 + a.2.1) ∧
      (t.strand k).accBad = (s.strand k).accBad ++ [a] ∧ t.mem = s.mem ∧
      t.pkg.reports = s.pkg.reports ++ [.uncorrectable 5 (c / 64) (a.1 * 128 + a.2.1)]) ∧
  (∀ (s : State) c k, s.issuer c = some k → (∀ o ∈ (s.strand k).mq, o.ends ≠ (s.strand k).icyc) →
    exec (.mxOpEnd c) s = .next (s.modStrand k (fun t => { t with mq := t.mq.filter (fun o => decide (t.icyc < o.done)) }))) ∧
  (∀ (s : State) c k o pl r v, s.issuer c = some k → (s.strand k).mq = [o] → o.kind = .mlds pl r v → o.ends = (s.strand k).icyc →
    o.done = (s.strand k).icyc →
    ∃ t, exec (.mxOpEnd c) s = .next t ∧ (t.strand k).mq = [] ∧ t.mem = s.mem ∧ ∀ b < 128,
      storeGet 0 (t.strand k).planes (pl * 16384 + (128 * r + b)) = BitVec.ofNat 8 (v.toNat / 256 ^ b % 256))

/-- R327, R328, R334, R336, R338, R339, R341, R342, R332, R411: what a die's clock cycle and the reference clock bring, each when it is due, in
every state: a start token up to 4; every boost one lower (0 stays 0) and entries at 0 freed; a new window of a slice, in which the
requests that wait count as presented; the shrink level one higher after a miss and one lower when no critical tenant misses; REMT one
lower in resident frames; the refill up to the cap, skipped by a recovering die, with READY strands and a new fairness window, before
the die scans; a new charge interval; the clock step, which a recovering die does not make. The refill's scan and the wake-up
of the strands in ENERGY are log entry 48. Completes mxTokenGain, boostDecay,
sliceWindow, shrinkAdjust, remtTick, energyRefill, chargeReconcile and clockStep. -/
def Obligations.ClockEvents : Prop :=
  (∀ (s : State) d, (s.die d).cycle % 128 = 0 → (s.die d).lastGain ≠ (s.die d).cycle →
    exec (.mxTokenGain d) s = .next (s.modDie d (fun x => { x with lastGain := x.cycle, tokens := min 4 (x.tokens + 1) }))) ∧
  (∀ (s : State) d, (s.die d).cycle % 256 = 0 → (s.die d).lastDecay ≠ (s.die d).cycle →
    ∃ t, exec (.boostDecay d) s = .next t ∧ t.strands = s.strands ∧ t.mem = s.mem ∧ t.ctxs = s.ctxs ∧
      (∀ g ∈ (s.die d).gangs, 2 ≤ g.boost → { g with boost := g.boost - 1 } ∈ (t.die d).gangs) ∧
      (∀ x ∈ (t.die d).gangs, ∃ g ∈ (s.die d).gangs, x = { g with boost := g.boost - 1 })) ∧
  (∀ (s : State) d n x, (s.die d).slices[n]? = some x → (s.die d).cycle % 1024 = 0 → x.lastWindow ≠ (s.die d).cycle →
    ∃ t y, exec (.sliceWindow d n) s = .next t ∧ (t.die d).slices[n]? = some y ∧ t.mem = s.mem ∧ t.strands = s.strands ∧ t.ctxs = s.ctxs ∧
      y.lastWindow = (s.die d).cycle ∧ y.demand = [] ∧ y.pool = x.pool ∧ y.weight = x.weight ∧ y.shrink = x.shrink ∧
      (s.jobs = [] → y = { x.refill with lastWindow := (s.die d).cycle })) ∧
  (∀ (s : State) d n m p x, (s.die d).slices[n]? = some x → x.critical.contains m = true → 65536 ≤ storeGet 0 x.reads m →
    ∃ t y, exec (.shrinkAdjust d n m p) s = .next t ∧ (t.die d).slices[n]? = some y ∧ t.mem = s.mem ∧ t.strands = s.strands ∧
      y.bucket = x.bucket ∧ y.weight = x.weight ∧ storeGet 0 y.reads m = storeGet 0 x.reads m - 65536 ∧
      (storeGet 0 x.target m < p → y.shrink = min 7 (x.shrink + 1)) ∧
      (p ≤ storeGet 0 x.target m → (∀ c ∈ x.missed, c = m) → y.shrink = x.shrink - 1)) ∧
  (∀ (s : State) d, (s.die d).remtAt < s.time →
    ∃ t, exec (.remtTick d) s = .next t ∧ t.mem = s.mem ∧ t.ctxs = s.ctxs ∧
      (∀ k, (s.strand k).die = d → (s.strand k).resident = true → s.hasStrand k = true →
        t.strand k = { s.strand k with remt := (s.strand k).remt - 1 }) ∧
      (∀ k, (s.strand k).die ≠ d ∨ (s.strand k).resident = false → t.strand k = s.strand k)) ∧
  (∀ (s : State) d, (s.die d).boot = .inService → (s.die d).refillAt + 1000 ≤ s.time →
    ∃ u : State, exec (.energyRefill d) s = .next (u.scan d) ∧ u.mem = s.mem ∧ (u.die d).refillAt = (s.die d).refillAt + 1000 ∧
      (u.die d).bused = [] ∧
      (∀ tc < 1024, (s.ctx d tc).bound = true →
        (u.ctx d tc).energy.enbal = if (s.die d).recovering then (s.ctx d tc).energy.enbal
          else min (256 * (s.ctx d tc).energy.cap : Int) ((s.ctx d tc).energy.enbal + 256 * (s.ctx d tc).energy.refill)) ∧
      (∀ k, s.hasStrand k = true → (s.strand k).die = d → (s.strand k).st = .energy → (u.ctx d (s.strand k).tcid).estop = false →
        u.strand k = { s.strand k with st := .ready, readySince := s.time }) ∧
      ((s.die d).shares = [] → u.scan d = u)) ∧
  (∀ (s : State) d, (s.die d).lastReconcile + 100 ≤ s.time →
    ∃ t, exec (.chargeReconcile d) s = .next t ∧ (t.die d).echg = 0 ∧ (t.die d).lastReconcile = s.time ∧
      ((s.die d).echg = 0 → (t.die d).cf = (s.die d).cf) ∧
      ((s.die d).echg ≠ 0 → 512 ≤ (t.die d).cf ∧ (t.die d).cf ≤ 2048) ∧ t.mem = s.mem ∧ t.strands = s.strands ∧ t.ctxs = s.ctxs) ∧
  (∀ (s : State) d, (s.die d).lastStep + 100 ≤ s.time →
    ((s.die d).recovering = true → exec (.clockStep d) s = .next s) ∧
    ((s.die d).recovering = false →
      ∃ t, exec (.clockStep d) s = .next t ∧ 800 ≤ (t.die d).clock ∧ (t.die d).clock ≤ 1800 ∧ (t.die d).lastStep = s.time ∧
        t.mem = s.mem ∧ t.strands = s.strands ∧ t.ctxs = s.ctxs))

/-- R331, R330, R37, R347, R233, R352, R43: a switch request is raised for the strand a core issues for, when its case holds; a waiter of
100 µs is READY; a PHASE whose waits are over publishes, renews and wakes its strand, with its causes pending; a steal request that comes back
exhausts its requester, one that finds a free slot stays there, and another goes on; a grant becomes the requester's range (each also in the
image of a saved strand); an idle core selects the frame of R330, whose strand goes on or takes its handler, and the one READY frame is that
frame. That a request is raised while the strand drains too is log entry 46. Completes quantumExpiry, starvationTimeout, prioritySwitchRequest, spinWaitTimeout, phaseComplete, stealRequest, stealGrant and
strandSelect. -/
def Obligations.StrandEvents : Prop :=
  (∀ (s : State) c k, s.issuer c = some k →
    ((s.strand k).selectedAt + 100 ≤ s.time → s.readyFrames c ≠ [] →
      exec (.quantumExpiry c) s = .next (s.modStrand k (fun t => { t with stopRq := true }))) ∧
    ((∃ j ∈ s.readyFrames c, (s.strand j).readySince + 90 ≤ s.time) →
      exec (.starvationTimeout c) s = .next (s.modStrand k (fun t => { t with stopRq := true }))) ∧
    ((s.strand k).selectedIcyc + 256 ≤ (s.strand k).icyc → (∃ j ∈ s.readyFrames c, s.eff (s.strand k) < s.eff (s.strand j)) →
      exec (.prioritySwitchRequest c) s = .next (s.modStrand k (fun t => { t with stopRq := true })))) ∧
  (∀ (s : State) k u, (s.strand k).st = .waiting → (s.strand k).wait = .spin u → (s.strand k).waiterSince + 100 ≤ s.time →
    exec (.spinWaitTimeout k) s = .next (s.modStrand k (fun t => { t with st := .ready, readySince := s.time }))) ∧
  (∀ (s : State) k sc b tb, (s.strand k).st = .waiting → (s.strand k).wait = .phase sc b tb → phaseReady s k sc b = true →
    (s.strand k).parked = false →
    ∃ t, exec (.phaseComplete k) s = .next t ∧ (t.strand k).st = .ready ∧ (t.strand k).wait = .none ∧ t.mem = s.mem ∧
      t.hist = (s.publish k sc).hist ∧ (t.strand k).view = viewAdd (s.strand k).view ((s.publish k sc).reaching (s.strand k).core) ∧
      (t.strand k).causes = (s.strand k).causes ++ phaseCauses s k sc tb) ∧
  (∀ (s : State) id m, storeFind s.steals id = some m →
    let u : State := { s with steals := storeErase s.steals id }
    (m.grant = none → m.dst = m.from_ →
      exec (.stealRequest id) s = .next ((u.modStrand m.from_
        (fun t => { t with range := { t.range with exhausted := true, outstanding := false } })).resave m.from_)) ∧
    (m.grant = none → m.dst ≠ m.from_ → passesOn (s.strand m.dst) = false →
      exec (.stealRequest id) s = .next ((u.modStrand m.dst (fun t => { t with range := { t.range with slot := some m.from_ } })).resave m.dst)) ∧
    (m.grant = none → m.dst ≠ m.from_ → passesOn (s.strand m.dst) = true →
      exec (.stealRequest id) s = .next (u.sendMsg ⟨m.from_, s.ringSucc m.dst, none⟩)) ∧
    (∀ a b, m.grant = some (a, b) → s.hasStrand m.dst = true →
      exec (.stealGrant id) s = .next ((u.modStrand m.dst
        (fun t => { t with range := { t.range with next := a, limit := b, outstanding := false } })).resave m.dst))) ∧
  (∀ (s : State) c f k, (s.core c).frozen = false → (s.core c).issuing = none →
    (s.choose c = none → exec (.strandSelect c) s = .next s) ∧
    ((s.core c).frames = [(f, k)] → (s.strand k).st = .ready → s.choose c = some (f, k)) ∧
    (s.choose c = some (f, k) → (s.strand k).st = .ready → (s.strand k).drain = none → (s.strand k).causes = [] →
      ((s.strand k).hq = [] → (s.strand k).wait = .none →
        ∃ t, exec (.strandSelect c) s = .next t ∧ (t.core c).issuing = some k ∧ (t.core c).lastFrame = f ∧ t.mem = s.mem ∧
          t.strand k = { s.strand k with
            st := .issuing, parked := false, tested := false, polls := 0, selectedAt := s.time, selectedIcyc := (s.strand k).icyc }) ∧
      (∀ h r, (s.strand k).hq = h :: r → (s.strand k).hsave = none → (s.strand k).residue = 0 →
        ∃ t, exec (.strandSelect c) s = .next t ∧ (t.core c).issuing = some k ∧ (t.strand k).st = .issuing ∧ (t.strand k).pos = h.entry ∧
          (t.strand k).bres = 2 ∧ (t.strand k).floor = (s.strand k).ldepth ∧
          (t.strand k).hsave = some ⟨(s.strand k).pos, (s.strand k).ldepth, (s.strand k).preg, (s.strand k).floor, (s.strand k).held,
            (s.strand k).wait, []⟩)))

/-! ## Events of requests and engines -/

/-- R220, R144, R145, R135, R133, R292: a buffered store outside the windows that nothing holds leaves its core, and once it has left an
element of it inside one 8-byte unit is performed: its bytes are written at its home, no other byte of memory changes, and the request is
gone; a store, an atomic or a VRED through an open window leaves as a transaction with the window's next number; an atomic on scratch
writes the new value of R146 there and keeps the old one for its latch; a fill gives its latch the data of the load, or an atomic's old
value, and ends the request; a failed access is held with the later ones, and only held while the frame is being saved or its SPIN polls.
Completes storePerform, atomicPerform, latchFill and accessFaultReport. -/
def Obligations.RequestEvents : Prop :=
  (∀ (s : State) k r, (s.strand k).req r.id = some r → r.kind = .store → r.space ≠ 4 → mayPerform s k r = true → r.left = false →
    beyondHbm s k .store r.space r.win r.els = false →
    ∃ t, exec (.storePerform k r.id) s = .next t ∧ t.strand k = (s.strand k).modReq r.id (fun q => { q with left := true }) ∧
      (r.space < 3 → t.mem = s.mem)) ∧
  (∀ (s : State) k r e a, (s.strand k).req r.id = some r → r.kind = .store → r.space ≠ 4 → mayPerform s k r = true → r.left = true →
    r.els = [e] → elemAddr s k .store r.space r.win e = some a → e.w ≤ 8 → a % 8 + e.w ≤ 8 →
    ∃ t, exec (.storePerform k r.id) s = .next t ∧ (∀ i < e.w, t.byte (a + i) = BitVec.ofNat 8 (e.data / 256 ^ i)) ∧
      (∀ b, (b < a ∨ a + e.w ≤ b) → t.byte b = s.byte b) ∧ (t.strand k).req r.id = none) ∧
  (∀ (s : State) k r i, (s.strand k).req r.id = some r → r.space = 4 → r.rel = false → r.held = false → r.xact = none →
    heldBefore s k r = false → s.winOpen (s.strand k).die (s.strand k).tcid r.win = true →
    unsentBefore s (s.strand k).die (s.strand k).tcid r.win r.id = false →
    (i = Instr.storePerform k r.id ∧ r.kind = .store) ∨
      (i = .atomicPerform k r.id ∧ r.isRmw = true ∧ acqBefore (s.strand k) r.id = false ∧ overlapBefore s k r = false) →
    ∃ t x, exec i s = .next t ∧ storeFind t.xacts s.nextId = some x ∧ x.kind = r.kind ∧ x.els = r.els ∧ x.sid = k ∧ x.rid = r.id ∧
      x.seq = ((s.ctx (s.strand k).die (s.strand k).tcid).win r.win).next ∧
      ((t.ctx (s.strand k).die (s.strand k).tcid).win r.win).next = (x.seq + 1) % 2 ^ 32 ∧ t.mem = s.mem) ∧
  (∀ (s : State) k r e a op ty n, (s.strand k).req r.id = some r → r.kind = .atomic op ty → r.space < 3 → r.rel = false →
    mayPerform s k r = true → r.els = [e] → r.latch = some n → elemAddr s k .atomic r.space r.win e = some a → e.w = tyWidth ty / 8 →
    beyondHbm s k .atomic r.space r.win r.els = false →
    ∃ t, exec (.atomicPerform k r.id) s = .next t ∧
      (∀ i < e.w, t.byte (a + i) = BitVec.ofNat 8 (op.eval ty (s.read a e.w) e.data e.exp / 256 ^ i)) ∧
      (∀ b, (b < a ∨ a + e.w ≤ b) → t.byte b = s.byte b) ∧
      (t.strand k).req r.id = some { r with old := some (BitVec.ofNat 1024 (s.read a e.w)) }) ∧
  (∀ (s : State) k r n, (s.strand k).req r.id = some r → r.kind = .load → r.latch = some n → ((s.strand k).rh n).pend = some r.id →
    (r.space < 3 → r.old = none → mayPerform s k r = true → beyondHbm s k .load r.space r.win r.els = false →
      ∃ t, exec (.latchFill k r.id) s = .next t ∧ t.mem = s.mem ∧
        (t.strand k).rh n = ⟨(s.loadData k r).1, true, none, false, 1⟩ ∧ (t.strand k).req r.id = none) ∧
    (∀ v, r.old = some v →
      ∃ t, exec (.latchFill k r.id) s = .next t ∧ t.mem = s.mem ∧ (t.strand k).rh n = ⟨v, true, none, false, 1⟩ ∧
        (t.strand k).req r.id = none)) ∧
  (∀ (s : State) k r n op ty v, (s.strand k).req r.id = some r → r.kind = .atomic op ty → r.old = some v → r.xact = none →
    r.latch = some n → ((s.strand k).rh n).pend = some r.id →
    ∃ t, exec (.latchFill k r.id) s = .next t ∧ t.mem = s.mem ∧ (t.strand k).rh n = ⟨v, true, none, false, 2⟩ ∧
      (t.strand k).req r.id = none ∧ (r.acq = true → (t.strand k).view = viewAdd (s.strand k).view (s.reaching (s.strand k).core))) ∧
  (∀ (s : State) k r c v, firstFailed s k = some (r, c, v) →
    ((s.strand k).polling = true → exec (.accessFaultReport k) s = .next s) ∧
    ((s.strand k).polling = false →
      let u := (if r.xact.isNone then s.walkedTo k r else s).modStrand k (fun t => t.holdFrom r.id)
      let f := if r.space = 4 then u.writeFlt (s.strand k).die (s.strand k).tcid r.win c v else u
      let w := if c = .partition ∧ r.xact.isNone then
        f.partDrop (if r.flt.isSome then none else f.reqDrop k r) (s.strand k).die (s.strand k).tcid else f
      ((s.strand k).resident = false ∨ (s.strand k).st = .saving ∨ (s.strand k).st = .saved →
        exec (.accessFaultReport k) s = .next w) ∧
      ((s.strand k).resident = true → (s.strand k).st ≠ .saving → (s.strand k).st ≠ .saved →
        exec (.accessFaultReport k) s = .next (w.endTrap k ⟨c, v, r.tbun, 2 ^ r.slot.bit⟩))))

/-- R138, R298, R304, R307, R308, R314, R306, R302, R305: the oldest TMOV leaves its queue, its bytes are copied and it sets its flag; one
whose source fails copies nothing, sets its flag and raises its cause (log entry 94); JOB_ACCEPT takes the oldest CE operation of a core: a CPOLL or CWAIT fills its latch with UNKNOWN, with a final status (whose record goes) or, a CPOLL,
with the status so far, while a CWAIT of an unfinished job waits; a CKILL stops its job; a valid card becomes a queued job and an invalid one
fills the latch with its reject code and sets the flag; a fragment from core scratch becomes a copy for every member; a local bell sets out;
the one runnable job of a die, a fill of one more block of cluster scratch, begins that block, and the one job in a segment writes one unit of
its block at a time, and no other byte (log entry 74); a job whose blocks are all written and settled is complete: its flag is set and its
status is 0, or 0x26 when a transaction of it is uncertain. That a rejected card's fill has handle 0 is log entry 73, and what the window
transactions of a job count as log entry 58. Completes tmovComplete, jobAccept, jobSegment and jobComplete. -/
def Obligations.EngineEvents : Prop :=
  (∀ (s : State) c m r, (s.core c).tmq = m :: r → fenceOk (s.strand m.sid) m.fence = true →
    tmovOk s m.sid m.id (m.moves.map Prod.fst) = true → (s.strand m.sid).clearing m.flag .ld = false → m.flag < 64 →
    (tmovMet s (s.strand m.sid) m.moves = none →
      ∃ t, exec (.tmovComplete c) s = .next t ∧ (t.core c).tmq = r ∧ (t.strand m.sid).rf m.flag = true ∧ m.id ∉ (t.strand m.sid).engOps ∧
        ((s.strand m.sid).wait = .none → (s.strand m.sid).st ≠ .saved →
          (m.moves = [] → t.mem = s.mem) ∧
          (∀ a b, m.moves = [(a, b)] → t.byte b = s.byte a ∧ ∀ x, x ≠ b → t.byte x = s.byte x))) ∧
    (∀ cs v, tmovMet s (s.strand m.sid) m.moves = some (cs, v) →
      ∃ u : State, exec (.tmovComplete c) s = .next (u.raiseCe m.sid ⟨cs, v, m.tbun, 2 ^ Slot.bit .ld⟩) ∧ (u.core c).tmq = r ∧
        (u.strand m.sid).rf m.flag = true ∧ m.id ∉ (u.strand m.sid).engOps ∧
        ((s.strand m.sid).wait = .none → (s.strand m.sid).st ≠ .saved → u.mem = s.mem))) ∧
  (∀ (s : State) c e r h l w, (s.core c).ceq = e :: r → e.op = (if w = true then CeOp.wait h l else .poll h l) →
    ((s.strand e.sid).rh l).pend = some e.id → (s.strand e.sid).st ≠ .saved →
    let o := s.jobOf e.die e.tcid h
    (o = none →
      ∃ t, exec (.jobAccept c) s = .next t ∧ (t.core c).ceq = r ∧ t.jobs = s.jobs ∧ t.mem = s.mem ∧
        (t.strand e.sid).rh l = ⟨(wordOf [(56, 0x30)]).setWidth 1024, true, none, false, 3⟩) ∧
    (∀ id j, o = some (id, j) → (jobFinal j.status = true ∨ w = false) →
      ∃ t, exec (.jobAccept c) s = .next t ∧ (t.core c).ceq = r ∧ t.mem = s.mem ∧
        t.jobs = (if jobFinal j.status then storeErase s.jobs id else s.jobs) ∧
        (t.strand e.sid).rh l = ⟨j.word.setWidth 1024, true, none, false, 3⟩) ∧
    (∀ id j, o = some (id, j) → jobFinal j.status = false → w = true →
      exec (.jobAccept c) s = .next ((s.modCore c (fun x => { x with ceq := r })).modJob id (fun j =>
        { j with waits := j.waits ++ [(e.sid, l, e.id)] })))) ∧
  (∀ (s : State) c e r h, (s.core c).ceq = e :: r → e.op = .kill h →
    (s.jobOf e.die e.tcid h = none →
      exec (.jobAccept c) s = .next (s.modCore c (fun x => { x with ceq := r }))) ∧
    (∀ id j, s.jobOf e.die e.tcid h = some (id, j) →
      exec (.jobAccept c) s = .next ((s.modCore c (fun x => { x with ceq := r })).killJob id) ∧
      (storeFind s.jobs id = some j → j.got = [] → j.put = [] →
        exec (.jobAccept c) s = .next ((s.modCore c (fun x => { x with ceq := r })).jobEnd id 4 0)))) ∧
  (∀ (s : State) c e r card due off l f p, (s.core c).ceq = e :: r → e.op = .job card due off l f p → card ≠ [] →
    fenceOk (s.strand e.sid) e.fence = true → (s.strand e.sid).clearing f .ce = false →
    jobRoom s e.die e.tcid = true → jobBefore s e = false → ((s.strand e.sid).rh l).pend = some e.id →
    (s.strand e.sid).st ≠ .saved → f < 64 →
    let x := cardReject (s.ctx e.die e.tcid) (some ((s.strand e.sid).csu * 32768)) (card.map (fun w => w.toNat))
    (x = none →
      ∃ t j, exec (.jobAccept c) s = .next t ∧ (t.core c).ceq = r ∧ t.mem = s.mem ∧ storeFind t.jobs s.nextId = some j ∧
        j.status = 1 ∧ j.done = 0 ∧ j.sid = some e.sid ∧ j.flag = f ∧ j.card = off ∧
        (t.strand e.sid).rh l = ⟨(wordOf [(56, 1), (0, j.handle)]).setWidth 1024, true, none, false, 4⟩) ∧
    (∀ code d, x = some (code, d) →
      ∃ t, exec (.jobAccept c) s = .next t ∧ (t.core c).ceq = r ∧ t.jobs = s.jobs ∧ (t.strand e.sid).rf f = true ∧
        (t.strand e.sid).rh l = ⟨(wordOf [(56, code)]).setWidth 1024, true, none, false, 4⟩)) ∧
  (∀ (s : State) c e r off n d len op tag f bs, (s.core c).ceq = e :: r →
    (e.op = .send [(0, off, n)] d len f ∧ op = none ∧ tag = 0) ∨ (∃ x, e.op = .red [(0, off, n)] d x tag len f ∧ op = some x) →
    fenceOk (s.strand e.sid) e.fence = true → (s.strand e.sid).clearing f .ce = false →
    fragWaits s e 0 off (128 * len) = false →
    let u := s.modCore c (fun x => { x with ceq := r })
    let w := (s.ctx e.die e.tcid).win (fragWin d)
    fragSource u e 0 off (128 * len) = .ok bs → s.members w ≠ [] → (∀ m ∈ s.members w, s.pathTo w.ue m.2.ddie = true) →
    ∃ t x, exec (.jobAccept c) s = .next t ∧ (t.core c).ceq = r ∧ storeFind t.frags s.nextId = some x ∧ x.bytes = bs ∧ x.op = op ∧
      x.tag = tag ∧ x.flag = f ∧ x.copies = (s.members w).map (fun m => (m.1, .sent)) ∧ t.mem = s.mem) ∧
  (∀ (s : State) c e r tail data w q, (s.core c).ceq = e :: r → e.op = .bell tail data true w q → fenceOk (s.strand e.sid) e.fence = true →
    ∃ t b, exec (.jobAccept c) s = .next t ∧ (t.core c).ceq = r ∧ storeFind t.bells s.nextId = some b ∧ t.mem = s.mem ∧
      b.msg = ⟨e.die, e.tcid, q, tail, 0, data, true, true⟩ ∧ b.sid = e.sid) ∧
  (∀ (s : State) d id j w a, s.jobs = [(id, j)] → j.die = d → j.status = 2 → j.op ≠ 0 → j.rds = [] → j.wrs = [w] → w.space = 1 →
    j.got = [] → j.put = [] → j.total = j.done + 64 → jobRunnable s id j = true → jobPlace s j .store w j.done = .ok (.here a) → 2 ^ 51 ≤ a →
    ∃ t j', exec (.jobSegment d) s = .next t ∧ t.mem = s.mem ∧ storeFind t.jobs id = some j' ∧ j'.done = j.done ∧ j'.seg = [j.done] ∧
      j'.put = (List.range 8).map (fun i => (8 * i, j.pattern.toNat))) ∧
  (∀ (s : State) d id j w p o v a, s.jobs = [(id, j)] → j.die = d → jobFinal j.status = false → j.seg = [p] → j.put = [(o, v)] →
    j.wrs[(j.at_ p).1]? = some w → w.space = 1 → jobReach s j = true → jobPlace s j .store w ((j.at_ p).2 + o) = .ok (.here a) →
    2 ^ 51 ≤ a → a < 2 ^ 52 → a % 8 = 0 →
    ∃ t j', exec (.jobSegment d) s = .next t ∧ (∀ i < 8, t.byte (a + i) = BitVec.ofNat 8 (v / 256 ^ i)) ∧
      (∀ b, (b < a ∨ a + 8 ≤ b) → t.byte b = s.byte b) ∧ storeFind t.jobs id = some j' ∧ j'.seg = [] ∧ j'.put = [] ∧
      j'.done = min j.total (j.done + 65536)) ∧
  (∀ (s : State) id j, storeFind s.jobs id = some j → jobFinal j.status = false → j.total ≤ j.done →
    jobXacts s id (fun c => !c.settled || c == .stored) = false →
    exec (.jobComplete id) s = .next (s.jobEnd id (if jobXacts s id (fun c => c == .uncertain) then 0x26 else 0) 0) ∧
    (∀ k, jobXacts s id (fun c => c == .uncertain) = false → j.sid = some k → s.hasStrand k = true → j.waits = [] → j.flag < 64 →
      ∃ t, exec (.jobComplete id) s = .next t ∧ (t.strand k).rf j.flag = true ∧
        storeFind t.jobs id = some { j with status := 0, detail := 0, seg := [], got := [], put := [], reported := false, waits := [] }))

/-! ## Events of launches, saves and regions -/

/-- R320, R322, R28, R29, R44, R333: an arriving share joins the queue behind the others with the writes then published, and after 100 µs it
reserves, each followed by a scan, which changes nothing while no waiting share may be admitted; a strand whose rows are loaded is resident,
and one that comes from its save image goes on; the strands of a share whose data is loaded become READY together with the view of R222; a
strand that may retire is gone with its frame; and victims of a reserving share are treated as their launch allows. The view recorded at the
share's arrival is log entry 50, and what retirement waits for log entry 52. Completes shareArrival,
shareReserveTimeout, rowLoadComplete, release, retire and preemptCheck. -/
def Obligations.LaunchEvents : Prop :=
  (∀ (s : State) d lid,
    ((s.die d).shares.any (fun h => h.lid == lid && h.st == .arriving) = true →
      exec (.shareArrival d lid) s = .next ((s.modDie d (fun x => { x with
        shares := x.shares.filter (fun h => h.lid != lid) ++ (x.shares.filter (fun h => h.lid == lid)).map (fun h => { h with
          st := .queued, since := s.time
          seen := s.hist.flatMap (fun e => e.2.ws.filterMap (fun w => w.pub.map (fun x => ((w.wid, e.1), x, w.core)))) }) })).scan d)) ∧
    ((s.die d).shares.any (fun h => h.lid == lid && h.st == .queued && decide (h.since + 100 ≤ s.time)) = true →
      exec (.shareReserveTimeout d lid) s = .next ((s.modDie d (fun x => { x with
        shares := x.shares.map (fun h => if h.lid = lid then { h with st := .reserving, nextCheck := s.time } else h) })).scan d)) ∧
    ((∀ h ∈ (s.die d).waiting, s.mayAdmit d h = false) → s.scan d = s)) ∧
  (∀ (s : State) k u, (s.strand k).st = .filling → (s.strand k).place.isSome = true →
    s.loadRows (s.strand k).core (s.strand k).tcid (s.strand k).image = some u →
    ((s.strand k).saveKind = none →
      ∃ t, exec (.rowLoadComplete k) s = .next t ∧ t.strand k = { s.strand k with st := .held } ∧ t.mem = s.mem) ∧
    ((s.strand k).saveKind.isSome = true → (s.strand k).wasRetiring = false → (s.strand k).parked = false →
      ∃ t, exec (.rowLoadComplete k) s = .next t ∧ (t.strand k).st = .ready ∧ (t.strand k).saveKind = none ∧
        (t.strand k).readySince = s.time ∧ t.mem = s.mem)) ∧
  (∀ (s : State) d lid h, (s.die d).shares.find? (fun h => h.lid == lid && h.st == .admitted) = some h → s.launchStrands lid d ≠ [] →
    (∀ x ∈ s.launchStrands lid d, (s.strand x.2).st = .held) → (∀ e ∈ (s.launch lid).toLoad, e ∈ (s.launch lid).loaded) →
    (s.launch lid).hbmLoaded = true →
    ∃ t, exec (.release d lid) s = .next t ∧ t.mem = s.mem ∧ ∀ x ∈ s.launchStrands lid d, t.strand x.2 =
      { s.strand x.2 with
        st := .ready, readySince := s.time, runCount := 0
        view := releaseView h (s.keysOf (s.launch lid).dataWids) (s.strand x.2).core }) ∧
  (∀ (s : State) k, (s.strand k).st = .retiring → (s.strand k).causes = [] → mayRetire s k = true →
    exec (.retire k) s = .next (((s.removeStrand k).shareDone (s.strand k).die (s.strand k).lid).scanAll) ∧
    (s.removeStrand k).hasStrand k = false ∧ (∀ j, j ≠ k → s.hasStrand j = true → (s.removeStrand k).hasStrand j = true) ∧
    ∀ f ∈ ((s.removeStrand k).core (s.strand k).core).frames, f.2 ≠ k) ∧
  (∀ (s : State) d n, (s.die d).waiting.find? (fun h => h.st == .reserving) = some n → n.nextCheck ≤ s.time →
    let u := s.modShare d n.lid (fun h => { h with nextCheck := s.time + 100 })
    (u.enough d n (u.victims d n) = none → exec (.preemptCheck d) s = .next u) ∧
    (∀ vs, u.enough d n (u.victims d n) = some vs →
      exec (.preemptCheck d) s = .next ((vs.foldl (fun s v => s.preempt d v) u).scanAll)) ∧
    (∀ v, u.shareRemt v.lid d ≤ 100 → u.preempt d v = u) ∧
    (∀ v, 100 < u.shareRemt v.lid d →
      ((u.launch v.lid).ckpt = true → ∀ x ∈ u.launchStrands v.lid d,
        (u.preempt d v).strand x.2 = { u.strand x.2 with stopRq := true, ckptRq := true }) ∧
      ((u.launch v.lid).ckpt = false → (u.launch v.lid).kill = true → u.preempt d v = u.endLaunch v.lid 0x50 0)))

/-- R359, R361, R363, R366, R369, R371, R372, R407, R287, R132: the capture ends the freeze; a save that waits for nothing lands what it
waits for, frees the frame (a checkpoint the region too) and writes the image, after which the device OS acts on a cause that it holds, or a
checkpointed share goes back to the queue; a restore on the strand's own die puts it back on its core, FILLING, when its image is intact, and
loses it when it is not, the context's regions back first; the services act on the strand that s2 names, and answer 1 when there is none; an eviction copies the regions to the
supervisor region and leaves them reading zero, with nothing else changed where no arrival has begun; a restore of residency brings them back;
an invalidation, which finishes the stores under way first. That a
restore comes back to the strand's own core is log entry 53, which strands the services act on log entry 54, when an eviction takes place log
entry 87 and where the supervisor region lies log entry 12. Completes saveCaptureComplete, saveComplete, restore, resume, redirect, endstrand,
evictRegions, residencyRestore and invalidate. -/
def Obligations.SaveEvents : Prop :=
  (∀ (s : State) c, exec (.saveCaptureComplete c) s = .next (s.modCore c (fun x => { x with frozen := false }))) ∧
  (∀ (s : State) k, maySave s k = true →
    let u := (((((s.landReds k).takeFills k).leaveFrame k).assignArea k).writeImage k)
    let v := u.gangTidy (u.strand k).die
    exec (.saveComplete k) s = .next ((if (u.strand k).saveKind = some .checkpoint then v.shareBack (u.strand k).die (u.strand k).lid
      else v.osAct k).scanAll) ∧
    (u.strand k).st = .saved ∧ (u.strand k).place = none ∧
    ∀ f ∈ (u.core (((s.landReds k).takeFills k).strand k).core).frames, f.2 ≠ k) ∧
  (∀ (s : State) k, (s.strand k).osCause = none → s.osAct k = s) ∧
  (∀ (s : State) k d ser, (s.strand k).st = .saved → (s.strand k).due = true ∨ (s.strand k).saveKind = some .checkpoint →
    (s.die (s.strand k).die).recovering = false →
    exec (.restore k d ser) s = .next (s.restoreTo k d ser).2) ∧
  (∀ (s : State) k tc ser (u : State), let d := (s.strand k).die
    let c := (s.strand k).core
    (s.strand k).home.isSome = true → (s.strand k).cgrp = 0 → s.restoreCtx k d = some tc → c ∈ coresOf d none →
    s.withRegions d tc = some u → (u.modStrand k (fun t => { t with die := d, tcid := tc })).coreFits c k = true →
    (imageGood s k ser = false → s.restoreTo k d ser = (0x64, (s.loseStrand k).scanAll)) ∧
    (imageGood s k ser = true → (s.ctx d tc).resident = false →
      s.restoreTo k d ser = (0, (({ u with nfree := u.nfree + 1 } : State).restoreAt k d tc c).scan d)) ∧
    (imageGood s k ser = true → (s.ctx d tc).resident = true →
      (s.restoreTo k d ser).1 = 0 ∧ ((s.restoreTo k d ser).2.strand k).st = .filling ∧ ((s.restoreTo k d ser).2.strand k).core = c ∧
      ((s.restoreTo k d ser).2.strand k).due = false ∧ (s.restoreTo k d ser).2.mem = s.mem)) ∧
  (∀ (s : State) c k, s.hailTarget c = some k →
    let r := s.restoreTo k (s.strand k).die (s.strand k).serial
    (s.hailing c 1 = true → exec (.resume c) s = .next (r.2.hailRestored c r.1)) ∧
    (s.hailing c 2 = true → exec (.redirect c) s = .next ((if r.1 = 0 then
      r.2.modStrand k (fun t => t.redirected (((s.strand c).rs 3).toNat % 65536)) else r.2).hailRestored c r.1)) ∧
    (s.hailing c 3 = true →
      exec (.endstrand c) s = .next (((((s.modLaunch (s.strand k).lid (fun l => { l with ended := l.ended + 1 })).stopStrand k).shareDone
        (s.strand k).die (s.strand k).lid).hailDone c 0 none).scanAll))) ∧
  (∀ (s : State) c, s.hailTarget c = none →
    (s.hailing c 1 = true → exec (.resume c) s = .next (s.hailDone c 1 none)) ∧
    (s.hailing c 2 = true → exec (.redirect c) s = .next (s.hailDone c 1 none)) ∧
    (s.hailing c 3 = true → exec (.endstrand c) s = .next (s.hailDone c 1 none))) ∧
  (∀ (s : State) c, s.hasStrand c = true →
    (∀ t, t = (s.hailRestored c 0).strand c →
      t.rs 1 = 0 ∧ t.osCause = none ∧ t.due = true) ∧
    ∀ e t, e ≠ 0 → t = (s.hailRestored c e).strand c →
      t.rs 1 = 5 ∧ t.rs 2 = BitVec.ofNat 64 e ∧ t.osCause = none ∧ t.due = true) ∧
  (∀ (s : State) d tc a u z, z = max 65536 (4 * (s.ctx d tc).csize + (s.ctx d tc).dsize) →
    (s.ctx d tc).bound = true → (s.ctx d tc).resident = true → s.wantsRoom d tc = true →
    (∀ k ∈ s.ctxStrands d tc, (s.strand k).st.onCore = false) → (∀ e ∈ s.xacts, e.2.todo = []) → s.evictArea d tc = some (a, u) → a + z ≤ 2 ^ 50 →
    ∃ t : State, exec (.evictRegions d tc) s = .next t ∧ (t.ctx d tc).resident = false ∧ (t.ctx d tc).evictAt = some a ∧
      (∀ b, (∃ r ∈ s.ctxRegions d tc, r.1 ≤ b ∧ b < r.1 + r.2) → t.byte b = 0) ∧
      (∀ b, (∀ r ∈ s.ctxRegions d tc, b < r.1 ∨ r.1 + r.2 ≤ b) → b < a ∨ a + z ≤ b → t.byte b = s.byte b) ∧
      (memWf s.mem = true → ∀ p ∈ evictPlaces (s.ctxRegions d tc) a, ∀ i < p.1.2, t.byte (p.2 + i) = s.byte (p.1.1 + i))) ∧
  (∀ (s : State) d tc u, (s.ctx d tc).bound = true → (s.ctx d tc).resident = false → (s.ctx d tc).bused = 0 → (s.ctx d tc).berthQ = [] →
    (s.die d).shares = [] → (s.modCtx d tc (fun c => { c with resident := true })).allocRegions d tc (s.ctx d tc).csize (s.ctx d tc).dsize = some u →
    ∃ t : State, exec (.residencyRestore d tc) s = .next t ∧ (t.ctx d tc).resident = true ∧ ((s.ctx d tc).evictAt = none → t.mem = s.mem) ∧
      ∀ a, (s.ctx d tc).evictAt = some a → a + 4 * (s.ctx d tc).csize + (s.ctx d tc).dsize ≤ 2 ^ 50 → memWf s.mem = true →
        ∀ p ∈ evictPlaces (u.ctxRegions d tc) a, ∀ i < p.1.2, t.byte (p.1.1 + i) = s.byte (p.2 + i)) ∧
  (∀ (s : State) d tc va n all, exec (.invalidate d tc va n all) s =
      .next (((s.finishStores d tc va n all).finishXacts).modDie d (fun x => { x with tlb := x.tlb.filter (fun e => !e.hit tc va n all) })) ∧
    ((∀ e ∈ s.strands, ∀ r ∈ e.2.reqs, r.left = false) → (∀ e ∈ s.xacts, e.2.todo = []) → (s.finishStores d tc va n all).finishXacts = s))
/-! ## Events of the fabric -/

/-- R226, R285, R286, R290, R293, R294, R275, R292, R376: the next expected transaction of a window is performed where its bytes stand, a store
whole or unit by unit, and with its last unit its filter moves on and its handler is taken; it waits at the port while its handler's strand has
no room; a context that is not bound judges every number; one that fails writes WFLT, is refused until its strand replays it, or, as one of several copies, is
undeliverable; a store of a context that is not resident goes to the berth; a lower number only counts as performed; an acknowledgement is
recorded; what is 20 µs unacknowledged and not behind a refused one is sent again and counted, and after 8 times uncertain; a gap transaction takes a number; a
resynchronisation sets the filter, and the last ends a CLEARUNC; a lost filter, a link that fails and a link that trains. Where the sender is
outside the package the acknowledgement may be lost with its tag (log entry 7); that a berthed record is acknowledged is
log entry 57, the order of acknowledgements log entry 62, the numbers of ports log entry 60 and what a link failure loses log entry 59.
Completes windowArrival, windowAck, retransmitTimeout, gapTransaction, resyncTransaction, filterStateLost, linkFailure and linkTraining. -/
def Obligations.WindowEvents : Prop :=
  (∀ (s : State) id m x dst rd, storeFind s.xacts id = some x → storeFind x.copies m = some .sent → s.xactDest x m = some dst →
    s.dieOfDomain dst.ddie = some rd →
    let d := (x.seq + 2 ^ 32 - storeGet 0 s.filters (s.xactFilter x m rd)) % 2 ^ 32
    let due := d = 0 ∨ (s.ctx rd dst.tcid).bind = .unbound
    let ps := (s.xactPlaces x dst).map (fun p => (p.1, p.2.w, p.2.data))
    (due → storeFind x.todo m = none → s.xactMet x dst = none → ((s.xactWin x).dspace = 3 ∨ (s.ctx rd dst.tcid).resident = true) →
      (s.handlerFull x rd dst.tcid = true → exec (.windowArrival id m) s = .next s) ∧
      (s.handlerFull x rd dst.tcid = false →
        (x.kind = .store → exec (.windowArrival id m) s = .next ((s.xactServe x dst).xactUnits id m rd x dst ps)) ∧
        (x.kind ≠ .store → exec (.windowArrival id m) s = .next ((s.xactPerform x dst).xactDone id m rd x dst)))) ∧
    (∀ qs, due → storeFind x.todo m = some qs → s.handlerFull x rd dst.tcid = false →
      exec (.windowArrival id m) s = .next (s.xactUnits id m rd x dst qs)) ∧
    ((s.xactWin x).dspace ≠ 3 → (s.xactServe x dst).mem = s.mem) ∧
    (∀ (u : State) (qs : List (Nat × Nat × Nat)), ∃ p : Nat × Nat × Nat → Bool,
      let w := ({ u with nfree := u.nfree + 1 } : State).homeWrite (x.writer none) (qs.filter p)
      (qs ≠ [] → ∃ q ∈ qs, p q = true) ∧ (∀ q ∈ qs, ∀ r ∈ qs, unitOf q.1 = unitOf r.1 → p q = p r) ∧
      ((∀ q ∈ qs, p q = true) → u.xactUnits id m rd x dst qs =
        (w.modXact id (fun x => { x with todo := storeErase x.todo m })).xactDone id m rd x dst) ∧
      ((∃ q ∈ qs, p q = false) → u.xactUnits id m rd x dst qs =
        w.modXact id (fun x => { x with todo := storeSet x.todo m (qs.filter (fun q => !p q)) }))) ∧
    (∀ v : State, let u := v.xactTaken id m rd x .performed
      storeGet 0 u.filters (v.xactFilter x m rd) = (x.seq + 1) % 2 ^ 32 ∧ (x.hnd = none → v.xactDone id m rd x dst = u) ∧
      ∀ h, x.hnd = some h →
        v.xactDone id m rd x dst = (u.handlerArrive rd dst.tcid h (u.payloadWids rd x.sid x.win x.wid)).getD u) ∧
    (∀ c v, due → storeFind x.todo m = none → s.xactMet x dst = some (c, v) →
      exec (.windowArrival id m) s = .next ((if c = .partition then s.xactDrop x dst else s).xactFail id m x c v)) ∧
    (due → storeFind x.todo m = none → s.xactMet x dst = none → (s.xactWin x).dspace ≠ 3 → (s.ctx rd dst.tcid).resident = false → x.kind = .store →
      let r := s.xactRuns x dst
      let b := s.berthArrive rd dst.tcid id m (s.xactWin x).dcl false (recordsOf r.1 r.2)
      exec (.windowArrival id m) s = .next (if b.1 then b.2.xactTaken id m rd x .berthed else b.2)) ∧
    ((s.ctx rd dst.tcid).bind ≠ .unbound → d ≠ 0 → d < 2 ^ 31 → exec (.windowArrival id m) s = .next s) ∧
    ((s.ctx rd dst.tcid).bind ≠ .unbound → 2 ^ 31 ≤ d → exec (.windowArrival id m) s = .next (s.setCopy id m .performed))) ∧
  (∀ (s : State) id m x c v, s.hasStrand x.sid = true → x.sid ≠ noSid →
    ((s.xactWin x).mc = false → s.xactFail id m x c v =
      (((s.writeFlt x.die x.tcid x.win c v).setCopy id m .refused).modXact id (fun x => { x with flt := some (c, v) })).modWin
        x.die x.tcid x.win (fun w => { w with refusing := some x.seq })) ∧
    (∀ r w, (s.xactWin x).mc = true → c = .windowFault → v = BitVec.ofNat 64 (r * 2 ^ 56 + w) → w < 2 ^ 56 → (r = 8 ∨ r = 9 ∨ r = 10) →
      s.xactFail id m x c v = (s.writeFlt x.die x.tcid x.win c v).loseCopy id m x)) ∧
  (∀ (s : State) id m x c, storeFind s.xacts id = some x → s.earlierUnacked x m = false →
    (s.isAway (s.xactWin x) m = false ∨ Config.pick s.nfree % 2 = 0) →
    ((storeFind x.copies m = some .performed ∧ c = .acked) ∨ (storeFind x.copies m = some .berthed ∧ c = .stored)) →
    exec (.windowAck id m) s = .next (((({ s with nfree := s.nfree + 1 } : State).setCopy id m c).modWin x.die x.tcid x.win
      (fun w => { w with acks := storeSet w.acks m x.seq })).settleXact id)) ∧
  (∀ (s : State) d tc w, let late := (s.openXacts d tc w).filter (fun e =>
      decide (d < 1024) && decide (e.2.sentAt + 20 ≤ s.time) && !((s.ctx d tc).win w).holds e.2)
    (late = [] → exec (.retransmitTimeout d tc w) s = .next s) ∧
    (late ≠ [] → (∀ e ∈ late, e.2.tries < 8) →
      exec (.retransmitTimeout d tc w) s = .next (((late.map (fun e => e.1)).foldl (fun u x => u.modXact x (fun x =>
        { x with tries := x.tries + 1, sentAt := u.time })) s).modWin d tc w (fun w => { w with retx := (w.retx + late.length) % 2 ^ 32 }))) ∧
    ((∀ e ∈ late, 8 ≤ e.2.tries) → late ≠ [] →
      exec (.retransmitTimeout d tc w) s = .next (s.windowUncertain d tc w (late.map (fun e => e.1))))) ∧
  (∀ (s : State) id m x dst, storeFind s.xacts id = some x → storeFind x.copies m = some .undeliverable → s.xactDest x m = some dst →
    s.pathTo (s.xactWin x).ue dst.ddie = true →
    (s.dieOfDomain dst.ddie = none → exec (.gapTransaction id m) s = .next ((s.setCopy id m .gapSent).settleXact id)) ∧
    ∀ rd, s.dieOfDomain dst.ddie = some rd → storeGet 0 s.filters (s.xactFilter x m rd) = x.seq → exec (.gapTransaction id m) s =
      .next ((({ s with filters := storeSet s.filters (s.xactFilter x m rd) ((x.seq + 1) % 2 ^ 32) } : State).setCopy id m .gapSent).settleXact id)) ∧
  (∀ (s : State) d tc w m dst, let y := (s.ctx d tc).win w
    m ∈ y.resync → storeFind (s.members y) m = some dst → s.pathTo y.ue dst.ddie = true →
    let out (u : State) : State := u.modWin d tc w (fun y => { y with resync := y.resync.filter (fun x => x != m) })
    (s.dieOfDomain dst.ddie = none → exec (.resyncTransaction d tc w m) s = .next ((out s).clearDone d tc w)) ∧
    ∀ rd, s.dieOfDomain dst.ddie = some rd → exec (.resyncTransaction d tc w m) s =
      .next ((out { s with filters := storeSet s.filters (filterKey rd (s.domainIdx d) tc w m) y.next }).clearDone d tc w)) ∧
  (∀ (s : State) d tc w, let y := (s.ctx d tc).win w
    (y.clearing = false → s.clearDone d tc w = s) ∧ (y.resync ≠ [] → s.clearDone d tc w = s) ∧
    (y.clearing = true → y.resync = [] → y.clearCmd = false → s.clearCallers d tc w = [] →
      s.clearDone d tc w = s.modWin d tc w (fun w => { w with unc := false, clearing := false, clearCmd := false }))) ∧
  (∀ (s : State) d tc w,
    exec (.filterStateLost d tc w) s = .next (s.windowUncertain d tc w ((s.openXacts d tc w).map (fun e => e.1))) ∧
    s.windowUncertain d tc w [] = s.modWin d tc w (fun y => { y with unc := true })) ∧
  (∀ (s : State) p, exec (.linkFailure p) s = .next ((((s.setPort p .down).loseLoads).loseFrags).loseBells) ∧
    (s.frags = [] → s.bells = [] → let t := (((s.setPort p .down).loseLoads).loseFrags).loseBells
      t.mem = s.mem ∧ t.pkg = (s.setPort p .down).pkg)) ∧
  (∀ (s : State) p ext, ∃ t : State, exec (.linkTraining p ext) s = .next t ∧
    (p < s.pkg.ports.length → t.pkg.ports.getD p .down = (if ext then .extended else .plain)) ∧
    (∀ q, q ≠ p → t.pkg.ports.getD q .down = s.pkg.ports.getD q .down) ∧
    (∀ q, p = 16 + q → q < s.pkg.uePorts.length → t.pkg.uePorts.getD q false = true) ∧
    (∀ q, p ≠ 16 + q → t.pkg.uePorts.getD q false = s.pkg.uePorts.getD q false) ∧
    t.strands = s.strands ∧ t.mem = s.mem)

/-- R308, R309, R310, R311, R312: a CSEND fragment is written at its destination once its requests are paid, boosts its gang and sets its
receiver's flag; a CRED fragment joins its group; one whose destination is not resident goes to the berth, or waits when it is a CRED (log
entry 86); the requests of its write are paid unit by unit of 128 bytes (log entry 64); one that fails writes WFLT and raises its cause; the
last acknowledgement sets the sender's flag and ends the fragment; a reduction group of 10 ms is discarded and counted. Completes fragmentArrival, fragmentAck and reductionTimeout. -/
def Obligations.FragmentEvents : Prop :=
  (∀ (s : State) id m f dst rd, storeFind s.frags id = some f → storeFind f.copies m = some .sent →
    let w := (s.ctx f.die f.tcid).win f.win
    storeFind (s.members w) m = some dst → s.dieOfDomain dst.ddie = some rd →
    (∀ c v, s.fragPlaces f dst = .error (c, v) → exec (.fragmentArrival id m) s = .next (s.fragMiss id m f dst c v)) ∧
    (∀ ps, s.fragPlaces f dst = .ok ps → (w.dspace = 3 ∨ (s.ctx rd dst.tcid).resident = true) →
      let us := if s.fragCompletes rd f dst then (ps.map (fun p => p.1 / 128)).eraseDups else []
      let a := s.admitUnits (s.ctx f.die f.tcid).tenant (us.drop (storeGet 0 f.paid m)) (storeGet 0 f.paid m)
      (a.1 < us.length →
        exec (.fragmentArrival id m) s = .next (a.2.modFrag id (fun f => { f with paid := storeSet f.paid m a.1 }))) ∧
      (us.length ≤ a.1 → f.op = none → exec (.fragmentArrival id m) s = .next (a.2.csendTaken id m rd f dst ps)) ∧
      ∀ op, us.length ≤ a.1 → f.op = some op → exec (.fragmentArrival id m) s = .next (a.2.credTaken id m rd f dst op)) ∧
    (∀ ps, s.fragPlaces f dst = .ok ps → w.dspace ≠ 3 → (s.ctx rd dst.tcid).resident = false →
      (f.op ≠ none → exec (.fragmentArrival id m) s = .next s) ∧
      (f.op = none → let r := s.fragRuns f dst
        let b := s.berthArrive rd dst.tcid id m w.dcl true (recordsOf r.1 r.2)
        exec (.fragmentArrival id m) s = .next (if b.1 then
          (b.2.modFrag id (fun f => { f with copies := storeSet f.copies m .berthed })).gangArrive rd f.gang else b.2)))) ∧
  (∀ (s : State) id m f dst rd ps k e, ((s.ctx f.die f.tcid).win f.win).dspace ≠ 3 → f.gang = 0 → s.handlerTarget rd dst.tcid f.nidx = some (k, e) →
    (s.strand k).st ≠ .saved → (s.strand k).st ≠ .waiting → f.rflag < 64 →
    (s.csendTaken id m rd f dst ps).mem = (s.engineWrites rd ps).2.mem ∧ ((s.csendTaken id m rd f dst ps).strand k).rf f.rflag = true) ∧
  (∀ (s : State) id m rd f dst op, s.groupFor rd f dst = none → 0 < f.ncon →
    ∃ gid g, storeFind (s.credTaken id m rd f dst op).groups gid = some g ∧ g.parts = [(s.domainIdx f.die, f.bytes)] ∧ g.since = s.time ∧
      (s.credTaken id m rd f dst op).mem = s.mem) ∧
  (∀ (s : State) id m f, storeFind s.frags id = some f → storeFind f.copies m = some .performed →
    (s.isAway ((s.ctx f.die f.tcid).win f.win) m = false ∨ Config.pick s.nfree % 2 = 0) →
    exec (.fragmentAck id m) s = .next ((({ s with nfree := s.nfree + 1 } : State).modFrag id (fun f =>
      { f with copies := storeSet f.copies m .acked })).fragOver id) ∧
    (f.copies = [(m, .performed)] → s.hasStrand f.sid = true → (s.strand f.sid).st ≠ .saved → (s.strand f.sid).st ≠ .waiting →
      f.flag < 64 →
      ∃ t : State, exec (.fragmentAck id m) s = .next t ∧ storeFind t.frags id = none ∧ (t.strand f.sid).rf f.flag = true ∧ t.mem = s.mem ∧
        f.eid ∉ (t.strand f.sid).engOps)) ∧
  (∀ (s : State) id g, storeFind s.groups id = some g → g.since + 10000 ≤ s.time →
    exec (.reductionTimeout id) s = .next (({ s with groups := storeErase s.groups id } : State).modCtx g.die g.tcid
      (fun c => { c with cerr := (c.cerr + g.parts.length) % 2 ^ 32 })))
/-! ## Queues and recovery -/

/-- R395, R397, R399, R400, R409, R410, R411, R412: a bell that has arrived is dropped, rejected, or moves TAIL and is counted, each where the
rule says so, and a recovering die's port holds it; a free lane takes the entry at HEAD of a queue that waits, with b7 = HEAD, the other
registers zero and the program of its control block, or the queue enters its error state; a restart of a watchdog; recovery, after 25 ms
without one or at once after a machine check; its boot, whose checks may fail, which is reported, and its end at step 5; and a die that does not reach step 5 in 50 ms. WATCHDOG_RESTART as step 5 is
log entry 17, a handle of another context as an unknown one log entry 25 and a queue with no active copy log entry 28. Completes bell, pilotEntry,
watchdogRestart, machineCheckStop, watchdogExpiry and recoveryTimeout. -/
def Obligations.QueueEvents : Prop :=
  (∀ (s : State) m, (m.dev = true → ∀ e ∈ s.bells, e.2.msg = m → e.2.away = false) → s.bellWaiting m = true →
    let drop := s.modDie m.die (fun d => { d with bellDrops := (d.bellDrops + 1) % 2 ^ 32 })
    ((s.die m.die).recovering = true →
      exec (.bell m) s = .next (s.modDie m.die (fun d => { d with bellHeld := d.bellHeld ++ [m] }))) ∧
    ((s.die m.die).recovering = false →
      exec (.bell m) s = .next ((s.bellTake m).bellDone m) ∧
      (m.wellSized = false → s.bellTake m = drop) ∧ ((s.ctx m.die m.tcid).bind ≠ .run → s.bellTake m = drop) ∧
      (m.wellSized = true → (s.ctx m.die m.tcid).bind = .run →
        let u := s.touchTenant m.die m.tcid ((s.ctx m.die m.tcid).sqva + 4 * m.sqid) 4
        (u.bellQueue m.die m.tcid m.sqid = none →
          s.bellTake m = u.modDie m.die (fun d => { d with bellDrops := (d.bellDrops + 1) % 2 ^ 32 })) ∧
        ∀ pq, u.bellQueue m.die m.tcid m.sqid = some pq →
          ((u.queue m.die pq).active = none → s.bellTake m = u.queueBad m.die pq) ∧
          ∀ fl c, (u.queue m.die pq).active = some (fl, c) →
            (c.state ≠ 1 →
              s.bellTake m = u.modQueue m.die pq (fun q => q.update (fun c => { c with rejected := (c.rejected + 1) % 2 ^ 32 }))) ∧
            (c.state = 1 → s.bellTake m = u.bellJudge m pq c)))) ∧
  (∀ (s : State) m pq c, let seq := if m.dev then (c.seq + 1) % 2 ^ 32 else m.seq
    let reject := s.modQueue m.die pq (fun q => q.update (fun c => { c with rejected := (c.rejected + 1) % 2 ^ 32 }))
    let good := m.tag = bellTag (s.ctx m.die m.tcid).suite (s.queue m.die pq).key (bellMsgBytes m) ∧
      1 ≤ (m.seq + 2 ^ 32 - c.seq) % 2 ^ 32 ∧ (m.seq + 2 ^ 32 - c.seq) % 2 ^ 32 < 2 ^ 31
    let ahead := (m.tail + 2 ^ 32 - c.head) % 2 ^ 32
    (m.dev = false → ¬ good → s.bellJudge m pq c = reject) ∧
    (m.dev = true ∨ good →
      (2 ^ c.log2n < ahead →
        s.bellJudge m pq c = s.queueError m.die pq 2 (fun q => q.update (fun c => { c with state := 2, seq := seq }))) ∧
      (ahead ≤ 2 ^ c.log2n → ahead < (c.tail + 2 ^ 32 - c.head) % 2 ^ 32 → s.bellJudge m pq c = reject) ∧
      (ahead ≤ 2 ^ c.log2n → (c.tail + 2 ^ 32 - c.head) % 2 ^ 32 ≤ ahead → s.bellJudge m pq c = s.modQueue m.die pq (fun q => q.update
        (fun c => { c with tail := m.tail, seq := seq, accepted := (c.accepted + 1) % 2 ^ 32 }))))) ∧
  (∀ (s : State) m e, m.dev = true → s.bells.find? (fun e => e.2.msg == m && e.2.away) = some e →
    exec (.bell m) s = .next (s.bellAway e.1 e.2)) ∧
  (∀ (s : State) d l q r, l < 16 → (s.die d).boot = .inService → (s.die d).recovering = false →
    (storeGet Lane.reset (s.die d).lanes l).stage = .idle → s.servable d = q :: r →
    ∃ p ∈ q :: r, exec (.pilotEntry d l) s = .next (({ s with nfree := s.nfree + 1 } : State).takeEntry d l p)) ∧
  (∀ (s : State) d l q, ((s.queue d q).active = none → s.takeEntry d l q = s.queueBad d q) ∧
    ∀ fl c, (s.queue d q).active = some (fl, c) →
      let n := 64 * 2 ^ c.esz
      (storeFind (s.die d).pilots c.prog = none →
        s.takeEntry d l q = s.queueError d q 5 (fun q => q.update (fun c => { c with state := 5 }))) ∧
      ∀ p, storeFind (s.die d).pilots c.prog = some p →
        (q ≠ 0 → p.tcid ≠ c.tcid → s.takeEntry d l q = s.queueError d q 5 (fun q => q.update (fun c => { c with state := 5 }))) ∧
        (p.tcid = c.tcid ∨ q = 0 →
          (s.readEntry d c.tcid (c.ringva + c.head % 2 ^ c.log2n * n) n = none →
            s.takeEntry d l q = s.queueError d q 3 (fun q => q.update (fun c => { c with state := 3 }))) ∧
          ∀ pkt, s.readEntry d c.tcid (c.ringva + c.head % 2 ^ c.log2n * n) n = some pkt → ∃ ln : Lane,
            storeGet Lane.reset ((s.takeEntry d l q).die d).lanes l = ln ∧ ln.stage = .run ∧ ln.pc = 0 ∧ ln.loops = [] ∧ ln.prog = p.words ∧
            ln.pkt = pkt ∧ ln.scr = (s.queue d q).scratch ∧ ln.r 7 = BitVec.ofNat 64 c.head ∧ (∀ n < 7, ln.r n = 0) ∧
            (s.takeEntry d l q).mem = (s.touchTenant d c.tcid (c.ringva + c.head % 2 ^ c.log2n * n) n).mem)) ∧
  (∀ (s : State) d, s.inService d = true →
    ((s.die d).recovering = false → exec (.watchdogRestart d) s = .next (s.modDie d (fun x => { x with watchdogAt := s.time }))) ∧
    ((s.die d).recovering = true → exec (.watchdogRestart d) s = .next (s.reboot d))) ∧
  (∀ (s : State) d, ((s.die d).bootBad = true → (s.reboot d).dies = s.dies ∧ (s.reboot d).mem = s.mem) ∧
    ((s.die d).bootBad = false →
      (Config.bootPasses d s.nfree = true → Config.bootPasses d (s.nfree + 1) = true →
        s.reboot d = ({ s with nfree := s.nfree + 2 } : State).recovered d) ∧
      (Config.bootPasses d s.nfree = false ∨ Config.bootPasses d (s.nfree + 1) = false →
        ((s.reboot d).die d).bootBad = true ∧ ((s.reboot d).die d).recovering = (s.die d).recovering ∧ (s.reboot d).mem = s.mem ∧
        (s.reboot d).strands = s.strands))) ∧
  (∀ (s : State) d, s.boundOn d = [] → (s.die d).lostEmits = [] → (s.die d).bellHeld = [] → (s.die d).shares = [] →
    ((s.recovered d).die d).recovering = false ∧ ((s.recovered d).die d).watchdogAt = s.time ∧
    ((s.recovered d).die d).harts = hartsUp ∧ (s.recovered d).mem = s.mem) ∧
  (∀ (s : State) d, exec (.machineCheckStop d) s = .next (s.recover d) ∧
    ((s.die d).watchdogAt + 25000 ≤ s.time → exec (.watchdogExpiry d) s = .next (s.recover d)) ∧
    (s.time < (s.die d).watchdogAt + 25000 → exec (.watchdogExpiry d) s = .next s) ∧
    (s.inService d = false ∨ (s.die d).recovering = true ∨ s.watched d = false → s.recover d = s) ∧
    (s.inService d = true → (s.die d).recovering = false → s.watched d = true → (s.die d).lanes = [] → (s.die d).sessions = [] →
      s.recover d = s.modDie d (fun x => { x with recovering := true, recoverAt := s.time, bootBad := false, harts := Die.reset.harts }))) ∧
  (∀ (s : State) d, (s.die d).recovering = true →
    (s.time < (s.die d).recoverAt + 50000 → exec (.recoveryTimeout d) s = .next s) ∧
    ((s.die d).recoverAt + 50000 ≤ s.time → exec (.recoveryTimeout d) s = .next (s.dieOut d) ∧
      (s.boundOn d = [] → (∀ e ∈ s.strands, e.2.die ≠ d) → (∀ x < 8, (s.die x).shares = []) →
        ((s.dieOut d).die d).boot = .outOfService ∧ ((s.dieOut d).die d).recovering = false ∧ (s.dieOut d).mem = s.mem ∧
        (s.dieOut d).strands = s.strands)))
/-! ## The package and the harbourmaster -/

/-- R381, R382, R415, R416: a compute die that passes the check of its firmware is in step 4 and a quay die in service (log entry 92), one that
fails it has stopped in boot failure; one that is not in service after 20 s is out of service; candidates are collected and the lowest leads, at
once with eight, else after 500 ms; the leader's package number puts every die that has its leader into service with its domain index
8 × p + d, and completes the quay dies' blocks; a power-up, which ends a state without stated behaviour, a loss of power, and the power limit. Whether a check passes is free. BOOT_TIMEOUT of a failed die and entry into service at the
package number are log entry 39, and what a loss of power leaves log entry 45. Completes resetRelease, bootTimeout, candidacy,
electionTimeout, packageNumber, powerGood, powerLoss and setPowerLimit. -/
def Obligations.BootEvents : Prop :=
  (∀ (s : State) d, s.pkg.pwrgood = true → (s.die d).boot = .off →
    ∃ t : State, exec (.resetRelease d) s = .next t ∧ t.mem = s.mem ∧ t.strands = s.strands ∧ (∀ e, e ≠ d → t.die e = s.die e) ∧
      (t.die d).bootSince = s.time ∧
      (Config.bootPasses d s.nfree = true → t.pkg = s.pkg ∧ (t.die d).boot = if d < 8 then .booting 4 else .inService) ∧
      (Config.bootPasses d s.nfree = false →
        (t.die d).boot = .failed 2 ∧ t.pkg.reports = s.pkg.reports ++ [.bootFailure d 2 (Config.bootReason d s.nfree)])) ∧
  (∀ (s : State) d, s.pkg.pwrgood = false ∨ (s.die d).boot ≠ .off → exec (.resetRelease d) s = .next s) ∧
  (∀ (s : State) d n, (s.die d).boot = .booting n ∨ (s.die d).boot = .failed n →
    (s.time < (s.die d).bootSince + 20000000 → exec (.bootTimeout d) s = .next s) ∧
    ((s.die d).bootSince + 20000000 ≤ s.time →
      exec (.bootTimeout d) s = .next ((s.modDie d (fun x => { x with boot := .outOfService })).report (.outOfService d)))) ∧
  (∀ (s : State) d f, (s.die d).boot = .booting 6 → (s.die f).boot = .booting 6 ∨ (s.die f).boot = .inService → (s.die d).leader = none →
    f ∉ (s.die d).candidates →
    ∃ t : State, exec (.candidacy d f) s = .next t ∧ (t.die d).candidates = (s.die d).candidates ++ [f] ∧ t.mem = s.mem ∧
      ((s.die d).firstCand = none → (t.die d).firstCand = some s.time) ∧
      ((s.die d).candidates.length ≠ 7 → (t.die d).leader = none) ∧
      ((s.die d).candidates.length = 7 → (t.die d).leader = lowest ((s.die d).candidates ++ [f]))) ∧
  (∀ (s : State) d w, (s.die d).boot = .booting 6 → (s.die d).leader = none → (s.die d).firstCand = some w →
    (s.time < w + 500000 → exec (.electionTimeout d) s = .next s) ∧
    (w + 500000 ≤ s.time → exec (.electionTimeout d) s = .next (s.modDie d (fun x => { x with leader := lowest x.candidates })))) ∧
  (∀ (s : State) l p, l < 8 → (s.die l).leader = some l → (s.die l).boot = .booting 6 ∨ (s.die l).boot = .inService →
    ∃ t : State, exec (.packageNumber p) s = .next t ∧ t.pkg.number = some (s.pkg.number.getD p) ∧ t.mem = s.mem ∧ t.strands = s.strands ∧
      (∀ d < 8, (s.die d).boot = .booting 6 → (s.die d).leader.isSome = true → (s.die d).void = false →
        (t.die d).boot = .inService ∧ (t.die d).domain = some (8 * s.pkg.number.getD p + d)) ∧
      ∀ q ∈ quayDies, (s.die q).boot = .inService → (s.die q).void = false → (t.die q).measure =
        ((s.die q).measure.set 5 [s.pkg.ports.map (fun x => if x = .extended then 1 else 0)]).set 6
          [[16, Config.serialNo q, q, s.pkg.number.getD p]]) ∧
  (∀ s : State, (s.pkg.pwrgood = true → exec .powerGood s = .next s) ∧
    (s.pkg.pwrgood = false → ∃ t : State, exec .powerGood s = .next t ∧ t.pkg = { s.pkg with pwrgood := true, thermtrip := false } ∧
      t.stuck = none ∧ t.mem = s.mem ∧ t.strands = s.strands ∧ t.ctxs = s.ctxs ∧
      t.dies = s.dies.map (fun (e : Nat × Die) => (e.1, { e.2 with void := false, setPoint := 550 }))) ∧
    ∃ t : State, exec .powerLoss s = .next t ∧ t = { State.reset with
      pkg := { Package.reset with
        pwrgood := false, reports := s.pkg.reports, thermtrip := s.pkg.thermtrip, tripAt := s.pkg.tripAt, teleAt := s.time }
      dies := s.dies.map (fun (e : Nat × Die) => (e.1, { Die.reset with void := e.2.void }))
      stuck := s.stuck, time := s.time, agenda := s.agenda, nextId := s.nextId, nfree := s.nfree }) ∧
  (∀ (s : State) w, (2000 ≤ w → w ≤ 6000 → exec (.setPowerLimit w) s = .next { s with pkg := { s.pkg with limit := w } }) ∧
    (w < 2000 ∨ 6000 < w → exec (.setPowerLimit w) s = .next s))

/-- R416, R419 to R421, R414, R45, R178, R389, R374: thermal stepping from 105 °C, THERMTRIP from 115 °C, whichever event brings the
temperature, and rails; a scrubbed unit that is corrected is counted, and
one that cannot be corrected is poisoned and reported, one of a die's private SRAM stopping that complex; reports; an image that passes its
checks is loaded, and no other; a retired page's leaf and page record name the new place, and a save area moves with its tags. That
THERMAL_STEP starts or ends stepping only is log entry 40, the dies of a rail log entry 18, the checks of an image log entries 42 and 43 and the
form of reports log entry 41. Completes thermalStep, thermtrip, railOutsideTolerance, patrolScrub, telemetryRequest, telemetryReport,
errorCounterRequest, imageLoad and retiredPageMove. -/
def Obligations.PackageEvents : Prop :=
  (∀ (s : State) d c,
    exec (.thermalStep d c) s = .next ((s.thermalAt d c).tripOn d c) ∧
    (115 ≤ c → exec (.thermtrip d c) s = .next ((s.thermalAt d c).tripOn d c)) ∧ (c < 115 → exec (.thermtrip d c) s = .next s) ∧
    (105 ≤ c → (s.die d).thermal = false → s.thermalAt d c = (s.modDie d (fun x => { x with thermal := true })).report (.thermal d c)) ∧
    (c < 100 → (s.die d).thermal = true → s.thermalAt d c = s.modDie d (fun x => { x with thermal := false })) ∧
    (c < 105 → (s.die d).thermal = false → s.thermalAt d c = s) ∧ (100 ≤ c → (s.die d).thermal = true → s.thermalAt d c = s) ∧
    (115 ≤ c → s.pkg.thermtrip = false → s.tripOn d c =
      ({ s with pkg := { s.pkg with thermtrip := true, tripAt := s.time } } : State).report (.thermal d c)) ∧
    (c < 115 ∨ s.pkg.thermtrip = true → s.tripOn d c = s)) ∧
  (∀ (s : State) r, ∃ t : State, exec (.railOutsideTolerance r) s = .next t ∧ t.mem = s.mem ∧ t.strands = s.strands ∧ t.pkg = s.pkg ∧
    (∀ d < 12, (t.die d).void = ((s.die d).void || (railDies r).contains d))) ∧
  (∀ (s : State) b, let a := eccAddr b
    inPackage a = true →
    exec (.patrolScrub b .clean) s = .next s ∧ exec (.patrolScrub b .corrected) s = .next (s.countCorrected (storeOf a)) ∧
    ∀ u, u = ({ s with poisoned := if s.poisoned.contains b then s.poisoned else s.poisoned ++ [b] } : State).report
        (.uncorrectable (storeOf a) (homeDie a) a) →
      (a < 2 ^ 53 → exec (.patrolScrub b .uncorrectable) s = .next u) ∧
      (2 ^ 53 ≤ a → exec (.patrolScrub b .uncorrectable) s = .next (u.recover (homeDie a)))) ∧
  (∀ (s : State) n, (s.countCorrected n).mem = s.mem ∧ storeGet 0 (s.countCorrected n).pkg.corrected n = (storeGet 0 s.pkg.corrected n + 1) % 2 ^ 32) ∧
  (∀ (s : State) r, r = (List.range 16).map (fun x => Config.railPower x s.nfree) ++ (List.range 8).map (fun d => (s.die d).clock) ++
      (List.range 12).map (fun d => Config.temperature d s.nfree) →
    (∃ t : State, exec .telemetryRequest s = .next t ∧ t.pkg.reports = s.pkg.reports ++ [.power r] ∧ t.mem = s.mem ∧ t.dies = s.dies) ∧
    (s.pkg.pwrgood = false ∨ s.time < s.pkg.teleAt + 100000 → exec .telemetryReport s = .next s) ∧
    (s.pkg.pwrgood = true → s.pkg.teleAt + 100000 ≤ s.time → ∃ t : State,
      exec .telemetryReport s = .next t ∧ t.pkg.reports = s.pkg.reports ++ [.power r] ∧ t.pkg.teleAt = s.time ∧ t.mem = s.mem)) ∧
  (∀ (s : State), exec .errorCounterRequest s = .next (s.report (.counters ((List.range 7).map (fun i => storeGet 0 s.pkg.corrected i) ++
    (List.range 28).map (fun p => storeGet 0 s.pkg.pdrops p) ++
    (List.range 8).flatMap (fun d => [(s.die d).bellDrops, (s.die d).tagDrops, (s.die d).errors]))))) ∧
  (∀ (s : State) d tc i bs, bs = imageBundles i.words (i.words.length + 1) 0 →
    ((s.ctx d tc).bound = true → imageRows i ≤ 64 → imageFeatures i bs &&& i.features = imageFeatures i bs → pathsOk bs = true →
      exec (.imageLoad d tc i) s = .next (s.modCtx d tc (fun c => { c with images := storeSet c.images i.id i }))) ∧
    ((s.ctx d tc).bound = false ∨ 64 < imageRows i ∨ imageFeatures i bs &&& i.features ≠ imageFeatures i bs ∨ pathsOk bs = false →
      exec (.imageLoad d tc i) s = .next s)) ∧
  (∀ (s : State) d src dst u r, (s.leafUses (s.domainIdx d)).find? (fun u => u.meets src 1) = some u →
    r = s.moveRange (s.domainIdx d) u.pa u.size → dst % r.2 = 0 → dst + r.2 ≤ osBase → dst + r.2 ≤ r.1 ∨ r.1 + r.2 ≤ dst →
    (∀ x ∈ s.ctxs, ∀ q ∈ x.2.pages, meetsPage s (s.domainIdx d) dst r.2 q x = false) →
    exec (.retiredPageMove d src dst) s = .next (((((s.quiet (s.domainIdx d) r.1 r.2).copyPage (hbmAddr d r.1) (hbmAddr d dst) r.2).zeroRange
      (hbmAddr d r.1) r.2).moveUses (s.domainIdx d) r.1 r.2 d dst))) ∧
  (∀ (s : State) a dst n, memWf s.mem = true → a + n ≤ dst ∨ dst + n ≤ a →
    (∀ i < n, (s.copyPage a dst n).byte (dst + i) = s.byte (a + i)) ∧
    (∀ b, (b < dst ∨ dst + n ≤ b) → (s.copyPage a dst n).byte b = s.byte b)) ∧
  (∀ (s : State) home pa n d dst key c, storeFind s.ctxs key = some c →
    ((s.moveUses home pa n d dst).ctx (key / 1024) (key % 1024)).pages = c.pages.map (fun g =>
      if meetsPage s home pa n g (key, c) then (g.1, g.2.1, s.domainIdx d, dst + (g.2.2.2 - pa)) else g)) ∧
  (∀ b aper pa home, aper < 4 → pa % 4096 = 0 → pa < 2 ^ 46 → home < 1024 →
    Pte.ofNat (leafMoved b aper pa home) = { Pte.ofNat b with aper := aper, pa := pa, home := home }) ∧
  (∀ (s : State) d src dst k y, (s.leafUses (s.domainIdx d)).find? (fun u => u.meets src 1) = none →
    s.strands.find? (fun e => e.2.area == some (hbmAddr d src)) = some (k, y) → dst % areaSize = 0 → osBase + (s.die d).nalloc ≤ dst →
    dst + areaSize ≤ hbmBytes →
    ∃ t : State, exec (.retiredPageMove d src dst) s = .next t ∧
      (∃ w h, t.strand k = { s.strand k with area := some (hbmAddr d dst), view := w, hq := h }) ∧
      (memWf s.mem = true → d < 8 → src + areaSize ≤ dst → ∀ i < areaSize, t.byte (hbmAddr d dst + i) = s.byte (hbmAddr d src + i)))

/-- R383, R384, R385: what a responder answers to a request in no session over MCTP, or in a session that lives, whose time starts anew: the
requests with free replies (log entry 5), the algorithms, the measurements in the negotiated hash with a signature, and a new session while it
has fewer than 64; in a session FINISH secures it, and the others answer; END_SESSION and 60 s of silence end it, and with it the contexts
that it has locked and not started. Completes getVersion, getCapabilities, negotiateAlgorithms, getDigests, getCertificate, challenge,
getMeasurements, keyExchange, finish, keyUpdate, heartbeat, endSession and sessionHeartbeatLapse. -/
def Obligations.SessionEvents : Prop :=
  (∀ (s u : State) q, s.responds q.resp = true →
    (q.sess = 0 ∧ q.via = .mctp ∧ u = s) ∨ (q.sess ≠ 0 ∧ (s.session q.resp q.sess).isSome = true ∧
      u = s.modSession q.resp q.sess (fun x => { x with last := s.time })) →
    (∀ i k, (i = .getVersion q ∧ k = 1) ∨ (i = .getCapabilities q ∧ k = 2) ∨ (i = .getDigests q ∧ k = 4) ∨
        (i = .getCertificate q ∧ k = 5) ∨ (i = .challenge q ∧ k = 6) →
      exec i s = .next (u.report (.spdm k q.resp q.sess [Config.spdmReply k q.resp q.arg]))) ∧
    exec (.negotiateAlgorithms q) s = .next ((u.modDie q.resp (fun d =>
      { d with algs := ⟨q.arg % 2, q.arg / 2 % 2, q.arg / 4 % 2, q.arg / 8 % 2⟩ })).report
        (.spdm 3 q.resp q.sess [Config.spdmReply 3 q.resp (q.arg % 16)])) ∧
    (∀ out, out = (if 1 ≤ q.arg ∧ q.arg ≤ 6 then [(u.die q.resp).measured.getD (q.arg - 1) 0]
        else if q.arg = 16 then [(u.die q.resp).measured.getD 6 0] else (u.die q.resp).measured) →
      exec (.getMeasurements q) s =
        .next (u.report (.spdm 7 q.resp q.sess (out ++ [Config.signature q.resp ((u.die q.resp).algs.asym :: out)])))) ∧
    ((u.die q.resp).sessions.length < 64 → exec (.keyExchange q) s = .next ((({ u with nextId := u.nextId + 1 } : State).modDie q.resp (fun d =>
      { d with sessions := d.sessions ++ [⟨u.nextId, q.arg, false, u.time⟩] })).report (.spdm 8 q.resp u.nextId []))) ∧
    (64 ≤ (u.die q.resp).sessions.length → exec (.keyExchange q) s = .next (u.report (.spdm 8 q.resp 0 []))) ∧
    (q.sess ≠ 0 →
      exec (.finish q) s = .next ((u.modSession q.resp q.sess (fun x => { x with secured := true })).report (.spdm 9 q.resp q.sess [])) ∧
      exec (.keyUpdate q) s = .next (u.report (.spdm 10 q.resp q.sess [])) ∧
      exec (.heartbeat q) s = .next (u.report (.spdm 11 q.resp q.sess [])) ∧
      exec (.endSession q) s = .next ((u.sessionEnd q.resp q.sess).report (.spdm 12 q.resp q.sess [])))) ∧
  (∀ (s : State) d n x, s.session d n = some x →
    (x.last + 60000000 ≤ s.time → exec (.sessionHeartbeatLapse d n) s = .next (s.sessionEnd d n)) ∧
    (s.time < x.last + 60000000 → exec (.sessionHeartbeatLapse d n) s = .next s)) ∧
  (∀ (s : State) d n, s.sessionEnd d n = ((s.ctxs.filter (fun e => e.1 / 1024 == d && e.2.sess == n &&
      (e.2.bind == .locked || e.2.bind == .attested))).map (fun e => e.1 % 1024)).foldl (fun s t => s.ctxRelease d t)
    (s.modDie d (fun x => { x with sessions := x.sessions.filter (fun y => y.sess != n) })))

/-- R23, R385 to R389: in a secured session LOCK takes a free TCID and the tenant's index for the context, with the resources that it asks
for, or none of them; in the session that locked it each item within its limits and features is installed and answered with status 0, and
items with keys turn the context to ERROR when their keys fail; outside LOCKED and that session they are answered with status 1; ATTEST fixes
the negotiated word, START puts an attested context into RUN, and UNBIND of one in RUN or ERROR resets it and leaves it unbound. Which TCID
and index are taken, and whether keys install, is free. The answers in another session are log entry 33, and what LOCK reserves
log entry 90. Completes lock, installKeys, installLinkkeys, installSavekeys, installPart, installRegions, installMemory, installAccount, installBandwidth, installGangs,
installWindow, installQueues, installNotice, installDeleg, installHandlers, installFaultpol, installFeatures, installQuayenrol, attest, start and unbind. -/
def Obligations.BindingEvents : Prop :=
  (∀ (s : State) (r : LockReq) x, s.secured r.die r.sess = some x →
    let h := s.heard r.die r.sess
    ((∃ t < 1024, (s.ctx r.die t).bound = false) → ∃ tc < 1024, (s.ctx r.die tc).bound = false ∧ ∀ o,
      o = (({ h with nfree := h.nfree + 1 } : State).assignIdx x.requester).bind (fun y =>
        (y.2.modCtx r.die tc (fun _ => { Ctx.reset with bind := .locked, sess := r.sess, tenant := y.1 })).reserve tc r) →
      (o = none → exec (.lock r) s = .next (h.report (.command r.die 0 3 0))) ∧
      ∀ u, o = some u → exec (.lock r) s = .next (u.report (.command r.die tc 0 tc))) ∧
    ((∀ t < 1024, (s.ctx r.die t).bound = true) → exec (.lock r) s = .next (h.report (.command r.die 0 3 0)))) ∧
  (∀ (s : State) q, (∀ i, s.tenantIdx q = some i → s.assignIdx q = some (i, s)) ∧
    ∀ i u, s.tenantIdx q = none → s.assignIdx q = some (i, u) → i < 256 ∧ storeFind s.pkg.tenants i = none ∧
      u.pkg.tenants = storeSet s.pkg.tenants i q ∧ u.mem = s.mem) ∧
  (∀ (s u : State) t (r : LockReq), s.reserve t r = some u → ∃ cb db, u.ctx r.die t = { s.ctx r.die t with
    quota := r.mem, crewq := r.crews, csize := r.csize, dsize := r.dsize, cbase := cb, dbase := db }) ∧
  (∀ (s : State) t (r : LockReq), s.allocRegions r.die t r.csize r.dsize = none ∨
    osBase < (s.heldBy r.die t (fun c => c.quota) + r.mem) * 2 ^ 21 ∨ 256 < s.heldBy r.die t (fun c => c.crewq) + r.crews → s.reserve t r = none) ∧
  (∀ (s : State) (b : Bind) (i : Instr) (f : Ctx → Ctx), Locking s b →
    (∃ q, i = .installMemory b q ∧ (s.heldBy b.die b.tcid (fun c => c.quota) + q) * 2 ^ 21 ≤ osBase ∧ f = fun c => { c with quota := q }) ∨
    (∃ q v, i = .installQueues b q v ∧ q ≤ 4095 ∧ v < 2 ^ 48 ∧ f = fun c => { c with qmax := q, sqva := v }) ∨
    (∃ a, i = .installNotice b a ∧ a % 8192 = 0 ∧ a < 2 ^ 48 ∧ f = fun c => { c with notice := some a, nnext := 0, nlost := 0 }) ∨
    (∃ p, i = .installFaultpol b p ∧ p < 4 ∧ f = fun c => { c with faultpol := p }) ∨
    (∃ r, i = .installDeleg b r ∧ r.fflag < 64 ∧ r.frva % 32768 = 0 ∧ r.frva < 2 ^ 48 ∧
      inWord (2 ^ 13) (s.ctx b.die b.tcid).word = true ∧ f = fun c => { c with deleg := ⟨some r, 0⟩ }) ∨
    (∃ h, i = .installHandlers b h ∧ (∀ e ∈ h, e.1 < 16 ∧ e.2.entry < 65536) ∧ inWord (2 ^ 6) (s.ctx b.die b.tcid).word = true ∧
      f = fun c => { c with handlers := h.foldl (fun m e => storeSet m e.1 e.2) [] }) ∨
    (∃ w, i = .installFeatures b w ∧ inWord (s.itemNeeds b.die b.tcid) (w &&& offered) = true ∧ f = fun c => { c with features := some w }) ∨
    (∃ gs : List Nat, i = .installGangs b gs ∧ gs.length ≤ 16 ∧ gs.eraseDups.length = gs.length ∧ (∀ g ∈ gs, 1 ≤ g ∧ g < 65536) ∧
      (∀ e ∈ s.ctxs, e.2.bound = true → e.2.tenant ≠ (s.ctx b.die b.tcid).tenant → ∀ g ∈ gs, g ∉ e.2.gangs) ∧
      f = fun c => { c with gangs := gs }) ∨
    (∃ a, i = .installAccount b a ∧ a.fairpm ≤ 1000 ∧ a.inc ≤ 63 ∧ a.tokens ≤ 255 ∧
      s.heldBy b.die b.tcid (fun c => c.crewq) + a.crewq ≤ 256 ∧ f = fun c => { c with
        energy := { c.energy with cap := a.cap, refill := a.refill, enbal := 256 * (a.cap : Int) }
        fairpm := a.fairpm, inc := a.inc, crewq := a.crewq, tokens := a.tokens }) ∨
    (∃ p u, i = .installPart b p u ∧ p < 256 ∧ u < 2 ∧ inWord (if u = 1 then 2 ^ 11 else 2 ^ 12) (s.ctx b.die b.tcid).word = true ∧
      f = fun c => { c with part := p, suite := u }) ∨
    (∃ w, i = .installWindow b w ∧ winLegal s b w = true ∧ inWord (winNeeds w.wcfg) (s.ctx b.die b.tcid).word = true ∧
      f = fun c => { c with wins := storeSet c.wins w.n (winFrom w) }) ∨
    (∃ sl w cr ta, i = .installBandwidth b sl w cr ta ∧ sl < 2 ∧ 1 ≤ w ∧ w ≤ 255 ∧
      inWord (if cr then 2 ^ 14 else 0) (s.ctx b.die b.tcid).word = true ∧
      f = fun c => { c with critical := c.critical.filter (fun x => x != sl) ++ (if cr then [sl] else []) }) →
    ∃ (t : State) (its : Store Nat), exec i s = .next t ∧ t.ctx b.die b.tcid = { f (s.ctx b.die b.tcid) with items := its } ∧
      t.pkg.reports = s.pkg.reports ++ [.command b.die b.tcid 0 0] ∧ t.strands = s.strands ∧ t.mem = s.mem) ∧
  (∀ (s : State) (b : Bind) (i : Instr) (f : Ctx → Ctx), Locking s b →
    (∃ ks : List (Nat × Nat), i = .installKeys b ks ∧ ks.length ≤ 16 ∧ (ks.map (fun k => k.1)).eraseDups.length = ks.length ∧
      (∀ k ∈ ks, 1 ≤ k.1 ∧ k.1 ≤ 1023) ∧
      (∀ e ∈ s.ctxs, e.2.bound = true → e.2.tenant ≠ (s.ctx b.die b.tcid).tenant → ∀ k ∈ ks, ∀ g ∈ e.2.keys, g.1 ≠ k.1) ∧
      f = fun c => { c with keys := ks }) ∨
    (∃ j id key, i = .installLinkkeys b j id key ∧ j < 8 ∧ id < 1024 ∧ f = fun c => { c with lkeys := storeSet c.lkeys j (id, key) }) ∨
    (∃ key tag, i = .installSavekeys b key tag ∧ f = fun c => { c with saveKeys := some (key, tag) }) ∨
    (∃ key, i = .installQuayenrol b key ∧ (s.pkg.quayKeys.filter (fun k => k.1 != (s.ctx b.die b.tcid).tenant)).length < 64 ∧
      inWord (2 ^ 5) (s.ctx b.die b.tcid).word = true ∧ f = fun c => { c with qenr := true }) →
    ∃ t : State, exec i s = .next t ∧
      (Config.keyInstalls b.die s.nfree = true → ∃ its, t.ctx b.die b.tcid = { f (s.ctx b.die b.tcid) with items := its }) ∧
      (Config.keyInstalls b.die s.nfree = false → (t.ctx b.die b.tcid).bind = .error)) ∧
  (∀ (s : State) b csize dsize bva, Locking s b → csize % 65536 = 0 → dsize % 65536 = 0 → bva % 65536 = 0 → bva < 2 ^ 48 →
    ∃ t : State, exec (.installRegions b csize dsize bva) s = .next t ∧
      (s.allocRegions b.die b.tcid csize dsize = none → t.mem = s.mem ∧ t.pkg.reports = s.pkg.reports ++ [.command b.die b.tcid 3 0]) ∧
      ((s.allocRegions b.die b.tcid csize dsize).isSome = true →
        (t.ctx b.die b.tcid).csize = csize ∧ (t.ctx b.die b.tcid).dsize = dsize ∧ (t.ctx b.die b.tcid).bva = bva ∧
        (∀ a, (∃ r ∈ t.ctxRegions b.die b.tcid, r.1 ≤ a ∧ a < r.1 + r.2) → t.byte a = 0) ∧
        (∀ a, (∀ r ∈ t.ctxRegions b.die b.tcid, a < r.1 ∨ r.1 + r.2 ≤ a) → t.byte a = s.byte a))) ∧
  (∀ (s : State) (b : Bind) (i : Instr), (s.secured b.die b.sess).isSome = true →
    (s.ctx b.die b.tcid).bind ≠ .locked ∨ (s.ctx b.die b.tcid).sess ≠ b.sess →
    (∃ q, i = .installMemory b q) ∨ (∃ q v, i = .installQueues b q v) ∨ (∃ a, i = .installNotice b a) ∨ (∃ p, i = .installFaultpol b p) ∨
      (∃ r, i = .installDeleg b r) ∨ (∃ h, i = .installHandlers b h) ∨ (∃ w, i = .installFeatures b w) ∨ (∃ g, i = .installGangs b g) ∨
      (∃ a, i = .installAccount b a) ∨ (∃ p u, i = .installPart b p u) ∨ (∃ w, i = .installWindow b w) ∨
      (∃ x y z w, i = .installBandwidth b x y z w) ∨ (∃ k, i = .installKeys b k) ∨ (∃ x y z, i = .installLinkkeys b x y z) ∨
      (∃ x y, i = .installSavekeys b x y) ∨ (∃ k, i = .installQuayenrol b k) ∨ (∃ x y z, i = .installRegions b x y z) ∨ (∃ n, i = .attest b n) →
    ∃ t : State, exec i s = .next t ∧ t.pkg.reports = s.pkg.reports ++ [.command b.die b.tcid 1 0] ∧ t.ctxs = s.ctxs ∧ t.mem = s.mem) ∧
  (∀ (s : State) b n, Locking s b → let h := s.heard b.die b.sess
    (h.mapBerth b.die b.tcid = none → exec (.attest b n) s = .next (h.answer b 3 0)) ∧
    (∀ u, h.mapBerth b.die b.tcid = some u → ∃ t : State, exec (.attest b n) s = .next t ∧ t.mem = u.mem ∧
      t.ctx b.die b.tcid = { u.ctx b.die b.tcid with bind := .attested, negotiated := some (s.ctx b.die b.tcid).word }) ∧
    ((s.ctx b.die b.tcid).has 5 = false → h.mapBerth b.die b.tcid = some h)) ∧
  (∀ (s : State) b, (s.secured b.die b.sess).isSome = true →
    ((s.ctx b.die b.tcid).bind = .attested → (s.ctx b.die b.tcid).sess = b.sess →
      ∃ t : State, exec (.start b) s = .next t ∧ t.ctx b.die b.tcid = { s.ctx b.die b.tcid with bind := .run } ∧ t.mem = s.mem ∧
        t.pkg.reports = s.pkg.reports ++ [.command b.die b.tcid 0 0]) ∧
    ((s.ctx b.die b.tcid).bind ≠ .attested ∨ (s.ctx b.die b.tcid).sess ≠ b.sess →
      exec (.start b) s = .next ((s.heard b.die b.sess).answer b 1 0))) ∧
  (∀ (s : State) b x, s.secured b.die b.sess = some x → (s.ctx b.die b.tcid).bind = .run ∨ (s.ctx b.die b.tcid).bind = .error →
    (s.tenantIdx x.requester = some (s.ctx b.die b.tcid).tenant →
      exec (.unbind b) s = .next ((((s.heard b.die b.sess).tenantReset b.die b.tcid)).answer b 0 0)) ∧
    (s.tenantIdx x.requester ≠ some (s.ctx b.die b.tcid).tenant → exec (.unbind b) s = .next ((s.heard b.die b.sess).answer b 1 0))) ∧
  (∀ (s : State) d tc, (∀ e < 8, (s.die e).shares = []) → ((s.ctxRelease d tc).ctx d tc).bind = .unbound)

/-- R294, R366, R367, R373, R405 to R408: a service in RUN, in a session of the tenant, answers with its status: 0 with the change made, else
with nothing changed, but for a bell key that fails to install, with which the context enters ERROR (R385). MAP, UNMAP and PROTECT go page by page; a restore is answered with its own status, after its payloads are written; QRESET
restarts a queue that no lane serves, and waits for one that does; CLEARUNC resynchronises a window or answers that a member has no path.
LOADPILOT's value and PDROP's status are log entry 32, QRESET's wait log entry 28, CLEARUNC's status 4 to a command log entry 36 and a service
outside a session log entry 33. Completes map, unmap, protect, qcreate, qdestroy, qreset, loadpilot, pdrop, window, clearunc, deleg, handlers,
faultpol and restoreService. -/
def Obligations.ServiceEvents : Prop :=
  (∀ (s : State) (b : Bind) (i : Instr) (f : State → Nat × Nat × State),
    (∃ ps, i = .map b ps ∧ f = fun s => plainly (eachPage (fun s p => s.mapOne b p) ps s)) ∨
    (∃ ps, i = .unmap b ps ∧ f = fun s => plainly (eachPage (fun s p => s.unmapOne b p.1 p.2) ps s)) ∨
    (∃ ps, i = .protect b ps ∧ f = fun s => plainly (eachPage (fun s p => s.protectOne b p) ps s)) ∨
    (∃ q, i = .qcreate b q ∧ f = fun s => s.qcreate b q) ∨ (∃ q, i = .qdestroy b q ∧ f = fun s => s.qdestroy b q) ∨
    (∃ w, i = .loadpilot b w ∧ f = fun s => s.loadpilot b w) ∨ (∃ h, i = .pdrop b h ∧ f = fun s => s.pdropHandle b h) ∨
    (∃ w, i = .window b w ∧ f = fun s => s.windowSet b w) ∨ (∃ r, i = .deleg b r ∧ f = fun s => plainly (State.delegSet b r s)) ∨
    (∃ h, i = .handlers b h ∧ f = fun s => plainly (State.handlersSet b h s)) ∨
    (∃ p, i = .faultpol b p ∧ f = fun s => plainly (State.faultpolSet b p s)) →
    let h := s.heard b.die b.sess
    (Serving s b → (f h).1 = 0 ∨ (f h).1 = 5 → exec i s = .next ((f h).2.2.answer b (f h).1 (f h).2.1)) ∧
    (Serving s b → (f h).1 ≠ 0 → (f h).1 ≠ 5 → exec i s = .next (h.answer b (f h).1 (f h).2.1)) ∧
    ((s.secured b.die b.sess).isSome = true → (s.ctx b.die b.tcid).bind ≠ .run → exec i s = .next (h.answer b 1 0)) ∧
    (s.secured b.die b.sess = none → exec i s = .next s)) ∧
  (∀ (s : State) b q, (s.qcreate b q).1 = 5 → (∀ e < 8, (s.die e).shares = []) →
    ((s.qcreate b q).2.2.ctx b.die b.tcid).bind = .error) ∧
  (∀ (s : State) b p, (p < 4 →
      State.faultpolSet b p s = (0, s.modCtx b.die b.tcid (fun c => { c with faultpol := p }))) ∧
    (4 ≤ p → State.faultpolSet b p s = (2, s))) ∧
  (∀ (s : State) b va level, (tenantLeaf s b va level = none → s.unmapOne b va level = (2, s)) ∧
    ∀ l, tenantLeaf s b va level = some l → (s.unmapOne b va level).1 = 0 ∧
      ∀ g ∈ ((s.unmapOne b va level).2.ctx b.die b.tcid).pages, ¬ (g.1 = va ∧ g.2.1 = level)) ∧
  (∀ (s : State) b w, pilotVerify (w.map (fun x => x % 2 ^ 32)) = none → (s.die b.die).pilots.length < 65536 →
    ∃ h u, s.loadpilot b w = (0, h, u) ∧ h < 65536 ∧ h ∉ (s.die b.die).pilots.map (fun e => e.1) ∧ storeFind (u.die b.die).pilots h =
      some ⟨w.map (fun x => x % 2 ^ 32), pilotExt (w.map (fun x => x % 2 ^ 32)), b.tcid⟩ ∧ u.mem = s.mem) ∧
  (∀ (s : State) b w r n, pilotVerify (w.map (fun x => x % 2 ^ 32)) = some (r, n) → s.loadpilot b w = (2, r * 65536 + n, s)) ∧
  (∀ (s : State) b h p, storeFind (s.die b.die).pilots h = some p →
    (p.tcid ≠ b.tcid → s.pdropHandle b h = (2, 0, s)) ∧
    (p.tcid = b.tcid → (∃ e ∈ (s.die b.die).queues, e.2.a.prog = h) → s.pdropHandle b h = (1, 0, s)) ∧
    (p.tcid = b.tcid → (∀ e ∈ (s.die b.die).queues, e.2.a.prog ≠ h) →
      s.pdropHandle b h = (0, 0, s.modDie b.die (fun d => { d with pilots := storeErase d.pilots h })))) ∧
  (∀ (s : State) b w, s.winBusy b.die b.tcid w.n = true → s.windowSet b w = (1, 0, s)) ∧
  (∀ (s : State) b n die rw, Serving s b →
    ((s.heard b.die b.sess).bySerial b.die b.tcid n = none →
      exec (.restoreService b n die rw) s = .next ((s.heard b.die b.sess).answer b 2 0)) ∧
    ∀ k, (s.heard b.die b.sess).bySerial b.die b.tcid n = some k →
      let r := (((s.heard b.die b.sess).modStrand k (fun t => t.rewrite rw)).resave k).restoreTo k die n
      exec (.restoreService b n die rw) s = .next (r.2.answer b r.1 0)) ∧
  (∀ (s : State) b q n pq, q < 4096 → s.bellQueue b.die b.tcid q = some pq →
    ((s.queue b.die pq).lane = none → Serving s b → (s.heard b.die b.sess).bellQueue b.die b.tcid q = some pq →
      exec (.qreset b q n none) s = .next (((s.heard b.die b.sess).modQueue b.die pq (fun x => x.restart n)).answer b 0 0)) ∧
    ((s.queue b.die pq).lane.isSome = true → exec (.qreset b q n none) s = .next s)) ∧
  (∀ (s : State) b q n k, s.hailing k 5 = true → (4096 ≤ ((s.strand k).rs 2).toNat ∨
      s.bellQueue (s.strand k).die (s.strand k).tcid ((s.strand k).rs 2).toNat = none) →
    exec (.qreset b q n (some k)) s = .next (s.hailDone k 1 none)) ∧
  (∀ (s : State) b q n k pq, let t := s.strand k
    s.hailing k 5 = true → (t.rs 2).toNat < 4096 → s.bellQueue t.die t.tcid (t.rs 2).toNat = some pq → (s.queue t.die pq).lane = none →
    exec (.qreset b q n (some k)) s =
      .next ((s.modQueue t.die pq (fun x => x.restart ((t.rs 3).toNat % 2 ^ 32))).hailDone k 0 none)) ∧
  (∀ (s : State) b w, Serving s b → w < 16 → (storeFind (s.ctx b.die b.tcid).wins w).isSome = true →
    exec (.clearunc b w none) s = .next (
      let r := (s.heard b.die b.sess).clearBegin b.die b.tcid w true
      if r.1 then r.2 else (s.heard b.die b.sess).answer b 4 0)) ∧
  (∀ (s : State) b w k, let t := s.strand k
    let n := (t.rs 2).toNat
    s.hailing k 4 = true →
    (16 ≤ n ∨ (storeFind (s.ctx t.die t.tcid).wins n).isNone = true → exec (.clearunc b w (some k)) s = .next (s.hailDone k 1 none)) ∧
    (n < 16 → (storeFind (s.ctx t.die t.tcid).wins n).isSome = true → ((s.ctx t.die t.tcid).win n).clearing = false →
      exec (.clearunc b w (some k)) s = .next (
        let r := s.clearBegin t.die t.tcid n false
        if r.1 then r.2 else s.hailDone k 4 none)))

/-! ## Traps, reset, decoding and the invariant -/

/-- R355, R356, R357 and R359: a trap of a strand that has not executed END gives CAUSE, FVAL, TBUN and TSLOT the cause's values, moves
the strand to SAVING under the context's next save serial and freezes its core; a cause that may not be delegated is held for the
device OS, and nothing else changes. A cause that the fault ring can take is written into its slot, which no other byte of memory changes
with, but for the A and D bits of the leaf that the write uses (R130), unless the fault strand is itself saved; the next slot is named, and the
fault strand's flag is set. -/
def Obligations.TrapEntry : Prop :=
  (∀ (s : State) k p emul, (s.strand k).ending = false → p.cause.delegable emul = false →
    ((s.takeTrap k p emul).strand k) =
      { s.strand k with
        cause := BitVec.ofNat 8 p.cause.code, fval := p.fval, tbun := p.tbun, tslot := p.tslot, st := .saving, saveKind := some .trap
        serial := (s.ctx (s.strand k).die (s.strand k).tcid).serial + 1, wasRetiring := false, osCause := some p, osEmul := emul } ∧
    (s.takeTrap k p emul).ctx (s.strand k).die (s.strand k).tcid =
      { s.ctx (s.strand k).die (s.strand k).tcid with serial := (s.ctx (s.strand k).die (s.strand k).tcid).serial + 1 } ∧
    ((s.takeTrap k p emul).core (s.strand k).core).frozen = true ∧
    ((s.takeTrap k p emul).core (s.strand k).core).issuing ≠ some k ∧
    (s.takeTrap k p emul).mem = s.mem ∧ (∀ j, j ≠ k → (s.takeTrap k p emul).strand j = s.strand j)) ∧
  (∀ (s u : State) k p emul f flag a, u = touchLeaf s (s.strand k).die (s.strand k).tcid (s.ctx (s.strand k).die (s.strand k).tcid).deleg.va true →
    p.cause.delegable emul = true → s.faultSlot k p.cause.code = some (f, flag, a) → flag < 64 →
    ((s.strand f).st ≠ .saved →
      (s.deliver k p emul).byte a = BitVec.ofNat 8 p.cause.code ∧
      (s.deliver k p emul).read (a + 1) 1 = p.tslot % 256 ∧
      (s.deliver k p emul).read (a + 8) 8 = p.fval.toNat ∧
      (s.deliver k p emul).read (a + 82) 2 = (s.strand k).pos % 65536 ∧
      (s.deliver k p emul).read (a + 84) 2 = p.tbun % 65536 ∧
      (s.deliver k p emul).read (a + 88) 8 = (s.strand k).serial % 2 ^ 64 ∧
      (∀ b, b < a ∨ a + 128 ≤ b → (s.deliver k p emul).byte b = u.byte b)) ∧
    ((s.deliver k p emul).ctx (s.strand k).die (s.strand k).tcid).deleg.frnext =
      ((s.ctx (s.strand k).die (s.strand k).tcid).deleg.frnext + 1) % 256 ∧
    ((s.deliver k p emul).strand f).rf flag = true)

/-- Right after reset no strand exists, no context is bound, every die has the charge table of R335 with CF 1,024 and 4 start tokens, each
slice's POOL is 11,264, and memory lists nothing, so that every byte reads 0 (the model's choice, log entry 1: the spec gives HBM no
contents after power-up). A strand starts with every register zero, SPINLIM 32 and IMAXRUN 4,096 (R27). -/
def Obligations.ResetState : Prop :=
  (∀ k, State.reset.hasStrand k = false) ∧
  (∀ d t, (State.reset.ctx d t).bind = .unbound ∧ (State.reset.ctx d t).fairpm = 50 ∧ (State.reset.ctx d t).inc = 4) ∧
  (∀ d, (State.reset.die d).chg = [31, 16, 126, 262, 4404, 3985, 4823, 6, 157, 3775, 64, 5243, 42, 0, 0, 0] ∧
    (State.reset.die d).cf = 1024 ∧ (State.reset.die d).tokens = 4 ∧
    (∀ x ∈ (State.reset.die d).slices, x.pool = 11264) ∧ (State.reset.die d).slices.length = 2) ∧
  memWf State.reset.mem = true ∧ (∀ a, State.reset.byte a = 0) ∧
  (∀ n, Strand.reset.rs n = 0 ∧ Strand.reset.rf n = false ∧ (0 < n → n < 16 → Strand.reset.rp n = false)) ∧
  Strand.reset.spinlim = 32 ∧ Strand.reset.imaxrun = 4096 ∧ Strand.reset.loops = [] ∧ Strand.reset.shadow = []

/-- R48, R53, R57, R60, R61, R143, R172, R233 and R303: words that the spec writes out decode to the operations it writes them out for. -/
def Obligations.DecodeWords : Prop :=
  decodeSyllable .ce 0x0200A00040000000 = .ok (.cwait ⟨⟨0, false⟩, 5, 2⟩) ∧
  decodeSyllable .sy 0x10000002 = .ok (.phase ⟨⟨0, false⟩, 2⟩) ∧
  decodeSyllable .st 0x0600242C18002800 = .ok (.aadd ⟨⟨0, false⟩, 9, 5, ⟨true, 1⟩, ⟨true, 0⟩, none, 1, false, true, 0⟩) ∧
  decodeSyllable .st 0x0200081C00302000 =
    .ok (.stv ⟨⟨0, false⟩, 2, .a, 3, ⟨true, 0⟩, ⟨false, 1⟩, ⟨true, 0⟩, ⟨true, 0⟩, false, 0⟩) ∧
  decodeSyllable .s 0x0300208100000001 = .ok (.addi ⟨⟨0, false⟩, 1, 1, 1⟩) ∧
  decodePilot 0x31800007 = some (.pilotLi ⟨3, 7⟩) ∧
  (∃ b, decodeBundle (List.replicate 27 0 ++ [0x84048000, 0x00000001, 0x03002081, 0x00302000, 0x0200081C]) 27 = .ok b ∧
    b.hdr = ⟨0x84, 0, 4, true, false⟩ ∧ b.syls.map (fun x => x.slot) = [.s, .st] ∧ b.succ = 32 ∧
    b.syls.filterMap (fun x => x.instr) = [.addi ⟨⟨0, false⟩, 1, 1, 1⟩,
      .stv ⟨⟨0, false⟩, 2, .a, 3, ⟨true, 0⟩, ⟨false, 1⟩, ⟨true, 0⟩, ⟨true, 0⟩, false, 0⟩])

/-- R47, R48, R53 to R68, R402 and R403: decoding the encoding of a well-formed instruction gives it back, for every operation of every
slot, every pilot instruction and the empty bundle, with every operand at every value the encoding admits. -/
def Obligations.EncodingRoundTrip : Prop :=
  (∀ i sl, slotOf i = some sl → i.wf = true → decodeSyllable sl (encodeSyllable i) = .ok i) ∧
  (∀ i, isPilot i = true → i.wf = true → decodePilot (encodePilot i) = some i) ∧
  (∀ o : EmptyOps, o.wf = true → ∃ b, decodeBundle (encode (.emptyBundle o)) 0 = .ok b ∧ b.syls = [] ∧
    b.hdr = ⟨0, o.erun, 0, o.lineEnd, o.park⟩) ∧
  (∀ i sl, slotOf i = some sl → i.wf = true → ∃ b, decodeBundle (encode i) 0 = .ok b ∧ b.syls.map (fun x => x.slot) = [sl] ∧
    b.syls.filterMap (fun x => x.instr) = [i])

/-- Every step of the package keeps memory in its canonical form: addresses strictly rising, and nothing listed that equals what an
unlisted address reads as. -/
def Obligations.StepKeepsMemory : Prop :=
  ∀ s t : State, memWf s.mem = true → step s = .next t → memWf t.mem = true

end Statements
end

