-- ==== Sys2Proof/Laws/Store.lean ====
section
/-! SUPPORT. The laws of stores: reading after a change, the canonical form, and what each change keeps. -/
namespace Sys2Proof

/-- A store read at the number just set. -/
@[simp] theorem storeFind_storeSet_same {α : Type} (m : Store α) (a : Nat) (v : α) : storeFind (storeSet m a v) a = some v := by
  induction m with
  | nil => simp [storeSet, storeFind]
  | cons e r ih =>
    obtain ⟨k, w⟩ := e
    simp only [storeSet]
    split
    · simp [storeFind]
    · split
      · simp [storeFind]
      · rename_i h; simp [storeFind, h, ih]

/-- A store read at another number. -/
theorem storeFind_storeSet_other {α : Type} (m : Store α) (a b : Nat) (v : α) (h : b ≠ a) :
    storeFind (storeSet m a v) b = storeFind m b := by
  induction m with
  | nil => simp [storeSet, storeFind, h]
  | cons e r ih =>
    obtain ⟨k, w⟩ := e
    simp only [storeSet]
    split
    · simp [storeFind, h]
    · split
      · rename_i hk; simp [storeFind, h, ← hk]
      · simp [storeFind, ih]

@[simp] theorem storeGet_storeSet_same {α : Type} (d : α) (m : Store α) (a : Nat) (v : α) : storeGet d (storeSet m a v) a = v := by
  simp [storeGet]

theorem storeGet_storeSet_other {α : Type} (d : α) (m : Store α) (a b : Nat) (v : α) (h : b ≠ a) :
    storeGet d (storeSet m a v) b = storeGet d m b := by
  simp [storeGet, storeFind_storeSet_other m a b v h]

/-- Setting a number twice keeps the later value only. -/
@[simp] theorem storeSet_storeSet {α : Type} (m : Store α) (a : Nat) (v w : α) : storeSet (storeSet m a v) a w = storeSet m a w := by
  induction m with
  | nil => simp [storeSet]
  | cons e r ih =>
    obtain ⟨k, x⟩ := e
    simp only [storeSet]
    split
    · simp [storeSet]
    · rename_i h1
      split
      · simp [storeSet]
      · rename_i h2; simp [storeSet, h1, h2, ih]

@[simp] theorem storeFind_storeErase_same {α : Type} (m : Store α) (a : Nat) : storeFind (storeErase m a) a = none := by
  induction m with
  | nil => rfl
  | cons e r ih =>
    obtain ⟨k, w⟩ := e
    by_cases h : k = a
    · simpa [storeErase, h] using ih
    · have h' : a ≠ k := fun e => h e.symm
      simpa [storeErase, h, h', storeFind] using ih

theorem storeFind_storeErase_other {α : Type} (m : Store α) (a b : Nat) (h : b ≠ a) :
    storeFind (storeErase m a) b = storeFind m b := by
  induction m with
  | nil => rfl
  | cons e r ih =>
    obtain ⟨k, w⟩ := e
    by_cases hk : k = a
    · subst hk; simpa [storeErase, storeFind, h] using ih
    · by_cases hb : b = k
      · simp [storeErase, hk, storeFind, hb]
      · simpa [storeErase, hk, storeFind, hb] using ih

@[simp] theorem storeGet_storePut_same {α : Type} [DecidableEq α] (d : α) (m : Store α) (a : Nat) (v : α) :
    storeGet d (storePut d m a v) a = v := by
  unfold storePut; split
  · rename_i h; simp [storeGet, h]
  · simp

theorem storeGet_storePut_other {α : Type} [DecidableEq α] (d : α) (m : Store α) (a b : Nat) (v : α) (h : b ≠ a) :
    storeGet d (storePut d m a v) b = storeGet d m b := by
  unfold storePut; split
  · simp [storeGet, storeFind_storeErase_other m a b h]
  · exact storeGet_storeSet_other d m a b v h

/-! ## The canonical form -/

theorem storeSortedFrom_mono {α : Type} (m : Store α) (a b : Nat) (h : a ≤ b) (hb : storeSortedFrom b m = true) :
    storeSortedFrom a m = true := by
  cases m with
  | nil => rfl
  | cons e r => simp only [storeSortedFrom, Bool.and_eq_true, decide_eq_true_eq] at *; exact ⟨Nat.le_trans h hb.1, hb.2⟩

theorem storeSortedFrom_filter {α : Type} (p : Nat × α → Bool) (m : Store α) (lo : Nat) (h : storeSortedFrom lo m = true) :
    storeSortedFrom lo (m.filter p) = true := by
  induction m generalizing lo with
  | nil => rfl
  | cons e r ih =>
    simp only [storeSortedFrom, Bool.and_eq_true, decide_eq_true_eq] at h
    by_cases hp : p e = true
    · simp only [List.filter_cons, hp, if_true, storeSortedFrom, Bool.and_eq_true, decide_eq_true_eq]; exact ⟨h.1, ih _ h.2⟩
    · simp only [List.filter_cons, hp]; exact storeSortedFrom_mono _ _ _ (by omega) (ih _ h.2)

theorem storeSortedFrom_storeSet {α : Type} (m : Store α) (lo a : Nat) (v : α) (hlo : lo ≤ a) (h : storeSortedFrom lo m = true) :
    storeSortedFrom lo (storeSet m a v) = true := by
  induction m generalizing lo with
  | nil => simp [storeSet, storeSortedFrom, hlo]
  | cons e r ih =>
    obtain ⟨k, w⟩ := e
    simp only [storeSortedFrom, Bool.and_eq_true, decide_eq_true_eq] at h
    simp only [storeSet]
    split
    · simp only [storeSortedFrom, Bool.and_eq_true, decide_eq_true_eq]; exact ⟨hlo, by omega, h.2⟩
    · split
      · rename_i hk; subst hk; simp only [storeSortedFrom, Bool.and_eq_true, decide_eq_true_eq]; exact ⟨hlo, h.2⟩
      · simp only [storeSortedFrom, Bool.and_eq_true, decide_eq_true_eq]; exact ⟨h.1, ih _ (by omega) h.2⟩

theorem storeSet_all {α : Type} (q : α → Bool) (m : Store α) (a : Nat) (v : α) (hv : q v = true)
    (h : m.all (fun e => q e.2) = true) : (storeSet m a v).all (fun e => q e.2) = true := by
  induction m with
  | nil => simp [storeSet, hv]
  | cons e r ih =>
    obtain ⟨k, w⟩ := e
    simp only [List.all_cons, Bool.and_eq_true] at h
    simp only [storeSet]
    split
    · simp only [List.all_cons, Bool.and_eq_true]; exact ⟨hv, h.1, h.2⟩
    · split
      · simp only [List.all_cons, Bool.and_eq_true]; exact ⟨hv, h.2⟩
      · simp only [List.all_cons, Bool.and_eq_true]; exact ⟨h.1, ih h.2⟩

/-- Leaving entries out keeps the canonical form. -/
theorem storeWf_filter {α : Type} [DecidableEq α] (d : α) (p : Nat × α → Bool) (m : Store α) (h : storeWf d m = true) :
    storeWf d (m.filter p) = true := by
  simp only [storeWf, Bool.and_eq_true] at *
  exact ⟨storeSortedFrom_filter p m 0 h.1, List.all_eq_true.mpr (fun e he => List.all_eq_true.mp h.2 e (List.mem_filter.mp he).1)⟩

/-- Giving a number a value keeps the canonical form. -/
theorem storeWf_storePut {α : Type} [DecidableEq α] (d : α) (m : Store α) (a : Nat) (v : α) (h : storeWf d m = true) :
    storeWf d (storePut d m a v) = true := by
  unfold storePut; split
  · exact storeWf_filter d _ m h
  · rename_i hv
    simp only [storeWf, Bool.and_eq_true] at *
    exact ⟨storeSortedFrom_storeSet m 0 a v (Nat.zero_le _) h.1, storeSet_all (fun x => decide (x ≠ d)) m a v (by simpa using hv) h.2⟩

end Sys2Proof
end

