-- ==== Sys2Proof/Laws/State.lean ====
section
/-! SUPPORT. What each named update of the state and of a strand leaves as it was, and reading back what it wrote. -/
namespace Sys2Proof.Machine

/-- modStrand changes the strands only. -/
@[simp] theorem State.modStrand_fields (s : State) (k : Nat) (f : Strand → Strand) :
    (s.modStrand k f).mem = s.mem ∧ (s.modStrand k f).hist = s.hist ∧ (s.modStrand k f).poisoned = s.poisoned ∧
    (s.modStrand k f).badCheck = s.badCheck ∧ (s.modStrand k f).cores = s.cores ∧ (s.modStrand k f).dies = s.dies ∧
    (s.modStrand k f).ctxs = s.ctxs ∧ (s.modStrand k f).launches = s.launches ∧ (s.modStrand k f).jobs = s.jobs ∧
    (s.modStrand k f).xacts = s.xacts ∧ (s.modStrand k f).filters = s.filters ∧ (s.modStrand k f).frags = s.frags ∧
    (s.modStrand k f).groups = s.groups ∧ (s.modStrand k f).bells = s.bells ∧ (s.modStrand k f).steals = s.steals ∧
    (s.modStrand k f).portHeld = s.portHeld ∧ (s.modStrand k f).pkg = s.pkg ∧ (s.modStrand k f).time = s.time ∧
    (s.modStrand k f).agenda = s.agenda ∧ (s.modStrand k f).mode = s.mode ∧ (s.modStrand k f).found = s.found ∧
    (s.modStrand k f).stall = s.stall ∧ (s.modStrand k f).cur = s.cur ∧ (s.modStrand k f).laneDie = s.laneDie ∧
    (s.modStrand k f).laneNum = s.laneNum ∧ (s.modStrand k f).nextId = s.nextId ∧ (s.modStrand k f).nfree = s.nfree ∧
    (s.modStrand k f).stuck = s.stuck :=
  ⟨rfl, rfl, rfl, rfl, rfl, rfl, rfl, rfl, rfl, rfl, rfl, rfl, rfl, rfl, rfl, rfl, rfl, rfl, rfl, rfl, rfl, rfl, rfl, rfl, rfl, rfl, rfl, rfl⟩

/-- setStrand changes the strands only. -/
@[simp] theorem State.setStrand_fields (s : State) (k : Nat) (t : Strand) :
    (s.setStrand k t).mem = s.mem ∧ (s.setStrand k t).hist = s.hist ∧ (s.setStrand k t).poisoned = s.poisoned ∧
    (s.setStrand k t).badCheck = s.badCheck ∧ (s.setStrand k t).cores = s.cores ∧ (s.setStrand k t).dies = s.dies ∧
    (s.setStrand k t).ctxs = s.ctxs ∧ (s.setStrand k t).launches = s.launches ∧ (s.setStrand k t).jobs = s.jobs ∧
    (s.setStrand k t).xacts = s.xacts ∧ (s.setStrand k t).filters = s.filters ∧ (s.setStrand k t).frags = s.frags ∧
    (s.setStrand k t).groups = s.groups ∧ (s.setStrand k t).bells = s.bells ∧ (s.setStrand k t).steals = s.steals ∧
    (s.setStrand k t).portHeld = s.portHeld ∧ (s.setStrand k t).pkg = s.pkg ∧ (s.setStrand k t).time = s.time ∧
    (s.setStrand k t).agenda = s.agenda ∧ (s.setStrand k t).mode = s.mode ∧ (s.setStrand k t).found = s.found ∧
    (s.setStrand k t).stall = s.stall ∧ (s.setStrand k t).cur = s.cur ∧ (s.setStrand k t).laneDie = s.laneDie ∧
    (s.setStrand k t).laneNum = s.laneNum ∧ (s.setStrand k t).nextId = s.nextId ∧ (s.setStrand k t).nfree = s.nfree ∧
    (s.setStrand k t).stuck = s.stuck :=
  ⟨rfl, rfl, rfl, rfl, rfl, rfl, rfl, rfl, rfl, rfl, rfl, rfl, rfl, rfl, rfl, rfl, rfl, rfl, rfl, rfl, rfl, rfl, rfl, rfl, rfl, rfl, rfl, rfl⟩

/-- modCore changes the cores only. -/
@[simp] theorem State.modCore_fields (s : State) (c : Nat) (f : CoreSt → CoreSt) :
    (s.modCore c f).mem = s.mem ∧ (s.modCore c f).hist = s.hist ∧ (s.modCore c f).poisoned = s.poisoned ∧
    (s.modCore c f).badCheck = s.badCheck ∧ (s.modCore c f).strands = s.strands ∧ (s.modCore c f).dies = s.dies ∧
    (s.modCore c f).ctxs = s.ctxs ∧ (s.modCore c f).launches = s.launches ∧ (s.modCore c f).jobs = s.jobs ∧
    (s.modCore c f).xacts = s.xacts ∧ (s.modCore c f).filters = s.filters ∧ (s.modCore c f).frags = s.frags ∧
    (s.modCore c f).groups = s.groups ∧ (s.modCore c f).bells = s.bells ∧ (s.modCore c f).steals = s.steals ∧
    (s.modCore c f).portHeld = s.portHeld ∧ (s.modCore c f).pkg = s.pkg ∧ (s.modCore c f).time = s.time ∧
    (s.modCore c f).agenda = s.agenda ∧ (s.modCore c f).mode = s.mode ∧ (s.modCore c f).found = s.found ∧
    (s.modCore c f).stall = s.stall ∧ (s.modCore c f).cur = s.cur ∧ (s.modCore c f).laneDie = s.laneDie ∧
    (s.modCore c f).laneNum = s.laneNum ∧ (s.modCore c f).nextId = s.nextId ∧ (s.modCore c f).nfree = s.nfree ∧
    (s.modCore c f).stuck = s.stuck :=
  ⟨rfl, rfl, rfl, rfl, rfl, rfl, rfl, rfl, rfl, rfl, rfl, rfl, rfl, rfl, rfl, rfl, rfl, rfl, rfl, rfl, rfl, rfl, rfl, rfl, rfl, rfl, rfl, rfl⟩

/-- modDie changes the dies only. -/
@[simp] theorem State.modDie_fields (s : State) (d : Nat) (f : Die → Die) :
    (s.modDie d f).mem = s.mem ∧ (s.modDie d f).hist = s.hist ∧ (s.modDie d f).poisoned = s.poisoned ∧
    (s.modDie d f).badCheck = s.badCheck ∧ (s.modDie d f).strands = s.strands ∧ (s.modDie d f).cores = s.cores ∧
    (s.modDie d f).ctxs = s.ctxs ∧ (s.modDie d f).launches = s.launches ∧ (s.modDie d f).jobs = s.jobs ∧
    (s.modDie d f).xacts = s.xacts ∧ (s.modDie d f).filters = s.filters ∧ (s.modDie d f).frags = s.frags ∧
    (s.modDie d f).groups = s.groups ∧ (s.modDie d f).bells = s.bells ∧ (s.modDie d f).steals = s.steals ∧
    (s.modDie d f).portHeld = s.portHeld ∧ (s.modDie d f).pkg = s.pkg ∧ (s.modDie d f).time = s.time ∧
    (s.modDie d f).agenda = s.agenda ∧ (s.modDie d f).mode = s.mode ∧ (s.modDie d f).found = s.found ∧
    (s.modDie d f).stall = s.stall ∧ (s.modDie d f).cur = s.cur ∧ (s.modDie d f).laneDie = s.laneDie ∧
    (s.modDie d f).laneNum = s.laneNum ∧ (s.modDie d f).nextId = s.nextId ∧ (s.modDie d f).nfree = s.nfree ∧
    (s.modDie d f).stuck = s.stuck :=
  ⟨rfl, rfl, rfl, rfl, rfl, rfl, rfl, rfl, rfl, rfl, rfl, rfl, rfl, rfl, rfl, rfl, rfl, rfl, rfl, rfl, rfl, rfl, rfl, rfl, rfl, rfl, rfl, rfl⟩

/-- modCtx changes the contexts only. -/
@[simp] theorem State.modCtx_fields (s : State) (d t : Nat) (f : Ctx → Ctx) :
    (s.modCtx d t f).mem = s.mem ∧ (s.modCtx d t f).hist = s.hist ∧ (s.modCtx d t f).poisoned = s.poisoned ∧
    (s.modCtx d t f).badCheck = s.badCheck ∧ (s.modCtx d t f).strands = s.strands ∧ (s.modCtx d t f).cores = s.cores ∧
    (s.modCtx d t f).dies = s.dies ∧ (s.modCtx d t f).launches = s.launches ∧ (s.modCtx d t f).jobs = s.jobs ∧
    (s.modCtx d t f).xacts = s.xacts ∧ (s.modCtx d t f).filters = s.filters ∧ (s.modCtx d t f).frags = s.frags ∧
    (s.modCtx d t f).groups = s.groups ∧ (s.modCtx d t f).bells = s.bells ∧ (s.modCtx d t f).steals = s.steals ∧
    (s.modCtx d t f).portHeld = s.portHeld ∧ (s.modCtx d t f).pkg = s.pkg ∧ (s.modCtx d t f).time = s.time ∧
    (s.modCtx d t f).agenda = s.agenda ∧ (s.modCtx d t f).mode = s.mode ∧ (s.modCtx d t f).found = s.found ∧
    (s.modCtx d t f).stall = s.stall ∧ (s.modCtx d t f).cur = s.cur ∧ (s.modCtx d t f).laneDie = s.laneDie ∧
    (s.modCtx d t f).laneNum = s.laneNum ∧ (s.modCtx d t f).nextId = s.nextId ∧ (s.modCtx d t f).nfree = s.nfree ∧
    (s.modCtx d t f).stuck = s.stuck :=
  ⟨rfl, rfl, rfl, rfl, rfl, rfl, rfl, rfl, rfl, rfl, rfl, rfl, rfl, rfl, rfl, rfl, rfl, rfl, rfl, rfl, rfl, rfl, rfl, rfl, rfl, rfl, rfl, rfl⟩

/-- modLaunch changes the launches only. -/
@[simp] theorem State.modLaunch_fields (s : State) (l : Nat) (f : Launch → Launch) :
    (s.modLaunch l f).mem = s.mem ∧ (s.modLaunch l f).hist = s.hist ∧ (s.modLaunch l f).poisoned = s.poisoned ∧
    (s.modLaunch l f).badCheck = s.badCheck ∧ (s.modLaunch l f).strands = s.strands ∧ (s.modLaunch l f).cores = s.cores ∧
    (s.modLaunch l f).dies = s.dies ∧ (s.modLaunch l f).ctxs = s.ctxs ∧ (s.modLaunch l f).jobs = s.jobs ∧
    (s.modLaunch l f).xacts = s.xacts ∧ (s.modLaunch l f).filters = s.filters ∧ (s.modLaunch l f).frags = s.frags ∧
    (s.modLaunch l f).groups = s.groups ∧ (s.modLaunch l f).bells = s.bells ∧ (s.modLaunch l f).steals = s.steals ∧
    (s.modLaunch l f).portHeld = s.portHeld ∧ (s.modLaunch l f).pkg = s.pkg ∧ (s.modLaunch l f).time = s.time ∧
    (s.modLaunch l f).agenda = s.agenda ∧ (s.modLaunch l f).mode = s.mode ∧ (s.modLaunch l f).found = s.found ∧
    (s.modLaunch l f).stall = s.stall ∧ (s.modLaunch l f).cur = s.cur ∧ (s.modLaunch l f).laneDie = s.laneDie ∧
    (s.modLaunch l f).laneNum = s.laneNum ∧ (s.modLaunch l f).nextId = s.nextId ∧ (s.modLaunch l f).nfree = s.nfree ∧
    (s.modLaunch l f).stuck = s.stuck :=
  ⟨rfl, rfl, rfl, rfl, rfl, rfl, rfl, rfl, rfl, rfl, rfl, rfl, rfl, rfl, rfl, rfl, rfl, rfl, rfl, rfl, rfl, rfl, rfl, rfl, rfl, rfl, rfl, rfl⟩

/-! ## Reading back -/

@[simp] theorem State.strand_modStrand (s : State) (k : Nat) (f : Strand → Strand) : (s.modStrand k f).strand k = f (s.strand k) := by
  simp [State.strand, State.modStrand, State.setStrand]
theorem State.strand_modStrand_other (s : State) (k j : Nat) (f : Strand → Strand) (h : j ≠ k) :
    (s.modStrand k f).strand j = s.strand j := by
  simp [State.strand, State.modStrand, State.setStrand, storeGet_storeSet_other _ _ _ _ _ h]
/-- Two changes of one strand are one change. -/
@[simp] theorem State.modStrand_modStrand (s : State) (k : Nat) (f g : Strand → Strand) :
    (s.modStrand k f).modStrand k g = s.modStrand k (fun t => g (f t)) := by
  simp [State.strand, State.modStrand, State.setStrand]
@[simp] theorem State.core_modCore (s : State) (c : Nat) (f : CoreSt → CoreSt) : (s.modCore c f).core c = f (s.core c) := by
  simp [State.core, State.modCore]
theorem State.core_modCore_other (s : State) (c b : Nat) (f : CoreSt → CoreSt) (h : b ≠ c) : (s.modCore c f).core b = s.core b := by
  simp [State.core, State.modCore, storeGet_storeSet_other _ _ _ _ _ h]
@[simp] theorem State.die_modDie (s : State) (d : Nat) (f : Die → Die) : (s.modDie d f).die d = f (s.die d) := by
  simp [State.die, State.modDie]
theorem State.die_modDie_other (s : State) (d e : Nat) (f : Die → Die) (h : e ≠ d) : (s.modDie d f).die e = s.die e := by
  simp [State.die, State.modDie, storeGet_storeSet_other _ _ _ _ _ h]
@[simp] theorem State.ctx_modCtx (s : State) (d t : Nat) (f : Ctx → Ctx) : (s.modCtx d t f).ctx d t = f (s.ctx d t) := by
  simp [State.ctx, State.modCtx]
theorem State.ctx_modCtx_other (s : State) (d t e u : Nat) (f : Ctx → Ctx) (h : ctxKey e u ≠ ctxKey d t) :
    (s.modCtx d t f).ctx e u = s.ctx e u := by
  simp [State.ctx, State.modCtx, storeGet_storeSet_other _ _ _ _ _ h]
@[simp] theorem State.launch_modLaunch (s : State) (l : Nat) (f : Launch → Launch) : (s.modLaunch l f).launch l = f (s.launch l) := by
  simp [State.launch, State.modLaunch]

/-- Two changes that do the same to a part are the same change. -/
theorem State.modStrand_congr (s : State) (k : Nat) (f g : Strand → Strand) (h : f (s.strand k) = g (s.strand k)) :
    s.modStrand k f = s.modStrand k g := by simp only [State.modStrand, h]
theorem State.modCore_congr (s : State) (c : Nat) (f g : CoreSt → CoreSt) (h : f (s.core c) = g (s.core c)) :
    s.modCore c f = s.modCore c g := by simp only [State.modCore, h]
theorem State.modDie_congr (s : State) (d : Nat) (f g : Die → Die) (h : f (s.die d) = g (s.die d)) :
    s.modDie d f = s.modDie d g := by simp only [State.modDie, h]
theorem State.modCtx_congr (s : State) (d t : Nat) (f g : Ctx → Ctx) (h : f (s.ctx d t) = g (s.ctx d t)) :
    s.modCtx d t f = s.modCtx d t g := by simp only [State.modCtx, h]
/-- Two changes of one part are one change. -/
@[simp] theorem State.modCore_modCore (s : State) (c : Nat) (f g : CoreSt → CoreSt) :
    (s.modCore c f).modCore c g = s.modCore c (fun x => g (f x)) := by simp [State.core, State.modCore]
@[simp] theorem State.modDie_modDie (s : State) (d : Nat) (f g : Die → Die) :
    (s.modDie d f).modDie d g = s.modDie d (fun x => g (f x)) := by simp [State.die, State.modDie]
@[simp] theorem State.modCtx_modCtx (s : State) (d t : Nat) (f g : Ctx → Ctx) :
    (s.modCtx d t f).modCtx d t g = s.modCtx d t (fun x => g (f x)) := by simp [State.ctx, State.modCtx]

/-! ## What each update leaves to the readers of the others -/

@[simp] theorem State.core_modStrand (s : State) (k : Nat) (f : Strand → Strand) (x : Nat) : (s.modStrand k f).core x = s.core x := rfl
@[simp] theorem State.die_modStrand (s : State) (k : Nat) (f : Strand → Strand) (x : Nat) : (s.modStrand k f).die x = s.die x := rfl
@[simp] theorem State.ctx_modStrand (s : State) (k : Nat) (f : Strand → Strand) (x y : Nat) : (s.modStrand k f).ctx x y = s.ctx x y := rfl
@[simp] theorem State.launch_modStrand (s : State) (k : Nat) (f : Strand → Strand) (x : Nat) : (s.modStrand k f).launch x = s.launch x := rfl
@[simp] theorem State.core_setStrand (s : State) (k : Nat) (t : Strand) (x : Nat) : (s.setStrand k t).core x = s.core x := rfl
@[simp] theorem State.die_setStrand (s : State) (k : Nat) (t : Strand) (x : Nat) : (s.setStrand k t).die x = s.die x := rfl
@[simp] theorem State.ctx_setStrand (s : State) (k : Nat) (t : Strand) (x y : Nat) : (s.setStrand k t).ctx x y = s.ctx x y := rfl
@[simp] theorem State.launch_setStrand (s : State) (k : Nat) (t : Strand) (x : Nat) : (s.setStrand k t).launch x = s.launch x := rfl
@[simp] theorem State.strand_modCore (s : State) (c : Nat) (f : CoreSt → CoreSt) (x : Nat) : (s.modCore c f).strand x = s.strand x := rfl
@[simp] theorem State.die_modCore (s : State) (c : Nat) (f : CoreSt → CoreSt) (x : Nat) : (s.modCore c f).die x = s.die x := rfl
@[simp] theorem State.ctx_modCore (s : State) (c : Nat) (f : CoreSt → CoreSt) (x y : Nat) : (s.modCore c f).ctx x y = s.ctx x y := rfl
@[simp] theorem State.launch_modCore (s : State) (c : Nat) (f : CoreSt → CoreSt) (x : Nat) : (s.modCore c f).launch x = s.launch x := rfl
@[simp] theorem State.strand_modDie (s : State) (d : Nat) (f : Die → Die) (x : Nat) : (s.modDie d f).strand x = s.strand x := rfl
@[simp] theorem State.core_modDie (s : State) (d : Nat) (f : Die → Die) (x : Nat) : (s.modDie d f).core x = s.core x := rfl
@[simp] theorem State.ctx_modDie (s : State) (d : Nat) (f : Die → Die) (x y : Nat) : (s.modDie d f).ctx x y = s.ctx x y := rfl
@[simp] theorem State.launch_modDie (s : State) (d : Nat) (f : Die → Die) (x : Nat) : (s.modDie d f).launch x = s.launch x := rfl
@[simp] theorem State.strand_modCtx (s : State) (d t : Nat) (f : Ctx → Ctx) (x : Nat) : (s.modCtx d t f).strand x = s.strand x := rfl
@[simp] theorem State.core_modCtx (s : State) (d t : Nat) (f : Ctx → Ctx) (x : Nat) : (s.modCtx d t f).core x = s.core x := rfl
@[simp] theorem State.die_modCtx (s : State) (d t : Nat) (f : Ctx → Ctx) (x : Nat) : (s.modCtx d t f).die x = s.die x := rfl
@[simp] theorem State.launch_modCtx (s : State) (d t : Nat) (f : Ctx → Ctx) (x : Nat) : (s.modCtx d t f).launch x = s.launch x := rfl
@[simp] theorem State.strand_modLaunch (s : State) (l : Nat) (f : Launch → Launch) (x : Nat) : (s.modLaunch l f).strand x = s.strand x := rfl
@[simp] theorem State.core_modLaunch (s : State) (l : Nat) (f : Launch → Launch) (x : Nat) : (s.modLaunch l f).core x = s.core x := rfl
@[simp] theorem State.die_modLaunch (s : State) (l : Nat) (f : Launch → Launch) (x : Nat) : (s.modLaunch l f).die x = s.die x := rfl
@[simp] theorem State.ctx_modLaunch (s : State) (l : Nat) (f : Launch → Launch) (x y : Nat) : (s.modLaunch l f).ctx x y = s.ctx x y := rfl

@[simp] theorem State.self_modStrand (s : State) (k : Nat) (f : Strand → Strand) : (s.modStrand k f).self = s.self := rfl
@[simp] theorem State.self_modDie (s : State) (d : Nat) (f : Die → Die) : (s.modDie d f).self = s.self := rfl
@[simp] theorem State.self_modCtx (s : State) (d t : Nat) (f : Ctx → Ctx) : (s.modCtx d t f).self = s.self := rfl

/-! ## Register files of a strand (R69) -/

/-- A write by ws changes its own file only. -/
@[simp] theorem Strand.ws_fields (t : Strand) (n : Nat) (v : Word) :
    (t.ws n v).lid = t.lid ∧ (t.ws n v).num = t.num ∧ (t.ws n v).die = t.die ∧ (t.ws n v).tcid = t.tcid ∧
    (t.ws n v).image = t.image ∧ (t.ws n v).supervisor = t.supervisor ∧ (t.ws n v).ga = t.ga ∧ (t.ws n v).gb = t.gb ∧
    (t.ws n v).nlatch = t.nlatch ∧ (t.ws n v).ntile = t.ntile ∧ (t.ws n v).csu = t.csu ∧ (t.ws n v).cgrp = t.cgrp ∧
    (t.ws n v).place = t.place ∧ (t.ws n v).home = t.home ∧ (t.ws n v).base = t.base ∧ (t.ws n v).st = t.st ∧
    (t.ws n v).preg = t.preg ∧ (t.ws n v).va = t.va ∧ (t.ws n v).vb = t.vb ∧ (t.ws n v).ma = t.ma ∧ (t.ws n v).mb = t.mb ∧
    (t.ws n v).latches = t.latches ∧ (t.ws n v).mpShadow = t.mpShadow ∧ (t.ws n v).mpActive = t.mpActive ∧
    (t.ws n v).ftab = t.ftab ∧ (t.ws n v).lay = t.lay ∧ (t.ws n v).flags = t.flags ∧ (t.ws n v).tiles = t.tiles ∧
    (t.ws n v).accBad = t.accBad ∧ (t.ws n v).planes = t.planes ∧ (t.ws n v).rofmt = t.rofmt ∧ (t.ws n v).mq = t.mq ∧
    (t.ws n v).chain = t.chain ∧ (t.ws n v).pos = t.pos ∧ (t.ws n v).eres = t.eres ∧ (t.ws n v).bres = t.bres ∧
    (t.ws n v).next = t.next ∧ (t.ws n v).bun = t.bun ∧ (t.ws n v).loops = t.loops ∧ (t.ws n v).lres = t.lres ∧
    (t.ws n v).parkStat = t.parkStat ∧ (t.ws n v).ldone = t.ldone ∧ (t.ws n v).lbase = t.lbase ∧ (t.ws n v).floor = t.floor ∧
    (t.ws n v).shadow = t.shadow ∧ (t.ws n v).spilled = t.spilled ∧ (t.ws n v).runCount = t.runCount ∧
    (t.ws n v).hsave = t.hsave ∧ (t.ws n v).hq = t.hq ∧ (t.ws n v).stopRq = t.stopRq ∧ (t.ws n v).ckptRq = t.ckptRq ∧
    (t.ws n v).drain = t.drain ∧ (t.ws n v).parked = t.parked ∧ (t.ws n v).skipped = t.skipped ∧
    (t.ws n v).tokPaid = t.tokPaid ∧ (t.ws n v).tested = t.tested ∧ (t.ws n v).resumed = t.resumed ∧
    (t.ws n v).hndDue = t.hndDue ∧ (t.ws n v).polls = t.polls ∧ (t.ws n v).pollAt = t.pollAt ∧
    (t.ws n v).switchTo = t.switchTo ∧ (t.ws n v).suppress = t.suppress ∧ (t.ws n v).icyc = t.icyc ∧
    (t.ws n v).readySince = t.readySince ∧ (t.ws n v).selectedAt = t.selectedAt ∧ (t.ws n v).selectedIcyc = t.selectedIcyc ∧
    (t.ws n v).waiterSince = t.waiterSince ∧ (t.ws n v).ftsel = t.ftsel ∧ (t.ws n v).spinlim = t.spinlim ∧
    (t.ws n v).prioBase = t.prioBase ∧ (t.ws n v).prioCeil = t.prioCeil ∧ (t.ws n v).pen = t.pen ∧ (t.ws n v).gang = t.gang ∧
    (t.ws n v).remt = t.remt ∧ (t.ws n v).imaxrun = t.imaxrun ∧ (t.ws n v).cause = t.cause ∧ (t.ws n v).fval = t.fval ∧
    (t.ws n v).tbun = t.tbun ∧ (t.ws n v).tslot = t.tslot ∧ (t.ws n v).allowOut = t.allowOut ∧
    (t.ws n v).allowLim = t.allowLim ∧ (t.ws n v).range = t.range ∧ (t.ws n v).wait = t.wait ∧
    (t.ws n v).crewDone = t.crewDone ∧ (t.ws n v).inflight = t.inflight ∧ (t.ws n v).causes = t.causes ∧
    (t.ws n v).reqs = t.reqs ∧ (t.ws n v).view = t.view ∧ (t.ws n v).ownAway = t.ownAway ∧ (t.ws n v).lastAcq = t.lastAcq ∧
    (t.ws n v).engOps = t.engOps ∧ (t.ws n v).fence = t.fence ∧ (t.ws n v).winPartial = t.winPartial ∧
    (t.ws n v).winPend = t.winPend ∧ (t.ws n v).winUsed = t.winUsed ∧ (t.ws n v).saveKind = t.saveKind ∧
    (t.ws n v).serial = t.serial ∧ (t.ws n v).osCause = t.osCause ∧ (t.ws n v).osEmul = t.osEmul ∧
    (t.ws n v).emuData = t.emuData ∧ (t.ws n v).emuLdh = t.emuLdh ∧ (t.ws n v).img = t.img ∧ (t.ws n v).area = t.area ∧
    (t.ws n v).spill = t.spill ∧ (t.ws n v).ownLost = t.ownLost ∧ (t.ws n v).wasRetiring = t.wasRetiring ∧
    (t.ws n v).phased = t.phased ∧ (t.ws n v).due = t.due :=
  by unfold Strand.ws; split <;> exact ⟨rfl, rfl, rfl, rfl, rfl, rfl, rfl, rfl, rfl, rfl, rfl, rfl, rfl, rfl, rfl, rfl, rfl, rfl, rfl, rfl, rfl, rfl, rfl, rfl, rfl, rfl, rfl, rfl, rfl, rfl, rfl, rfl, rfl, rfl, rfl, rfl, rfl, rfl, rfl, rfl, rfl, rfl, rfl, rfl, rfl, rfl, rfl, rfl, rfl, rfl, rfl, rfl, rfl, rfl, rfl, rfl, rfl, rfl, rfl, rfl, rfl, rfl, rfl, rfl, rfl, rfl, rfl, rfl, rfl, rfl, rfl, rfl, rfl, rfl, rfl, rfl, rfl, rfl, rfl, rfl, rfl, rfl, rfl, rfl, rfl, rfl, rfl, rfl, rfl, rfl, rfl, rfl, rfl, rfl, rfl, rfl, rfl, rfl, rfl, rfl, rfl, rfl, rfl, rfl, rfl, rfl, rfl, rfl⟩

/-- A write by wp changes its own file only. -/
@[simp] theorem Strand.wp_fields (t : Strand) (n : Nat) (b : Bool) :
    (t.wp n b).lid = t.lid ∧ (t.wp n b).num = t.num ∧ (t.wp n b).die = t.die ∧ (t.wp n b).tcid = t.tcid ∧
    (t.wp n b).image = t.image ∧ (t.wp n b).supervisor = t.supervisor ∧ (t.wp n b).ga = t.ga ∧ (t.wp n b).gb = t.gb ∧
    (t.wp n b).nlatch = t.nlatch ∧ (t.wp n b).ntile = t.ntile ∧ (t.wp n b).csu = t.csu ∧ (t.wp n b).cgrp = t.cgrp ∧
    (t.wp n b).place = t.place ∧ (t.wp n b).home = t.home ∧ (t.wp n b).base = t.base ∧ (t.wp n b).st = t.st ∧
    (t.wp n b).sreg = t.sreg ∧ (t.wp n b).va = t.va ∧ (t.wp n b).vb = t.vb ∧ (t.wp n b).ma = t.ma ∧ (t.wp n b).mb = t.mb ∧
    (t.wp n b).latches = t.latches ∧ (t.wp n b).mpShadow = t.mpShadow ∧ (t.wp n b).mpActive = t.mpActive ∧
    (t.wp n b).ftab = t.ftab ∧ (t.wp n b).lay = t.lay ∧ (t.wp n b).flags = t.flags ∧ (t.wp n b).tiles = t.tiles ∧
    (t.wp n b).accBad = t.accBad ∧ (t.wp n b).planes = t.planes ∧ (t.wp n b).rofmt = t.rofmt ∧ (t.wp n b).mq = t.mq ∧
    (t.wp n b).chain = t.chain ∧ (t.wp n b).pos = t.pos ∧ (t.wp n b).eres = t.eres ∧ (t.wp n b).bres = t.bres ∧
    (t.wp n b).next = t.next ∧ (t.wp n b).bun = t.bun ∧ (t.wp n b).loops = t.loops ∧ (t.wp n b).lres = t.lres ∧
    (t.wp n b).parkStat = t.parkStat ∧ (t.wp n b).ldone = t.ldone ∧ (t.wp n b).lbase = t.lbase ∧ (t.wp n b).floor = t.floor ∧
    (t.wp n b).shadow = t.shadow ∧ (t.wp n b).spilled = t.spilled ∧ (t.wp n b).runCount = t.runCount ∧
    (t.wp n b).hsave = t.hsave ∧ (t.wp n b).hq = t.hq ∧ (t.wp n b).stopRq = t.stopRq ∧ (t.wp n b).ckptRq = t.ckptRq ∧
    (t.wp n b).drain = t.drain ∧ (t.wp n b).parked = t.parked ∧ (t.wp n b).skipped = t.skipped ∧
    (t.wp n b).tokPaid = t.tokPaid ∧ (t.wp n b).tested = t.tested ∧ (t.wp n b).resumed = t.resumed ∧
    (t.wp n b).hndDue = t.hndDue ∧ (t.wp n b).polls = t.polls ∧ (t.wp n b).pollAt = t.pollAt ∧
    (t.wp n b).switchTo = t.switchTo ∧ (t.wp n b).suppress = t.suppress ∧ (t.wp n b).icyc = t.icyc ∧
    (t.wp n b).readySince = t.readySince ∧ (t.wp n b).selectedAt = t.selectedAt ∧ (t.wp n b).selectedIcyc = t.selectedIcyc ∧
    (t.wp n b).waiterSince = t.waiterSince ∧ (t.wp n b).ftsel = t.ftsel ∧ (t.wp n b).spinlim = t.spinlim ∧
    (t.wp n b).prioBase = t.prioBase ∧ (t.wp n b).prioCeil = t.prioCeil ∧ (t.wp n b).pen = t.pen ∧ (t.wp n b).gang = t.gang ∧
    (t.wp n b).remt = t.remt ∧ (t.wp n b).imaxrun = t.imaxrun ∧ (t.wp n b).cause = t.cause ∧ (t.wp n b).fval = t.fval ∧
    (t.wp n b).tbun = t.tbun ∧ (t.wp n b).tslot = t.tslot ∧ (t.wp n b).allowOut = t.allowOut ∧
    (t.wp n b).allowLim = t.allowLim ∧ (t.wp n b).range = t.range ∧ (t.wp n b).wait = t.wait ∧
    (t.wp n b).crewDone = t.crewDone ∧ (t.wp n b).inflight = t.inflight ∧ (t.wp n b).causes = t.causes ∧
    (t.wp n b).reqs = t.reqs ∧ (t.wp n b).view = t.view ∧ (t.wp n b).ownAway = t.ownAway ∧ (t.wp n b).lastAcq = t.lastAcq ∧
    (t.wp n b).engOps = t.engOps ∧ (t.wp n b).fence = t.fence ∧ (t.wp n b).winPartial = t.winPartial ∧
    (t.wp n b).winPend = t.winPend ∧ (t.wp n b).winUsed = t.winUsed ∧ (t.wp n b).saveKind = t.saveKind ∧
    (t.wp n b).serial = t.serial ∧ (t.wp n b).osCause = t.osCause ∧ (t.wp n b).osEmul = t.osEmul ∧
    (t.wp n b).emuData = t.emuData ∧ (t.wp n b).emuLdh = t.emuLdh ∧ (t.wp n b).img = t.img ∧ (t.wp n b).area = t.area ∧
    (t.wp n b).spill = t.spill ∧ (t.wp n b).ownLost = t.ownLost ∧ (t.wp n b).wasRetiring = t.wasRetiring ∧
    (t.wp n b).phased = t.phased ∧ (t.wp n b).due = t.due :=
  by unfold Strand.wp; split <;> exact ⟨rfl, rfl, rfl, rfl, rfl, rfl, rfl, rfl, rfl, rfl, rfl, rfl, rfl, rfl, rfl, rfl, rfl, rfl, rfl, rfl, rfl, rfl, rfl, rfl, rfl, rfl, rfl, rfl, rfl, rfl, rfl, rfl, rfl, rfl, rfl, rfl, rfl, rfl, rfl, rfl, rfl, rfl, rfl, rfl, rfl, rfl, rfl, rfl, rfl, rfl, rfl, rfl, rfl, rfl, rfl, rfl, rfl, rfl, rfl, rfl, rfl, rfl, rfl, rfl, rfl, rfl, rfl, rfl, rfl, rfl, rfl, rfl, rfl, rfl, rfl, rfl, rfl, rfl, rfl, rfl, rfl, rfl, rfl, rfl, rfl, rfl, rfl, rfl, rfl, rfl, rfl, rfl, rfl, rfl, rfl, rfl, rfl, rfl, rfl, rfl, rfl, rfl, rfl, rfl, rfl, rfl, rfl, rfl⟩

/-- A write by wv changes its own file only. -/
@[simp] theorem Strand.wv_fields (t : Strand) (f : VFile) (n : Nat) (v : Vec) :
    (t.wv f n v).lid = t.lid ∧ (t.wv f n v).num = t.num ∧ (t.wv f n v).die = t.die ∧ (t.wv f n v).tcid = t.tcid ∧
    (t.wv f n v).image = t.image ∧ (t.wv f n v).supervisor = t.supervisor ∧ (t.wv f n v).ga = t.ga ∧ (t.wv f n v).gb = t.gb ∧
    (t.wv f n v).nlatch = t.nlatch ∧ (t.wv f n v).ntile = t.ntile ∧ (t.wv f n v).csu = t.csu ∧ (t.wv f n v).cgrp = t.cgrp ∧
    (t.wv f n v).place = t.place ∧ (t.wv f n v).home = t.home ∧ (t.wv f n v).base = t.base ∧ (t.wv f n v).st = t.st ∧
    (t.wv f n v).sreg = t.sreg ∧ (t.wv f n v).preg = t.preg ∧ (t.wv f n v).ma = t.ma ∧ (t.wv f n v).mb = t.mb ∧
    (t.wv f n v).latches = t.latches ∧ (t.wv f n v).mpShadow = t.mpShadow ∧ (t.wv f n v).mpActive = t.mpActive ∧
    (t.wv f n v).ftab = t.ftab ∧ (t.wv f n v).lay = t.lay ∧ (t.wv f n v).flags = t.flags ∧ (t.wv f n v).tiles = t.tiles ∧
    (t.wv f n v).accBad = t.accBad ∧ (t.wv f n v).planes = t.planes ∧ (t.wv f n v).rofmt = t.rofmt ∧ (t.wv f n v).mq = t.mq ∧
    (t.wv f n v).chain = t.chain ∧ (t.wv f n v).pos = t.pos ∧ (t.wv f n v).eres = t.eres ∧ (t.wv f n v).bres = t.bres ∧
    (t.wv f n v).next = t.next ∧ (t.wv f n v).bun = t.bun ∧ (t.wv f n v).loops = t.loops ∧ (t.wv f n v).lres = t.lres ∧
    (t.wv f n v).parkStat = t.parkStat ∧ (t.wv f n v).ldone = t.ldone ∧ (t.wv f n v).lbase = t.lbase ∧
    (t.wv f n v).floor = t.floor ∧ (t.wv f n v).shadow = t.shadow ∧ (t.wv f n v).spilled = t.spilled ∧
    (t.wv f n v).runCount = t.runCount ∧ (t.wv f n v).hsave = t.hsave ∧ (t.wv f n v).hq = t.hq ∧
    (t.wv f n v).stopRq = t.stopRq ∧ (t.wv f n v).ckptRq = t.ckptRq ∧ (t.wv f n v).drain = t.drain ∧
    (t.wv f n v).parked = t.parked ∧ (t.wv f n v).skipped = t.skipped ∧ (t.wv f n v).tokPaid = t.tokPaid ∧
    (t.wv f n v).tested = t.tested ∧ (t.wv f n v).resumed = t.resumed ∧ (t.wv f n v).hndDue = t.hndDue ∧
    (t.wv f n v).polls = t.polls ∧ (t.wv f n v).pollAt = t.pollAt ∧ (t.wv f n v).switchTo = t.switchTo ∧
    (t.wv f n v).suppress = t.suppress ∧ (t.wv f n v).icyc = t.icyc ∧ (t.wv f n v).readySince = t.readySince ∧
    (t.wv f n v).selectedAt = t.selectedAt ∧ (t.wv f n v).selectedIcyc = t.selectedIcyc ∧
    (t.wv f n v).waiterSince = t.waiterSince ∧ (t.wv f n v).ftsel = t.ftsel ∧ (t.wv f n v).spinlim = t.spinlim ∧
    (t.wv f n v).prioBase = t.prioBase ∧ (t.wv f n v).prioCeil = t.prioCeil ∧ (t.wv f n v).pen = t.pen ∧
    (t.wv f n v).gang = t.gang ∧ (t.wv f n v).remt = t.remt ∧ (t.wv f n v).imaxrun = t.imaxrun ∧ (t.wv f n v).cause = t.cause ∧
    (t.wv f n v).fval = t.fval ∧ (t.wv f n v).tbun = t.tbun ∧ (t.wv f n v).tslot = t.tslot ∧
    (t.wv f n v).allowOut = t.allowOut ∧ (t.wv f n v).allowLim = t.allowLim ∧ (t.wv f n v).range = t.range ∧
    (t.wv f n v).wait = t.wait ∧ (t.wv f n v).crewDone = t.crewDone ∧ (t.wv f n v).inflight = t.inflight ∧
    (t.wv f n v).causes = t.causes ∧ (t.wv f n v).reqs = t.reqs ∧ (t.wv f n v).view = t.view ∧
    (t.wv f n v).ownAway = t.ownAway ∧ (t.wv f n v).lastAcq = t.lastAcq ∧ (t.wv f n v).engOps = t.engOps ∧
    (t.wv f n v).fence = t.fence ∧ (t.wv f n v).winPartial = t.winPartial ∧ (t.wv f n v).winPend = t.winPend ∧
    (t.wv f n v).winUsed = t.winUsed ∧ (t.wv f n v).saveKind = t.saveKind ∧ (t.wv f n v).serial = t.serial ∧
    (t.wv f n v).osCause = t.osCause ∧ (t.wv f n v).osEmul = t.osEmul ∧ (t.wv f n v).emuData = t.emuData ∧
    (t.wv f n v).emuLdh = t.emuLdh ∧ (t.wv f n v).img = t.img ∧ (t.wv f n v).area = t.area ∧ (t.wv f n v).spill = t.spill ∧
    (t.wv f n v).ownLost = t.ownLost ∧ (t.wv f n v).wasRetiring = t.wasRetiring ∧ (t.wv f n v).phased = t.phased ∧
    (t.wv f n v).due = t.due :=
  by cases f <;> exact ⟨rfl, rfl, rfl, rfl, rfl, rfl, rfl, rfl, rfl, rfl, rfl, rfl, rfl, rfl, rfl, rfl, rfl, rfl, rfl, rfl, rfl, rfl, rfl, rfl, rfl, rfl, rfl, rfl, rfl, rfl, rfl, rfl, rfl, rfl, rfl, rfl, rfl, rfl, rfl, rfl, rfl, rfl, rfl, rfl, rfl, rfl, rfl, rfl, rfl, rfl, rfl, rfl, rfl, rfl, rfl, rfl, rfl, rfl, rfl, rfl, rfl, rfl, rfl, rfl, rfl, rfl, rfl, rfl, rfl, rfl, rfl, rfl, rfl, rfl, rfl, rfl, rfl, rfl, rfl, rfl, rfl, rfl, rfl, rfl, rfl, rfl, rfl, rfl, rfl, rfl, rfl, rfl, rfl, rfl, rfl, rfl, rfl, rfl, rfl, rfl, rfl, rfl, rfl, rfl, rfl, rfl, rfl⟩

/-- A write by wm changes its own file only. -/
@[simp] theorem Strand.wm_fields (t : Strand) (f : VFile) (n : Nat) (v : Mask) :
    (t.wm f n v).lid = t.lid ∧ (t.wm f n v).num = t.num ∧ (t.wm f n v).die = t.die ∧ (t.wm f n v).tcid = t.tcid ∧
    (t.wm f n v).image = t.image ∧ (t.wm f n v).supervisor = t.supervisor ∧ (t.wm f n v).ga = t.ga ∧ (t.wm f n v).gb = t.gb ∧
    (t.wm f n v).nlatch = t.nlatch ∧ (t.wm f n v).ntile = t.ntile ∧ (t.wm f n v).csu = t.csu ∧ (t.wm f n v).cgrp = t.cgrp ∧
    (t.wm f n v).place = t.place ∧ (t.wm f n v).home = t.home ∧ (t.wm f n v).base = t.base ∧ (t.wm f n v).st = t.st ∧
    (t.wm f n v).sreg = t.sreg ∧ (t.wm f n v).preg = t.preg ∧ (t.wm f n v).va = t.va ∧ (t.wm f n v).vb = t.vb ∧
    (t.wm f n v).latches = t.latches ∧ (t.wm f n v).mpShadow = t.mpShadow ∧ (t.wm f n v).mpActive = t.mpActive ∧
    (t.wm f n v).ftab = t.ftab ∧ (t.wm f n v).lay = t.lay ∧ (t.wm f n v).flags = t.flags ∧ (t.wm f n v).tiles = t.tiles ∧
    (t.wm f n v).accBad = t.accBad ∧ (t.wm f n v).planes = t.planes ∧ (t.wm f n v).rofmt = t.rofmt ∧ (t.wm f n v).mq = t.mq ∧
    (t.wm f n v).chain = t.chain ∧ (t.wm f n v).pos = t.pos ∧ (t.wm f n v).eres = t.eres ∧ (t.wm f n v).bres = t.bres ∧
    (t.wm f n v).next = t.next ∧ (t.wm f n v).bun = t.bun ∧ (t.wm f n v).loops = t.loops ∧ (t.wm f n v).lres = t.lres ∧
    (t.wm f n v).parkStat = t.parkStat ∧ (t.wm f n v).ldone = t.ldone ∧ (t.wm f n v).lbase = t.lbase ∧
    (t.wm f n v).floor = t.floor ∧ (t.wm f n v).shadow = t.shadow ∧ (t.wm f n v).spilled = t.spilled ∧
    (t.wm f n v).runCount = t.runCount ∧ (t.wm f n v).hsave = t.hsave ∧ (t.wm f n v).hq = t.hq ∧
    (t.wm f n v).stopRq = t.stopRq ∧ (t.wm f n v).ckptRq = t.ckptRq ∧ (t.wm f n v).drain = t.drain ∧
    (t.wm f n v).parked = t.parked ∧ (t.wm f n v).skipped = t.skipped ∧ (t.wm f n v).tokPaid = t.tokPaid ∧
    (t.wm f n v).tested = t.tested ∧ (t.wm f n v).resumed = t.resumed ∧ (t.wm f n v).hndDue = t.hndDue ∧
    (t.wm f n v).polls = t.polls ∧ (t.wm f n v).pollAt = t.pollAt ∧ (t.wm f n v).switchTo = t.switchTo ∧
    (t.wm f n v).suppress = t.suppress ∧ (t.wm f n v).icyc = t.icyc ∧ (t.wm f n v).readySince = t.readySince ∧
    (t.wm f n v).selectedAt = t.selectedAt ∧ (t.wm f n v).selectedIcyc = t.selectedIcyc ∧
    (t.wm f n v).waiterSince = t.waiterSince ∧ (t.wm f n v).ftsel = t.ftsel ∧ (t.wm f n v).spinlim = t.spinlim ∧
    (t.wm f n v).prioBase = t.prioBase ∧ (t.wm f n v).prioCeil = t.prioCeil ∧ (t.wm f n v).pen = t.pen ∧
    (t.wm f n v).gang = t.gang ∧ (t.wm f n v).remt = t.remt ∧ (t.wm f n v).imaxrun = t.imaxrun ∧ (t.wm f n v).cause = t.cause ∧
    (t.wm f n v).fval = t.fval ∧ (t.wm f n v).tbun = t.tbun ∧ (t.wm f n v).tslot = t.tslot ∧
    (t.wm f n v).allowOut = t.allowOut ∧ (t.wm f n v).allowLim = t.allowLim ∧ (t.wm f n v).range = t.range ∧
    (t.wm f n v).wait = t.wait ∧ (t.wm f n v).crewDone = t.crewDone ∧ (t.wm f n v).inflight = t.inflight ∧
    (t.wm f n v).causes = t.causes ∧ (t.wm f n v).reqs = t.reqs ∧ (t.wm f n v).view = t.view ∧
    (t.wm f n v).ownAway = t.ownAway ∧ (t.wm f n v).lastAcq = t.lastAcq ∧ (t.wm f n v).engOps = t.engOps ∧
    (t.wm f n v).fence = t.fence ∧ (t.wm f n v).winPartial = t.winPartial ∧ (t.wm f n v).winPend = t.winPend ∧
    (t.wm f n v).winUsed = t.winUsed ∧ (t.wm f n v).saveKind = t.saveKind ∧ (t.wm f n v).serial = t.serial ∧
    (t.wm f n v).osCause = t.osCause ∧ (t.wm f n v).osEmul = t.osEmul ∧ (t.wm f n v).emuData = t.emuData ∧
    (t.wm f n v).emuLdh = t.emuLdh ∧ (t.wm f n v).img = t.img ∧ (t.wm f n v).area = t.area ∧ (t.wm f n v).spill = t.spill ∧
    (t.wm f n v).ownLost = t.ownLost ∧ (t.wm f n v).wasRetiring = t.wasRetiring ∧ (t.wm f n v).phased = t.phased ∧
    (t.wm f n v).due = t.due :=
  by unfold Strand.wm; split <;> cases f <;> exact ⟨rfl, rfl, rfl, rfl, rfl, rfl, rfl, rfl, rfl, rfl, rfl, rfl, rfl, rfl, rfl, rfl, rfl, rfl, rfl, rfl, rfl, rfl, rfl, rfl, rfl, rfl, rfl, rfl, rfl, rfl, rfl, rfl, rfl, rfl, rfl, rfl, rfl, rfl, rfl, rfl, rfl, rfl, rfl, rfl, rfl, rfl, rfl, rfl, rfl, rfl, rfl, rfl, rfl, rfl, rfl, rfl, rfl, rfl, rfl, rfl, rfl, rfl, rfl, rfl, rfl, rfl, rfl, rfl, rfl, rfl, rfl, rfl, rfl, rfl, rfl, rfl, rfl, rfl, rfl, rfl, rfl, rfl, rfl, rfl, rfl, rfl, rfl, rfl, rfl, rfl, rfl, rfl, rfl, rfl, rfl, rfl, rfl, rfl, rfl, rfl, rfl, rfl, rfl, rfl, rfl, rfl, rfl⟩

/-- A write by wh changes its own file only. -/
@[simp] theorem Strand.wh_fields (t : Strand) (n : Nat) (l : Latch) :
    (t.wh n l).lid = t.lid ∧ (t.wh n l).num = t.num ∧ (t.wh n l).die = t.die ∧ (t.wh n l).tcid = t.tcid ∧
    (t.wh n l).image = t.image ∧ (t.wh n l).supervisor = t.supervisor ∧ (t.wh n l).ga = t.ga ∧ (t.wh n l).gb = t.gb ∧
    (t.wh n l).nlatch = t.nlatch ∧ (t.wh n l).ntile = t.ntile ∧ (t.wh n l).csu = t.csu ∧ (t.wh n l).cgrp = t.cgrp ∧
    (t.wh n l).place = t.place ∧ (t.wh n l).home = t.home ∧ (t.wh n l).base = t.base ∧ (t.wh n l).st = t.st ∧
    (t.wh n l).sreg = t.sreg ∧ (t.wh n l).preg = t.preg ∧ (t.wh n l).va = t.va ∧ (t.wh n l).vb = t.vb ∧ (t.wh n l).ma = t.ma ∧
    (t.wh n l).mb = t.mb ∧ (t.wh n l).mpShadow = t.mpShadow ∧ (t.wh n l).mpActive = t.mpActive ∧ (t.wh n l).ftab = t.ftab ∧
    (t.wh n l).lay = t.lay ∧ (t.wh n l).flags = t.flags ∧ (t.wh n l).tiles = t.tiles ∧ (t.wh n l).accBad = t.accBad ∧
    (t.wh n l).planes = t.planes ∧ (t.wh n l).rofmt = t.rofmt ∧ (t.wh n l).mq = t.mq ∧ (t.wh n l).chain = t.chain ∧
    (t.wh n l).pos = t.pos ∧ (t.wh n l).eres = t.eres ∧ (t.wh n l).bres = t.bres ∧ (t.wh n l).next = t.next ∧
    (t.wh n l).bun = t.bun ∧ (t.wh n l).loops = t.loops ∧ (t.wh n l).lres = t.lres ∧ (t.wh n l).parkStat = t.parkStat ∧
    (t.wh n l).ldone = t.ldone ∧ (t.wh n l).lbase = t.lbase ∧ (t.wh n l).floor = t.floor ∧ (t.wh n l).shadow = t.shadow ∧
    (t.wh n l).spilled = t.spilled ∧ (t.wh n l).runCount = t.runCount ∧ (t.wh n l).hsave = t.hsave ∧ (t.wh n l).hq = t.hq ∧
    (t.wh n l).stopRq = t.stopRq ∧ (t.wh n l).ckptRq = t.ckptRq ∧ (t.wh n l).drain = t.drain ∧ (t.wh n l).parked = t.parked ∧
    (t.wh n l).skipped = t.skipped ∧ (t.wh n l).tokPaid = t.tokPaid ∧ (t.wh n l).tested = t.tested ∧
    (t.wh n l).resumed = t.resumed ∧ (t.wh n l).hndDue = t.hndDue ∧ (t.wh n l).polls = t.polls ∧ (t.wh n l).pollAt = t.pollAt ∧
    (t.wh n l).switchTo = t.switchTo ∧ (t.wh n l).suppress = t.suppress ∧ (t.wh n l).icyc = t.icyc ∧
    (t.wh n l).readySince = t.readySince ∧ (t.wh n l).selectedAt = t.selectedAt ∧ (t.wh n l).selectedIcyc = t.selectedIcyc ∧
    (t.wh n l).waiterSince = t.waiterSince ∧ (t.wh n l).ftsel = t.ftsel ∧ (t.wh n l).spinlim = t.spinlim ∧
    (t.wh n l).prioBase = t.prioBase ∧ (t.wh n l).prioCeil = t.prioCeil ∧ (t.wh n l).pen = t.pen ∧ (t.wh n l).gang = t.gang ∧
    (t.wh n l).remt = t.remt ∧ (t.wh n l).imaxrun = t.imaxrun ∧ (t.wh n l).cause = t.cause ∧ (t.wh n l).fval = t.fval ∧
    (t.wh n l).tbun = t.tbun ∧ (t.wh n l).tslot = t.tslot ∧ (t.wh n l).allowOut = t.allowOut ∧
    (t.wh n l).allowLim = t.allowLim ∧ (t.wh n l).range = t.range ∧ (t.wh n l).wait = t.wait ∧
    (t.wh n l).crewDone = t.crewDone ∧ (t.wh n l).inflight = t.inflight ∧ (t.wh n l).causes = t.causes ∧
    (t.wh n l).reqs = t.reqs ∧ (t.wh n l).view = t.view ∧ (t.wh n l).ownAway = t.ownAway ∧ (t.wh n l).lastAcq = t.lastAcq ∧
    (t.wh n l).engOps = t.engOps ∧ (t.wh n l).fence = t.fence ∧ (t.wh n l).winPartial = t.winPartial ∧
    (t.wh n l).winPend = t.winPend ∧ (t.wh n l).winUsed = t.winUsed ∧ (t.wh n l).saveKind = t.saveKind ∧
    (t.wh n l).serial = t.serial ∧ (t.wh n l).osCause = t.osCause ∧ (t.wh n l).osEmul = t.osEmul ∧
    (t.wh n l).emuData = t.emuData ∧ (t.wh n l).emuLdh = t.emuLdh ∧ (t.wh n l).img = t.img ∧ (t.wh n l).area = t.area ∧
    (t.wh n l).spill = t.spill ∧ (t.wh n l).ownLost = t.ownLost ∧ (t.wh n l).wasRetiring = t.wasRetiring ∧
    (t.wh n l).phased = t.phased ∧ (t.wh n l).due = t.due :=
  ⟨rfl, rfl, rfl, rfl, rfl, rfl, rfl, rfl, rfl, rfl, rfl, rfl, rfl, rfl, rfl, rfl, rfl, rfl, rfl, rfl, rfl, rfl, rfl, rfl, rfl, rfl, rfl, rfl, rfl, rfl, rfl, rfl, rfl, rfl, rfl, rfl, rfl, rfl, rfl, rfl, rfl, rfl, rfl, rfl, rfl, rfl, rfl, rfl, rfl, rfl, rfl, rfl, rfl, rfl, rfl, rfl, rfl, rfl, rfl, rfl, rfl, rfl, rfl, rfl, rfl, rfl, rfl, rfl, rfl, rfl, rfl, rfl, rfl, rfl, rfl, rfl, rfl, rfl, rfl, rfl, rfl, rfl, rfl, rfl, rfl, rfl, rfl, rfl, rfl, rfl, rfl, rfl, rfl, rfl, rfl, rfl, rfl, rfl, rfl, rfl, rfl, rfl, rfl, rfl, rfl, rfl, rfl, rfl⟩

/-- A write by wf changes its own file only. -/
@[simp] theorem Strand.wf_fields (t : Strand) (n : Nat) (b : Bool) :
    (t.wf n b).lid = t.lid ∧ (t.wf n b).num = t.num ∧ (t.wf n b).die = t.die ∧ (t.wf n b).tcid = t.tcid ∧
    (t.wf n b).image = t.image ∧ (t.wf n b).supervisor = t.supervisor ∧ (t.wf n b).ga = t.ga ∧ (t.wf n b).gb = t.gb ∧
    (t.wf n b).nlatch = t.nlatch ∧ (t.wf n b).ntile = t.ntile ∧ (t.wf n b).csu = t.csu ∧ (t.wf n b).cgrp = t.cgrp ∧
    (t.wf n b).place = t.place ∧ (t.wf n b).home = t.home ∧ (t.wf n b).base = t.base ∧ (t.wf n b).st = t.st ∧
    (t.wf n b).sreg = t.sreg ∧ (t.wf n b).preg = t.preg ∧ (t.wf n b).va = t.va ∧ (t.wf n b).vb = t.vb ∧ (t.wf n b).ma = t.ma ∧
    (t.wf n b).mb = t.mb ∧ (t.wf n b).latches = t.latches ∧ (t.wf n b).mpShadow = t.mpShadow ∧
    (t.wf n b).mpActive = t.mpActive ∧ (t.wf n b).ftab = t.ftab ∧ (t.wf n b).lay = t.lay ∧ (t.wf n b).tiles = t.tiles ∧
    (t.wf n b).accBad = t.accBad ∧ (t.wf n b).planes = t.planes ∧ (t.wf n b).rofmt = t.rofmt ∧ (t.wf n b).mq = t.mq ∧
    (t.wf n b).chain = t.chain ∧ (t.wf n b).pos = t.pos ∧ (t.wf n b).eres = t.eres ∧ (t.wf n b).bres = t.bres ∧
    (t.wf n b).next = t.next ∧ (t.wf n b).bun = t.bun ∧ (t.wf n b).loops = t.loops ∧ (t.wf n b).lres = t.lres ∧
    (t.wf n b).parkStat = t.parkStat ∧ (t.wf n b).ldone = t.ldone ∧ (t.wf n b).lbase = t.lbase ∧ (t.wf n b).floor = t.floor ∧
    (t.wf n b).shadow = t.shadow ∧ (t.wf n b).spilled = t.spilled ∧ (t.wf n b).runCount = t.runCount ∧
    (t.wf n b).hsave = t.hsave ∧ (t.wf n b).hq = t.hq ∧ (t.wf n b).stopRq = t.stopRq ∧ (t.wf n b).ckptRq = t.ckptRq ∧
    (t.wf n b).drain = t.drain ∧ (t.wf n b).parked = t.parked ∧ (t.wf n b).skipped = t.skipped ∧
    (t.wf n b).tokPaid = t.tokPaid ∧ (t.wf n b).tested = t.tested ∧ (t.wf n b).resumed = t.resumed ∧
    (t.wf n b).hndDue = t.hndDue ∧ (t.wf n b).polls = t.polls ∧ (t.wf n b).pollAt = t.pollAt ∧
    (t.wf n b).switchTo = t.switchTo ∧ (t.wf n b).suppress = t.suppress ∧ (t.wf n b).icyc = t.icyc ∧
    (t.wf n b).readySince = t.readySince ∧ (t.wf n b).selectedAt = t.selectedAt ∧ (t.wf n b).selectedIcyc = t.selectedIcyc ∧
    (t.wf n b).waiterSince = t.waiterSince ∧ (t.wf n b).ftsel = t.ftsel ∧ (t.wf n b).spinlim = t.spinlim ∧
    (t.wf n b).prioBase = t.prioBase ∧ (t.wf n b).prioCeil = t.prioCeil ∧ (t.wf n b).pen = t.pen ∧ (t.wf n b).gang = t.gang ∧
    (t.wf n b).remt = t.remt ∧ (t.wf n b).imaxrun = t.imaxrun ∧ (t.wf n b).cause = t.cause ∧ (t.wf n b).fval = t.fval ∧
    (t.wf n b).tbun = t.tbun ∧ (t.wf n b).tslot = t.tslot ∧ (t.wf n b).allowOut = t.allowOut ∧
    (t.wf n b).allowLim = t.allowLim ∧ (t.wf n b).range = t.range ∧ (t.wf n b).wait = t.wait ∧
    (t.wf n b).crewDone = t.crewDone ∧ (t.wf n b).inflight = t.inflight ∧ (t.wf n b).causes = t.causes ∧
    (t.wf n b).reqs = t.reqs ∧ (t.wf n b).view = t.view ∧ (t.wf n b).ownAway = t.ownAway ∧ (t.wf n b).lastAcq = t.lastAcq ∧
    (t.wf n b).engOps = t.engOps ∧ (t.wf n b).fence = t.fence ∧ (t.wf n b).winPartial = t.winPartial ∧
    (t.wf n b).winPend = t.winPend ∧ (t.wf n b).winUsed = t.winUsed ∧ (t.wf n b).saveKind = t.saveKind ∧
    (t.wf n b).serial = t.serial ∧ (t.wf n b).osCause = t.osCause ∧ (t.wf n b).osEmul = t.osEmul ∧
    (t.wf n b).emuData = t.emuData ∧ (t.wf n b).emuLdh = t.emuLdh ∧ (t.wf n b).img = t.img ∧ (t.wf n b).area = t.area ∧
    (t.wf n b).spill = t.spill ∧ (t.wf n b).ownLost = t.ownLost ∧ (t.wf n b).wasRetiring = t.wasRetiring ∧
    (t.wf n b).phased = t.phased ∧ (t.wf n b).due = t.due :=
  ⟨rfl, rfl, rfl, rfl, rfl, rfl, rfl, rfl, rfl, rfl, rfl, rfl, rfl, rfl, rfl, rfl, rfl, rfl, rfl, rfl, rfl, rfl, rfl, rfl, rfl, rfl, rfl, rfl, rfl, rfl, rfl, rfl, rfl, rfl, rfl, rfl, rfl, rfl, rfl, rfl, rfl, rfl, rfl, rfl, rfl, rfl, rfl, rfl, rfl, rfl, rfl, rfl, rfl, rfl, rfl, rfl, rfl, rfl, rfl, rfl, rfl, rfl, rfl, rfl, rfl, rfl, rfl, rfl, rfl, rfl, rfl, rfl, rfl, rfl, rfl, rfl, rfl, rfl, rfl, rfl, rfl, rfl, rfl, rfl, rfl, rfl, rfl, rfl, rfl, rfl, rfl, rfl, rfl, rfl, rfl, rfl, rfl, rfl, rfl, rfl, rfl, rfl, rfl, rfl, rfl, rfl, rfl, rfl⟩

/-- A report changes the package's reports only. -/
@[simp] theorem State.report_fields (s : State) (r : Report) :
    (s.report r).mem = s.mem ∧ (s.report r).strands = s.strands ∧ (s.report r).cores = s.cores ∧ (s.report r).dies = s.dies ∧
    (s.report r).ctxs = s.ctxs ∧ (s.report r).launches = s.launches ∧ (s.report r).time = s.time ∧ (s.report r).nfree = s.nfree ∧
    (s.report r).pkg.reports = s.pkg.reports ++ [r] := ⟨rfl, rfl, rfl, rfl, rfl, rfl, rfl, rfl, rfl⟩
@[simp] theorem State.strand_report (s : State) (r : Report) (x : Nat) : (s.report r).strand x = s.strand x := rfl
@[simp] theorem State.die_report (s : State) (r : Report) (x : Nat) : (s.report r).die x = s.die x := rfl
@[simp] theorem State.ctx_report (s : State) (r : Report) (x y : Nat) : (s.report r).ctx x y = s.ctx x y := rfl
@[simp] theorem State.core_report (s : State) (r : Report) (x : Nat) : (s.report r).core x = s.core x := rfl
/-- A free value used changes its counter only. -/
@[simp] theorem State.die_nfree (s : State) (n x : Nat) : ({ s with nfree := n } : State).die x = s.die x := rfl
@[simp] theorem State.strand_nfree (s : State) (n x : Nat) : ({ s with nfree := n } : State).strand x = s.strand x := rfl
@[simp] theorem State.ctx_nfree (s : State) (n x y : Nat) : ({ s with nfree := n } : State).ctx x y = s.ctx x y := rfl
@[simp] theorem State.core_nfree (s : State) (n x : Nat) : ({ s with nfree := n } : State).core x = s.core x := rfl

/-- s0 reads zero. -/
@[simp] theorem Strand.rs_zero (t : Strand) : t.rs 0 = 0 := rfl
/-- p0 reads true. -/
@[simp] theorem Strand.rp_zero (t : Strand) : t.rp 0 = true := rfl
/-- A scalar register reads what was written; s0 reads zero whatever was written. -/
theorem Strand.rs_ws (t : Strand) (n m : Nat) (v : Word) : (t.ws n v).rs m = if m = 0 then 0 else if m = n then v else t.rs m := by
  unfold Strand.rs Strand.ws
  by_cases h0 : m = 0
  · simp [h0]
  · by_cases hn : n = 0
    · have : m ≠ n := by omega
      simp [h0, hn]
    · by_cases h : m = n
      · subst h; simp [h0]
      · simp [h0, hn, h, storeGet_storePut_other _ _ _ _ _ h]
/-- A latch reads what was written. -/
theorem Strand.rh_wh (t : Strand) (n m : Nat) (l : Latch) : (t.wh n l).rh m = if m = n then l else t.rh m := by
  unfold Strand.rh Strand.wh
  by_cases h : m = n
  · subst h; simp
  · simp [h, storeGet_storePut_other _ _ _ _ _ h]

end Sys2Proof.Machine
end

