-- ==== Sys2Proof/Laws/Memory.lean ====
section
/-! SUPPORT. The laws of memory: what a byte reads after a write, and that every memory operation keeps the canonical form. -/
namespace Sys2Proof.Machine

/-! ## Canonical form -/

theorem memWf_setMem (m : List Host.Cell) (a : Nat) (b : Byte) (h : memWf m = true) : memWf (setMem m a b) = true :=
  storeWf_storePut emptyByte m a b h

theorem memWf_writeBytes (bs : List Byte) (m : List Host.Cell) (a : Nat) (h : memWf m = true) : memWf (writeBytes m a bs) = true := by
  induction bs generalizing m a with
  | nil => exact h
  | cons b r ih => exact ih _ _ (memWf_setMem m a b h)

theorem memWf_cells (cs : List Host.Cell) (m : List Host.Cell) (h : memWf m = true) :
    memWf (cs.foldl (fun m c => setMem m c.1 c.2) m) = true := by
  induction cs generalizing m with
  | nil => exact h
  | cons c r ih => exact ih _ (memWf_setMem m c.1 c.2 h)

theorem memWf_filter (p : Host.Cell → Bool) (m : List Host.Cell) (h : memWf m = true) : memWf (m.filter p) = true :=
  storeWf_filter emptyByte p m h

theorem State.poke_memWf (s : State) (a n v : Nat) (h : memWf s.mem = true) : memWf (s.poke a n v).mem = true :=
  memWf_writeBytes _ _ _ h

theorem State.pokeBytes_memWf (s : State) (a : Nat) (bs : List Byte) (h : memWf s.mem = true) : memWf (s.pokeBytes a bs).mem = true :=
  memWf_writeBytes _ _ _ h

theorem State.pokeCells_memWf (s : State) (cs : List Host.Cell) (h : memWf s.mem = true) : memWf (s.pokeCells cs).mem = true :=
  memWf_cells cs s.mem h

theorem State.perform_memWf (s : State) (wr : Writer) (a w d : Nat) (h : memWf s.mem = true) : memWf (s.perform wr a w d).mem = true :=
  memWf_writeBytes _ _ _ h

theorem State.performEls_memWf (wr : Writer) (els : List (Nat × Nat × Nat)) (s : State) (h : memWf s.mem = true) :
    memWf (s.performEls wr els).mem = true := by
  induction els generalizing s with
  | nil => exact h
  | cons e r ih => exact ih _ (s.perform_memWf wr e.1 e.2.1 e.2.2 h)

theorem State.performBytes_memWf (s : State) (wr : Writer) (a : Nat) (bs : List Byte) (h : memWf s.mem = true) :
    memWf (s.performBytes wr a bs).mem = true := State.performEls_memWf wr _ s h

/-- Publication, poison and SPIN wake-ups leave memory as it is. -/
@[simp] theorem State.publish_mem (s : State) (k x : Nat) : (s.publish k x).mem = s.mem := rfl
@[simp] theorem State.publishWids_mem (s : State) (w : List Nat) (x : Nat) : (s.publishWids w x).mem = s.mem := rfl
@[simp] theorem State.clearPoison_mem (s : State) (ws : List (Nat × Nat)) : (s.clearPoison ws).mem = s.mem := rfl
@[simp] theorem State.wakeSpin_mem (s : State) (ws : List (Nat × Nat)) : (s.wakeSpin ws).mem = s.mem := rfl

theorem State.homeWrite_memWf (s : State) (wr : Writer) (els : List (Nat × Nat × Nat)) (h : memWf s.mem = true) :
    memWf (s.homeWrite wr els).mem = true := State.performEls_memWf wr els s h

theorem State.deviceWrite_memWf (s : State) (die a : Nat) (bs : List Byte) (x : Nat) (h : memWf s.mem = true) :
    memWf (s.deviceWrite die a bs x).2.mem = true := State.homeWrite_memWf _ _ _ h

theorem State.scratchWrite_memWf (s : State) (cs : List Host.Cell) (h : memWf s.mem = true) : memWf (s.scratchWrite cs).mem = true :=
  memWf_cells cs s.mem h

/-- A translation used keeps the canonical form, and changes no strand (R130). -/
theorem touchLeaf_memWf (s : State) (die tcid va : Nat) (w : Bool) (h : memWf s.mem = true) : memWf (touchLeaf s die tcid va w).mem = true := by
  unfold touchLeaf
  split
  · exact h
  · dsimp only
    split
    · exact s.poke_memWf _ _ _ h
    · exact s.poke_memWf _ _ _ h
@[simp] theorem touchLeaf_strand (s : State) (die tcid va : Nat) (w : Bool) (k : Nat) : (touchLeaf s die tcid va w).strand k = s.strand k := by
  unfold touchLeaf
  split
  · rfl
  · dsimp only
    split <;> rfl

/-! ## Save images (R362, R363, R371) -/

theorem State.zeroRange_memWf (s : State) (a n : Nat) (h : memWf s.mem = true) : memWf (s.zeroRange a n).mem = true :=
  memWf_filter _ _ h

/-- Numbers poked one after another keep the canonical form. -/
theorem State.pokes_memWf {α : Type} (p : α → Nat × Nat × Nat) (l : List α) (s : State) (h : memWf s.mem = true) :
    memWf (l.foldl (fun s e => s.poke (p e).1 (p e).2.1 (p e).2.2) s).mem = true := by
  induction l generalizing s with
  | nil => exact h
  | cons e r ih => exact ih _ (s.poke_memWf _ _ _ h)

theorem State.writeImage_memWf (s : State) (k : Nat) (h : memWf s.mem = true) : memWf (s.writeImage k).mem = true := by
  unfold State.writeImage
  dsimp only
  split
  · exact h
  · rename_i a _
    generalize saveImage s k = l, (imgPlan (s.strand k)).len = n
    have h1 := State.pokes_memWf (fun f : ImgField => (a + f.off, f.n, f.val)) l _ (s.zeroRange_memWf a areaSize h)
    dsimp only at h1
    generalize l.foldl _ _ = u at h1 ⊢
    generalize (u.imageTags k (n / 64)).zipIdx = g
    exact State.pokes_memWf (fun g : Word × Nat => (a + n + 8 * g.2, 8, g.1.toNat)) g u h1

theorem State.resave_memWf (s : State) (k : Nat) (h : memWf s.mem = true) : memWf (s.resave k).mem = true := by
  unfold State.resave
  split
  · exact s.writeImage_memWf k h
  · exact h

/-- Numbers poked one after another change memory only. -/
theorem State.pokes_strand {α : Type} (p : α → Nat × Nat × Nat) (l : List α) (s : State) (k : Nat) :
    (l.foldl (fun s e => s.poke (p e).1 (p e).2.1 (p e).2.2) s).strand k = s.strand k := by
  induction l generalizing s with
  | nil => rfl
  | cons e r ih => rw [List.foldl_cons, ih]; rfl

/-- A save image written changes no strand. -/
@[simp] theorem State.writeImage_strand (s : State) (k j : Nat) : (s.writeImage k).strand j = s.strand j := by
  unfold State.writeImage
  dsimp only
  split
  · rfl
  · rename_i a _
    generalize saveImage s k = l, (imgPlan (s.strand k)).len = n
    have h1 := State.pokes_strand (fun f : ImgField => (a + f.off, f.n, f.val)) l (s.zeroRange a areaSize) j
    dsimp only at h1
    generalize l.foldl _ _ = u at h1 ⊢
    generalize (u.imageTags k (n / 64)).zipIdx = g
    exact (State.pokes_strand (fun g : Word × Nat => (a + n + 8 * g.2, 8, g.1.toNat)) g u j).trans (h1.trans rfl)

/-- The same of an image written anew. -/
@[simp] theorem State.resave_strand (s : State) (k j : Nat) : (s.resave k).strand j = s.strand j := by
  unfold State.resave
  split
  · exact s.writeImage_strand k j
  · rfl

/-- What reaches a strand that is not saved is written to no save area. -/
theorem State.resave_of_not_saved {s : State} {k : Nat} (h : (s.strand k).st ≠ .saved) : s.resave k = s := by
  simp [State.resave, h]

/-! ## Reading after writing -/

/-- A byte of memory after one byte is written. -/
theorem byte_setMem (m : List Host.Cell) (a b : Nat) (v : Byte) :
    storeGet emptyByte (setMem m a v) b = if b = a then v else storeGet emptyByte m b := by
  by_cases h : b = a
  · subst h; simp [setMem]
  · simp [setMem, h, storeGet_storePut_other _ _ _ _ _ h]

/-- A byte of memory after bytes are written from an address up. -/
theorem byte_writeBytes (bs : List Byte) (m : List Host.Cell) (a b : Nat) :
    storeGet emptyByte (writeBytes m a bs) b =
      if a ≤ b ∧ b < a + bs.length then bs.getD (b - a) 0 else storeGet emptyByte m b := by
  induction bs generalizing m a with
  | nil => simp [writeBytes] <;> omega
  | cons x r ih =>
    simp only [writeBytes, ih, byte_setMem, List.length_cons]
    by_cases h1 : b = a
    · subst h1; simp <;> omega
    · by_cases h2 : a + 1 ≤ b ∧ b < a + 1 + r.length
      · have h3 : a ≤ b ∧ b < a + (r.length + 1) := by omega
        have h4 : b - a = (b - (a + 1)) + 1 := by omega
        simp only [h2, h3, and_self, if_true, h4, List.getD_cons_succ]
      · have h3 : ¬(a ≤ b ∧ b < a + (r.length + 1)) := by omega
        simp only [h2, h3, if_false, h1]

theorem leBytes_length (n v : Nat) : (leBytes n v).length = n := by
  induction n generalizing v with
  | zero => rfl
  | succ n ih => simp [leBytes, ih]

/-- Bytes outside those a write covers read as before. -/
theorem State.perform_byte_other (s : State) (wr : Writer) (a w d b : Nat) (h : b < a ∨ a + w ≤ b) :
    (s.perform wr a w d).byte b = s.byte b := by
  have h' : ¬(a ≤ b ∧ b < a + w) := by omega
  simp [State.perform, State.byte, byte_writeBytes, leBytes_length, h']

theorem State.performEls_byte_other (wr : Writer) (els : List (Nat × Nat × Nat)) (s : State) (b : Nat)
    (h : ∀ e ∈ els, b < e.1 ∨ e.1 + e.2.1 ≤ b) : (s.performEls wr els).byte b = s.byte b := by
  induction els generalizing s with
  | nil => rfl
  | cons e r ih =>
    simp only [State.performEls]
    rw [ih _ (fun x hx => h x (List.mem_cons_of_mem _ hx)), State.perform_byte_other _ _ _ _ _ _ (h e List.mem_cons_self)]

/-- The bytes of a number read back as the number. -/
theorem leNat_leBytes (n v : Nat) : leNat (leBytes n v) = v % 256 ^ n := by
  induction n generalizing v with
  | zero => simp [leBytes, leNat, Nat.mod_one]
  | succ n ih =>
    simp only [leBytes, leNat, ih, BitVec.toNat_ofNat]
    have h : v % 256 ^ (n + 1) = v % 256 + 256 * (v / 256 % 256 ^ n) := by rw [Nat.pow_succ, Nat.mul_comm (256 ^ n) 256, Nat.mod_mul]
    rw [h]
    omega

end Sys2Proof.Machine
end

