-- ==== Sys2Proof/Laws/Ops.lean ====
section
/-! SUPPORT. The laws of the shared operations: the issuing strand, the three outcomes of one operation, results sent on their way,
landing, and taking a trap. -/
namespace Sys2Proof.Machine

/-! ## The issuing strand -/

theorem State.me_of_issues {s : State} {k : Nat} (h : Issues s k) : s.me = s.strand k := by
  simp [State.me, h.1]

theorem State.onMe_of_issues {s : State} {k : Nat} (h : Issues s k) (f : Strand → Strand) : s.onMe f = s.modStrand k f := by
  simp [State.onMe, h.1]

theorem State.onMe_of_self {s : State} {k : Nat} (h : s.self = some k) (f : Strand → Strand) : s.onMe f = s.modStrand k f := by
  simp [State.onMe, h]

theorem Issues.modStrand {s : State} {k : Nat} (h : Issues s k) (j : Nat) (f : Strand → Strand) : Issues (s.modStrand j f) k :=
  ⟨h.1, h.2⟩

theorem Issues.landed {s : State} {k : Nat} (h : Issues s k) (j : Nat) (e : InFlight) : Issues (landed s j e) k := h.modStrand j _

/-! ## One operation -/

/-- An operation that is clear to issue has its effect. -/
theorem Op.run_clear (o : Op) {s : State} {k : Nat} (h : Issues s k) (hc : o.Clear (s.strand k)) : o.run s = .next (o.eff s) := by
  simp [Op.run, Op.apply, h.1, h.2, State.me_of_issues h, hc.1, hc.2.1, hc.2.2]

/-- An operation whose guard is false, and that meets no condition of R51, changes nothing. -/
theorem Op.run_false (o : Op) {s : State} {k : Nat} (h : Issues s k) (hg : (s.strand k).guard o.g = false)
    (hf : o.findings (s.strand k) = []) : o.run s = .next s := by
  simp [Op.run, Op.apply, h.1, h.2, State.me_of_issues h, hg, hf]

/-- An operation that meets a condition, or raises a precise trap, takes that trap. -/
theorem Op.run_trap (o : Op) {s : State} {k : Nat} (h : Issues s k) (hf : o.findings (s.strand k) ≠ []) :
    o.run s = .next (s.raise (o.findings (s.strand k))) := by
  have : (o.findings (s.strand k)).isEmpty = false := by simpa using hf
  simp [Op.run, Op.apply, h.1, h.2, State.me_of_issues h, this]

/-- An operation that must wait says so. -/
theorem Op.run_stall (o : Op) {s : State} {k : Nat} (h : Issues s k) (hg : (s.strand k).guard o.g = true)
    (hf : o.findings (s.strand k) = []) (hs : o.stall = true) : o.run s = .next { s with stall := true } := by
  simp [Op.run, Op.apply, h.1, h.2, State.me_of_issues h, hg, hf, hs]

/-- What one operation can do: its effect, nothing, a trap, or a wait. -/
theorem Op.run_cases (o : Op) {s : State} {k : Nat} (h : Issues s k) :
    o.run s = .next (o.eff s) ∨ o.run s = .next s ∨ o.run s = .next (s.raise (o.findings (s.strand k))) ∨
    o.run s = .next { s with stall := true } := by
  by_cases hf : o.findings (s.strand k) = []
  · by_cases hg : (s.strand k).guard o.g = true
    · by_cases hs : o.stall = true
      · exact .inr (.inr (.inr (o.run_stall h hg hf hs)))
      · exact .inl (o.run_clear h ⟨hg, hf, by simpa using hs⟩)
    · exact .inr (.inl (o.run_false h (by simpa using hg) hf))
  · exact .inr (.inr (.inl (o.run_trap h hf)))

/-- An operation without checks is clear when its guard is true. -/
theorem Op.plain_clear (i : Instr) (sl : Slot) (g : Guard) (eff : State → State) (t : Strand) (hg : t.guard g = true) :
    (Op.plain i sl g eff).Clear t := ⟨hg, rfl, rfl⟩

/-- An operation without checks has its effect when its guard is true. -/
theorem Op.run_plain (i : Instr) (sl : Slot) (g : Guard) (eff : State → State) {s : State} {k : Nat} (h : Issues s k)
    (hg : (s.strand k).guard g = true) : (Op.plain i sl g eff).run s = .next (eff s) :=
  Op.run_clear _ h (Op.plain_clear i sl g eff _ hg)

/-! ## Results on their way -/

/-- A result of a whole register is one entry more in the strand's in-flight list. -/
theorem State.land_of_issues {s : State} {k : Nat} (h : Issues s k) (d : Dest) (l : Nat) (v : Vec) (sl : Slot) :
    s.land d l v sl = landed s k (onWay (s.strand k) sl d l v fullEn none) := by
  simp [State.land, State.pushIn, State.onMe_of_issues h, State.me_of_issues h, Machine.landed, onWay]

theorem State.landWord_of_issues {s : State} {k : Nat} (h : Issues s k) (d : Dest) (l : Nat) (v : Word) (sl : Slot) :
    s.landWord d l v sl = landed s k (onWay (s.strand k) sl d l (v.setWidth 1024) fullEn none) :=
  State.land_of_issues h d l _ sl

theorem State.landBit_of_issues {s : State} {k : Nat} (h : Issues s k) (d : Dest) (l : Nat) (b : Bool) (sl : Slot) :
    s.landBit d l b sl = landed s k (onWay (s.strand k) sl d l (if b then 1 else 0) fullEn none) :=
  State.land_of_issues h d l _ sl

/-- A scalar operation whose guard is true sends its result. -/
theorem scalarOp_run (i : Instr) (g : Guard) (sd l : Nat) (v : Strand → Word) {s : State} {k : Nat} (h : Issues s k)
    (hg : (s.strand k).guard g = true) :
    (scalarOp i g sd l v).run s = .next (landed s k (onWay (s.strand k) .s (.sreg sd) l ((v (s.strand k)).setWidth 1024) fullEn none)) := by
  rw [scalarOp, Op.run_clear _ h (Op.plain_clear i .s g _ _ hg)]
  simp [Op.plain, State.landWord_of_issues h, State.me_of_issues h]

/-- A predicate operation whose guard is true sends its bit. -/
theorem predOp_run (i : Instr) (g : Guard) (pd : Nat) (v : Strand → Bool) {s : State} {k : Nat} (h : Issues s k)
    (hg : (s.strand k).guard g = true) :
    (predOp i g pd v).run s = .next (landed s k (onWay (s.strand k) .s (.preg pd) 1 (if v (s.strand k) then 1 else 0) fullEn none)) := by
  rw [predOp, Op.run_clear _ h (Op.plain_clear i .s g _ _ hg)]
  simp only [Op.plain, State.landBit_of_issues h, State.me_of_issues h]

/-- A result on its way leaves every register, and everything but its strand, as it was. -/
@[simp] theorem landed_mem (s : State) (k : Nat) (e : InFlight) : (landed s k e).mem = s.mem := rfl
@[simp] theorem landed_self (s : State) (k : Nat) (e : InFlight) : (landed s k e).self = s.self := rfl
@[simp] theorem landed_mode (s : State) (k : Nat) (e : InFlight) : (landed s k e).mode = s.mode := rfl
@[simp] theorem landed_ctx (s : State) (k : Nat) (e : InFlight) (d t : Nat) : (landed s k e).ctx d t = s.ctx d t := rfl
@[simp] theorem landed_strand (s : State) (k : Nat) (e : InFlight) :
    (landed s k e).strand k = { s.strand k with inflight := (s.strand k).inflight ++ [e] } := by
  simp [landed]

/-! ## Findings and the trap that they raise (R52) -/

/-- One finding alone is the cause it names. -/
theorem worst_one (f : Finding) (tbun : Nat) : worst [f] tbun = some (⟨f.cause, f.fval, tbun, 2 ^ f.slot.bit⟩, f.emul) := by
  obtain ⟨c, sl, v, e⟩ := f
  cases sl <;> simp [worst, tslotOf, Slot.all, Slot.bit]

/-- An operation that meets one condition takes its trap. -/
theorem Op.run_one (o : Op) {s : State} {k : Nat} (h : Issues s k) (f : Finding) (hf : o.findings (s.strand k) = [f]) :
    o.run s = .next (s.takeTrap k ⟨f.cause, f.fval, (s.strand k).bun.addr, 2 ^ f.slot.bit⟩ f.emul) := by
  rw [o.run_trap h (by simp [hf]), hf]
  simp [State.raise, h.1, State.me_of_issues h, worst_one]

/-! ## Delivery of causes and flag events leave other state alone -/

@[simp] theorem State.wakePlain_mem (s : State) (k : Nat) : (s.wakePlain k).mem = s.mem := rfl
theorem State.flagEvent_memWf (s : State) (k n : Nat) (w : List Nat) (h : memWf s.mem = true) : memWf (s.flagEvent k n w).mem = true := by
  unfold State.flagEvent
  refine State.resave_memWf _ _ ?_
  dsimp only
  split
  · split
    · exact h
    · exact h
  · exact h

/-- Delivering a cause keeps memory's canonical form. -/
theorem State.sendFault_memWf (s : State) (k : Nat) (p : Pending) (pos ser : Nat) (h : memWf s.mem = true) :
    memWf (s.sendFault k p pos ser).2.mem = true := by
  unfold State.sendFault
  split
  · exact h
  · rename_i f flag a _
    dsimp only
    have ht := touchLeaf_memWf s (s.strand k).die (s.strand k).tcid ((s.ctx (s.strand k).die (s.strand k).tcid).deleg.va) true h
    generalize touchLeaf s _ _ _ _ = s1 at ht ⊢
    generalize faultRecord (s.strand k) (s1.ctx (s.strand k).die (s.strand k).tcid) (s1.launch (s.strand k).lid).lnum p pos ser = bs
    have hd := State.deviceWrite_memWf s1 (s.strand k).die a bs 2 ht
    generalize s1.deviceWrite (s.strand k).die a bs 2 = r at hd ⊢
    have hf (d e : Nat) (g : Ctx → Ctx) (w : List Nat) : memWf ((r.2.modCtx d e g).flagEvent f flag w).mem = true :=
      State.flagEvent_memWf _ _ _ _ (by simpa using hd)
    split
    · exact hf _ _ _ _
    · exact hf _ _ _ _

theorem State.deliver_memWf (s : State) (k : Nat) (p : Pending) (e : Bool) (h : memWf s.mem = true) : memWf (s.deliver k p e).mem = true := by
  unfold State.deliver
  dsimp only
  split
  · split
    · exact State.sendFault_memWf _ _ _ _ _ h
    · exact h
  · exact h

theorem State.takeTrap_memWf (s : State) (k : Nat) (p : Pending) (e : Bool) (h : memWf s.mem = true) :
    memWf (s.takeTrap k p e).mem = true := State.deliver_memWf _ _ _ _ h

end Sys2Proof.Machine
end

