-- ==== Sys2Proof/Laws/Families.lean ====
section
/-! SUPPORT. What the shared operations of single families do, each said once: vector operations, the matrix queue, requests, leaving
loops, and the lane of a pilot program. -/
namespace Sys2Proof.Machine

/-! ## Vector operations -/

/-- A register within the strand's granules meets no REG_RANGE (R77). -/
theorem vreg_within (t : Strand) (f : VFile) (n : Nat) (h : n < 32 * t.granules f) : vreg t f n = [] := by
  simp [vreg, Machine.cond] <;> omega

/-- Nor do several, outside a handler. -/
theorem vecChk_within (t : Strand) (rs : List (VFile × Nat)) (h : Within t rs) (hh : t.hsave = none) : vecChk t rs = [] := by
  simp [vecChk, noHandler, hh, Machine.cond]
  intro fl n hn; exact vreg_within t fl n (h _ hn)

/-- A vector operation that its bundle may issue sends its result on its way. -/
theorem vecOp_run (i : Instr) (f : VFile) (g : Guard) (vd l : Nat) (rs : List (VFile × Nat)) (r : Strand → VRes) (s : State) (k : Nat)
    (h : Issues s k) (hg : (s.strand k).guard g = true) (hw : Within (s.strand k) rs) (hh : (s.strand k).hsave = none) :
    (vecOp i f g vd l rs r s).run s = .next (landed s k (onWay (s.strand k) f.slot (.vreg f vd) l (r (s.strand k)).v (r (s.strand k)).en
      ((r (s.strand k)).trap.map (fun n => (.convertOverflow, BitVec.ofNat 64 n))))) := by
  rw [Op.run_clear _ h ⟨hg, ?_, rfl⟩]
  · simp [vecOp, Op.plain, State.pushIn, State.me_of_issues h, State.onMe_of_issues h, Machine.landed, onWay]
  · simp [Op.findings, vecOp, Op.plain, State.me_of_issues h, vecChk_within _ _ hw hh]

/-! ## The matrix queue -/

/-- The largest end of a queue is at least every end in it. -/
theorem foldl_max_le (l : List MOp) (a : Nat) : a ≤ l.foldl (fun x o => max x o.ends) a ∧ ∀ p ∈ l, p.ends ≤ l.foldl (fun x o => max x o.ends) a := by
  induction l generalizing a with
  | nil => simp
  | cons x r ih =>
    obtain ⟨h1, h2⟩ := ih (max a x.ends)
    refine ⟨by simp; omega, ?_⟩
    intro p hp
    simp at hp
    rcases hp with rfl | hp
    · simp <;> omega
    · exact h2 p hp

/-- What queueing a matrix operation does: it joins the queue's end, starts after every earlier one ends, and changes nothing else. -/
theorem State.mxQueue_spec (s : State) (k : Nat) (h : Issues s k) (kind : MKind) (tile mp : Nat) (par : List Word) (fmt : BitVec 32) (opnds : List (List Word)) :
    ∃ t op, s.mxQueue kind tile mp par fmt opnds = t ∧ (t.strand k).mq = (s.strand k).mq ++ [op] ∧ op.kind = kind ∧ op.t = tile ∧ op.mp = mp ∧
      op.par = par ∧ op.fmt = fmt ∧ op.opnds = opnds ∧ (s.strand k).icyc + 2 ≤ op.start ∧ (∀ p ∈ (s.strand k).mq, p.ends ≤ op.start) ∧
      t.mem = s.mem ∧ (∀ r, (t.strand k).rs r = (s.strand k).rs r) ∧ (t.strand k).tiles = (s.strand k).tiles := by
  refine ⟨_, (s.strand k).mkOp s.nextId kind tile mp par fmt opnds, rfl, ?_⟩
  have hf := foldl_max_le (s.strand k).mq 0
  have key : ∀ s1 : State, s1.strand k = s.strand k → s1.nextId = s.nextId → s1.mem = s.mem → s1.self = some k →
      ((s1.fresh.2.onMe (fun t => { t with mq := t.mq ++ [t.mkOp s1.fresh.1 kind tile mp par fmt opnds] })).strand k).mq = (s.strand k).mq ++ [(s.strand k).mkOp s.nextId kind tile mp par fmt opnds] ∧
      (s1.fresh.2.onMe (fun t => { t with mq := t.mq ++ [t.mkOp s1.fresh.1 kind tile mp par fmt opnds] })).mem = s.mem ∧
      (∀ r, ((s1.fresh.2.onMe (fun t => { t with mq := t.mq ++ [t.mkOp s1.fresh.1 kind tile mp par fmt opnds] })).strand k).rs r = (s.strand k).rs r) ∧
      ((s1.fresh.2.onMe (fun t => { t with mq := t.mq ++ [t.mkOp s1.fresh.1 kind tile mp par fmt opnds] })).strand k).tiles = (s.strand k).tiles := by
    intro s1 a b c d
    rw [State.onMe_of_self (show s1.fresh.2.self = some k from d), State.strand_modStrand, (State.modStrand_fields _ _ _).1]
    have hfs : s1.fresh.2.strand k = s.strand k := a
    rw [hfs]
    refine ⟨by rw [show s1.fresh.1 = s.nextId from b], c, fun r => rfl, rfl⟩
  have hif : ∀ b : Bool, (if b then s.modDie s.me.die (fun d => { d with tokens := d.tokens - 1 }) else s).strand k = s.strand k ∧ (if b then s.modDie s.me.die (fun d => { d with tokens := d.tokens - 1 }) else s).nextId = s.nextId ∧ (if b then s.modDie s.me.die (fun d => { d with tokens := d.tokens - 1 }) else s).mem = s.mem ∧ (if b then s.modDie s.me.die (fun d => { d with tokens := d.tokens - 1 }) else s).self = some k := by
    intro b; cases b <;> exact ⟨rfl, rfl, rfl, h.1⟩
  have : _ := key (if (match (s.core s.me.core).lastStream with
      | some c => decide (c + 256 < (s.die s.me.die).cycle)
      | none => true) then s.modDie s.me.die (fun d => { d with tokens := d.tokens - 1 }) else s) (hif _).1 (hif _).2.1 (hif _).2.2.1 (hif _).2.2.2
  refine ⟨this.1, rfl, rfl, rfl, rfl, rfl, rfl, ?_, ?_, this.2.1, this.2.2.1, this.2.2.2⟩
  · simp [Strand.mkOp, Strand.mxStart] <;> omega
  · intro p hp
    have := hf.2 p hp
    simp [Strand.mkOp, Strand.mxStart] <;> omega

/-! ## Requests -/

/-- A request joins the issuing strand's requests under the next number. -/
theorem State.addMyReq_spec (s : State) (k : Nat) (h : Issues s k) (f : Nat → Req) :
    s.addMyReq f = ({ s with nextId := s.nextId + 1 } : State).modStrand k (fun t => { t with reqs := t.reqs ++ [f s.nextId] }) := by
  simp [State.addMyReq, h.1, State.addReq, State.fresh]

/-! ## Leaving loops -/

/-- Popping n levels drops n levels. -/
theorem popLevels_drop (n : Nat) (ls : List Loop) (lb : Nat) : (popLevels n ls lb).1 = ls.drop n := by
  induction n generalizing ls lb with
  | zero => simp [popLevels]
  | succ n ih => cases ls with
    | nil => simp [popLevels]
    | cons l r => simp [popLevels, ih]

/-- A transfer drops exactly the levels above the floor, innermost first, whose bodies do not hold its target. -/
theorem popOutside_spec (floor target : Nat) (ls : List Loop) (lb : Nat) : ∃ n, n ≤ ls.length ∧ (popOutside floor target ls lb).1 = ls.drop n ∧
    (∀ i l, i < n → ls[i]? = some l → floor < ls.length - i ∧ ¬(l.start ≤ target ∧ target < (l.endl + 1) * 16)) ∧
    (∀ l, ls[n]? = some l → floor < ls.length - n → l.start ≤ target ∧ target < (l.endl + 1) * 16) := by
  induction ls generalizing lb with
  | nil => exact ⟨0, by simp, by simp [popOutside], by simp, by simp⟩
  | cons x r ih =>
    by_cases h : floor < (x :: r).length ∧ (target < x.start ∨ (x.endl + 1) * 16 ≤ target)
    · obtain ⟨n, h1, h2, h3, h4⟩ := ih (x.lbaseAfter lb)
      refine ⟨n + 1, by simpa using h1, by simp only [popOutside, if_pos h]; simpa using h2, ?_, ?_⟩
      · intro i l hi hl
        cases i with
        | zero => simp at hl; subst hl; exact ⟨by simpa using h.1, by omega⟩
        | succ i => 
          obtain ⟨a, b⟩ := h3 i l (by omega) (by simpa using hl)
          exact ⟨by simp; omega, b⟩
      · intro l hl hf
        exact h4 l (by simpa using hl) (by simp at hf; omega)
    · refine ⟨0, by simp, by simp only [popOutside, if_neg h]; rfl, by simp, ?_⟩
      intro l hl hf
      simp at hl; subst hl
      simp at hf h
      have := h hf
      omega

/-! ## The lane of a pilot program -/

/-- Changes of the lane that agree on the lane agree on the state. -/
theorem State.modLane_congr (s : State) (f g : Lane → Lane) (h : f s.lane = g s.lane) : s.modLane f = s.modLane g := by
  unfold State.modLane
  apply State.modDie_congr
  have : f (storeGet Lane.reset (s.die s.laneDie).lanes s.laneNum) = g (storeGet Lane.reset (s.die s.laneDie).lanes s.laneNum) := h
  simp [this]

end Sys2Proof.Machine
end

