-- ==== Sys2Proof/Laws/PerInstr.lean ====
section
/-! SUPPORT. Statements made of every instruction, constructor by constructor. -/
namespace Sys2Proof.Laws

/-- A pilot instruction is no operation of a strand's slot, so each instruction belongs to at most one of the two fetch units (R47, R402). -/
def OneUnit.Statement (i : Instr) : Prop := isPilot i = true → slotOf i = none

theorem OneUnit.emptyBundle (o : EmptyOps) : OneUnit.Statement (.emptyBundle o) := fun _ => rfl
theorem OneUnit.add (o : RRR) : OneUnit.Statement (.add o) := nofun
theorem OneUnit.sub (o : RRR) : OneUnit.Statement (.sub o) := nofun
theorem OneUnit.addi (o : RRI) : OneUnit.Statement (.addi o) := nofun
theorem OneUnit.mul (o : RRS) : OneUnit.Statement (.mul o) := nofun
theorem OneUnit.mulh (o : RRR) : OneUnit.Statement (.mulh o) := nofun
theorem OneUnit.mulhu (o : RRR) : OneUnit.Statement (.mulhu o) := nofun
theorem OneUnit.div (o : RRR) : OneUnit.Statement (.div o) := nofun
theorem OneUnit.divu (o : RRR) : OneUnit.Statement (.divu o) := nofun
theorem OneUnit.rem (o : RRR) : OneUnit.Statement (.rem o) := nofun
theorem OneUnit.remu (o : RRR) : OneUnit.Statement (.remu o) := nofun
theorem OneUnit.and (o : RRS) : OneUnit.Statement (.and o) := nofun
theorem OneUnit.or (o : RRS) : OneUnit.Statement (.or o) := nofun
theorem OneUnit.xor (o : RRS) : OneUnit.Statement (.xor o) := nofun
theorem OneUnit.andn (o : RRS) : OneUnit.Statement (.andn o) := nofun
theorem OneUnit.shl (o : RRS) : OneUnit.Statement (.shl o) := nofun
theorem OneUnit.shr (o : RRS) : OneUnit.Statement (.shr o) := nofun
theorem OneUnit.sar (o : RRS) : OneUnit.Statement (.sar o) := nofun
theorem OneUnit.rotl (o : RRS) : OneUnit.Statement (.rotl o) := nofun
theorem OneUnit.clz (o : RR) : OneUnit.Statement (.clz o) := nofun
theorem OneUnit.popc (o : RR) : OneUnit.Statement (.popc o) := nofun
theorem OneUnit.min (o : RRS) : OneUnit.Statement (.min o) := nofun
theorem OneUnit.max (o : RRS) : OneUnit.Statement (.max o) := nofun
theorem OneUnit.minu (o : RRS) : OneUnit.Statement (.minu o) := nofun
theorem OneUnit.maxu (o : RRS) : OneUnit.Statement (.maxu o) := nofun
theorem OneUnit.sel (o : SelOps) : OneUnit.Statement (.sel o) := nofun
theorem OneUnit.li (o : RI) : OneUnit.Statement (.li o) := nofun
theorem OneUnit.lih (o : RI) : OneUnit.Statement (.lih o) := nofun
theorem OneUnit.cmp (o : CmpOps) : OneUnit.Statement (.cmp o) := nofun
theorem OneUnit.cmpi (o : CmpIOps) : OneUnit.Statement (.cmpi o) := nofun
theorem OneUnit.pand (o : PPP) : OneUnit.Statement (.pand o) := nofun
theorem OneUnit.por (o : PPP) : OneUnit.Statement (.por o) := nofun
theorem OneUnit.pxor (o : PPP) : OneUnit.Statement (.pxor o) := nofun
theorem OneUnit.pnot (o : PP) : OneUnit.Statement (.pnot o) := nofun
theorem OneUnit.br (o : BrOps) : OneUnit.Statement (.br o) := nofun
theorem OneUnit.bri (o : BriOps) : OneUnit.Statement (.bri o) := nofun
theorem OneUnit.call (o : BrOps) : OneUnit.Statement (.call o) := nofun
theorem OneUnit.calli (o : BriOps) : OneUnit.Statement (.calli o) := nofun
theorem OneUnit.ret (g : Guard) : OneUnit.Statement (.ret g) := nofun
theorem OneUnit.csrr (o : CsrrOps) : OneUnit.Statement (.csrr o) := nofun
theorem OneUnit.csrw (o : CsrwOps) : OneUnit.Statement (.csrw o) := nofun
theorem OneUnit.csrs (o : CsrwOps) : OneUnit.Statement (.csrs o) := nofun
theorem OneUnit.csrc (o : CsrwOps) : OneUnit.Statement (.csrc o) := nofun
theorem OneUnit.trap (o : CodeOps) : OneUnit.Statement (.trap o) := nofun
theorem OneUnit.hail (o : CodeOps) : OneUnit.Statement (.hail o) := nofun
theorem OneUnit.layw (o : LaywOps) : OneUnit.Statement (.layw o) := nofun
theorem OneUnit.layr (o : LayrOps) : OneUnit.Statement (.layr o) := nofun
theorem OneUnit.movh (o : MovhOps) : OneUnit.Statement (.movh o) := nofun
theorem OneUnit.vadd (o : V3R) : OneUnit.Statement (.vadd o) := nofun
theorem OneUnit.vsub (o : V3R) : OneUnit.Statement (.vsub o) := nofun
theorem OneUnit.vmul (o : V3R) : OneUnit.Statement (.vmul o) := nofun
theorem OneUnit.vfma (o : V4R) : OneUnit.Statement (.vfma o) := nofun
theorem OneUnit.vfms (o : V4R) : OneUnit.Statement (.vfms o) := nofun
theorem OneUnit.vfnma (o : V4R) : OneUnit.Statement (.vfnma o) := nofun
theorem OneUnit.vmin (o : V3T) : OneUnit.Statement (.vmin o) := nofun
theorem OneUnit.vmax (o : V3T) : OneUnit.Statement (.vmax o) := nofun
theorem OneUnit.vabs (o : V2T) : OneUnit.Statement (.vabs o) := nofun
theorem OneUnit.vneg (o : V2T) : OneUnit.Statement (.vneg o) := nofun
theorem OneUnit.vcpys (o : V3T) : OneUnit.Statement (.vcpys o) := nofun
theorem OneUnit.vrcp (o : V2R) : OneUnit.Statement (.vrcp o) := nofun
theorem OneUnit.vrsq (o : V2R) : OneUnit.Statement (.vrsq o) := nofun
theorem OneUnit.vsqrt (o : V2R) : OneUnit.Statement (.vsqrt o) := nofun
theorem OneUnit.vexp2 (o : V2R) : OneUnit.Statement (.vexp2 o) := nofun
theorem OneUnit.vlog2 (o : V2R) : OneUnit.Statement (.vlog2 o) := nofun
theorem OneUnit.vcmp (o : VCmpOps) : OneUnit.Statement (.vcmp o) := nofun
theorem OneUnit.viadd (o : V3O) : OneUnit.Statement (.viadd o) := nofun
theorem OneUnit.visub (o : V3O) : OneUnit.Statement (.visub o) := nofun
theorem OneUnit.vimul (o : V3O) : OneUnit.Statement (.vimul o) := nofun
theorem OneUnit.vimulh (o : V3T) : OneUnit.Statement (.vimulh o) := nofun
theorem OneUnit.vimin (o : V3T) : OneUnit.Statement (.vimin o) := nofun
theorem OneUnit.vimax (o : V3T) : OneUnit.Statement (.vimax o) := nofun
theorem OneUnit.viabs (o : V2T) : OneUnit.Statement (.viabs o) := nofun
theorem OneUnit.vand (o : V3L) : OneUnit.Statement (.vand o) := nofun
theorem OneUnit.vor (o : V3L) : OneUnit.Statement (.vor o) := nofun
theorem OneUnit.vxor (o : V3L) : OneUnit.Statement (.vxor o) := nofun
theorem OneUnit.vandn (o : V3L) : OneUnit.Statement (.vandn o) := nofun
theorem OneUnit.vshl (o : VSS) : OneUnit.Statement (.vshl o) := nofun
theorem OneUnit.vshr (o : VSS) : OneUnit.Statement (.vshr o) := nofun
theorem OneUnit.vsar (o : VSS) : OneUnit.Statement (.vsar o) := nofun
theorem OneUnit.vcvt (o : VCvtOps) : OneUnit.Statement (.vcvt o) := nofun
theorem OneUnit.vcvti (o : VCvtOps) : OneUnit.Statement (.vcvti o) := nofun
theorem OneUnit.vcvtf (o : VCvtOps) : OneUnit.Statement (.vcvtf o) := nofun
theorem OneUnit.vqfp4 (o : VQOps) : OneUnit.Statement (.vqfp4 o) := nofun
theorem OneUnit.vdqfp4 (o : VQOps) : OneUnit.Statement (.vdqfp4 o) := nofun
theorem OneUnit.vexpmax (o : V3T) : OneUnit.Statement (.vexpmax o) := nofun
theorem OneUnit.vscale (o : VScaleOps) : OneUnit.Statement (.vscale o) := nofun
theorem OneUnit.vmov (o : V2L) : OneUnit.Statement (.vmov o) := nofun
theorem OneUnit.vbcast (o : VBcastOps) : OneUnit.Statement (.vbcast o) := nofun
theorem OneUnit.vperm (o : V3T) : OneUnit.Statement (.vperm o) := nofun
theorem OneUnit.vshuf (o : V3T) : OneUnit.Statement (.vshuf o) := nofun
theorem OneUnit.vslide (o : VSS) : OneUnit.Statement (.vslide o) := nofun
theorem OneUnit.vsel (o : VSelOps) : OneUnit.Statement (.vsel o) := nofun
theorem OneUnit.vxfer (o : V2L) : OneUnit.Statement (.vxfer o) := nofun
theorem OneUnit.vmovh (o : VMovhOps) : OneUnit.Statement (.vmovh o) := nofun
theorem OneUnit.vlane (o : VLaneOps) : OneUnit.Statement (.vlane o) := nofun
theorem OneUnit.vrsum (o : V2T) : OneUnit.Statement (.vrsum o) := nofun
theorem OneUnit.vrmax (o : V2T) : OneUnit.Statement (.vrmax o) := nofun
theorem OneUnit.vrmin (o : V2T) : OneUnit.Statement (.vrmin o) := nofun
theorem OneUnit.mand (o : MMM) : OneUnit.Statement (.mand o) := nofun
theorem OneUnit.mor (o : MMM) : OneUnit.Statement (.mor o) := nofun
theorem OneUnit.mxor (o : MMM) : OneUnit.Statement (.mxor o) := nofun
theorem OneUnit.mnot (o : MM) : OneUnit.Statement (.mnot o) := nofun
theorem OneUnit.mpop (o : MPopOps) : OneUnit.Statement (.mpop o) := nofun
theorem OneUnit.mcallMma (o : McallOps) : OneUnit.Statement (.mcallMma o) := nofun
theorem OneUnit.mcallMmat (o : McallOps) : OneUnit.Statement (.mcallMmat o) := nofun
theorem OneUnit.mcallMmab (o : McallOps) : OneUnit.Statement (.mcallMmab o) := nofun
theorem OneUnit.mcallSplit (o : McallOps) : OneUnit.Statement (.mcallSplit o) := nofun
theorem OneUnit.mcallSlmma (o : McallOps) : OneUnit.Statement (.mcallSlmma o) := nofun
theorem OneUnit.mcallFold (o : McallOps) : OneUnit.Statement (.mcallFold o) := nofun
theorem OneUnit.mcallTrans (o : McallOps) : OneUnit.Statement (.mcallTrans o) := nofun
theorem OneUnit.mcallMcopy (o : McallOps) : OneUnit.Statement (.mcallMcopy o) := nofun
theorem OneUnit.mpar (o : MparOps) : OneUnit.Statement (.mpar o) := nofun
theorem OneUnit.mlds (o : MldsOps) : OneUnit.Statement (.mlds o) := nofun
theorem OneUnit.mplane (o : MplaneOps) : OneUnit.Statement (.mplane o) := nofun
theorem OneUnit.mrd (o : MrwOps) : OneUnit.Statement (.mrd o) := nofun
theorem OneUnit.mwr (o : MrwOps) : OneUnit.Statement (.mwr o) := nofun
theorem OneUnit.mclr (o : MtOps) : OneUnit.Statement (.mclr o) := nofun
theorem OneUnit.mnorm (o : MtOps) : OneUnit.Statement (.mnorm o) := nofun
theorem OneUnit.mfmt (o : MfmtOps) : OneUnit.Statement (.mfmt o) := nofun
theorem OneUnit.mstat (o : MstatOps) : OneUnit.Statement (.mstat o) := nofun
theorem OneUnit.lds (o : LdOps) : OneUnit.Statement (.lds o) := nofun
theorem OneUnit.ldv (o : LdvOps) : OneUnit.Statement (.ldv o) := nofun
theorem OneUnit.ldvg (o : LdvgOps) : OneUnit.Statement (.ldvg o) := nofun
theorem OneUnit.ldh (o : LdOps) : OneUnit.Statement (.ldh o) := nofun
theorem OneUnit.tmov (o : TmovOps) : OneUnit.Statement (.tmov o) := nofun
theorem OneUnit.sts (o : StOps) : OneUnit.Statement (.sts o) := nofun
theorem OneUnit.stv (o : StvOps) : OneUnit.Statement (.stv o) := nofun
theorem OneUnit.stvs (o : StvOps) : OneUnit.Statement (.stvs o) := nofun
theorem OneUnit.stvm (o : StvmOps) : OneUnit.Statement (.stvm o) := nofun
theorem OneUnit.stvh (o : StOps) : OneUnit.Statement (.stvh o) := nofun
theorem OneUnit.aadd (o : AtomOps) : OneUnit.Statement (.aadd o) := nofun
theorem OneUnit.aaddf (o : AtomOps) : OneUnit.Statement (.aaddf o) := nofun
theorem OneUnit.amin (o : AtomOps) : OneUnit.Statement (.amin o) := nofun
theorem OneUnit.amax (o : AtomOps) : OneUnit.Statement (.amax o) := nofun
theorem OneUnit.aand (o : AtomOps) : OneUnit.Statement (.aand o) := nofun
theorem OneUnit.aor (o : AtomOps) : OneUnit.Statement (.aor o) := nofun
theorem OneUnit.axor (o : AtomOps) : OneUnit.Statement (.axor o) := nofun
theorem OneUnit.aswp (o : AtomOps) : OneUnit.Statement (.aswp o) := nofun
theorem OneUnit.acas (o : AtomOps) : OneUnit.Statement (.acas o) := nofun
theorem OneUnit.vred (o : StvOps) : OneUnit.Statement (.vred o) := nofun
theorem OneUnit.cjob (o : CjobOps) : OneUnit.Statement (.cjob o) := nofun
theorem OneUnit.cwait (o : ChOps) : OneUnit.Statement (.cwait o) := nofun
theorem OneUnit.cpoll (o : ChOps) : OneUnit.Statement (.cpoll o) := nofun
theorem OneUnit.ckill (o : CkillOps) : OneUnit.Statement (.ckill o) := nofun
theorem OneUnit.csend (o : CfragOps) : OneUnit.Statement (.csend o) := nofun
theorem OneUnit.cred (o : CfragOps) : OneUnit.Statement (.cred o) := nofun
theorem OneUnit.cbell (o : CbellOps) : OneUnit.Statement (.cbell o) := nofun
theorem OneUnit.lset (o : LsetOps) : OneUnit.Statement (.lset o) := nofun
theorem OneUnit.lbrk (o : NumOps) : OneUnit.Statement (.lbrk o) := nofun
theorem OneUnit.endStrand (g : Guard) : OneUnit.Statement (.endStrand g) := nofun
theorem OneUnit.phase (o : NumOps) : OneUnit.Statement (.phase o) := nofun
theorem OneUnit.fence (g : Guard) : OneUnit.Statement (.fence g) := nofun
theorem OneUnit.waitf (o : WaitfOps) : OneUnit.Statement (.waitf o) := nofun
theorem OneUnit.setf (o : NumOps) : OneUnit.Statement (.setf o) := nofun
theorem OneUnit.clrf (o : NumOps) : OneUnit.Statement (.clrf o) := nofun
theorem OneUnit.spin (o : SpinOps) : OneUnit.Statement (.spin o) := nofun
theorem OneUnit.join (o : NumOps) : OneUnit.Statement (.join o) := nofun
theorem OneUnit.leave (o : NumOps) : OneUnit.Statement (.leave o) := nofun
theorem OneUnit.cbar (o : NumOps) : OneUnit.Statement (.cbar o) := nofun
theorem OneUnit.yield (g : Guard) : OneUnit.Statement (.yield g) := nofun
theorem OneUnit.take (o : TakeOps) : OneUnit.Statement (.take o) := nofun
theorem OneUnit.hret (g : Guard) : OneUnit.Statement (.hret g) := nofun
theorem OneUnit.pilotAdd (o : PR) : OneUnit.Statement (.pilotAdd o) := fun _ => rfl
theorem OneUnit.pilotSub (o : PR) : OneUnit.Statement (.pilotSub o) := fun _ => rfl
theorem OneUnit.pilotAnd (o : PR) : OneUnit.Statement (.pilotAnd o) := fun _ => rfl
theorem OneUnit.pilotOr (o : PR) : OneUnit.Statement (.pilotOr o) := fun _ => rfl
theorem OneUnit.pilotXor (o : PR) : OneUnit.Statement (.pilotXor o) := fun _ => rfl
theorem OneUnit.pilotMul (o : PR) : OneUnit.Statement (.pilotMul o) := fun _ => rfl
theorem OneUnit.pilotShl (o : PI) : OneUnit.Statement (.pilotShl o) := fun _ => rfl
theorem OneUnit.pilotShr (o : PI) : OneUnit.Statement (.pilotShr o) := fun _ => rfl
theorem OneUnit.pilotAddi (o : PI) : OneUnit.Statement (.pilotAddi o) := fun _ => rfl
theorem OneUnit.pilotAndi (o : PI) : OneUnit.Statement (.pilotAndi o) := fun _ => rfl
theorem OneUnit.pilotOri (o : PI) : OneUnit.Statement (.pilotOri o) := fun _ => rfl
theorem OneUnit.pilotLi (o : PLi) : OneUnit.Statement (.pilotLi o) := fun _ => rfl
theorem OneUnit.ldm (o : PM) : OneUnit.Statement (.ldm o) := fun _ => rfl
theorem OneUnit.stm (o : PM) : OneUnit.Statement (.stm o) := fun _ => rfl
theorem OneUnit.beq (o : PB) : OneUnit.Statement (.beq o) := fun _ => rfl
theorem OneUnit.bne (o : PB) : OneUnit.Statement (.bne o) := fun _ => rfl
theorem OneUnit.bltu (o : PB) : OneUnit.Statement (.bltu o) := fun _ => rfl
theorem OneUnit.bgeu (o : PB) : OneUnit.Statement (.bgeu o) := fun _ => rfl
theorem OneUnit.loop (o : PL) : OneUnit.Statement (.loop o) := fun _ => rfl
theorem OneUnit.emitLaunch (a : Nat) : OneUnit.Statement (.emitLaunch a) := fun _ => rfl
theorem OneUnit.emitCopy (a : Nat) : OneUnit.Statement (.emitCopy a) := fun _ => rfl
theorem OneUnit.emitBell (o : PBell) : OneUnit.Statement (.emitBell o) := fun _ => rfl
theorem OneUnit.drop (code : Nat) : OneUnit.Statement (.drop code) := fun _ => rfl
theorem OneUnit.emptyIssueCycle (core : Nat) : OneUnit.Statement (.emptyIssueCycle core) := fun _ => rfl
theorem OneUnit.resultLand (core : Nat) : OneUnit.Statement (.resultLand core) := fun _ => rfl
theorem OneUnit.runLimit (core : Nat) : OneUnit.Statement (.runLimit core) := fun _ => rfl
theorem OneUnit.mxOpStart (core : Nat) : OneUnit.Statement (.mxOpStart core) := fun _ => rfl
theorem OneUnit.mxCommit (core : Nat) : OneUnit.Statement (.mxCommit core) := fun _ => rfl
theorem OneUnit.mxOpEnd (core : Nat) : OneUnit.Statement (.mxOpEnd core) := fun _ => rfl
theorem OneUnit.mxTokenGain (die : Nat) : OneUnit.Statement (.mxTokenGain die) := fun _ => rfl
theorem OneUnit.tmovComplete (core : Nat) : OneUnit.Statement (.tmovComplete core) := fun _ => rfl
theorem OneUnit.storePerform (sid rid : Nat) : OneUnit.Statement (.storePerform sid rid) := fun _ => rfl
theorem OneUnit.atomicPerform (sid rid : Nat) : OneUnit.Statement (.atomicPerform sid rid) := fun _ => rfl
theorem OneUnit.latchFill (sid rid : Nat) : OneUnit.Statement (.latchFill sid rid) := fun _ => rfl
theorem OneUnit.accessFaultReport (sid : Nat) : OneUnit.Statement (.accessFaultReport sid) := fun _ => rfl
theorem OneUnit.jobAccept (core : Nat) : OneUnit.Statement (.jobAccept core) := fun _ => rfl
theorem OneUnit.jobSegment (die : Nat) : OneUnit.Statement (.jobSegment die) := fun _ => rfl
theorem OneUnit.jobComplete (jid : Nat) : OneUnit.Statement (.jobComplete jid) := fun _ => rfl
theorem OneUnit.phaseComplete (sid : Nat) : OneUnit.Statement (.phaseComplete sid) := fun _ => rfl
theorem OneUnit.spinWaitTimeout (sid : Nat) : OneUnit.Statement (.spinWaitTimeout sid) := fun _ => rfl
theorem OneUnit.stealRequest (mid : Nat) : OneUnit.Statement (.stealRequest mid) := fun _ => rfl
theorem OneUnit.stealGrant (mid : Nat) : OneUnit.Statement (.stealGrant mid) := fun _ => rfl
theorem OneUnit.strandSelect (core : Nat) : OneUnit.Statement (.strandSelect core) := fun _ => rfl
theorem OneUnit.rowLoadComplete (sid : Nat) : OneUnit.Statement (.rowLoadComplete sid) := fun _ => rfl
theorem OneUnit.release (die lid : Nat) : OneUnit.Statement (.release die lid) := fun _ => rfl
theorem OneUnit.retire (sid : Nat) : OneUnit.Statement (.retire sid) := fun _ => rfl
theorem OneUnit.shareArrival (die lid : Nat) : OneUnit.Statement (.shareArrival die lid) := fun _ => rfl
theorem OneUnit.shareReserveTimeout (die lid : Nat) : OneUnit.Statement (.shareReserveTimeout die lid) := fun _ => rfl
theorem OneUnit.preemptCheck (die : Nat) : OneUnit.Statement (.preemptCheck die) := fun _ => rfl
theorem OneUnit.saveCaptureComplete (core : Nat) : OneUnit.Statement (.saveCaptureComplete core) := fun _ => rfl
theorem OneUnit.saveComplete (sid : Nat) : OneUnit.Statement (.saveComplete sid) := fun _ => rfl
theorem OneUnit.quantumExpiry (core : Nat) : OneUnit.Statement (.quantumExpiry core) := fun _ => rfl
theorem OneUnit.starvationTimeout (core : Nat) : OneUnit.Statement (.starvationTimeout core) := fun _ => rfl
theorem OneUnit.prioritySwitchRequest (core : Nat) : OneUnit.Statement (.prioritySwitchRequest core) := fun _ => rfl
theorem OneUnit.boostDecay (die : Nat) : OneUnit.Statement (.boostDecay die) := fun _ => rfl
theorem OneUnit.remtTick (die : Nat) : OneUnit.Statement (.remtTick die) := fun _ => rfl
theorem OneUnit.energyRefill (die : Nat) : OneUnit.Statement (.energyRefill die) := fun _ => rfl
theorem OneUnit.chargeReconcile (die : Nat) : OneUnit.Statement (.chargeReconcile die) := fun _ => rfl
theorem OneUnit.clockStep (die : Nat) : OneUnit.Statement (.clockStep die) := fun _ => rfl
theorem OneUnit.sliceWindow (die sl : Nat) : OneUnit.Statement (.sliceWindow die sl) := fun _ => rfl
theorem OneUnit.shrinkAdjust (die sl tenant p99 : Nat) : OneUnit.Statement (.shrinkAdjust die sl tenant p99) := fun _ => rfl
theorem OneUnit.windowArrival (xid m : Nat) : OneUnit.Statement (.windowArrival xid m) := fun _ => rfl
theorem OneUnit.windowAck (xid m : Nat) : OneUnit.Statement (.windowAck xid m) := fun _ => rfl
theorem OneUnit.retransmitTimeout (die tcid win : Nat) : OneUnit.Statement (.retransmitTimeout die tcid win) := fun _ => rfl
theorem OneUnit.gapTransaction (xid m : Nat) : OneUnit.Statement (.gapTransaction xid m) := fun _ => rfl
theorem OneUnit.resyncTransaction (die tcid win m : Nat) : OneUnit.Statement (.resyncTransaction die tcid win m) := fun _ => rfl
theorem OneUnit.linkFailure (port : Nat) : OneUnit.Statement (.linkFailure port) := fun _ => rfl
theorem OneUnit.linkTraining (port : Nat) (ext : Bool) : OneUnit.Statement (.linkTraining port ext) := fun _ => rfl
theorem OneUnit.fragmentArrival (fid m : Nat) : OneUnit.Statement (.fragmentArrival fid m) := fun _ => rfl
theorem OneUnit.fragmentAck (fid m : Nat) : OneUnit.Statement (.fragmentAck fid m) := fun _ => rfl
theorem OneUnit.reductionTimeout (gid : Nat) : OneUnit.Statement (.reductionTimeout gid) := fun _ => rfl
theorem OneUnit.evictRegions (die tcid : Nat) : OneUnit.Statement (.evictRegions die tcid) := fun _ => rfl
theorem OneUnit.residencyRestore (die tcid : Nat) : OneUnit.Statement (.residencyRestore die tcid) := fun _ => rfl
theorem OneUnit.restore (sid die serial : Nat) : OneUnit.Statement (.restore sid die serial) := fun _ => rfl
theorem OneUnit.invalidate (die tcid va size : Nat) (all : Bool) : OneUnit.Statement (.invalidate die tcid va size all) := fun _ => rfl
theorem OneUnit.resetRelease (die : Nat) : OneUnit.Statement (.resetRelease die) := fun _ => rfl
theorem OneUnit.bootTimeout (die : Nat) : OneUnit.Statement (.bootTimeout die) := fun _ => rfl
theorem OneUnit.candidacy (die frm : Nat) : OneUnit.Statement (.candidacy die frm) := fun _ => rfl
theorem OneUnit.electionTimeout (die : Nat) : OneUnit.Statement (.electionTimeout die) := fun _ => rfl
theorem OneUnit.packageNumber (p : Nat) : OneUnit.Statement (.packageNumber p) := fun _ => rfl
theorem OneUnit.getVersion (q : Spdm) : OneUnit.Statement (.getVersion q) := fun _ => rfl
theorem OneUnit.getCapabilities (q : Spdm) : OneUnit.Statement (.getCapabilities q) := fun _ => rfl
theorem OneUnit.negotiateAlgorithms (q : Spdm) : OneUnit.Statement (.negotiateAlgorithms q) := fun _ => rfl
theorem OneUnit.getDigests (q : Spdm) : OneUnit.Statement (.getDigests q) := fun _ => rfl
theorem OneUnit.getCertificate (q : Spdm) : OneUnit.Statement (.getCertificate q) := fun _ => rfl
theorem OneUnit.challenge (q : Spdm) : OneUnit.Statement (.challenge q) := fun _ => rfl
theorem OneUnit.getMeasurements (q : Spdm) : OneUnit.Statement (.getMeasurements q) := fun _ => rfl
theorem OneUnit.keyExchange (q : Spdm) : OneUnit.Statement (.keyExchange q) := fun _ => rfl
theorem OneUnit.finish (q : Spdm) : OneUnit.Statement (.finish q) := fun _ => rfl
theorem OneUnit.keyUpdate (q : Spdm) : OneUnit.Statement (.keyUpdate q) := fun _ => rfl
theorem OneUnit.heartbeat (q : Spdm) : OneUnit.Statement (.heartbeat q) := fun _ => rfl
theorem OneUnit.endSession (q : Spdm) : OneUnit.Statement (.endSession q) := fun _ => rfl
theorem OneUnit.sessionHeartbeatLapse (die sess : Nat) : OneUnit.Statement (.sessionHeartbeatLapse die sess) := fun _ => rfl
theorem OneUnit.lock (r : LockReq) : OneUnit.Statement (.lock r) := fun _ => rfl
theorem OneUnit.installKeys (b : Bind) (keys : List (Nat × Nat)) : OneUnit.Statement (.installKeys b keys) := fun _ => rfl
theorem OneUnit.installLinkkeys (b : Bind) (j keyid key : Nat) : OneUnit.Statement (.installLinkkeys b j keyid key) := fun _ => rfl
theorem OneUnit.installSavekeys (b : Bind) (key tag : Nat) : OneUnit.Statement (.installSavekeys b key tag) := fun _ => rfl
theorem OneUnit.installPart (b : Bind) (part suite : Nat) : OneUnit.Statement (.installPart b part suite) := fun _ => rfl
theorem OneUnit.installRegions (b : Bind) (csize dsize bva : Nat) : OneUnit.Statement (.installRegions b csize dsize bva) := fun _ => rfl
theorem OneUnit.installMemory (b : Bind) (quota : Nat) : OneUnit.Statement (.installMemory b quota) := fun _ => rfl
theorem OneUnit.installAccount (b : Bind) (a : Account) : OneUnit.Statement (.installAccount b a) := fun _ => rfl
theorem OneUnit.installBandwidth (b : Bind) (sl weight : Nat) (critical : Bool) (target : Nat) : OneUnit.Statement (.installBandwidth b sl weight critical target) := fun _ => rfl
theorem OneUnit.installGangs (b : Bind) (gangs : List Nat) : OneUnit.Statement (.installGangs b gangs) := fun _ => rfl
theorem OneUnit.installWindow (b : Bind) (w : WinSet) : OneUnit.Statement (.installWindow b w) := fun _ => rfl
theorem OneUnit.installQueues (b : Bind) (qmax sqva : Nat) : OneUnit.Statement (.installQueues b qmax sqva) := fun _ => rfl
theorem OneUnit.installNotice (b : Bind) (addr : Nat) : OneUnit.Statement (.installNotice b addr) := fun _ => rfl
theorem OneUnit.installDeleg (b : Bind) (r : DelegRec) : OneUnit.Statement (.installDeleg b r) := fun _ => rfl
theorem OneUnit.installHandlers (b : Bind) (t : List (Nat × HEntry)) : OneUnit.Statement (.installHandlers b t) := fun _ => rfl
theorem OneUnit.installFaultpol (b : Bind) (p : Nat) : OneUnit.Statement (.installFaultpol b p) := fun _ => rfl
theorem OneUnit.installFeatures (b : Bind) (w : Nat) : OneUnit.Statement (.installFeatures b w) := fun _ => rfl
theorem OneUnit.installQuayenrol (b : Bind) (key : Nat) : OneUnit.Statement (.installQuayenrol b key) := fun _ => rfl
theorem OneUnit.attest (b : Bind) (nonce : Nat) : OneUnit.Statement (.attest b nonce) := fun _ => rfl
theorem OneUnit.start (b : Bind) : OneUnit.Statement (.start b) := fun _ => rfl
theorem OneUnit.unbind (b : Bind) : OneUnit.Statement (.unbind b) := fun _ => rfl
theorem OneUnit.map (b : Bind) (pages : List PageReq) : OneUnit.Statement (.map b pages) := fun _ => rfl
theorem OneUnit.unmap (b : Bind) (pages : List (Nat × Nat)) : OneUnit.Statement (.unmap b pages) := fun _ => rfl
theorem OneUnit.protect (b : Bind) (pages : List PageReq) : OneUnit.Statement (.protect b pages) := fun _ => rfl
theorem OneUnit.qcreate (b : Bind) (q : QReq) : OneUnit.Statement (.qcreate b q) := fun _ => rfl
theorem OneUnit.qdestroy (b : Bind) (qslot : Nat) : OneUnit.Statement (.qdestroy b qslot) := fun _ => rfl
theorem OneUnit.qreset (b : Bind) (sqid idx : Nat) (caller : Option Nat) : OneUnit.Statement (.qreset b sqid idx caller) := fun _ => rfl
theorem OneUnit.loadpilot (b : Bind) (words : List Nat) : OneUnit.Statement (.loadpilot b words) := fun _ => rfl
theorem OneUnit.pdrop (b : Bind) (handle : Nat) : OneUnit.Statement (.pdrop b handle) := fun _ => rfl
theorem OneUnit.window (b : Bind) (w : WinSet) : OneUnit.Statement (.window b w) := fun _ => rfl
theorem OneUnit.clearunc (b : Bind) (win : Nat) (caller : Option Nat) : OneUnit.Statement (.clearunc b win caller) := fun _ => rfl
theorem OneUnit.deleg (b : Bind) (r : DelegRec) : OneUnit.Statement (.deleg b r) := fun _ => rfl
theorem OneUnit.handlers (b : Bind) (t : List (Nat × HEntry)) : OneUnit.Statement (.handlers b t) := fun _ => rfl
theorem OneUnit.faultpol (b : Bind) (p : Nat) : OneUnit.Statement (.faultpol b p) := fun _ => rfl
theorem OneUnit.restoreService (b : Bind) (serial die : Nat) (rw : List Rewrite) : OneUnit.Statement (.restoreService b serial die rw) := fun _ => rfl
theorem OneUnit.resume (caller : Nat) : OneUnit.Statement (.resume caller) := fun _ => rfl
theorem OneUnit.redirect (caller : Nat) : OneUnit.Statement (.redirect caller) := fun _ => rfl
theorem OneUnit.endstrand (caller : Nat) : OneUnit.Statement (.endstrand caller) := fun _ => rfl
theorem OneUnit.bell (m : BellMsg) : OneUnit.Statement (.bell m) := fun _ => rfl
theorem OneUnit.pilotEntry (die lane : Nat) : OneUnit.Statement (.pilotEntry die lane) := fun _ => rfl
theorem OneUnit.watchdogRestart (die : Nat) : OneUnit.Statement (.watchdogRestart die) := fun _ => rfl
theorem OneUnit.watchdogExpiry (die : Nat) : OneUnit.Statement (.watchdogExpiry die) := fun _ => rfl
theorem OneUnit.machineCheckStop (die : Nat) : OneUnit.Statement (.machineCheckStop die) := fun _ => rfl
theorem OneUnit.recoveryTimeout (die : Nat) : OneUnit.Statement (.recoveryTimeout die) := fun _ => rfl
theorem OneUnit.powerGood : OneUnit.Statement (.powerGood) := fun _ => rfl
theorem OneUnit.powerLoss : OneUnit.Statement (.powerLoss) := fun _ => rfl
theorem OneUnit.setPowerLimit (watts : Nat) : OneUnit.Statement (.setPowerLimit watts) := fun _ => rfl
theorem OneUnit.thermalStep (die temp : Nat) : OneUnit.Statement (.thermalStep die temp) := fun _ => rfl
theorem OneUnit.thermtrip (die temp : Nat) : OneUnit.Statement (.thermtrip die temp) := fun _ => rfl
theorem OneUnit.patrolScrub (blk : Nat) (r : ScrubResult) : OneUnit.Statement (.patrolScrub blk r) := fun _ => rfl
theorem OneUnit.telemetryReport : OneUnit.Statement (.telemetryReport) := fun _ => rfl
theorem OneUnit.telemetryRequest : OneUnit.Statement (.telemetryRequest) := fun _ => rfl
theorem OneUnit.errorCounterRequest : OneUnit.Statement (.errorCounterRequest) := fun _ => rfl
theorem OneUnit.imageLoad (die tcid : Nat) (img : Image) : OneUnit.Statement (.imageLoad die tcid img) := fun _ => rfl
theorem OneUnit.filterStateLost (die tcid win : Nat) : OneUnit.Statement (.filterStateLost die tcid win) := fun _ => rfl
theorem OneUnit.railOutsideTolerance (rail : Nat) : OneUnit.Statement (.railOutsideTolerance rail) := fun _ => rfl
theorem OneUnit.retiredPageMove (die src dst : Nat) : OneUnit.Statement (.retiredPageMove die src dst) := fun _ => rfl

end Sys2Proof.Laws
end

