-- ==== Sys2Proof/Tests/Slice0.lean ====
section
/-! SUPPORT. The model's own tests: the decoding of words written out from the spec's encoding tables, terms that well-formedness refuses,
single steps, and for every statement with hypotheses a state and operands that meet them all. -/
set_option maxRecDepth 20000
set_option exponentiation.threshold 2000
namespace Sys2Proof.Tests
open Sys2Proof Sys2Proof.Machine

/-- A syllable's bits, and the operation that the slot's decoder reads from them. -/
def readsAs (sl : Slot) (x : Nat × Instr) : Bool :=
  match decodeSyllable sl x.1 with
  | .ok i => decide (i = x.2)
  | .error _ => false
/-- A pilot word and the instruction it decodes to. -/
def readsAsPilot (x : Nat × Instr) : Bool := decide (decodePilot x.1 = some x.2)
/-- An outcome that is a next state with a property. -/
def nextIs (o : Host.Outcome State Fault Refusal) (p : State → Bool) : Bool :=
  match o with
  | .next t => p t
  | _ => false
/-- A core that issues for one strand, with a full allocation, in a die in service. -/
def core0 : State := State.reset.withBundleWords []
/-- That state with the strand changed. -/
def on (f : Strand → Strand) : State := core0.modStrand 0 f
/-- The always true and the always false guard. -/
def yes : Guard := ⟨0, false⟩
def no : Guard := ⟨0, true⟩

/-! ## Decoding -/

/-- R53, R55, R56, R63: S-slot syllables. -/
theorem test_decode_s1 : ([
    (0x138B0FC00000000, .add ⟨⟨3, true⟩, 5, 33, 62⟩),
    (0x238B0FC00000000, .sub ⟨⟨3, true⟩, 5, 33, 62⟩),
    (0x538B0FC00000000, .mulh ⟨⟨3, true⟩, 5, 33, 62⟩),
    (0x638B0FC00000000, .mulhu ⟨⟨3, true⟩, 5, 33, 62⟩),
    (0x738B0FC00000000, .div ⟨⟨3, true⟩, 5, 33, 62⟩),
    (0x838B0FC00000000, .divu ⟨⟨3, true⟩, 5, 33, 62⟩),
    (0x938B0FC00000000, .rem ⟨⟨3, true⟩, 5, 33, 62⟩),
    (0xA38B0FC00000000, .remu ⟨⟨3, true⟩, 5, 33, 62⟩),
    (0x338B081FFFFFFFB, .addi ⟨⟨3, true⟩, 5, 33, 4294967291⟩),
    (0x438B0FC00000000, .mul ⟨⟨3, true⟩, 5, 33, .reg 62⟩),
    (0x438B08180000003, .mul ⟨⟨3, true⟩, 5, 33, .imm 2147483651⟩),
    (0xB38B0FC00000000, .and ⟨⟨3, true⟩, 5, 33, .reg 62⟩),
    (0xB38B08180000003, .and ⟨⟨3, true⟩, 5, 33, .imm 2147483651⟩),
    (0xC38B0FC00000000, .or ⟨⟨3, true⟩, 5, 33, .reg 62⟩),
    (0xC38B08180000003, .or ⟨⟨3, true⟩, 5, 33, .imm 2147483651⟩),
    (0xD38B0FC00000000, .xor ⟨⟨3, true⟩, 5, 33, .reg 62⟩)] : List (Nat × Instr)).all (readsAs .s) = true := by decide

/-- R53, R55, R56, R63: S-slot syllables. -/
theorem test_decode_s2 : ([
    (0xD38B08180000003, .xor ⟨⟨3, true⟩, 5, 33, .imm 2147483651⟩),
    (0xE38B0FC00000000, .andn ⟨⟨3, true⟩, 5, 33, .reg 62⟩),
    (0xE38B08180000003, .andn ⟨⟨3, true⟩, 5, 33, .imm 2147483651⟩),
    (0x1538B0FC00000000, .min ⟨⟨3, true⟩, 5, 33, .reg 62⟩),
    (0x1538B08180000003, .min ⟨⟨3, true⟩, 5, 33, .imm 2147483651⟩),
    (0x1638B0FC00000000, .max ⟨⟨3, true⟩, 5, 33, .reg 62⟩),
    (0x1638B08180000003, .max ⟨⟨3, true⟩, 5, 33, .imm 2147483651⟩),
    (0x1738B0FC00000000, .minu ⟨⟨3, true⟩, 5, 33, .reg 62⟩),
    (0x1738B08180000003, .minu ⟨⟨3, true⟩, 5, 33, .imm 2147483651⟩),
    (0x1838B0FC00000000, .maxu ⟨⟨3, true⟩, 5, 33, .reg 62⟩),
    (0x1838B08180000003, .maxu ⟨⟨3, true⟩, 5, 33, .imm 2147483651⟩),
    (0xF38B0FC00000000, .shl ⟨⟨3, true⟩, 5, 33, .reg 62⟩),
    (0xF38B0810000003D, .shl ⟨⟨3, true⟩, 5, 33, .imm 61⟩),
    (0x1038B0FC00000000, .shr ⟨⟨3, true⟩, 5, 33, .reg 62⟩),
    (0x1038B0810000003D, .shr ⟨⟨3, true⟩, 5, 33, .imm 61⟩),
    (0x1138B0FC00000000, .sar ⟨⟨3, true⟩, 5, 33, .reg 62⟩)] : List (Nat × Instr)).all (readsAs .s) = true := by decide

/-- R53, R55, R56, R63: S-slot syllables. -/
theorem test_decode_s3 : ([
    (0x1138B0810000003D, .sar ⟨⟨3, true⟩, 5, 33, .imm 61⟩),
    (0x1238B0FC00000000, .rotl ⟨⟨3, true⟩, 5, 33, .reg 62⟩),
    (0x1238B0810000003D, .rotl ⟨⟨3, true⟩, 5, 33, .imm 61⟩),
    (0x1338B08000000000, .clz ⟨⟨3, true⟩, 5, 33⟩),
    (0x1438B08000000000, .popc ⟨⟨3, true⟩, 5, 33⟩),
    (0x1938B0FC00000009, .sel ⟨⟨3, true⟩, 5, 33, 62, 9⟩),
    (0x1A38A001F0000001, .li ⟨⟨3, true⟩, 5, 4026531841⟩),
    (0x1B38A001F0000001, .lih ⟨⟨3, true⟩, 5, 4026531841⟩),
    (0x1C3CE87E00000000, .cmp ⟨⟨3, true⟩, 9, 6, 33, 62⟩),
    (0x1D3CD84080000003, .cmpi ⟨⟨3, true⟩, 9, 5, 33, 2147483651⟩),
    (0x1E3CB64000000000, .pand ⟨⟨3, true⟩, 9, 6, true, 12, false⟩),
    (0x1F3CB64000000000, .por ⟨⟨3, true⟩, 9, 6, true, 12, false⟩),
    (0x203CB64000000000, .pxor ⟨⟨3, true⟩, 9, 6, true, 12, false⟩),
    (0x213CB04000000000, .pnot ⟨⟨3, true⟩, 9, 6, true⟩),
    (0x2238108000000000, .br ⟨⟨3, true⟩, 33⟩),
    (0x2438108000000000, .call ⟨⟨3, true⟩, 33⟩)] : List (Nat × Instr)).all (readsAs .s) = true := by decide

/-- R53, R55, R56, R63: S-slot syllables. -/
theorem test_decode_s4 : ([
    (0x23380001FFFFFFF0, .bri ⟨⟨3, true⟩, 4294967280⟩),
    (0x25380001FFFFFFF0, .calli ⟨⟨3, true⟩, 4294967280⟩),
    (0x2638000000000000, .ret ⟨3, true⟩),
    (0x2738A00000000042, .csrr ⟨⟨3, true⟩, 5, 0x42⟩),
    (0x28381080000001F0, .csrw ⟨⟨3, true⟩, 33, 0x1F0⟩),
    (0x29381080000001F0, .csrs ⟨⟨3, true⟩, 33, 0x1F0⟩),
    (0x2A381080000001F0, .csrc ⟨⟨3, true⟩, 33, 0x1F0⟩),
    (0x2B38000100009C41, .trap ⟨⟨3, true⟩, 40001⟩),
    (0x2C38000100009C41, .hail ⟨⟨3, true⟩, 40001⟩),
    (0x2D381080000000A5, .layw ⟨⟨3, true⟩, 33, 37, 2⟩),
    (0x2E38A000000000A5, .layr ⟨⟨3, true⟩, 5, 37, 2⟩),
    (0x2F38A000000001B6, .movh ⟨⟨3, true⟩, 5, 6, 11, true⟩)] : List (Nat × Instr)).all (readsAs .s) = true := by decide

/-- R59, R65, R251 to R258: MX-slot syllables. -/
theorem test_decode_mx1 : ([
    (0x138058000000000, .mcallMma ⟨⟨3, true⟩, 5, true⟩),
    (0x1380D8000000000, .mcallMmat ⟨⟨3, true⟩, 5, true⟩),
    (0x138158000000000, .mcallMmab ⟨⟨3, true⟩, 5, true⟩),
    (0x138258000000000, .mcallSplit ⟨⟨3, true⟩, 5, true⟩),
    (0x1382D8000000000, .mcallSlmma ⟨⟨3, true⟩, 5, true⟩),
    (0x138358000000000, .mcallFold ⟨⟨3, true⟩, 5, true⟩),
    (0x138458000000000, .mcallTrans ⟨⟨3, true⟩, 5, true⟩),
    (0x1384D8000000000, .mcallMcopy ⟨⟨3, true⟩, 5, true⟩),
    (0x238052500000000, .mpar ⟨⟨3, true⟩, 5, 37⟩),
    (0x3380040960000C3, .mlds ⟨⟨3, true⟩, .b, 300, 1, 97⟩),
    (0x4380000000096CB, .mplane ⟨⟨3, true⟩, 1, 37, 301⟩),
    (0x53800C096000DE1, .mrd ⟨⟨3, true⟩, true, .b, 300, 97, 11, true⟩),
    (0x63800C096000DE1, .mwr ⟨⟨3, true⟩, true, .b, 300, 97, 11, true⟩),
    (0x738008000000000, .mclr ⟨⟨3, true⟩, true⟩),
    (0x838008000000000, .mnorm ⟨⟨3, true⟩, true⟩),
    (0x93800000000000B, .mfmt ⟨⟨3, true⟩, 11⟩)] : List (Nat × Instr)).all (readsAs .mx) = true := by decide

/-- R59, R65, R251 to R258: MX-slot syllables. -/
theorem test_decode_mx2 : ([
    (0xA3800250000001B, .mstat ⟨⟨3, true⟩, 37, 0x1B⟩)] : List (Nat × Instr)).all (readsAs .mx) = true := by decide

/-- R60, R66: LD-slot syllables. -/
theorem test_decode_ld : ([
    (0x138B52C35314300, .lds ⟨⟨3, true⟩, 45, 37, ⟨true, 3⟩, ⟨false, 41⟩, ⟨true, 5⟩, ⟨false, 6⟩⟩),
    (0x438352C35314300, .ldh ⟨⟨3, true⟩, 13, 37, ⟨true, 3⟩, ⟨false, 41⟩, ⟨true, 5⟩, ⟨false, 6⟩⟩),
    (0x23CB32C35314300, .ldv ⟨⟨3, true⟩, 300, .b, 37, ⟨true, 3⟩, ⟨false, 41⟩, ⟨true, 5⟩, ⟨false, 6⟩⟩),
    (0x33CB32C353160A0, .ldvg ⟨⟨3, true⟩, 300, .b, 37, ⟨true, 3⟩, ⟨false, 41⟩, ⟨true, 5⟩, 261⟩),
    (0x538352C35302064, .tmov ⟨⟨3, true⟩, 13, 37, ⟨true, 3⟩, ⟨false, 41⟩, 50⟩)] : List (Nat × Instr)).all (readsAs .ld) = true := by decide

/-- R60, R66: ST-slot syllables. -/
theorem test_decode_st : ([
    (0x138B52C3531436C, .sts ⟨⟨3, true⟩, 45, 37, ⟨true, 3⟩, ⟨false, 41⟩, ⟨true, 5⟩, ⟨false, 6⟩, true, 11⟩),
    (0x538352C3531436C, .stvh ⟨⟨3, true⟩, 13, 37, ⟨true, 3⟩, ⟨false, 41⟩, ⟨true, 5⟩, ⟨false, 6⟩, true, 11⟩),
    (0x23CB32C3531436C, .stv ⟨⟨3, true⟩, 300, .b, 37, ⟨true, 3⟩, ⟨false, 41⟩, ⟨true, 5⟩, ⟨false, 6⟩, true, 11⟩),
    (0x33CB32C3531436C, .stvs ⟨⟨3, true⟩, 300, .b, 37, ⟨true, 3⟩, ⟨false, 41⟩, ⟨true, 5⟩, ⟨false, 6⟩, true, 11⟩),
    (0xF3CB32C35314300, .vred ⟨⟨3, true⟩, 300, .b, 37, ⟨true, 3⟩, ⟨false, 41⟩, ⟨true, 5⟩, ⟨false, 6⟩, false, 0⟩),
    (0x43CB32C3531436C, .stvm ⟨⟨3, true⟩, 300, .b, 37, ⟨true, 3⟩, ⟨false, 41⟩, ⟨true, 5⟩, 6, true, 11⟩),
    (0x638B52C353B9000, .aadd ⟨⟨3, true⟩, 45, 37, ⟨true, 3⟩, ⟨false, 41⟩, some 13, 4, true, false, 0⟩),
    (0x738B52C353B9000, .aaddf ⟨⟨3, true⟩, 45, 37, ⟨true, 3⟩, ⟨false, 41⟩, some 13, 4, true, false, 0⟩),
    (0x838B52C353B9000, .amin ⟨⟨3, true⟩, 45, 37, ⟨true, 3⟩, ⟨false, 41⟩, some 13, 4, true, false, 0⟩),
    (0x938B52C353B9000, .amax ⟨⟨3, true⟩, 45, 37, ⟨true, 3⟩, ⟨false, 41⟩, some 13, 4, true, false, 0⟩),
    (0xA38B52C353B9000, .aand ⟨⟨3, true⟩, 45, 37, ⟨true, 3⟩, ⟨false, 41⟩, some 13, 4, true, false, 0⟩),
    (0xB38B52C353B9000, .aor ⟨⟨3, true⟩, 45, 37, ⟨true, 3⟩, ⟨false, 41⟩, some 13, 4, true, false, 0⟩),
    (0xC38B52C353B9000, .axor ⟨⟨3, true⟩, 45, 37, ⟨true, 3⟩, ⟨false, 41⟩, some 13, 4, true, false, 0⟩),
    (0xD38B52C353B9000, .aswp ⟨⟨3, true⟩, 45, 37, ⟨true, 3⟩, ⟨false, 41⟩, some 13, 4, true, false, 0⟩),
    (0xE38B52C35206E40, .acas ⟨⟨3, true⟩, 45, 37, ⟨true, 3⟩, ⟨false, 41⟩, none, 3, false, true, 50⟩)] : List (Nat × Instr)).all (readsAs .st) = true := by decide

/-- R61, R67, R303: CE-slot syllables, the last CWAIT as R303 gives it. -/
theorem test_decode_ce : ([
    (0x138A04BB9000000, .cjob ⟨⟨3, true⟩, 5, 37, 13, 50⟩),
    (0x238A001A0000000, .cwait ⟨⟨3, true⟩, 5, 13⟩),
    (0x338A001A0000000, .cpoll ⟨⟨3, true⟩, 5, 13⟩),
    (0x200A00040000000, .cwait ⟨⟨0, false⟩, 5, 2⟩),
    (0x438A00000000000, .ckill ⟨⟨3, true⟩, 5⟩),
    (0x538B4CA19000FFF, .csend ⟨⟨3, true⟩, 5, 41, 37, 50, 0, 0, 4095⟩),
    (0x638B4CA193C9FFF, .cred ⟨⟨3, true⟩, 5, 41, 37, 50, 3, 201, 4095⟩),
    (0x738B4800000D801, .cbell ⟨⟨3, true⟩, 5, 41, false, 13, 2049⟩),
    (0x738B48000080801, .cbell ⟨⟨3, true⟩, 5, 41, true, 0, 2049⟩)] : List (Nat × Instr)).all (readsAs .ce) = true := by decide

/-- R53, R68, R233: SY-slot syllables. -/
theorem test_decode_sy1 : ([
    (0x4EC0B69, .lset ⟨⟨3, true⟩, true, 517, 5, .reg 41⟩),
    (0x4F40B69, .lset ⟨⟨3, true⟩, false, 517, 5, .imm 41⟩),
    (0x8E00006, .lbrk ⟨⟨3, true⟩, 6⟩),
    (0xCE00000, .endStrand ⟨3, true⟩),
    (0x14E00000, .fence ⟨3, true⟩),
    (0x34E00000, .yield ⟨3, true⟩),
    (0x3CE00000, .hret ⟨3, true⟩),
    (0x10E00004, .phase ⟨⟨3, true⟩, 4⟩),
    (0x10000002, .phase ⟨⟨0, false⟩, 2⟩),
    (0x18E00069, .waitf ⟨⟨3, true⟩, true, 41⟩),
    (0x1CE00029, .setf ⟨⟨3, true⟩, 41⟩),
    (0x20E00029, .clrf ⟨⟨3, true⟩, 41⟩),
    (0x24F2D394, .spin ⟨⟨3, true⟩, 37, 41, 50, 4⟩),
    (0x28E000C9, .join ⟨⟨3, true⟩, 201⟩),
    (0x2CE000C9, .leave ⟨⟨3, true⟩, 201⟩),
    (0x30E000C9, .cbar ⟨⟨3, true⟩, 201⟩)] : List (Nat × Instr)).all (readsAs .sy) = true := by decide

/-- R53, R68, R233: SY-slot syllables. -/
theorem test_decode_sy2 : ([
    (0x38F37FFF, .take ⟨⟨3, true⟩, 38, 32767⟩)] : List (Nat × Instr)).all (readsAs .sy) = true := by decide

/-- R402, R403: pilot instruction words. -/
theorem test_decode_pilot1 : ([
    (0x6BC0000, .pilotAdd ⟨5, 3, 6⟩),
    (0xABC0000, .pilotSub ⟨5, 3, 6⟩),
    (0xEBC0000, .pilotAnd ⟨5, 3, 6⟩),
    (0x12BC0000, .pilotOr ⟨5, 3, 6⟩),
    (0x16BC0000, .pilotXor ⟨5, 3, 6⟩),
    (0x1ABC0000, .pilotMul ⟨5, 3, 6⟩),
    (0x1EB00029, .pilotShl ⟨5, 3, 41⟩),
    (0x22B00029, .pilotShr ⟨5, 3, 41⟩),
    (0x26BFFFFB, .pilotAddi ⟨5, 3, 1048571⟩),
    (0x2ABFFFFB, .pilotAndi ⟨5, 3, 1048571⟩),
    (0x2EBFFFFB, .pilotOri ⟨5, 3, 1048571⟩),
    (0x328FFFFB, .pilotLi ⟨5, 1048571⟩),
    (0x36BE0208, .ldm ⟨5, 3, 3, 2, 520⟩),
    (0x3ABE0208, .stm ⟨5, 3, 3, 2, 520⟩),
    (0x3EB0004D, .beq ⟨5, 3, 77⟩),
    (0x42B0004D, .bne ⟨5, 3, 77⟩)] : List (Nat × Instr)).all readsAsPilot = true := by decide

/-- R402, R403: pilot instruction words. -/
theorem test_decode_pilot2 : ([
    (0x46B0004D, .bltu ⟨5, 3, 77⟩),
    (0x4AB0004D, .bgeu ⟨5, 3, 77⟩),
    (0x4E90004D, .loop ⟨41, 77⟩),
    (0x80500000, .emitLaunch 5),
    (0x84500000, .emitCopy 5),
    (0x88560801, .emitBell ⟨5, 3, 2049⟩),
    (0x8C0000C9, .drop 201)] : List (Nat × Instr)).all readsAsPilot = true := by decide

/-- R53, R57, R64: syllables of a vector slot. -/
theorem test_decode_v1 : ([
    (0x13CB02304005240, .vadd ⟨.a, ⟨3, true⟩, 300, 17, 260, 5, 2, 1⟩),
    (0x23CB02304005240, .vsub ⟨.a, ⟨3, true⟩, 300, 17, 260, 5, 2, 1⟩),
    (0x33CB02304005240, .vmul ⟨.a, ⟨3, true⟩, 300, 17, 260, 5, 2, 1⟩),
    (0x43CB0230440D240, .vfma ⟨.a, ⟨3, true⟩, 300, 17, 260, 129, 5, 2, 1⟩),
    (0x53CB0230440D240, .vfms ⟨.a, ⟨3, true⟩, 300, 17, 260, 129, 5, 2, 1⟩),
    (0x63CB0230440D240, .vfnma ⟨.a, ⟨3, true⟩, 300, 17, 260, 129, 5, 2, 1⟩),
    (0x73CB02304005200, .vmin ⟨.a, ⟨3, true⟩, 300, 17, 260, 5, 2⟩),
    (0x83CB02304005200, .vmax ⟨.a, ⟨3, true⟩, 300, 17, 260, 5, 2⟩),
    (0xB3CB02304005200, .vcpys ⟨.a, ⟨3, true⟩, 300, 17, 260, 5, 2⟩),
    (0x253CB02304005200, .vexpmax ⟨.a, ⟨3, true⟩, 300, 17, 260, 5, 2⟩),
    (0x153CB02304005A00, .vimulh ⟨.a, ⟨3, true⟩, 300, 17, 260, 5, 10⟩),
    (0x163CB02304005A00, .vimin ⟨.a, ⟨3, true⟩, 300, 17, 260, 5, 10⟩),
    (0x173CB02304005A00, .vimax ⟨.a, ⟨3, true⟩, 300, 17, 260, 5, 10⟩),
    (0x293CB02304005A00, .vperm ⟨.a, ⟨3, true⟩, 300, 17, 260, 5, 10⟩),
    (0x2A3CB02304005A00, .vshuf ⟨.a, ⟨3, true⟩, 300, 17, 260, 5, 10⟩),
    (0x93CB02200005200, .vabs ⟨.a, ⟨3, true⟩, 300, 17, 5, 2⟩)] : List (Nat × Instr)).all (readsAs .va) = true := by decide

/-- R53, R57, R64: syllables of a vector slot. -/
theorem test_decode_v2 : ([
    (0xA3CB02200005200, .vneg ⟨.b, ⟨3, true⟩, 300, 17, 5, 2⟩),
    (0x183CB02200005800, .viabs ⟨.b, ⟨3, true⟩, 300, 17, 5, 8⟩),
    (0x303CB02200005700, .vrsum ⟨.b, ⟨3, true⟩, 300, 17, 5, 7⟩),
    (0x313CB02200005700, .vrmax ⟨.b, ⟨3, true⟩, 300, 17, 5, 7⟩),
    (0x323CB02200005700, .vrmin ⟨.b, ⟨3, true⟩, 300, 17, 5, 7⟩),
    (0xC3CB022000052C0, .vrcp ⟨.b, ⟨3, true⟩, 300, 17, 5, 2, 3⟩),
    (0xD3CB022000052C0, .vrsq ⟨.b, ⟨3, true⟩, 300, 17, 5, 2, 3⟩),
    (0xE3CB022000052C0, .vsqrt ⟨.b, ⟨3, true⟩, 300, 17, 5, 2, 3⟩),
    (0xF3CB022000052C0, .vexp2 ⟨.b, ⟨3, true⟩, 300, 17, 5, 2, 3⟩),
    (0x103CB022000052C0, .vlog2 ⟨.b, ⟨3, true⟩, 300, 17, 5, 2, 3⟩),
    (0x1138182304005A04, .vcmp ⟨.b, ⟨3, true⟩, 6, 17, 260, 5, 10, 4⟩),
    (0x123CB02304005A30, .viadd ⟨.b, ⟨3, true⟩, 300, 17, 260, 5, 10, 3⟩),
    (0x133CB02304005A30, .visub ⟨.b, ⟨3, true⟩, 300, 17, 260, 5, 10, 3⟩),
    (0x143CB02304005A30, .vimul ⟨.b, ⟨3, true⟩, 300, 17, 260, 5, 10, 3⟩),
    (0x193CB02304005000, .vand ⟨.b, ⟨3, true⟩, 300, 17, 260, 5⟩),
    (0x1A3CB02304005000, .vor ⟨.b, ⟨3, true⟩, 300, 17, 260, 5⟩)] : List (Nat × Instr)).all (readsAs .vb) = true := by decide

/-- R53, R57, R64: syllables of a vector slot. -/
theorem test_decode_v3 : ([
    (0x1B3CB02304005000, .vxor ⟨.a, ⟨3, true⟩, 300, 17, 260, 5⟩),
    (0x1C3CB02304005000, .vandn ⟨.a, ⟨3, true⟩, 300, 17, 260, 5⟩),
    (0x1D3CB02348005A00, .vshl ⟨.a, ⟨3, true⟩, 300, 17, .reg 41, 5, 10⟩),
    (0x1D3CB0220602DA00, .vshl ⟨.a, ⟨3, true⟩, 300, 17, .imm 1029, 5, 10⟩),
    (0x1E3CB02348005A00, .vshr ⟨.a, ⟨3, true⟩, 300, 17, .reg 41, 5, 10⟩),
    (0x1E3CB0220602DA00, .vshr ⟨.a, ⟨3, true⟩, 300, 17, .imm 1029, 5, 10⟩),
    (0x1F3CB02348005A00, .vsar ⟨.a, ⟨3, true⟩, 300, 17, .reg 41, 5, 10⟩),
    (0x1F3CB0220602DA00, .vsar ⟨.a, ⟨3, true⟩, 300, 17, .imm 1029, 5, 10⟩),
    (0x2B3CB02348005A00, .vslide ⟨.a, ⟨3, true⟩, 300, 17, .reg 41, 5, 10⟩),
    (0x2B3CB0220602DA00, .vslide ⟨.a, ⟨3, true⟩, 300, 17, .imm 1029, 5, 10⟩),
    (0x203CB02200005376, .vcvt ⟨.a, ⟨3, true⟩, 300, 17, 5, 3, 6, 1, 3⟩),
    (0x213CB02200005976, .vcvti ⟨.a, ⟨3, true⟩, 300, 17, 5, 9, 6, 1, 3⟩),
    (0x223CB0220000537A, .vcvtf ⟨.a, ⟨3, true⟩, 300, 17, 5, 3, 10, 1, 3⟩),
    (0x233CB0230440D070, .vqfp4 ⟨.a, ⟨3, true⟩, 300, 17, 260, 129, 5, 1, 3⟩),
    (0x243CB0230440D070, .vdqfp4 ⟨.a, ⟨3, true⟩, 300, 17, 260, 129, 5, 1, 3⟩),
    (0x263CB02304005270, .vscale ⟨.a, ⟨3, true⟩, 300, 17, 260, 5, 2, 1, 3⟩)] : List (Nat × Instr)).all (readsAs .va) = true := by decide

/-- R53, R57, R64: syllables of a vector slot. -/
theorem test_decode_v4 : ([
    (0x273CB02200005000, .vmov ⟨.b, ⟨3, true⟩, 300, 17, 5⟩),
    (0x2D3CB02200005000, .vxfer ⟨.b, ⟨3, true⟩, 300, 17, 5⟩),
    (0x283CB00148005A00, .vbcast ⟨.b, ⟨3, true⟩, 300, .reg 41, 5, 10⟩),
    (0x283CB0000602DA00, .vbcast ⟨.b, ⟨3, true⟩, 300, .imm 1029, 5, 10⟩),
    (0x2C3CB02304005006, .vsel ⟨.b, ⟨3, true⟩, 300, 17, 260, 5, 6⟩),
    (0x2E3CB000040DD000, .vmovh ⟨.b, ⟨3, true⟩, 300, 5, 11, true⟩),
    (0x2F38942206028A00, .vlane ⟨.b, ⟨3, true⟩, 37, 17, .imm 1029, 10⟩),
    (0x333E740000000000, .mand ⟨.b, ⟨3, true⟩, 6, 3, 5⟩),
    (0x343E740000000000, .mor ⟨.b, ⟨3, true⟩, 6, 3, 5⟩),
    (0x353E740000000000, .mxor ⟨.b, ⟨3, true⟩, 6, 3, 5⟩),
    (0x363E600000000000, .mnot ⟨.b, ⟨3, true⟩, 6, 3⟩),
    (0x3738625000000000, .mpop ⟨.b, ⟨3, true⟩, 37, 3⟩)] : List (Nat × Instr)).all (readsAs .vb) = true := by decide

/-! ## Witnesses: scalar slot, control and synchronisation -/

/-- ScalarArithmetic, DivisionResults, ShiftResults, SelectAndImmediates. -/
theorem wit_scalar : Issues core0 0 ∧ (core0.strand 0).guard yes = true := ⟨⟨rfl, rfl⟩, by decide⟩
/-- ComparesAndPredicates, at the first and the last condition. -/
theorem wit_compares : Issues core0 0 ∧ (core0.strand 0).guard yes = true ∧ 0 < 8 ∧ 7 < 8 := ⟨⟨rfl, rfl⟩, by decide, by decide⟩
/-- SystemOperations: the last latch full, and a writable CSR that is not privileged. -/
theorem wit_system : let s := on (fun t => t.wh 15 ⟨7, true, none, false, 1⟩)
    Issues s 0 ∧ (s.strand 0).guard yes = true ∧ 15 < (s.strand 0).nlatch ∧ ((s.strand 0).rh 15).full = true ∧
      ((s.strand 0).rh 15).pend = none ∧ csrPriv 0x005 = false ∧ csrRw 0x005 ≠ 0 := ⟨⟨rfl, rfl⟩, by decide⟩
/-- CsrWritesRefused: a privileged CSR of a tenant's strand, and a read-only one. -/
theorem wit_csr : Issues core0 0 ∧ (csrPriv 0x080 = true ∧ (core0.strand 0).supervisor = false) ∧
    (csrPriv 0x000 = false ∧ csrRw 0x000 = 0) := ⟨⟨rfl, rfl⟩, by decide⟩
/-- ScalarResultLands. -/
theorem wit_lands : let s := on (fun t => { t with inflight := [onWay t .s (.sreg 63) 3 5 fullEn none] })
    (s.strand 0).inflight = [onWay (s.strand 0) .s (.sreg 63) (2 + 1) 5 fullEn none] ∧ 2 ≤ 2 := by decide
/-- TransfersComplete: the deepest call, and a return. -/
theorem wit_transfers :
    (let s := on (fun t => { t with shadow := List.replicate 63 ⟨1, 0⟩, spilled := List.replicate 512 ⟨1, 0⟩ })
     Issues s 0 ∧ (s.strand 0).guard yes = true ∧ (s.strand 0).held < 576 ∧ (s.strand 0).shadow.length < 64) ∧
    (let s := on (fun t => { t.ws 62 9 with shadow := [⟨9, 0⟩] })
     Issues s 0 ∧ (s.strand 0).guard yes = true ∧ (s.strand 0).shadow = ⟨9, 0⟩ :: [] ∧ (s.strand 0).shadowBase < (s.strand 0).held ∧
       (s.strand 0).rs 62 = BitVec.ofNat 64 9) := ⟨⟨⟨rfl, rfl⟩, by decide⟩, ⟨⟨rfl, rfl⟩, by decide⟩⟩
/-- TransferPops: a level that the target lies outside of, inside another. -/
theorem wit_pops : let l : Loop := ⟨2, 1, 0, false, 3⟩
    ([l] : List Loop)[0]? = some l ∧ 0 < 1 - 0 ∧ (l.start ≤ 31 ∧ 31 < (l.endl + 1) * 16) ∧ ¬(32 < (l.endl + 1) * 16) := by decide
/-- LoopOperations: a loop of count 63, one of count 0, and an LBRK of both levels. -/
theorem wit_loops :
    (Issues core0 0 ∧ (opLset ⟨yes, false, 1, 0, .imm 63⟩ core0).Clear (core0.strand 0) ∧ lsetCount (core0.strand 0) (.imm 63) ≠ 0) ∧
    ((opLset ⟨yes, false, 1, 0, .imm 0⟩ core0).Clear (core0.strand 0) ∧ lsetCount (core0.strand 0) (.imm 0) = 0) ∧
    (let s := on (fun t => { t with loops := [⟨2, 1, 0, false, 3⟩, ⟨1, 2, 0, false, 3⟩] })
     Issues s 0 ∧ (s.strand 0).guard yes = true ∧ 1 ≤ 2 ∧ 2 ≤ (s.strand 0).loops.length - (s.strand 0).floor ∧
       (s.strand 0).loops[2 - 1]? = some ⟨1, 2, 0, false, 3⟩) :=
  ⟨⟨⟨rfl, rfl⟩, ⟨by decide, by decide, by decide⟩, by decide⟩, ⟨⟨by decide, by decide, by decide⟩, by decide⟩, ⟨⟨rfl, rfl⟩, by decide⟩⟩
/-- LoopTraps: an end line before the successor's, six levels, a body that the innermost level does not hold, a second drainable level, and one
level more than there is. -/
theorem wit_loopTraps :
    (let s := on (fun t => { t with bun := ⟨0, 16, true, 0⟩ })
     Issues s 0 ∧ (s.strand 0).guard yes = true ∧ (s.strand 0).bun.addr / 16 + 0 < (s.strand 0).bun.succ / 16) ∧
    (let s := on (fun t => { t with loops := [⟨2, 1, 0, false, 3⟩] })
     Issues s 0 ∧ (s.strand 0).loops = ⟨2, 1, 0, false, 3⟩ :: [] ∧ (s.strand 0).floor < (s.strand 0).loops.length ∧
       1 < (s.strand 0).bun.addr / 16 + 2) ∧
    (let s := on (fun t => { t with loops := [⟨2, 1, 5, false, 3⟩] })
     Issues s 0 ∧ 0 < 1 ∧ ∃ l ∈ (s.strand 0).loops, 0 < l.depth) ∧
    (let s := on (fun t => { t with loops := List.replicate 6 ⟨2, 1, 0, false, 3⟩ })
     Issues s 0 ∧ (s.strand 0).guard yes = true ∧ (s.strand 0).loops.length = 6) ∧
    (Issues core0 0 ∧ (core0.strand 0).loops.length - (core0.strand 0).floor < 1) :=
  ⟨⟨⟨rfl, rfl⟩, by decide⟩, ⟨⟨rfl, rfl⟩, by decide⟩, ⟨⟨rfl, rfl⟩, by decide⟩, ⟨⟨rfl, rfl⟩, by decide⟩, ⟨rfl, rfl⟩, by decide⟩
/-- BackEdges: a level with count left, and with none left. -/
theorem wit_edges : let l : Loop := ⟨2, 1, 0, false, 0⟩
    (0 < [({ l with count := 1 } : Loop)].length ∧ l.endl = 1 ∧ 0 < ({ l with count := 1 } : Loop).count) ∧ (0 < [l].length ∧ l.count = 0) := by
  decide
/-- SyncOperations and FalseGuard. -/
theorem wit_sync : Issues core0 0 ∧ (core0.strand 0).guard yes = true ∧ (core0.strand 0).guard no = false ∧ (core0.strand 0).hsave = none ∧
    Within (core0.strand 0) [(.a, 255), (.a, 0), (.a, 17)] := ⟨⟨rfl, rfl⟩, by decide, by decide, by decide, by unfold Within; decide⟩
/-- A context that may use 256 crews. -/
def crews (f : Die → Die) : State := (core0.modCtx 0 0 (fun c => { c with crewq := 256 })).modDie 0 f
/-- CrewAndRange: the last crew, with no generation open; a member who is not the last to arrive; a range that keeps one index. -/
theorem wit_crews :
    (let s := crews id
     Issues s 0 ∧ (s.strand 0).hsave = none ∧ 255 < (s.ctx 0 0).crewq ∧ (s.crew 0 0 255).arrived = [] ∧
       (s.crew 0 0 255).members.contains 0 = false ∧ (s.crew 0 0 255).joining.contains 0 = false) ∧
    (let s := crews (fun d => { d with crews := [(255, ⟨[0, 1], [], [], [], []⟩)] })
     Issues s 0 ∧ 255 < (s.ctx 0 0).crewq ∧ (s.crew 0 0 255).members.contains 0 = true ∧ (s.crew 0 0 255).joining.contains 0 = false ∧
       1 ∈ (s.crew 0 0 255).members ∧ (s.crew 0 0 255).arrived.contains 1 = false) ∧
    (let s := on (fun t => { t with range := ⟨0, 3, false, false, none⟩ })
     Issues s 0 ∧ 62 % 2 = 0 ∧ (s.strand 0).range.next < (s.strand 0).range.limit ∧ (s.strand 0).range.slot = none ∧
       (s.strand 0).range.next + 2 < (s.strand 0).range.limit) := ⟨⟨⟨rfl, rfl⟩, by decide⟩, ⟨⟨rfl, rfl⟩, by decide⟩, ⟨⟨rfl, rfl⟩, by decide⟩⟩
/-- HandlerReturn: in a handler that has returned from its calls, and outside one. -/
theorem wit_handler :
    (let s := on (fun t => { t with hsave := some ⟨5, 0, 3, 0, 0, .flag 2 false, []⟩ })
     Issues s 0 ∧ (s.strand 0).guard yes = true ∧ (s.strand 0).hsave = some ⟨5, 0, 3, 0, 0, .flag 2 false, []⟩ ∧ (s.strand 0).held ≤ 0) ∧
    (core0.strand 0).hsave = none := ⟨⟨⟨rfl, rfl⟩, by decide⟩, by decide⟩

/-! ## Witnesses: vector slots, matrix unit, memory -/

/-- VectorFloat, VectorApproximate, VectorInteger, VectorConversions, VectorMoves, MaskOperations, MatrixTransfers: the highest register
of the allocation, and a full latch. -/
theorem wit_vector : let s := on (fun t => t.wh 0 ⟨7, true, none, false, 1⟩)
    Issues s 0 ∧ (s.strand 0).guard yes = true ∧ Within (s.strand 0) [(.a, 255), (.a, 255), (.b, 255), (.a, 0)] ∧ (s.strand 0).hsave = none ∧
      0 < (s.strand 0).nlatch ∧ ((s.strand 0).rh 0).full = true ∧ ((s.strand 0).rh 0).pend = none :=
  ⟨⟨rfl, rfl⟩, by decide, by unfold Within; decide, by decide⟩
/-- LanesLand, at the last lane of the narrowest and of the widest type. -/
theorem wit_lanes : (4 ∈ [4, 8, 16, 32, 64] ∧ 255 < 1024 / 4 ∧ (List.replicate 256 15).length = 1024 / 4 ∧ ∀ x ∈ List.replicate 256 15, x < 2 ^ 4) ∧
    (64 ∈ [4, 8, 16, 32, 64] ∧ 15 < 1024 / 64 ∧ (List.replicate 16 7).length = 1024 / 64 ∧ ∀ x ∈ List.replicate 16 7, x < 2 ^ 64) := by decide
/-- RegRangeTrap: the first register beyond an allocation of 7 granules, as a destination, as either source, as a source of three, as a source
in the other file, and as a destination of VMOVH. -/
theorem wit_range : let s := on (fun t => { t.wh 0 ⟨7, true, none, false, 1⟩ with ga := 7 })
    let out (i : Instr) : Bool := match vecRegs i with | some (_, rs) => rs.any (fun r => decide (32 * (s.strand 0).granules r.1 ≤ r.2)) | none => false
    Issues s 0 ∧ (s.strand 0).hsave = none ∧ out (.vadd ⟨.a, no, 224, 0, 1, 0, 0, 0⟩) = true ∧ out (.vadd ⟨.a, yes, 0, 224, 1, 0, 0, 0⟩) = true ∧
      out (.vmin ⟨.a, yes, 0, 1, 224, 0, 0⟩) = true ∧ out (.vqfp4 ⟨.a, yes, 0, 1, 2, 224, 0, 0, 0⟩) = true ∧
      out (.vxfer ⟨.b, yes, 0, 224, 0⟩) = true ∧ out (.vmovh ⟨.a, yes, 224, 0, 0, false⟩) = true ∧ ((s.strand 0).rh 0).full = true :=
  ⟨⟨rfl, rfl⟩, by decide⟩
/-- A strand with 128 KiB of core scratch and the layout entries 0, 16 elements of I32 in core scratch; 1, the same in cluster scratch;
2, a malformed entry; 3, 8,192 elements of I64 in core scratch; 4, a tile of 128 rows of 128
I8 elements; 5, 65,536 bytes. Window 0 leads to the cluster regions of the same context. -/
def laid : State := (on (fun t => { t with csu := 4, lay := [(0, 0xA00), (1, 15), (4, 0xA01), (5, 15), (8, 0x1A00), (12, 0xD00),
  (13, 8191), (16, 0x940), (17, 0x7F007F), (18, 128), (20, 0xD20), (21, 65535)] })).modCtx 0 0 (fun c =>
    { c with
      csize := 65536, dsize := 65536
      wins := [(0, { Win.reset with cfg := BitVec.ofNat 64 (2 ^ 63 + 2 ^ 59 + 2 ^ 52), size := 65536, ceil := 8 })] })
/-- SpinCompletes: an element of a cluster region that holds the value compared with. -/
theorem wit_spin : Issues laid 0 ∧ (opSpin ⟨yes, 1, 1, 2, 0⟩ laid).Clear (laid.strand 0) ∧ spinOver laid (laid.strand 0) = false ∧
    spinTrue laid ⟨yes, 1, 1, 2, 0⟩ = true := ⟨⟨rfl, rfl⟩, ⟨by decide, by decide, by decide⟩, by decide⟩
/-- MatrixQueueing: an MCOPY, an MLDS of the last row, an MPLANE and an MCLR. -/
theorem wit_matrix : Issues laid 0 ∧
    ((Instr.mcallMcopy ⟨yes, 0, false⟩, MKind.mcopy) ∈ [(Instr.mcallMma ⟨yes, 0, false⟩, MKind.mma), (.mcallMmat ⟨yes, 0, false⟩, .mmat),
      (.mcallMmab ⟨yes, 0, false⟩, .mmab), (.mcallSplit ⟨yes, 0, false⟩, .split), (.mcallSlmma ⟨yes, 0, false⟩, .slmma),
      (.mcallFold ⟨yes, 0, false⟩, .fold), (.mcallTrans ⟨yes, 0, false⟩, .trans), (.mcallMcopy ⟨yes, 0, false⟩, .mcopy)] ∧
      (opMcall (.mcallMcopy ⟨yes, 0, false⟩) .mcopy ⟨yes, 0, false⟩ laid).Clear (laid.strand 0)) ∧
    (opMlds ⟨yes, .a, 255, 1, 127⟩ laid).Clear (laid.strand 0) ∧ (opMplane ⟨yes, 1, 4, 0⟩ laid).Clear (laid.strand 0) ∧
    (opMtile (.mclr ⟨yes, true⟩) .mclr ⟨yes, true⟩ laid).Clear (laid.strand 0) :=
  ⟨⟨rfl, rfl⟩, ⟨by simp, by decide, by decide, by decide⟩, ⟨by decide, by decide, by decide⟩, ⟨by decide, by decide, by decide⟩,
    ⟨by decide, by decide, by decide⟩⟩
/-- MatrixTransfers: the last row and segment. -/
theorem wit_transfersMx : (opMrd ⟨yes, true, .a, 255, 127, 15, true⟩ core0).Clear (core0.strand 0) ∧
    (opMwr ⟨yes, true, .b, 255, 127, 15, true⟩ core0).Clear (core0.strand 0) ∧ (opMfmt ⟨yes, 15⟩ core0).Clear (core0.strand 0) :=
  ⟨⟨by decide, by decide, by decide⟩, ⟨by decide, by decide, by decide⟩, ⟨by decide, by decide, by decide⟩⟩
/-- An immediate coordinate. -/
def at_ (n : Nat) : Coord := ⟨true, n⟩
/-- That strand with one slot's access made by the device OS. -/
def made (sl : Slot) : State := laid.modStrand 0 (fun t => { t with suppress := 2 ^ sl.bit })
/-- LoadsComplete, where the device OS has made the access. -/
theorem wit_loadsMade : Issues (made .ld) 0 ∧ ((made .ld).strand 0).emulated .ld = true ∧
    (opLds ⟨yes, 63, 0, at_ 15, at_ 0, at_ 0, at_ 0⟩ (made .ld)).Clear ((made .ld).strand 0) ∧
    (opLdv ⟨yes, 255, .a, 3, at_ 0, at_ 0, at_ 0, at_ 0⟩ (made .ld)).Clear ((made .ld).strand 0) ∧
    (opLdvg ⟨yes, 255, .a, 3, at_ 0, at_ 0, at_ 0, 0⟩ (made .ld)).Clear ((made .ld).strand 0) :=
  ⟨⟨rfl, rfl⟩, by decide, ⟨by decide, by decide, by decide⟩, ⟨by decide, by decide, by decide⟩, ⟨by decide, by decide, by decide⟩⟩
/-- LoadsComplete: the last element of an entry, and a vector that ends at it. -/
theorem wit_loads : Issues laid 0 ∧ (laid.strand 0).emulated .ld = false ∧
    (opLds ⟨yes, 63, 0, at_ 15, at_ 0, at_ 0, at_ 0⟩ laid).Clear (laid.strand 0) ∧
    (opLdv ⟨yes, 255, .a, 3, at_ 0, at_ 0, at_ 0, at_ 0⟩ laid).Clear (laid.strand 0) ∧
    (opLdvg ⟨yes, 255, .a, 3, at_ 0, at_ 0, at_ 0, 0⟩ laid).Clear (laid.strand 0) :=
  ⟨⟨rfl, rfl⟩, by decide, ⟨by decide, by decide, by decide⟩, ⟨by decide, by decide, by decide⟩, ⟨by decide, by decide, by decide⟩⟩
/-- RequestsMade: a latch load, an atomic with a return latch, a VRED and a store of cluster scratch, and a store of core scratch. -/
theorem wit_requests : Issues laid 0 ∧ (laid.strand 0).emulated .st = false ∧
    (opLdh ⟨yes, 15, 1, at_ 15, at_ 0, at_ 0, at_ 0⟩ laid).Clear (laid.strand 0) ∧
    (opAtomic (.aadd ⟨yes, 63, 1, at_ 15, at_ 0, some 15, 2, true, true, 0⟩) .add ⟨yes, 63, 1, at_ 15, at_ 0, some 15, 2, true, true, 0⟩
      laid).Clear (laid.strand 0) ∧
    (opVred ⟨yes, 255, .a, 1, at_ 0, at_ 0, at_ 0, at_ 0, false, 0⟩ laid).Clear (laid.strand 0) ∧ ((laid.strand 0).layOf 1).space ≠ 0 ∧
    (opSts ⟨yes, 63, 1, at_ 15, at_ 0, at_ 0, at_ 0, false, 0⟩ laid).Clear (laid.strand 0) ∧
    (stsAcc (laid.strand 0) ⟨yes, 63, 1, at_ 15, at_ 0, at_ 0, at_ 0, false, 0⟩).els ≠ [] ∧
    (stsAcc (laid.strand 0) ⟨yes, 63, 1, at_ 15, at_ 0, at_ 0, at_ 0, false, 0⟩).lay.space ≠ 0 ∧
    (opSts ⟨yes, 63, 0, at_ 15, at_ 0, at_ 0, at_ 0, false, 0⟩ laid).Clear (laid.strand 0) ∧
    (stsAcc (laid.strand 0) ⟨yes, 63, 0, at_ 15, at_ 0, at_ 0, at_ 0, false, 0⟩).els ≠ [] ∧
    (stsAcc (laid.strand 0) ⟨yes, 63, 0, at_ 15, at_ 0, at_ 0, at_ 0, false, 0⟩).lay.space = 0 :=
  ⟨⟨rfl, rfl⟩, by decide, ⟨by decide, by decide, by decide⟩, ⟨by decide, by decide, by decide⟩, ⟨by decide, by decide, by decide⟩,
    by decide, ⟨by decide, by decide, by decide⟩, by decide, by decide, ⟨by decide, by decide, by decide⟩, by decide, by decide⟩
/-- RequestsMade: a VRED of core scratch, one behind an .ACQ, and a store that the device OS has made. -/
theorem wit_vredCore : (opVred ⟨yes, 255, .a, 0, at_ 0, at_ 0, at_ 0, at_ 0, false, 0⟩ laid).Clear (laid.strand 0) ∧
    ((laid.strand 0).layOf 0).space = 0 ∧ acqBefore (laid.strand 0) laid.nextId = false ∧
    (let s : State := { laid.modStrand 0 (fun t => { t with reqs :=
        [⟨7, .atomic .add 13, 1, 0, [⟨0, 8, 5, 0⟩], some 3, 2, true, false, none, .st, 0, 0, none, none, false, false, false, [], none⟩] }) with nextId := 8 }
     Issues s 0 ∧ (opVred ⟨yes, 255, .a, 0, at_ 0, at_ 0, at_ 0, at_ 0, false, 0⟩ s).Clear (s.strand 0) ∧ acqBefore (s.strand 0) s.nextId = true) ∧
    Issues (made .st) 0 ∧ ((made .st).strand 0).emulated .st = true ∧
    (opSts ⟨yes, 63, 1, at_ 15, at_ 0, at_ 0, at_ 0, false, 0⟩ (made .st)).Clear ((made .st).strand 0) :=
  ⟨⟨by decide, by decide, by decide⟩, by decide, by decide, ⟨⟨rfl, rfl⟩, ⟨by decide, by decide, by decide⟩, by decide⟩, ⟨rfl, rfl⟩, by decide,
    ⟨by decide, by decide, by decide⟩⟩
/-- MalformedLayoutTraps: a scalar's store, the last register of either file, and a latch that is full or has a fill pending. -/
theorem wit_malformed : let s := laid.modStrand 0 (fun t => (t.wh 0 ⟨7, true, none, false, 1⟩).wh 1 ⟨0, false, some 5, false, 0⟩)
    Issues s 0 ∧ (s.strand 0).guard yes = true ∧ (s.strand 0).emulated .st = false ∧ ((s.strand 0).layOf 2).bad = true ∧
      Within (s.strand 0) [(.a, 255)] ∧ Within (s.strand 0) [(.b, 255)] ∧ 0 < (s.strand 0).nlatch ∧ ((s.strand 0).rh 0).full = true ∧
      ((s.strand 0).rh 1).pend.isSome = true ∧ (s.ctx (s.strand 0).die (s.strand 0).tcid).deleg.entry = none :=
  ⟨⟨rfl, rfl⟩, by decide, by decide, by decide, by unfold Within; decide, by unfold Within; decide, by decide⟩
/-- TileMoveQueued. -/
theorem wit_tmov : Issues laid 0 ∧ (opTmov ⟨yes, 1, 0, at_ 0, at_ 0, 63⟩ laid).Clear (laid.strand 0) :=
  ⟨⟨rfl, rfl⟩, ⟨by decide, by decide, by decide⟩⟩
/-- EngineOperationsQueued: each operation of the slot. -/
theorem wit_ce : Issues laid 0 ∧ (opCjob ⟨yes, 1, 3, 15, 63⟩ laid).Clear (laid.strand 0) ∧
    (opHandle (.cwait ⟨yes, 1, 15⟩) ⟨yes, 1, 15⟩ (.wait 0 15) laid).Clear (laid.strand 0) ∧
    (opHandle (.cpoll ⟨yes, 1, 15⟩) ⟨yes, 1, 15⟩ (.poll 0 15) laid).Clear (laid.strand 0) ∧ (laid.core 0).ceq.length < 16 ∧ latchStallFull laid (laid.strand 0) = false ∧
    (opFrag (.csend ⟨yes, 1, 2, 5, 63, 0, 0, 63⟩) ⟨yes, 1, 2, 5, 63, 0, 0, 63⟩ false laid).Clear (laid.strand 0) ∧
    (opFrag (.cred ⟨yes, 1, 2, 5, 63, 0, 255, 63⟩) ⟨yes, 1, 2, 5, 63, 0, 255, 63⟩ true laid).Clear (laid.strand 0) ∧
    (opCbell ⟨yes, 1, 2, true, 0, 4095⟩ laid).Clear (laid.strand 0) :=
  ⟨⟨rfl, rfl⟩, ⟨by decide, by decide, by decide⟩, ⟨by decide, by decide, by decide⟩, ⟨by decide, by decide, by decide⟩, by decide, by decide,
    ⟨by decide, by decide, by decide⟩, ⟨by decide, by decide, by decide⟩, ⟨by decide, by decide, by decide⟩⟩

/-! ## Witnesses: pilot engine and steps -/

/-- A die in service whose lane 0 runs a program of one word. -/
def lane0 (f : Lane → Lane) : State := (State.reset.withPilotWord 0x31800007).modLane f
/-- PilotArithmetic, PilotControl, PilotEnds: a lane that runs, and one that does not. -/
theorem wit_pilot : (lane0 id).lane.stage = .run ∧ (lane0 id).lane.loops = [] ∧ core0.lane.stage ≠ .run := by decide
/-- PilotMemory: the last bytes of a packet of one slot, of queue scratch and of the QWS block. -/
theorem wit_pilotMem : (lane0 id).lane.stage = .run ∧ (lane0 id).lane.loops = [] ∧ 3 ≤ 3 ∧
    ((lane0 id).lane.pkt.length % 64 = 0 ∧ 0 < (lane0 id).lane.pkt.length ∧ (lane0 id).lane.qcbv.length = 64 ∧
      (lane0 id).lane.scr.length = 1024 ∧ (lane0 id).lane.qws.length = 64) := by decide
/-- PilotLoopCount: two passes left, and one. -/
theorem wit_pilotLoop : let l := (lane0 (fun l => { l with pc := 4, loops := [(2, 4, 2)] })).lane
    l.pc = 4 ∧ l.loops = [(2, 4, 1 + 1)] ∧ 0 < 1 := by decide
/-- StepRunsDecoded: an event, a lane's instruction, a bundle, and a bundle of one operation. -/
theorem wit_step :
    (let s : State := { core0 with agenda := [.event (.clockStep 0)] }
     s.agenda = .event (.clockStep 0) :: [] ∧ isEvent (.clockStep 0) = true ∧ Instr.clockStep 0 ≠ .powerLoss ∧ Instr.clockStep 0 ≠ .powerGood ∧
       s.stuck = none ∧ (s.eventDies (.clockStep 0)).any s.isVoid = false ∧ ∃ d < 8, (s.die d).void = false) ∧
    (let s := lane0 id
     s.agenda = .lane 0 0 :: [] ∧ s.stuck = none ∧ (s.die 0).void = false ∧ (storeGet Lane.reset (s.die 0).lanes 0).stage = .run ∧
       (storeGet Lane.reset (s.die 0).lanes 0).prog[(storeGet Lane.reset (s.die 0).lanes 0).pc]? = some 0x31800007 ∧
       decodePilot 0x31800007 = some (.pilotLi ⟨3, 7⟩)) := by decide
/-- StepRunsDecoded: a core that has had its turn in the clock cycle. -/
theorem wit_again : let s := core0.modDie 0 (fun d => { d with lastTurn := some 0 })
    s.agenda = [] ∧ s.stuck = none ∧ (s.die (s.cur / 64)).void = false ∧ (s.die (s.cur / 64)).lastTurn = some 0 ∧ s.cur ≤ 0 := by decide
/-- The words of a bundle of one ADDI: its header and its syllable. -/
def addiWords : List Nat := [0x80020000, 1, 0x03002081]
/-- StepRunsDecoded, the bundle and its operation; and a PARK bundle whose stop test is made. -/
theorem wit_bundle : let s := State.reset.withBundleWords addiWords
    s.agenda = [] ∧ s.stuck = none ∧ (s.die (s.cur / 64)).void = false ∧ (s.die (s.cur / 64)).lastTurn = none ∧
      (s.core s.cur).frozen = false ∧ s.self = some 0 ∧
      (s.strand 0).st ≠ .retiring ∧ (s.strand 0).drain = none ∧ (s.strand 0).causes = [] ∧ (s.strand 0).residue = 0 ∧
      (s.strand 0).hndDue = false ∧
      (let a := s.modDie (s.cur / 64) (fun d => { d with lastTurn := some s.cur })
       let u := ({ a with mode := .whole, found := [], stall := false } : State).beginCycle 0
       (u.strand 0).atLimit = false ∧
       (match decodeBundle (s.imageWords (s.strand 0)) (s.strand 0).pos with
        | .error _ => false
        | .ok b => !b.hdr.park && !canSkip (u.strand 0) b &&
            (match b.syls with
             | [x] => x.instr == some (.addi ⟨yes, 1, 1, 1⟩)
             | _ => false) &&
            (let n := s.nameBundle 0 b
             (n.checkOps exec b).found.isEmpty && !(n.checkOps exec b).stall && (n.payTokens 0 (bundleTokens n 0 b)).1 &&
               (spinOf (n.strand 0) b).isNone &&
               decide (bankStalls (bundleDemands (n.strand 0) b ++ n.cardDemands 0) ≤ (n.core (n.strand 0).core).bank))) = true) := by decide
/-! ## Witnesses: events of cores, clocks and strands -/

/-- An I32 group for the element (0, 0) of tile 0, due in a cycle. -/
def group (due op : Nat) : Chain := ⟨due, op, 0, 0, 0, 3, 0, 0, false⟩
/-- A queued operation. -/
def queued (kind : MKind) (start ends done : Nat) : MOp := ⟨1, kind, 0, 0, [7], 0, [], start, ends, done, 0, [], [], [], 0⟩
/-- A context with energy. -/
def fed (s : State) : State := s.modCtx 0 0 (fun c => { c with energy := ⟨1, 0, 256, 0, false⟩ })
/-- CoreEvents: EMPTY_BUNDLE with a stop test that does not stop, one that parks, and no stop test. -/
theorem wit_empty :
    ((fed core0).self = some 0 ∧ ((fed core0).strand 0).hsave = none ∧ stopPending ((fed core0).strand 0) ((fed core0).ctx 0 0) = false ∧
      (((fed core0).stopTest 0).strand 0).drain = none) ∧
    (core0.self = some 0 ∧ (core0.strand 0).drain = none ∧ ((core0.stopTest 0).strand 0).drain ≠ none) := by decide
/-- CoreEvents: folded and transfer cycles, and a result that lands. -/
theorem wit_core :
    (let s := on (fun t => { t with eres := 15, bres := 2 })
     s.issuer 0 = some 0 ∧ (s.strand 0).st = .issuing ∧ (s.strand 0).drain = none ∧ 2 ≤ (s.strand 0).residue ∧ (s.strand 0).atLimit = false ∧
       ((s.beginCycle 0).strand 0).atLimit = false ∧ (s.strand 0).skipped = false ∧ (s.strand 0).causes = [] ∧ (s.strand 0).inflight = [] ∧
       (s.strand 0).mq = [] ∧ (s.strand 0).chain = [] ∧ (s.strand 0).accBad = []) ∧
    (let s := on (fun t => { t with bres := 2 })
     (s.strand 0).eres = 0 ∧ 2 ≤ (s.strand 0).residue) ∧
    (let s := on (fun t => { t with inflight := [onWay t .s (.sreg 63) 0 5 fullEn none] })
     s.issuer 0 = some 0 ∧ (s.strand 0).inflight = [onWay (s.strand 0) .s (.sreg 63) 0 5 fullEn none]) := by decide
/-- CoreEvents: the limit reached in a cycle still due, and where a bundle is due. -/
theorem wit_limit :
    (let s := on (fun t => { t with runCount := 4096, bres := 1 })
     let u := s.beginCycle 0
     s.issuer 0 = some 0 ∧ (u.strand 0).atLimit = true ∧ (u.strand 0).drain = none ∧ (u.strand 0).st = .issuing ∧ (u.strand 0).causes = [] ∧
       0 < (u.strand 0).residue) ∧
    (let s := (State.reset.withBundleWords addiWords).modStrand 0 (fun t => { t with runCount := 4096 })
     let u := s.beginCycle 0
     s.issuer 0 = some 0 ∧ (u.strand 0).atLimit = true ∧ (u.strand 0).hndDue = false ∧
       (match decodeBundle (u.imageWords (u.strand 0)) (u.strand 0).pos with
        | .error _ => false
        | .ok b => !canSkip (u.strand 0) b && !b.hdr.park) = true) := by decide
/-- CoreEvents: the matrix unit's clauses. -/
theorem wit_mx :
    (let o := queued .mclr 9 12 12
     let s := on (fun t => { t with icyc := 9, mq := [o] })
     s.issuer 0 = some 0 ∧ (s.strand 0).mq.filter (fun x => x.start == (s.strand 0).icyc) = [o]) ∧
    (let o := queued .mma 4 30 40
     let s := on (fun t => { t with icyc := 20, mq := [o], chain := [group 20 1] })
     s.issuer 0 = some 0 ∧ (s.strand 0).mq = [o] ∧ (s.strand 0).chain = [group 20 1] ∧ (group 20 1).due = (s.strand 0).icyc ∧
       (group 20 1).op = o.id ∧ o.start + 8 ≠ (s.strand 0).icyc ∧ ∀ x ∈ (s.strand 0).mq, x.ends ≠ (s.strand 0).icyc) ∧
    (let s := on (fun t => { t with skipped := true })
     s.issuer 0 = some 0 ∧ (s.strand 0).skipped = true ∧ (s.strand 0).mq = [] ∧ 1 < (s.strand 0).ntile ∧ 127 < 128) ∧
    (let o := queued (.mlds 1 127 5) 4 20 20
     let s := on (fun t => { t with icyc := 20, mq := [o] })
     s.issuer 0 = some 0 ∧ (s.strand 0).mq = [o] ∧ o.kind = .mlds 1 127 5 ∧ o.ends = (s.strand 0).icyc ∧ o.done = (s.strand 0).icyc) := by decide
/-- Die 0 changed. -/
def die0 (f : Die → Die) : State := core0.modDie 0 f
/-- ClockEvents: each clock at its boundary. -/
theorem wit_clocks :
    (let s := die0 (fun d => { d with cycle := 128 })
     (s.die 0).cycle % 128 = 0 ∧ (s.die 0).lastGain ≠ (s.die 0).cycle) ∧
    (let s := die0 (fun d => { d with cycle := 256, gangs := [⟨5, 1, 2⟩] })
     (s.die 0).cycle % 256 = 0 ∧ (s.die 0).lastDecay ≠ (s.die 0).cycle ∧ ∀ g ∈ (s.die 0).gangs, 2 ≤ g.boost) ∧
    (let s := die0 (fun d => { d with cycle := 1024 })
     (s.die 0).slices[1]? = some Slice.reset ∧ (s.die 0).cycle % 1024 = 0 ∧ Slice.reset.lastWindow ≠ (s.die 0).cycle ∧ s.jobs = []) ∧
    (let x : Slice := { Slice.reset with critical := [5], target := [(5, 10)], reads := [(5, 65536)], missed := [5] }
     let s := die0 (fun d => { d with slices := [x] })
     (s.die 0).slices[0]? = some x ∧ x.critical.contains 5 = true ∧ 65536 ≤ storeGet 0 x.reads 5 ∧
       storeGet 0 x.target 5 < 11 ∧ 10 ≤ storeGet 0 x.target 5 ∧ ∀ c ∈ x.missed, c = 5) ∧
    (let s : State := { core0 with time := 1 }
     (s.die 0).remtAt < s.time ∧ (s.strand 0).die = 0 ∧ (s.strand 0).resident = true ∧ s.hasStrand 0 = true ∧ (s.strand 9).resident = false) ∧
    (let s : State := { (on (fun t => { t with st := .energy })).modCtx 0 1023 (fun c => { c with bind := .run }) with time := 1000 }
     (s.die 0).boot = .inService ∧ (s.die 0).refillAt + 1000 ≤ s.time ∧ (s.die 0).recovering = false ∧ (s.die 0).shares = [] ∧
       (s.ctx 0 1023).bound = true ∧ s.hasStrand 0 = true ∧ (s.strand 0).die = 0 ∧ (s.strand 0).st = .energy) ∧
    (let s : State := { die0 (fun d => { d with echg := 7 }) with time := 100 }
     (s.die 0).lastReconcile + 100 ≤ s.time ∧ (s.die 0).echg ≠ 0 ∧ (s.die 0).lastStep + 100 ≤ s.time ∧ (s.die 0).recovering = false ∧
       (s.die 1).echg = 0) ∧
    (let s : State := { die0 (fun d => { d with recovering := true }) with time := 100 }
     (s.die 0).lastStep + 100 ≤ s.time ∧ (s.die 0).recovering = true) := by decide
/-- A second strand in frame 1 of core 0, in a state. -/
def two (f : Strand → Strand) (g : CoreSt → CoreSt) : State :=
  (core0.modStrand 1 (fun _ => f { wordStrand with num := 1, place := some 1, home := some 1, st := .ready })).modCore 0
    (fun c => g { c with frames := [(0, 0), (1, 1)] })
/-- ClockEvents: the strand that waits for energy is READY after the refill, which leaves its context with energy. -/
theorem wit_refill : let s : State := { (on (fun t => { t with st := .energy })).modCtx 0 0 (fun c => { c with energy := ⟨2, 1, 0, 0, false⟩ }) with time := 1000 }
    nextIs (exec (.energyRefill 0) s) (fun u => !(u.ctx 0 0).estop) = true := by decide
/-- StrandEvents: switches, a waiter's 100 µs and a PHASE. -/
theorem wit_strands :
    (let s : State := { two id id with time := 100 }
     s.issuer 0 = some 0 ∧ (s.strand 0).selectedAt + 100 ≤ s.time ∧ s.readyFrames 0 ≠ [] ∧ ∃ j ∈ s.readyFrames 0, (s.strand j).readySince + 90 ≤ s.time) ∧
    (let s := (two (fun t => { t with prioBase := 5 }) id).modStrand 0 (fun t => { t with icyc := 256 })
     s.issuer 0 = some 0 ∧ (s.strand 0).selectedIcyc + 256 ≤ (s.strand 0).icyc ∧ ∃ j ∈ s.readyFrames 0, s.eff (s.strand 0) < s.eff (s.strand j)) ∧
    (let s : State := { on (fun t => { t with st := .waiting, wait := .spin 4 }) with time := 100 }
     (s.strand 0).st = .waiting ∧ (s.strand 0).wait = .spin 4 ∧ (s.strand 0).waiterSince + 100 ≤ s.time) ∧
    (let s := on (fun t => { t with st := .waiting, wait := .phase 4 7 3 })
     (s.strand 0).st = .waiting ∧ (s.strand 0).wait = .phase 4 7 3 ∧ phaseReady s 0 4 7 = true ∧ (s.strand 0).parked = false) := by decide
/-- StrandEvents: a request back at its requester, one that finds a free slot, one that goes on, and a grant. -/
theorem wit_steals : let s : State := { (two id id).modStrand 1 (fun t => { t with range := { t.range with exhausted := true } }) with
      steals := [(1, ⟨0, 0, none⟩), (2, ⟨1, 0, none⟩), (3, ⟨0, 1, none⟩), (4, ⟨1, 0, some (4, 9)⟩)] }
    storeFind s.steals 1 = some ⟨0, 0, none⟩ ∧ storeFind s.steals 2 = some ⟨1, 0, none⟩ ∧ passesOn (s.strand 0) = false ∧
      storeFind s.steals 3 = some ⟨0, 1, none⟩ ∧ passesOn (s.strand 1) = true ∧ storeFind s.steals 4 = some ⟨1, 0, some (4, 9)⟩ ∧
      s.hasStrand 0 = true := by decide
/-- StrandEvents: no READY frame, one, and one whose strand is due a handler. -/
theorem wit_select :
    (let s := (on (fun t => { t with st := .waiting })).modCore 0 (fun c => { c with issuing := none })
     (s.core 0).frozen = false ∧ (s.core 0).issuing = none ∧ s.choose 0 = none) ∧
    (let s := (on (fun t => { t with st := .ready })).modCore 0 (fun c => { c with issuing := none })
     (s.core 0).frozen = false ∧ (s.core 0).issuing = none ∧ (s.core 0).frames = [(0, 0)] ∧ s.choose 0 = some (0, 0) ∧ (s.strand 0).st = .ready ∧
       (s.strand 0).drain = none ∧ (s.strand 0).causes = [] ∧ (s.strand 0).hq = [] ∧ (s.strand 0).wait = .none) ∧
    (let s := (on (fun t => { t with st := .ready, hq := [⟨64, []⟩] })).modCore 0 (fun c => { c with issuing := none })
     (s.core 0).frozen = false ∧ (s.core 0).issuing = none ∧ s.choose 0 = some (0, 0) ∧ (s.strand 0).st = .ready ∧ (s.strand 0).drain = none ∧
       (s.strand 0).causes = [] ∧ (s.strand 0).hq = ⟨64, []⟩ :: [] ∧ (s.strand 0).hsave = none ∧ (s.strand 0).residue = 0) := by decide

/-! ## Witnesses: requests and engines -/

/-- A request of 8 bytes at offset 0 of a space. -/
def req (kind : ReqKind) (space : Nat) (latch : Option Nat) : Req :=
  ⟨7, kind, space, 0, [⟨0, 8, 5, 0⟩], latch, 2, false, false, none, .st, 0, 0, none, none, false, false, false, [], none⟩
/-- A strand with one request, whose latch 3 waits for it. -/
def asked (r : Req) : State := laid.modStrand 0 (fun t => ({ t with reqs := [r] } : Strand).wh 3 ⟨0, false, some 7, false, 0⟩)
/-- RequestEvents: a store of the cluster region before and after it leaves its core. -/
theorem wit_stores :
    (let r := req .store 1 none
     let s := asked r
     (s.strand 0).req r.id = some r ∧ r.kind = .store ∧ r.space ≠ 4 ∧ r.left = false ∧ mayPerform s 0 r = true ∧
       beyondHbm s 0 .store r.space r.win r.els = false ∧ r.space < 3) ∧
    (let r := { req .store 1 none with left := true }
     let s := asked r
     (s.strand 0).req r.id = some r ∧ r.kind = .store ∧ r.space ≠ 4 ∧ r.left = true ∧ mayPerform s 0 r = true ∧ r.els = [⟨0, 8, 5, 0⟩] ∧
       elemAddr s 0 .store r.space r.win ⟨0, 8, 5, 0⟩ = some (2 ^ 51) ∧ 2 ^ 51 % 8 + 8 ≤ 8) := by decide
/-- RequestEvents: a store and an atomic leave through the window. -/
theorem wit_windowRequests : ∀ r ∈ [req .store 4 none, req (.atomic .add 13) 4 none], let s := asked r
    (s.strand 0).req r.id = some r ∧ r.space = 4 ∧ r.rel = false ∧ r.held = false ∧ r.xact = none ∧ heldBefore s 0 r = false ∧
      s.winOpen 0 0 r.win = true ∧ unsentBefore s 0 0 r.win r.id = false ∧
      (r.kind = .store ∨ (r.isRmw = true ∧ acqBefore (s.strand 0) r.id = false ∧ overlapBefore s 0 r = false)) := by decide
/-- RequestEvents: an atomic on core scratch, its return, and a latch load with and without its data. -/
theorem wit_fills :
    (let r := req (.atomic .add 13) 0 (some 3)
     let s := asked r
     (s.strand 0).req r.id = some r ∧ r.kind = .atomic .add 13 ∧ r.space < 3 ∧ r.rel = false ∧ mayPerform s 0 r = true ∧ r.latch = some 3 ∧
       elemAddr s 0 .atomic 0 r.win ⟨0, 8, 5, 0⟩ = some (2 ^ 50) ∧ 8 = tyWidth 13 / 8 ∧ beyondHbm s 0 .atomic 0 r.win r.els = false) ∧
    (let r := req .load 1 (some 3)
     let s := asked r
     (s.strand 0).req r.id = some r ∧ r.kind = .load ∧ r.space < 3 ∧ r.latch = some 3 ∧ ((s.strand 0).rh 3).pend = some r.id ∧ r.old = none ∧
       mayPerform s 0 r = true ∧ beyondHbm s 0 .load r.space r.win r.els = false) ∧
    (let r := { req .load 0 (some 3) with old := some 9 }
     let s := asked r
     (s.strand 0).req r.id = some r ∧ r.old = some 9 ∧ r.latch = some 3 ∧ ((s.strand 0).rh 3).pend = some r.id) ∧
    (let r := { req (.atomic .add 13) 0 (some 3) with old := some 9, acq := true }
     let s := asked r
     (s.strand 0).req r.id = some r ∧ r.kind = .atomic .add 13 ∧ r.old = some 9 ∧ r.xact = none ∧ r.latch = some 3 ∧
       ((s.strand 0).rh 3).pend = some r.id ∧ r.acq = true) := by decide
/-- RequestEvents: a store that meets no page, reported, held while the frame is saved, and put off by polling. -/
theorem wit_faults :
    (let s := asked (req .store 3 none)
     (firstFailed s 0).map (fun x => (x.1.id, x.2.1)) = some (7, .pageNotPresent) ∧ (s.strand 0).polling = false ∧
       (s.strand 0).resident = true ∧ (s.strand 0).st ≠ .saving ∧ (s.strand 0).st ≠ .saved) ∧
    (let s := (asked (req .store 3 none)).modStrand 0 (fun t => { t with st := .saving })
     (firstFailed s 0).map (fun x => (x.1.id, x.2.1)) = some (7, .pageNotPresent) ∧ (s.strand 0).polling = false ∧ (s.strand 0).st = .saving) ∧
    (let s := (asked (req .store 3 none)).modStrand 0 (fun t => { t with polls := 1 })
     (firstFailed s 0).isSome = true ∧ (s.strand 0).polling = true) := by decide
/-- A context with energy, and an entry of core 0's CE queue. -/
def ceq (op : CeOp) : State :=
  ((fed laid).modCore 0 (fun c => { c with ceq := [⟨7, 0, 0, 0, 0, 0, op, 0⟩] })).modStrand 0 (fun t => t.wh 15 ⟨0, false, some 7, false, 0⟩)
/-- A job that fills one block of the cluster region. -/
def fill (status done : Nat) : Job :=
  ⟨0, 0, some 0, 9, 1, 0, 63, 0, 0, 0, 0, 131072, 1, 2, [], [⟨0, 0, 1, 0, 0, 0⟩], 5, status, 0, done, 0, false, [], false, [], [], [], []⟩
/-- A state with that job. -/
def working (op : CeOp) (status done : Nat) : State := { ceq op with jobs := [(1, fill status done)] }
/-- EngineEvents: a TMOV of one byte, and one whose source is poisoned. -/
theorem wit_tmovEvent : ∀ x ∈ [([], false), ([2 ^ 45], true)], let m : Tmov := ⟨7, 0, [(2 ^ 50, 2 ^ 50 + 9)], false, 63, 0, 0⟩
    let s := { laid.modCore 0 (fun c => { c with tmq := [m] }) with poisoned := x.1 }
    (s.core 0).tmq = m :: [] ∧ fenceOk (s.strand 0) 0 = true ∧ tmovOk s 0 7 [2 ^ 50] = true ∧ (s.strand 0).clearing 63 .ld = false ∧
      m.flag < 64 ∧ (tmovMet s (s.strand 0) m.moves).isSome = x.2 ∧ (s.strand 0).wait = .none ∧ (s.strand 0).st ≠ .saved := by decide
/-- EngineEvents: CPOLL and CWAIT of no job, of a complete one and of one under way, and a CKILL of each. -/
theorem wit_handles :
    (∀ op ∈ [CeOp.poll 65535 15, .wait 65535 15], let s := ceq op
      (s.core 0).ceq = ⟨7, 0, 0, 0, 0, 0, op, 0⟩ :: [] ∧ ((s.strand 0).rh 15).pend = some 7 ∧ (s.strand 0).st ≠ .saved ∧ s.jobOf 0 0 65535 = none) ∧
    (∀ op ∈ [CeOp.poll 9 15, .wait 9 15, .kill 9], ∀ st ∈ [0, 2], let s := working op st 0
      (s.core 0).ceq = ⟨7, 0, 0, 0, 0, 0, op, 0⟩ :: [] ∧ ((s.strand 0).rh 15).pend = some 7 ∧ (s.strand 0).st ≠ .saved ∧
        s.jobOf 0 0 9 = some (1, fill st 0) ∧ storeFind s.jobs 1 = some (fill st 0) ∧ (fill st 0).got = [] ∧ (fill st 0).put = [] ∧ jobFinal (fill st 0).status = decide (st = 0)) ∧
    (ceq (.kill 65535)).jobOf 0 0 65535 = none := by decide
/-- The card of that job. -/
def fillCard : List Word := [0x101, 0, 0, 0, 0, 0, 0, 0, 0, 0, 1, 0, 0, 0, 5, 0]
/-- EngineEvents: that card, and one of zeros. -/
theorem wit_card : ∀ x ∈ [(fillCard, true), (List.replicate 16 0, false)], let s := ceq (.job x.1 0 0 15 63 0)
    (s.core 0).ceq = ⟨7, 0, 0, 0, 0, 0, .job x.1 0 0 15 63 0, 0⟩ :: [] ∧ x.1 ≠ [] ∧ fenceOk (s.strand 0) 0 = true ∧
      (s.strand 0).clearing 63 .ce = false ∧ jobRoom s 0 0 = true ∧ jobBefore s ⟨7, 0, 0, 0, 0, 0, .job x.1 0 0 15 63 0, 0⟩ = false ∧ ((s.strand 0).rh 15).pend = some 7 ∧ (s.strand 0).st ≠ .saved ∧
      (cardReject (s.ctx 0 0) (some ((s.strand 0).csu * 32768)) (x.1.map (fun w => w.toNat))).isNone = x.2 := by decide
/-- EngineEvents: CSEND and CRED of 128 bytes of core scratch, and a local bell. -/
theorem wit_send :
    (∀ op ∈ [CeOp.send [(0, 0, 128)] 0 1 63, .red [(0, 0, 128)] 0 4 65535 1 63], let s := ceq op
     let w := (s.ctx 0 0).win 0
     (s.core 0).ceq = ⟨7, 0, 0, 0, 0, 0, op, 0⟩ :: [] ∧ fenceOk (s.strand 0) 0 = true ∧ (s.strand 0).clearing 63 .ce = false ∧
       fragWaits s ⟨7, 0, 0, 0, 0, 0, op, 0⟩ 0 0 128 = false ∧
       (fragSource (s.modCore 0 (fun x => { x with ceq := [] })) ⟨7, 0, 0, 0, 0, 0, op, 0⟩ 0 0 128).toOption = some (List.replicate 128 0) ∧ s.members w ≠ [] ∧
       ∀ m ∈ s.members w, s.pathTo w.ue m.2.ddie = true) ∧
    (let s := ceq (.bell 15 7 true 0 4095)
     (s.core 0).ceq = ⟨7, 0, 0, 0, 0, 0, .bell 15 7 true 0 4095, 0⟩ :: [] ∧ fenceOk (s.strand 0) 0 = true) := by decide
/-- EngineEvents: a segment that begins, the last unit of its block, and the end of a job. -/
theorem wit_jobs :
    (let j := fill 2 0
     let s := working (.kill 8) 2 0
     s.jobs = [(1, j)] ∧ j.die = 0 ∧ j.status = 2 ∧ j.op ≠ 0 ∧ j.rds = [] ∧ j.wrs = [⟨0, 0, 1, 0, 0, 0⟩] ∧ j.total = j.done + 64 ∧
       jobRunnable s 1 j = true ∧ (jobPlace s j .store ⟨0, 0, 1, 0, 0, 0⟩ j.done).toOption = some (.here (2 ^ 51)) ∧
       j.got = [] ∧ j.put = []) ∧
    (let j := { fill 2 0 with seg := [0], put := [(56, 5)] }
     let s : State := { working (.kill 8) 2 0 with jobs := [(1, j)] }
     s.jobs = [(1, j)] ∧ j.die = 0 ∧ jobFinal j.status = false ∧ j.seg = [0] ∧ j.put = [(56, 5)] ∧
       j.wrs[(j.at_ 0).1]? = some ⟨0, 0, 1, 0, 0, 0⟩ ∧ jobReach s j = true ∧
       (jobPlace s j .store ⟨0, 0, 1, 0, 0, 0⟩ ((j.at_ 0).2 + 56)).toOption = some (.here (2 ^ 51 + 56)) ∧ (2 ^ 51 + 56) % 8 = 0) ∧
    (let j := fill 2 64
     let s := working (.kill 8) 2 64
     storeFind s.jobs 1 = some j ∧ jobFinal j.status = false ∧ j.total ≤ j.done ∧ jobXacts s 1 (fun c => !c.settled || c == .stored) = false ∧
       jobXacts s 1 (fun c => c == .uncertain) = false ∧ j.sid = some 0 ∧ s.hasStrand 0 = true ∧ j.waits = [] ∧ j.flag < 64) := by decide

/-! ## Witnesses: launches, saves and regions -/

/-- A share of launch 1 in a state on die 0, with nothing bound, so that nothing is admitted. -/
def shared (st : ShareState) : State :=
  { (State.reset.modDie 0 (fun d => { d with boot := .inService, shares := [⟨1, 4, 0, 0, st, false, []⟩] })) with time := 100 }
/-- A launch of one strand of image 0 on die 0. -/
def launch1 (tokens : Nat) : Launch := { Launch.reset with lnum := 1, tokens := tokens, ckpt := true, recs := [⟨0, 0, 0, 0, 0, 0, 0⟩], dies := [0] }
/-- Launch 1 has a strand on core 0 whose frames are all taken, as are those of every other core; launch 2, with more tokens, waits
for one frame. -/
def crowded : State :=
  { core0 with
    strands := [(0, { wordStrand with lid := 1, remt := 101 })]
    cores := (List.range 64).map (fun c => (c, { CoreSt.reset with frames := [(0, if c = 0 then 0 else 9), (1, 9), (2, 9), (3, 9)] }))
    launches := [(1, launch1 0), (2, launch1 1)]
    dies := [(0, { Die.reset with boot := .inService, shares := [⟨1, 4, 0, 0, .released, false, []⟩, ⟨2, 4, 0, 0, .reserving, false, []⟩] })] }
/-- LaunchEvents: arrival and reservation, a strand with its rows, one from its save image, the release of a share, and a strand that retires
beside another. -/
theorem wit_launch :
    (let s := shared .arriving
     (s.die 0).shares.any (fun h => h.lid == 1 && h.st == .arriving) = true ∧ ∀ h ∈ (s.die 0).waiting, s.mayAdmit 0 h = false) ∧
    (let s := shared .queued
     (s.die 0).shares.any (fun h => h.lid == 1 && h.st == .queued && decide (h.since + 100 ≤ s.time)) = true ∧
       ∀ h ∈ (s.die 0).waiting, s.mayAdmit 0 h = false) ∧
    (let s := on (fun t => { t with st := .filling })
     (s.strand 0).st = .filling ∧ (s.strand 0).place.isSome = true ∧ (s.loadRows 0 0 0).isSome = true ∧ (s.strand 0).saveKind = none) ∧
    (let s := on (fun t => { t with st := .filling, saveKind := some .trap })
     (s.strand 0).saveKind.isSome = true ∧ (s.strand 0).wasRetiring = false ∧ (s.strand 0).parked = false) ∧
    (let s : State := { (on (fun t => { t with st := .held })).modDie 0 (fun d => { d with shares := [⟨0, 4, 0, 0, .admitted, false, []⟩] }) with
       launches := [(0, { Launch.reset with hbmLoaded := true })] }
     (s.die 0).shares.find? (fun h => h.lid == 0 && h.st == .admitted) = some ⟨0, 4, 0, 0, .admitted, false, []⟩ ∧ s.launchStrands 0 0 ≠ [] ∧
       (∀ x ∈ s.launchStrands 0 0, (s.strand x.2).st = .held) ∧ (∀ e ∈ (s.launch 0).toLoad, e ∈ (s.launch 0).loaded) ∧
       (s.launch 0).hbmLoaded = true) ∧
    (let s := (two id id).modStrand 0 (fun t => { t with st := .retiring, phased := true })
     (s.strand 0).st = .retiring ∧ (s.strand 0).causes = [] ∧ mayRetire s 0 = true ∧ s.hasStrand 1 = true) := by decide
/-- LaunchEvents: a share that may make room, of a launch that is checkpointed and of one that is killed, and one whose strands have not
run long enough. -/
theorem wit_preempt :
    let n : Share := ⟨2, 4, 0, 0, .reserving, false, []⟩
    let v : Share := ⟨1, 4, 0, 0, .released, false, []⟩
    let at2 (s : State) : State := s.modShare 0 2 (fun h => { h with nextCheck := s.time + 100 })
    (let s := crowded
     (s.die 0).waiting.find? (fun h => h.st == .reserving) = some n ∧ n.nextCheck ≤ s.time ∧ (at2 s).enough 0 n ((at2 s).victims 0 n) = some [v] ∧
       100 < (at2 s).shareRemt 1 0 ∧ ((at2 s).launch 1).ckpt = true) ∧
    (let s := crowded.modLaunch 1 (fun l => { l with ckpt := false, kill := true })
     100 < (at2 s).shareRemt 1 0 ∧ ((at2 s).launch 1).ckpt = false ∧ ((at2 s).launch 1).kill = true) ∧
    (let s := crowded.modStrand 0 (fun t => { t with remt := 100 })
     (at2 s).shareRemt 1 0 ≤ 100) ∧
    (let s := crowded.modLaunch 1 (fun l => { l with tokens := 1 })
     (s.die 0).waiting.find? (fun h => h.st == .reserving) = some n ∧ (at2 s).enough 0 n ((at2 s).victims 0 n) = none) := by decide
/-- A strand of core 0 whose save by a trap is done. -/
def savedOne : State := (on (fun t => { t with st := .saved, saveKind := some .trap, place := none, serial := 1, due := true })).modCore 0
  (fun c => { c with frames := [], issuing := none })
/-- A fault strand in frame 1 whose HAIL of a code names SERIAL 1. -/
def hails (code : Nat) : State :=
  (savedOne.modStrand 0 (fun t => { t with due := false })).modStrand 1 (fun _ =>
    ({ wordStrand with num := 1, place := none, home := some 1, st := .saved, saveKind := some .trap,
                       osCause := some ⟨.hail, BitVec.ofNat 64 code, 0, 128⟩ } : Strand).ws 2 1)
/-- SaveEvents: a save that waits for nothing, of each kind, and a strand whose cause nobody holds. -/
theorem wit_save : (∀ x ∈ [SaveKind.trap, .checkpoint],
      let s := (on (fun t => { t with st := .saving, saveKind := some x })).modCore 0 (fun c => { c with issuing := none })
      maySave s 0 = true ∧ (((((((s.landReds 0).takeFills 0).leaveFrame 0).strand 0).saveKind = some SaveKind.checkpoint)) ↔ x = .checkpoint) ∧
        (s.strand 0).osCause = none) := by decide
/-- SaveEvents: restores of an intact image and of one with another SERIAL. -/
theorem wit_restore : let s := savedOne
    (s.strand 0).st = .saved ∧ (s.strand 0).due = true ∧ (s.die 0).recovering = false ∧ (s.strand 0).cgrp = 0 ∧ (s.strand 0).home.isSome = true ∧
      0 ∈ coresOf 0 none ∧ s.restoreCtx 0 0 = some 0 ∧ (s.modStrand 0 (fun t => { t with die := 0, tcid := 0 })).coreFits 0 0 = true ∧
      imageGood s 0 1 = true ∧ imageGood s 0 2 = false ∧ (s.ctx 0 0).resident = true ∧ (s.withRegions 0 0).isSome = true ∧
      ((s.modStrand 0 (fun t => { t with due := false, saveKind := some .checkpoint })).strand 0).saveKind = some .checkpoint := by decide
/-- SaveEvents: a restore of a strand whose context's regions are evicted. -/
theorem wit_restoreAway : let s := savedOne.modCtx 0 0 (fun c => { c with resident := false })
    s.restoreCtx 0 0 = some 0 ∧ (s.ctx 0 0).resident = false ∧ imageGood s 0 1 = true ∧ 0 ∈ coresOf 0 none ∧
      (s.withRegions 0 0).any (fun u => (u.modStrand 0 (fun t => { t with die := 0, tcid := 0 })).coreFits 0 0) = true := by decide
/-- SaveEvents: the services, on a strand and on none. -/
theorem wit_hails : ∀ c ∈ [1, 2, 3],
    ((hails c).hailTarget 1 = some 0 ∧ (hails c).hailing 1 c = true ∧ (hails c).hasStrand 1 = true) ∧
    (let s := (hails c).modStrand 1 (fun t => t.ws 2 9)
     s.hailTarget 1 = none ∧ s.hailing 1 c = true) := by decide
/-- Context 0 with regions, and a locked context. -/
def crammed : State := (savedOne.modCtx 0 0 (fun c => { c with csize := 65536 })).modCtx 0 1 (fun c => { c with bind := .locked })
/-- SaveEvents: an eviction, and a restore of residency with nothing evicted and from an area. -/
theorem wit_evict :
    (let s := crammed
     (s.ctx 0 0).bound = true ∧ (s.ctx 0 0).resident = true ∧ s.wantsRoom 0 0 = true ∧ (∀ k ∈ s.ctxStrands 0 0, (s.strand k).st.onCore = false) ∧
       (∀ e ∈ s.xacts, e.2.todo = []) ∧
       (s.evictArea 0 0).any (fun x => decide (x.1 + max 65536 (4 * (s.ctx 0 0).csize + (s.ctx 0 0).dsize) ≤ 2 ^ 50)) = true) ∧
    (∀ a ∈ [none, some 4096], let s := crammed.modCtx 0 0 (fun c => { c with resident := false, evictAt := a })
     (s.ctx 0 0).bound = true ∧ (s.ctx 0 0).resident = false ∧ (s.ctx 0 0).bused = 0 ∧ (s.ctx 0 0).berthQ = [] ∧ (s.die 0).shares = [] ∧
       ((s.modCtx 0 0 (fun c => { c with resident := true })).allocRegions 0 0 (s.ctx 0 0).csize (s.ctx 0 0).dsize).isSome = true ∧
       (s.ctx 0 0).evictAt = a ∧ 4096 + 4 * (s.ctx 0 0).csize + (s.ctx 0 0).dsize ≤ 2 ^ 50 ∧ memWf s.mem = true) := by decide

/-! ## Witnesses: windows, fragments and queues -/

/-- A store of 8 bytes through window 0, number 1, of which member 0 has its copy in some state. -/
def sentXact (off : Nat) (c : CopySt) : Xact :=
  ⟨0, 0, 0, 1, 0, 9, .store, [⟨off, 8, 5, 0⟩], 0, none, 1, 0, 9, [(0, c)], 0, 0, 0, none, []⟩
/-- A state with a transaction of identity 9, and a filter that expects a number. -/
def onFabric (x : Xact) (expects : Nat) : State :=
  { (laid.modWin 0 0 0 (fun w => { w with next := 2 })) with xacts := [(9, x)], filters := [(0, expects)], time := 100 }
/-- A context whose handler 2 is strand 0 of launch 0. -/
def handled (s : State) : State :=
  { (s.modCtx 0 0 (fun c => { c with handlers := [(2, ⟨0, 0, 7⟩)] })) with
    launches := [(0, { Launch.reset with recs := [⟨0, 0, 0, 0, 0, 0, 0⟩], dies := [0] })] }
/-- WindowEvents: the transaction expected, one with a handler, one behind and one ahead, one that fails, and one for the berth. -/
theorem wit_window :
    (let x := sentXact 64 .sent
     let s := onFabric x 1
     storeFind s.xacts 9 = some x ∧ storeFind x.copies 0 = some .sent ∧ s.xactDest x 0 = some ⟨0, 0, 0⟩ ∧ s.dieOfDomain 0 = some 0 ∧
       (x.seq + 2 ^ 32 - storeGet 0 s.filters (s.xactFilter x 0 0)) % 2 ^ 32 = 0 ∧ x.kind = .store ∧ x.hnd = none ∧
       s.xactMet x ⟨0, 0, 0⟩ = none ∧ (s.ctx 0 0).resident = true ∧ (s.xactWin x).dspace ≠ 3 ∧ storeFind x.todo 0 = none ∧
       s.handlerFull x 0 0 = false ∧ (s.ctx 0 0).bind ≠ .unbound) ∧
    (let x := { sentXact 64 .sent with kind := .vred 0 }
     let s := onFabric x 1
     x.kind ≠ .store ∧ s.xactMet x ⟨0, 0, 0⟩ = none ∧ s.handlerFull x 0 0 = false) ∧
    (∀ n ∈ [7, 8], let x := { sentXact 64 .sent with hnd := some 2 }
     let s := (handled (onFabric x 1)).modStrand 0 (fun t => { t with hq := List.replicate n ⟨2, []⟩ })
     storeFind s.xacts 9 = some x ∧ s.handlerTarget 0 0 2 = some (0, 7) ∧ s.handlerFull x 0 0 = decide (n = 8) ∧
       s.xactMet x ⟨0, 0, 0⟩ = none) ∧
    (let x := { sentXact 64 .sent with todo := [(0, [(2 ^ 50, 1, 5)])] }
     storeFind (onFabric x 1).xacts 9 = some x ∧ storeFind x.todo 0 = some [(2 ^ 50, 1, 5)] ∧ (onFabric x 1).handlerFull x 0 0 = false) ∧
    (let x := sentXact 64 .sent
     let s := (onFabric x 2).modCtx 0 0 (fun c => { c with bind := .unbound })
     (s.ctx 0 0).bind = .unbound ∧ storeFind x.todo 0 = none ∧ (s.xactMet x ⟨0, 0, 0⟩).isSome = true) ∧
    (let x := sentXact 64 .sent
     ((onFabric x 2).ctx 0 0).bind ≠ .unbound ∧ (x.seq + 2 ^ 32 - storeGet 0 (onFabric x 2).filters ((onFabric x 2).xactFilter x 0 0)) % 2 ^ 32 = 2 ^ 32 - 1 ∧
       (x.seq + 2 ^ 32 - storeGet 0 (onFabric x 0).filters ((onFabric x 0).xactFilter x 0 0)) % 2 ^ 32 = 1) ∧
    (let x := sentXact 65536 .sent
     ((onFabric x 1).xactMet x ⟨0, 0, 0⟩).map (fun e => e.1) = some .windowFault) ∧
    (let x := sentXact 64 .sent
     let s := (onFabric x 1).modCtx 0 0 (fun c => { c with resident := false })
     s.xactMet x ⟨0, 0, 0⟩ = none ∧ (s.ctx 0 0).resident = false) := by decide
/-- WindowEvents: the failures of a transaction of one copy and of several. -/
theorem wit_windowFails :
    (let x := sentXact 64 .sent
     let s := onFabric x 1
     s.hasStrand x.sid = true ∧ x.sid ≠ noSid ∧ (s.xactWin x).mc = false) ∧
    (let x := sentXact 64 .sent
     let s := (onFabric x 1).modWin 0 0 0 (fun w => { w with cfg := w.cfg ||| BitVec.ofNat 64 (2 ^ 62) })
     s.hasStrand x.sid = true ∧ (s.xactWin x).mc = true ∧ 7 < 2 ^ 56) := by decide
/-- WindowEvents: acknowledgements, retransmission, a gap, resynchronisation and CLEARUNC. -/
theorem wit_windowOther :
    (∀ c ∈ [CopySt.performed, .berthed], let x := sentXact 64 c
     let s := onFabric x 2
     storeFind s.xacts 9 = some x ∧ storeFind x.copies 0 = some c ∧ s.earlierUnacked x 0 = false ∧ s.isAway (s.xactWin x) 0 = false) ∧
    (∀ n ∈ [0, 8], let x := { sentXact 64 .sent with tries := n }
     let s := onFabric x 1
     (s.openXacts 0 0 0).filter (fun e =>
       decide (0 < 1024) && decide (e.2.sentAt + 20 ≤ s.time) && !((s.ctx 0 0).win 0).holds e.2) = [(9, x)] ∧ (x.tries < 8 ↔ n = 0)) ∧
    laid.openXacts 0 0 0 = [] ∧
    (let x := sentXact 64 .undeliverable
     let s := onFabric x 1
     storeFind s.xacts 9 = some x ∧ storeFind x.copies 0 = some .undeliverable ∧ s.xactDest x 0 = some ⟨0, 0, 0⟩ ∧ s.dieOfDomain 0 = some 0 ∧
       s.pathTo (s.xactWin x).ue 0 = true ∧ storeGet 0 s.filters (s.xactFilter x 0 0) = x.seq) ∧
    (let s := laid.modWin 0 0 0 (fun w => { w with resync := [0], clearing := true })
     let y := (s.ctx 0 0).win 0
     0 ∈ y.resync ∧ storeFind (s.members y) 0 = some ⟨0, 0, 0⟩ ∧ s.pathTo y.ue 0 = true ∧ s.dieOfDomain 0 = some 0 ∧ y.resync ≠ []) ∧
    (let s := laid.modWin 0 0 0 (fun w => { w with clearing := true })
     let y := (s.ctx 0 0).win 0
     y.clearing = true ∧ y.resync = [] ∧ y.clearCmd = false ∧ s.clearCallers 0 0 0 = []) ∧
    laid.frags = [] ∧ laid.bells = [] ∧ 15 < laid.pkg.ports.length ∧ 7 < laid.pkg.uePorts.length := by decide
/-- A window that leads out of the package. -/
theorem wit_outside : let s := (onFabric (sentXact 64 .undeliverable) 1).modWin 0 0 0 (fun w => { w with cfg := w.cfg ||| BitVec.ofNat 64 (999 * 2 ^ 42), resync := [0] })
    let t : State := { s with pkg := { s.pkg with ports := s.pkg.ports.map (fun _ => .plain) } }
    t.dieOfDomain 999 = none ∧ t.pathTo ((t.ctx 0 0).win 0).ue 999 = true := by decide
/-- A fragment of 8 bytes through window 0 that sets flag 63 by handler 2. -/
def sentFrag (op : Option Nat) (c : CopySt) : Frag :=
  ⟨0, 0, 0, 8, 0, 62, 0, 0, 128, 63, 2, 2, op, 0, [1, 2, 3, 4, 5, 6, 7, 8], [(0, c)], 0, []⟩
/-- A state with that fragment. -/
def csent (op : Option Nat) (c : CopySt) : State :=
  { handled laid with
    frags := [(8, sentFrag op c)], groups := [(4, ⟨3, 0, 0, 0, 0, 1, 0, 0, 1, 0, 0, [(5, [])], 0⟩)], time := 10000 }
/-- FragmentEvents: a fragment of each kind with its requests paid, and for a context that is not resident. -/
theorem wit_fragment : ∀ op ∈ [none, some 4],
    (let s := csent op .sent
     let f := sentFrag op .sent
     let w := (s.ctx f.die f.tcid).win f.win
     storeFind s.frags 8 = some f ∧ storeFind f.copies 0 = some .sent ∧ storeFind (s.members w) 0 = some ⟨0, 0, 0⟩ ∧
       s.dieOfDomain 0 = some 0 ∧ (s.ctx 0 0).resident = true ∧
       (match s.fragPlaces f ⟨0, 0, 0⟩ with
        | .error _ => false
        | .ok ps =>
          let us := if s.fragCompletes 0 f ⟨0, 0, 0⟩ then (ps.map (fun p => p.1 / 128)).eraseDups else []
          decide (us.length ≤ (s.admitUnits (s.ctx 0 0).tenant (us.drop (storeGet 0 f.paid 0)) (storeGet 0 f.paid 0)).1)) = true) ∧
    (let s := (csent op .sent).modCtx 0 0 (fun c => { c with resident := false })
     (s.fragPlaces (sentFrag op .sent) ⟨0, 0, 0⟩).toOption.isSome = true ∧ (s.ctx 0 0).resident = false ∧
       ((s.ctx 0 0).win 0).dspace ≠ 3) := by decide
/-- A slice with no token left for tenant 0. -/
def spent (d : Die) : Die :=
  { d with slices := d.slices.map (fun x => { x with bucket := [(0, 0)] }), tlb := [⟨0, 0, 2 ^ 21, 0xF, 2⟩] }
/-- FragmentEvents: a fragment for HBM that finds an empty bucket, and one that meets no page. -/
theorem wit_fragWaits : let s := (csent none .sent).modWin 0 0 0 (fun w => { w with cfg := w.cfg ||| BitVec.ofNat 64 (2 ^ 53) })
    (let u := (s.modDie 0 spent).modCtx 0 0 (fun c => { c with keys := [(0, 0)] })
     let f := sentFrag none .sent
     (match u.fragPlaces f ⟨0, 0, 0⟩ with
      | .error _ => false
      | .ok ps =>
        let us := if u.fragCompletes 0 f ⟨0, 0, 0⟩ then (ps.map (fun p => p.1 / 128)).eraseDups else []
        decide ((u.admitUnits (u.ctx 0 0).tenant (us.drop (storeGet 0 f.paid 0)) (storeGet 0 f.paid 0)).1 < us.length)) = true) ∧
    (s.fragPlaces (sentFrag none .sent) ⟨0, 0, 0⟩).toOption.isSome = false := by decide
/-- FragmentEvents: what CSEND and CRED bring, and acknowledgement and discard. -/
theorem wit_fragEnds :
    (let s := csent none .sent
     let f := sentFrag none .sent
     ((s.ctx f.die f.tcid).win f.win).dspace ≠ 3 ∧ f.gang = 0 ∧ s.handlerTarget 0 0 f.nidx = some (0, 7) ∧ (s.strand 0).st ≠ .saved ∧
       (s.strand 0).st ≠ .waiting ∧ f.rflag < 64) ∧
    ((csent (some 4) .sent).groupFor 0 (sentFrag (some 4) .sent) ⟨0, 0, 0⟩ = none ∧ 0 < (sentFrag (some 4) .sent).ncon) ∧
    (let s := csent none .performed
     let f := sentFrag none .performed
     storeFind s.frags 8 = some f ∧ f.copies = [(0, .performed)] ∧ s.isAway ((s.ctx f.die f.tcid).win f.win) 0 = false ∧
       s.hasStrand f.sid = true ∧ (s.strand f.sid).st ≠ .saved ∧ (s.strand f.sid).st ≠ .waiting ∧ f.flag < 64) ∧
    (storeFind (csent none .sent).groups 4 = some ⟨3, 0, 0, 0, 0, 1, 0, 0, 1, 0, 0, [(5, [])], 0⟩ ∧ 0 + 10000 ≤ (csent none .sent).time) := by
  decide
/-- A control block of a queue in RUN with 16 entries of 64 bytes from virtual address 4,096. -/
def ringCopy (state head tail : Nat) : Qcb := (⟨0, 0, head, tail, 0, state, 0, 0, 0, 5, 4, 0, 0, 4096, 0, 0, []⟩ : Qcb).sealed 1
/-- A bell of the package for sub-queue 0 of context 0. -/
def rings (tail : Nat) (away : Bool) : BellFly := ⟨⟨0, 0, 0, tail, 0, 0, true, true⟩, 0, 0, 0, none, 0, away⟩
/-- A die with that queue as physical queue 1, sub-queue 0 of context 0, whose first 2 MiB are mapped to its own HBM. -/
def rung (state head tail bell : Nat) : State :=
  let s := core0.modCtx 0 0 (fun c => { c with keys := [(0, 0)], qmax := 1 })
  { (s.modDie 0 (fun d => { d with
      tlb := [⟨0, 0, 2 ^ 21, 0xF, 2⟩], supTable := [(0, 1)], pilots := [(5, ⟨[0], 0, 0⟩)]
      queues := [(1, { Queue.reset with a := ringCopy state head tail })] })) with
    mem := [(3, 0x80)], bells := [(6, rings bell false)] }
/-- A state with another die in service, which watches die 0. -/
def watchers (time : Nat) (rec : Bool) : State :=
  { (State.reset.modDie 0 (fun d => { d with boot := .inService, recovering := rec })).modDie 1 (fun d => { d with boot := .inService }) with
    time := time }
/-- QueueEvents: a bell for a queue in RUN, its ways to be judged at their bounds, and what drops one. -/
theorem wit_bell :
    (let s := rung 1 0 0 15
     let m := (rings 15 false).msg
     s.bellWaiting m = true ∧ (∀ e ∈ s.bells, e.2.msg = m → e.2.away = false) ∧ (s.die m.die).recovering = false ∧ m.wellSized = true ∧
       (s.ctx m.die m.tcid).bind = .run ∧
       (s.touchTenant m.die m.tcid ((s.ctx m.die m.tcid).sqva + 4 * m.sqid) 4).bellQueue m.die m.tcid m.sqid = some 1 ∧
       (s.queue m.die 1).active = some (true, ringCopy 1 0 0) ∧ (ringCopy 1 0 0).state = 1) ∧
    (let s := rung 2 0 0 15
     s.bellQueue 0 0 0 = some 1 ∧ (s.queue 0 1).active = some (true, ringCopy 2 0 0) ∧ (ringCopy 2 0 0).state ≠ 1) ∧
    (let s := (rung 1 0 0 15).modQueue 0 1 (fun q => { q with bad := true })
     s.bellQueue 0 0 0 = some 1 ∧ (s.queue 0 1).active = none) ∧
    (let s : State := { rung 1 0 0 15 with mem := [] }
     s.bellQueue 0 0 0 = none) ∧
    ({ (rings 15 false).msg with wellSized := false } : BellMsg).wellSized = false ∧
    (let s := (rung 1 0 0 15).modCtx 0 0 (fun c => { c with bind := .attested })
     (s.ctx 0 0).bind ≠ .run) ∧
    (let s := (rung 1 0 0 15).modDie 0 (fun d => { d with recovering := true })
     s.bellWaiting (rings 15 false).msg = true ∧ (s.die 0).recovering = true) ∧
    (∀ x ∈ [(0, 16, 1), (0, 17, 0), (5, 3, 2)], let c := ringCopy 1 0 x.1
     let ahead := (x.2.1 + 2 ^ 32 - c.head) % 2 ^ 32
     (if 2 ^ c.log2n < ahead then 0 else if ahead < (c.tail + 2 ^ 32 - c.head) % 2 ^ 32 then 2 else 1) = x.2.2) ∧
    (let s : State := { rung 1 0 0 15 with bells := [(6, rings 15 true)] }
     s.bells.find? (fun e => e.2.msg == (rings 15 false).msg && e.2.away) = some (6, rings 15 true)) := by decide
/-- QueueEvents: a pilot entry, and what keeps one from running. -/
theorem wit_pilotEntry :
    (let s := rung 1 0 1 15
     let c := ringCopy 1 0 1
     (s.die 0).boot = .inService ∧ (s.die 0).recovering = false ∧ (storeGet Lane.reset (s.die 0).lanes 15).stage = .idle ∧ s.servable 0 = [1] ∧
       (s.queue 0 1).active = some (true, c) ∧ storeFind (s.die 0).pilots c.prog = some ⟨[0], 0, 0⟩ ∧ 0 = c.tcid ∧
       (s.readEntry 0 c.tcid (c.ringva + c.head % 2 ^ c.log2n * (64 * 2 ^ c.esz)) (64 * 2 ^ c.esz)).isSome = true) ∧
    (let s := (rung 1 0 1 15).modDie 0 (fun d => { d with pilots := [] })
     storeFind (s.die 0).pilots 5 = none) ∧
    (let s := (rung 1 0 1 15).modDie 0 (fun d => { d with pilots := [(5, ⟨[0], 0, 9⟩)] })
     (storeFind (s.die 0).pilots 5).any (fun p => p.tcid != 0) = true) ∧
    (let s := (rung 1 0 1 15).modDie 0 (fun d => { d with tlb := [] })
     s.readEntry 0 0 4096 64 = none) ∧
    (let s := (rung 1 0 1 15).modQueue 0 1 (fun q => { q with bad := true })
     (s.queue 0 1).active = none) := by decide
/-- QueueEvents: recovery at its bounds. -/
theorem wit_recovery :
    (let s := watchers 25000 false
     s.inService 0 = true ∧ (s.die 0).recovering = false ∧ s.watched 0 = true ∧ (s.die 0).lanes = [] ∧ (s.die 0).sessions = [] ∧
       (s.die 0).watchdogAt + 25000 ≤ s.time) ∧
    (let s := watchers 24999 false
     s.time < (s.die 0).watchdogAt + 25000) ∧
    (let s := watchers 50000 true
     s.inService 0 = true ∧ (s.die 0).recovering = true ∧ (s.die 0).recoverAt + 50000 ≤ s.time ∧ s.boundOn 0 = [] ∧
       (∀ e ∈ s.strands, e.2.die ≠ 0) ∧ (∀ x < 8, (s.die x).shares = []) ∧
       (s.die 0).lostEmits = [] ∧ (s.die 0).bellHeld = [] ∧ (s.die 0).shares = []) ∧
    (let s := (watchers 50000 true).modDie 0 (fun d => { d with bootBad := true })
     (s.die 0).bootBad = true ∧ ((watchers 50000 true).die 0).bootBad = false) ∧
    (let s := watchers 49999 true
     (s.die 0).recovering = true ∧ s.time < (s.die 0).recoverAt + 50000) := by decide
/-- QueueEvents: a recovering die's checks pass or one of them fails (what they find is a free value). -/
theorem wit_reboot (n : Nat) : (Config.bootPasses 0 n = true ∧ Config.bootPasses 0 (n + 1) = true) ∨
    (Config.bootPasses 0 n = false ∨ Config.bootPasses 0 (n + 1) = false) := by
  cases Config.bootPasses 0 n <;> cases Config.bootPasses 0 (n + 1) <;> simp
/-- QueueEvents: an outside bell that carries its queue's tag and the next sequence number, and one whose sequence number is old. -/
theorem wit_bellGood :
    (let m := { (rings 15 false).msg with dev := false, seq := 1 }
     ∃ t, ({ m with tag := t } : BellMsg).tag = bellTag 0 0 (bellMsgBytes { m with tag := t }) ∧
       1 ≤ (m.seq + 2 ^ 32 - 0) % 2 ^ 32 ∧ (m.seq + 2 ^ 32 - 0) % 2 ^ 32 < 2 ^ 31) ∧
    (let m := { (rings 15 false).msg with dev := false, seq := 0 }
     m.dev = false ∧ ¬ 1 ≤ (m.seq + 2 ^ 32 - 0) % 2 ^ 32) := by
  refine ⟨⟨bellTag 0 0 (bellMsgBytes { (rings 15 false).msg with dev := false, seq := 1 }), rfl, by decide, by decide⟩, rfl, by decide⟩
/-- A bell key of the bytes 1 to 32. -/
def tagKey : Nat := 0x201f1e1d1c1b1a191817161514131211100f0e0d0c0b0a090807060504030201
/-- The tag of a 12-byte message (R396) in both suites; the values come from another implementation of HMAC-SM3 and HMAC-SHA-384. -/
theorem test_bellTag_sm3 : bellTag 1 tagKey [0x23, 1, 7, 0, 0x3c, 0, 0, 0, 5, 0, 0, 0] = 0x38f1527a81a8437e := by decide +kernel
theorem test_bellTag_sha384 : bellTag 0 tagKey [0x23, 1, 7, 0, 0x3c, 0, 0, 0, 5, 0, 0, 0] = 0xf65083e3b93593a9 := by decide +kernel

/-! ## Witnesses: the package, sessions, bindings and services -/

/-- Dies in a boot state, each with its own leader and candidates. -/
def booting (f : Nat → Die) (time : Nat) : State :=
  { State.reset with dies := (List.range 8).map (fun d => (d, f d)), time := time }
/-- BootEvents. -/
theorem wit_boot :
    (State.reset.pkg.pwrgood = true ∧ (State.reset.die 11).boot = .off ∧ (core0.die 0).boot ≠ .off) ∧
    (let s := booting (fun _ => { Die.reset with boot := .booting 4 }) 20000000
     (s.die 7).boot = .booting 4 ∧ (s.die 7).bootSince + 20000000 ≤ s.time ∧ (State.reset.die 7).bootSince + 20000000 > State.reset.time) ∧
    (let s := booting (fun _ => { Die.reset with boot := .booting 6, candidates := [0, 1, 2, 3, 4, 5, 6] }) 0
     (s.die 0).boot = .booting 6 ∧ (s.die 7).boot = .booting 6 ∧ (s.die 0).leader = none ∧ 7 ∉ (s.die 0).candidates ∧
       (s.die 0).candidates.length = 7) ∧
    (let s := booting (fun _ => { Die.reset with boot := .booting 6, candidates := [3], firstCand := some 0 }) 500000
     (s.die 7).boot = .booting 6 ∧ (s.die 7).leader = none ∧ (s.die 7).firstCand = some 0 ∧ 0 + 500000 ≤ s.time ∧
       (s.die 7).candidates.length ≠ 7 ∧ 0 ∉ (s.die 7).candidates) ∧
    (let s := booting (fun _ => { Die.reset with boot := .booting 6, leader := some 7 }) 0
     7 < 8 ∧ (s.die 7).leader = some 7 ∧ (s.die 7).boot = .booting 6 ∧ (s.die 7).void = false ∧ s.pkg.number = none) ∧
    (let s := (booting (fun _ => { Die.reset with boot := .booting 6, leader := some 7 }) 0).modDie 11 (fun d => { d with boot := .inService })
     11 ∈ quayDies ∧ (s.die 11).boot = .inService ∧ (s.die 11).void = false ∧ (s.die 7).leader = some 7) ∧
    (let s : State := { core0 with pkg := { core0.pkg with pwrgood := false } }
     s.pkg.pwrgood = false) ∧
    2000 ≤ 6000 ∧ 6000 ≤ 6000 := by decide
/-- A context with the page of a one-page table at virtual address 0. -/
def tabled : State :=
  ((((({ core0 with time := 100000 } : State).modCtx 0 0 (fun c => { c with root := some 8192, pages := [(0, 3, 0, 0x20000)] })).poke 8192 16 16385).poke
    16384 16 24577).poke 24576 16 32769).poke 32768 16 0x2000F
/-- An image of one bundle that ends its strand. -/
def ending : Image := wordImage (encode (.endStrand yes))
/-- PackageEvents. -/
theorem wit_package :
    (105 ≤ 105 ∧ (core0.die 0).thermal = false) ∧ (99 < 100 ∧ ((die0 (fun d => { d with thermal := true })).die 0).thermal = true) ∧
    (115 ≤ 115 ∧ core0.pkg.thermtrip = false ∧ 11 < 12) ∧ inPackage (eccAddr (2 ^ 46 * 7 / 64)) = true ∧ eccAddr (2 ^ 46 * 7 / 64) < 2 ^ 53 ∧ inPackage (eccAddr (2 ^ 53 / 32)) = true ∧
    2 ^ 53 ≤ eccAddr (2 ^ 53 / 32) ∧
    (100 < 105 ∧ 100 ≤ 100 ∧ 114 < 115) ∧ tabled.pkg.pwrgood = true ∧ tabled.pkg.teleAt + 100000 ≤ tabled.time ∧
    ((core0.ctx 0 0).bound = true ∧ imageRows ending ≤ 64 ∧ (core0.ctx 0 1).bound = false) := by decide
/-- PackageEvents, the bundles of an image that loads. -/
theorem wit_imageLoad :
    let bs := imageBundles ending.words (ending.words.length + 1) 0
    imageFeatures ending bs &&& ending.features = imageFeatures ending bs ∧ pathsOk bs = true := by decide
/-- PackageEvents: a page that moves. -/
theorem wit_pageMove :
    (let s := tabled
     let u : LeafUse := ⟨0, 0, 0x20000, 4096⟩
     (s.leafUses (s.domainIdx 0)).find? (fun u => u.meets 0x20000 1) = some u ∧
     s.moveRange (s.domainIdx 0) u.pa u.size = (0x20000, 4096) ∧ 0x30000 % 4096 = 0 ∧ 0x30000 + 4096 ≤ osBase ∧ 0x20000 + 4096 ≤ 0x30000 ∧
     ∀ x ∈ s.ctxs, ∀ q ∈ x.2.pages, meetsPage s (s.domainIdx 0) 0x30000 4096 q x = false) := by decide
/-- PackageEvents: a save area that moves. -/
theorem wit_areaMove : let src := osBase
    let s := (on (fun t => { t with area := some (hbmAddr 0 osBase) })).modDie 0 (fun d => { d with nalloc := areaSize })
    (s.leafUses (s.domainIdx 0)).find? (fun u => u.meets src 1) = none ∧
      (s.strands.find? (fun e => e.2.area == some (hbmAddr 0 src))).map (fun e => e.1) = some 0 ∧ (src + areaSize) % areaSize = 0 ∧
      osBase + (s.die 0).nalloc ≤ src + areaSize ∧ src + areaSize + areaSize ≤ hbmBytes ∧ memWf s.mem = true := by decide
/-- A die with session 5 of requester 9, whose index in the package is 3, secured or not. -/
def inSession (sec : Bool) : State :=
  let s := die0 (fun d => { d with sessions := [⟨5, 9, sec, 0⟩] })
  { s with time := 60000000, pkg := { s.pkg with tenants := [(3, 9)] } }
/-- SessionEvents: a request outside a session, on a quay die too, and one in a session; a session after 60 s, and a full responder. -/
theorem wit_session :
    (∀ d ∈ [0, 11], let s := core0.modDie 11 (fun x => { x with boot := .inService })
     s.responds d = true ∧ (s.die d).sessions.length < 64) ∧
    (let q : Spdm := ⟨0, 5, 6, .ethernet⟩
     let s := inSession false
     s.responds q.resp = true ∧ q.sess ≠ 0 ∧ (s.session q.resp q.sess).isSome = true ∧ 1 ≤ q.arg ∧ q.arg ≤ 6) ∧
    (let s := inSession false
     s.session 0 5 = some ⟨5, 9, false, 0⟩ ∧ 0 + 60000000 ≤ s.time) ∧
    (let s := die0 (fun d => { d with sessions := List.replicate 64 ⟨5, 9, false, 0⟩ })
     s.responds 0 = true ∧ 64 ≤ (s.die 0).sessions.length) ∧
    (let s := die0 (fun d => { d with sessions := [⟨5, 9, true, 0⟩] })
     s.session 0 5 = some ⟨5, 9, true, 0⟩ ∧ s.time < 0 + 60000000) := by decide
/-- Context 0 of die 0, of the tenant of session 5, in a binding state, locked in that session. -/
def bindIn (b : Binding) : State := (inSession true).modCtx 0 0 (fun c => { c with bind := b, sess := 5, tenant := 3 })
/-- A window that installs. -/
def aWindow : WinSet := ⟨15, BitVec.ofNat 64 (2 ^ 63 + 2 ^ 52), 0, 4096, 65535, 7, []⟩
/-- BindingEvents: LOCK in a session, with resources that are there and with more than there are; a tenant with and without an index. -/
theorem wit_lock :
    (let s := bindIn .locked
     s.secured 0 5 = some ⟨5, 9, true, 0⟩ ∧ (s.ctx 0 1023).bound = false ∧ s.tenantIdx 9 = some 3 ∧ s.tenantIdx 8 = none ∧
       (s.assignIdx 8).isSome = true ∧ (s.reserve 1 ⟨0, 5, 4, 65536, 65536, 16⟩).isSome = true) ∧
    (let r : LockReq := ⟨0, 5, 0, 0, 0, 257⟩
     256 < (bindIn .locked).heldBy r.die 1 (fun c => c.crewq) + r.crews) := by decide
/-- Every context of die 0 is bound. -/
def packed : State := { inSession true with ctxs := (List.range 1024).map (fun t => (t, { Ctx.reset with bind := .run })) }
theorem storeFind_map (f : Nat → Nat × Ctx) (h : ∀ t, (f t).1 = t) (l : List Nat) (t : Nat) (m : t ∈ l) : storeFind (l.map f) t = some (f t).2 := by
  induction l with
  | nil => simp at m
  | cons a r ih =>
    simp only [List.map_cons, storeFind, h]
    by_cases e : t = a
    · simp [e]
    · simp only [e, if_false]
      exact ih (by simpa [e] using m)
/-- BindingEvents: no TCID is free. -/
theorem wit_packed : packed.secured 0 5 = some ⟨5, 9, true, 0⟩ ∧ ∀ t < 1024, (packed.ctx 0 t).bound = true := by
  refine ⟨by decide, fun t h => ?_⟩
  have e : packed.ctx 0 t = { Ctx.reset with bind := .run } := by
    simp only [State.ctx, storeGet, ctxKey, packed, Nat.zero_mul, Nat.zero_add]
    rw [storeFind_map _ (fun _ => rfl) _ _ (List.mem_range.2 h)]; rfl
  rw [e]; rfl
/-- BindingEvents: the items within their limits. -/
theorem wit_items : let s := bindIn .locked
    let b : Bind := ⟨0, 0, 5⟩
    Locking s b ∧ (s.heldBy b.die b.tcid (fun c => c.quota) + 32768) * 2 ^ 21 ≤ osBase ∧ inWord (2 ^ 13) (s.ctx 0 0).word = true ∧
      inWord (2 ^ 6) (s.ctx 0 0).word = true ∧ inWord (2 ^ 5) (s.ctx 0 0).word = true ∧
      inWord (s.itemNeeds 0 0) (0x7FFF &&& offered) = true ∧ inWord (2 ^ 11) (s.ctx 0 0).word = true ∧ inWord (2 ^ 12) (s.ctx 0 0).word = true ∧
      winLegal s b aWindow = true ∧ inWord (winNeeds aWindow.wcfg) (s.ctx 0 0).word = true ∧ inWord (2 ^ 14) (s.ctx 0 0).word = true ∧
      s.heldBy b.die b.tcid (fun c => c.crewq) + 256 ≤ 256 ∧ (s.pkg.quayKeys.filter (fun k => k.1 != (s.ctx 0 0).tenant)).length < 64 ∧
      (s.ctx 0 0).has 5 = false ∧ (s.allocRegions 0 0 65536 131072).isSome = true ∧ s.allocRegions 0 0 (2 ^ 30) 0 = none ∧
      [1, 65535].eraseDups.length = [1, 65535].length ∧ (∀ g ∈ [1, 65535], 1 ≤ g ∧ g < 65536) ∧
      (∀ e ∈ s.ctxs, e.2.bound = true → e.2.tenant ≠ (s.ctx 0 0).tenant → ∀ g ∈ [1, 65535], g ∉ e.2.gangs ∧ ∀ k ∈ e.2.keys, k.1 ≠ g) := by
  unfold Locking; decide
/-- BindingEvents: an item, START and UNBIND where the state is another, and where it is theirs; a BERTH with and without memory for it. -/
theorem wit_binding :
    (let s := bindIn .attested
     (s.secured 0 5).isSome = true ∧ (s.ctx 0 0).bind ≠ .locked ∧ (s.ctx 0 0).bind = .attested ∧ (s.ctx 0 0).sess = 5) ∧
    (∀ x ∈ [Binding.run, .error], let s := bindIn x
     s.secured 0 5 = some ⟨5, 9, true, 0⟩ ∧ (s.ctx 0 0).bind = x ∧ (s.ctx 0 0).bind ≠ .attested ∧ s.tenantIdx 9 = some (s.ctx 0 0).tenant) ∧
    ((bindIn .run).modCtx 0 0 (fun c => { c with tenant := 4 })).tenantIdx 9 ≠
      some (((bindIn .run).modCtx 0 0 (fun c => { c with tenant := 4 })).ctx 0 0).tenant ∧
    (((bindIn .locked).heard 0 5).mapBerth 0 0).isSome = true ∧
    (let s := (bindIn .locked).modCtx 0 0 (fun c => { c with items := [(1280, 1)] })
     (s.ctx 0 0).has 5 = true ∧ ((s.heard 0 5).mapBerth 0 0).isSome = true) ∧
    (let s := ((bindIn .locked).modCtx 0 0 (fun c => { c with items := [(1280, 1)] })).modDie 0 (fun d => { d with nalloc := hbmBytes })
     (s.heard 0 5).mapBerth 0 0 = none) ∧
    (∀ e < 8, ((bindIn .run).die e).shares = []) := by decide
/-- ServiceEvents: a command in RUN, in a session of the tenant; in another state; in no session. -/
theorem wit_serving : Serving (bindIn .run) ⟨0, 0, 5⟩ ∧ ((bindIn .error).secured 0 5).isSome = true ∧ ((bindIn .error).ctx 0 0).bind ≠ .run ∧
    (bindIn .run).secured 0 6 = none := ⟨⟨⟨5, 9, true, 0⟩, by decide⟩, by decide, by decide, by decide⟩
/-- ServiceEvents: each status of a service. -/
theorem wit_statuses : let s := (bindIn .run).heard 0 5
    let b : Bind := ⟨0, 0, 5⟩
    (plainly (State.faultpolSet b 3 s)).1 = 0 ∧ (plainly (State.faultpolSet b 4 s)).1 = 2 ∧ (s.windowSet b aWindow).1 = 0 ∧
      (s.pdropHandle b 9).1 ≠ 0 := by decide
/-- ServiceEvents: UNMAP of a page and of none. -/
theorem wit_unmap : (tenantLeaf tabled ⟨0, 0, 5⟩ 0 3).isSome = true ∧ tenantLeaf tabled ⟨0, 0, 5⟩ 4096 3 = none := by decide
/-- ServiceEvents: pilot programs that load and do not, and PDROP of one that is used, one that is not and another context's. -/
theorem wit_pilots :
    pilotVerify ([encodePilot (.drop 1)].map (fun x => x % 2 ^ 32)) = none ∧ (pilotVerify ([0].map (fun x => x % 2 ^ 32))).isSome = true ∧
    (let s := (bindIn .run).modDie 0 (fun d => { d with pilots := [(5, ⟨[0], 0, 0⟩), (6, ⟨[0], 0, 1⟩)] })
     storeFind (s.die 0).pilots 5 = some ⟨[0], 0, 0⟩ ∧ storeFind (s.die 0).pilots 6 = some ⟨[0], 0, 1⟩ ∧ (s.die 0).pilots.length < 65536 ∧
       ∀ e ∈ (s.die 0).queues, e.2.a.prog ≠ 5) ∧
    (let s := ((rung 1 0 0 15).modDie 0 (fun d => { d with pilots := [(5, ⟨[0], 0, 0⟩)] }))
     (s.die 0).queues.any (fun e => e.2.a.prog == 5) = true) := by decide
/-- ServiceEvents: a restore of a strand, and a window with a transaction under way. -/
theorem wit_restores :
    (let s := (bindIn .run).modStrand 0 (fun t => { t with st := .saved, saveKind := some .trap, serial := 7 })
     (s.heard 0 5).bySerial 0 0 7 = some 0 ∧ (s.heard 0 5).bySerial 0 0 8 = none) ∧
    (onFabric (sentXact 64 .sent) 1).winBusy 0 0 0 = true := by decide
/-- A context in RUN in a session, with a queue that a lane serves or does not. -/
def queued1 (lane : Option Nat) : State :=
  let s := ((bindIn .run).modCtx 0 0 (fun c => { c with keys := [(0, 0)], qmax := 1 })).modDie 0 (fun d => { d with
    tlb := [⟨0, 0, 2 ^ 21, 0xF, 2⟩], supTable := [(0, 1)], queues := [(1, { Queue.reset with lane := lane })] })
  { s with mem := [(3, 0x80)] }
/-- A fault strand whose HAIL asks for a QRESET or CLEARUNC. -/
def asks (code q : Nat) : State :=
  { ((hails code).modStrand 1 (fun t => t.ws 2 (BitVec.ofNat 64 q))).modCtx 0 0 (fun c => { c with
      keys := [(0, 0)], qmax := 1, wins := [(0, Win.reset)] }) with mem := [(3, 0x80)] } |>.modDie 0 (fun d => { d with
    tlb := [⟨0, 0, 2 ^ 21, 0xF, 2⟩], supTable := [(0, 1)], queues := [(1, Queue.reset)] })
/-- ServiceEvents: QRESET of a queue that is free and of one that is served, by command and by a HAIL that names one, and none. -/
theorem wit_qreset :
    ((queued1 none).bellQueue 0 0 0 = some 1 ∧ ((queued1 none).heard 0 5).bellQueue 0 0 0 = some 1 ∧ ((queued1 none).queue 0 1).lane = none) ∧
    ((queued1 (some 3)).bellQueue 0 0 0 = some 1 ∧ ((queued1 (some 3)).queue 0 1).lane.isSome = true) ∧
    ((asks 5 0).hailing 1 5 = true ∧ (((asks 5 0).strand 1).rs 2).toNat < 4096 ∧ (asks 5 0).bellQueue 0 0 0 = some 1 ∧
      ((asks 5 0).queue 0 1).lane = none) ∧
    ((asks 5 4096).hailing 1 5 = true ∧ 4096 ≤ (((asks 5 4096).strand 1).rs 2).toNat) ∧ (asks 5 1).bellQueue 0 0 1 = none := by decide
/-- ServiceEvents: CLEARUNC of a window, by command and by HAIL, and of none. -/
theorem wit_clearunc :
    (let s := (bindIn .run).modCtx 0 0 (fun c => { c with wins := [(15, Win.reset)] })
     15 < 16 ∧ (storeFind (s.ctx 0 0).wins 15).isSome = true) ∧
    ((asks 4 0).hailing 1 4 = true ∧ (storeFind ((asks 4 0).ctx 0 0).wins 0).isSome = true ∧ (((asks 4 0).ctx 0 0).win 0).clearing = false) ∧
    ((asks 4 16).hailing 1 4 = true ∧ (((asks 4 16).strand 1).rs 2).toNat = 16) := by decide

/-- A context in RUN that may have a queue. -/
def mayQueue : State := (bindIn .run).modCtx 0 0 (fun c => { c with qmax := 1 })
theorem free_queue : (((List.range 4096).drop 1).filter (fun p => (storeFind (mayQueue.die 0).queues p).isNone)) ≠ [] := by
  intro e
  have m : (1 : Nat) ∈ ((List.range 4096).drop 1).filter (fun p => (storeFind (mayQueue.die 0).queues p).isNone) := by
    refine List.mem_filter.2 ⟨?_, by decide⟩
    rw [List.range_succ_eq_map]
    simp
  rw [e] at m
  exact absurd m (by simp)
/-- ServiceEvents: a QCREATE whose key does not install (whether it does is a free value). -/
theorem wit_qcreateKey (h : Config.keyInstalls 0 0 = false) :
    (mayQueue.qcreate ⟨0, 0, 5⟩ ⟨0, 4, 0, 0, 0, 0, 0⟩).1 = 5 ∧ ∀ e < 8, (mayQueue.die e).shares = [] := by
  refine ⟨?_, by decide⟩
  obtain ⟨p, r, e⟩ := List.exists_cons_of_ne_nil free_queue
  unfold State.qcreate
  simp only
  rw [if_neg (by decide)]
  simp only [e]
  rw [if_neg (by decide), if_pos (show Config.keyInstalls 0 mayQueue.nfree = false from h)]

/-! ## Well-formedness -/

/-- The terms that the ill-formed ones below differ from in one field. -/
theorem test_wf_accepts : ([
  .add ⟨yes, 1, 1, 1⟩, .addi ⟨yes, 1, 1, 1⟩, .mul ⟨yes, 1, 1, .reg 1⟩, .shl ⟨yes, 1, 1, .imm 63⟩, .clz ⟨yes, 1, 1⟩, .sel ⟨yes, 1, 1, 1, 1⟩,
   .li ⟨yes, 1, 1⟩, .cmp ⟨yes, 1, 7, 1, 1⟩, .cmpi ⟨yes, 1, 7, 1, 1⟩, .pand ⟨yes, 1, 1, false, 1, false⟩, .pnot ⟨yes, 1, 1, false⟩, .br ⟨yes, 1⟩,
   .bri ⟨yes, 1⟩, .csrr ⟨yes, 1, 0x1F0⟩, .csrw ⟨yes, 1, 0x080⟩, .trap ⟨yes, 1⟩, .layw ⟨yes, 1, 1, 1⟩, .layr ⟨yes, 1, 1, 1⟩,
   .movh ⟨yes, 1, 1, 1, true⟩, .vadd ⟨.a, yes, 1, 1, 1, 1, 6, 1⟩, .vfma ⟨.a, yes, 1, 1, 1, 1, 1, 6, 1⟩, .vimulh ⟨.a, yes, 1, 1, 1, 1, 13⟩,
   .vmin ⟨.a, yes, 1, 1, 1, 1, 6⟩, .vperm ⟨.a, yes, 1, 1, 1, 1, 6⟩, .viabs ⟨.a, yes, 1, 1, 1, 13⟩, .vrsum ⟨.a, yes, 1, 1, 1, 13⟩,
   .vrcp ⟨.a, yes, 1, 1, 1, 6, 1⟩, .vcmp ⟨.a, yes, 1, 1, 1, 1, 6, 7⟩, .viadd ⟨.a, yes, 1, 1, 1, 1, 7, 1⟩, .vand ⟨.a, yes, 1, 1, 1, 1⟩,
   .vshl ⟨.a, yes, 1, 1, .imm 2047, 1, 7⟩, .vslide ⟨.a, yes, 1, 1, .imm 2047, 1, 6⟩, .vcvt ⟨.a, yes, 1, 1, 1, 6, 6, 1, 1⟩,
   .vcvti ⟨.a, yes, 1, 1, 1, 7, 13, 1, 1⟩, .vcvtf ⟨.a, yes, 1, 1, 1, 6, 7, 1, 1⟩, .vqfp4 ⟨.a, yes, 1, 1, 1, 1, 1, 1, 1⟩,
   .vscale ⟨.a, yes, 1, 1, 1, 1, 6, 1, 1⟩, .vmov ⟨.a, yes, 1, 1, 1⟩, .vbcast ⟨.a, yes, 1, .reg 1, 1, 13⟩, .vsel ⟨.a, yes, 1, 1, 1, 1, 1⟩,
   .vmovh ⟨.a, yes, 1, 1, 1, true⟩, .vlane ⟨.a, yes, 1, 1, .imm 1, 13⟩, .mand ⟨.a, yes, 1, 1, 1⟩, .mnot ⟨.a, yes, 1, 1⟩, .mpop ⟨.a, yes, 1, 1⟩,
   .mcallMma ⟨yes, 7, true⟩, .mpar ⟨yes, 1, 1⟩, .mlds ⟨yes, .a, 1, 1, 127⟩, .mplane ⟨yes, 1, 63, 511⟩, .mrd ⟨yes, true, .a, 1, 127, 15, true⟩,
   .mclr ⟨yes, true⟩, .mfmt ⟨yes, 15⟩, .mstat ⟨yes, 1, 0x1F⟩, .lds ⟨yes, 63, 63, ⟨true, 63⟩, ⟨true, 1⟩, ⟨true, 1⟩, ⟨true, 1⟩⟩,
   .ldh ⟨yes, 15, 63, ⟨true, 63⟩, ⟨true, 1⟩, ⟨true, 1⟩, ⟨true, 1⟩⟩, .ldv ⟨yes, 511, .b, 63, ⟨true, 63⟩, ⟨true, 1⟩, ⟨true, 1⟩, ⟨true, 1⟩⟩,
   .ldvg ⟨yes, 511, .b, 63, ⟨true, 63⟩, ⟨true, 1⟩, ⟨true, 1⟩, 511⟩, .tmov ⟨yes, 63, 63, ⟨true, 1⟩, ⟨true, 1⟩, 63⟩,
   .sts ⟨yes, 63, 63, ⟨true, 63⟩, ⟨true, 1⟩, ⟨true, 1⟩, ⟨true, 1⟩, true, 15⟩,
   .stv ⟨yes, 511, .b, 63, ⟨true, 63⟩, ⟨true, 1⟩, ⟨true, 1⟩, ⟨true, 1⟩, true, 15⟩,
   .vred ⟨yes, 511, .b, 63, ⟨true, 63⟩, ⟨true, 1⟩, ⟨true, 1⟩, ⟨true, 1⟩, false, 0⟩,
   .stvm ⟨yes, 511, .b, 63, ⟨true, 63⟩, ⟨true, 1⟩, ⟨true, 1⟩, 7, true, 15⟩, .aadd ⟨yes, 63, 63, ⟨true, 63⟩, ⟨true, 1⟩, some 15, 4, true, true, 0⟩,
   .acas ⟨yes, 63, 63, ⟨true, 63⟩, ⟨true, 1⟩, none, 4, true, true, 63⟩, .cjob ⟨yes, 63, 63, 15, 63⟩, .cwait ⟨yes, 63, 15⟩, .ckill ⟨yes, 63⟩,
   .csend ⟨yes, 63, 63, 63, 63, 0, 0, 4095⟩, .cred ⟨yes, 63, 63, 63, 63, 3, 255, 4095⟩, .cbell ⟨yes, 63, 63, true, 0, 4095⟩,
   .cbell ⟨yes, 63, 63, false, 15, 4095⟩, .lset ⟨yes, true, 1023, 7, .imm 63⟩, .lbrk ⟨yes, 6⟩, .phase ⟨yes, 4⟩, .setf ⟨yes, 63⟩, .join ⟨yes, 255⟩,
   .waitf ⟨yes, true, 63⟩, .spin ⟨yes, 63, 63, 63, 4⟩, .take ⟨yes, 63, 32767⟩, .emptyBundle ⟨15, false, false⟩, .pilotAdd ⟨7, 7, 7⟩,
   .pilotShl ⟨7, 7, 63⟩, .pilotAddi ⟨7, 7, 1048575⟩, .pilotLi ⟨7, 1048575⟩, .ldm ⟨7, 7, 3, 3, 1023⟩, .beq ⟨7, 7, 1048575⟩, .loop ⟨63, 1048575⟩,
   .emitBell ⟨7, 7, 4095⟩] : List Instr).all (fun i => i.wf) = true := by decide
/-- One field too wide, or one value that its table does not list (scalar). -/
theorem test_wf_refuses_scalar : ([
  .add { (⟨yes, 1, 1, 1⟩ : RRR) with sd := 64 }, .add { (⟨yes, 1, 1, 1⟩ : RRR) with sa := 64 }, .add { (⟨yes, 1, 1, 1⟩ : RRR) with sb := 64 },
   .add { (⟨yes, 1, 1, 1⟩ : RRR) with g := ⟨16, false⟩ }, .addi { (⟨yes, 1, 1, 1⟩ : RRI) with sd := 64 },
   .addi { (⟨yes, 1, 1, 1⟩ : RRI) with sa := 64 }, .addi { (⟨yes, 1, 1, 1⟩ : RRI) with imm := 2 ^ 32 },
   .addi { (⟨yes, 1, 1, 1⟩ : RRI) with g := ⟨16, false⟩ }, .mul { (⟨yes, 1, 1, .reg 1⟩ : RRS) with sd := 64 },
   .mul { (⟨yes, 1, 1, .reg 1⟩ : RRS) with sa := 64 }, .mul { (⟨yes, 1, 1, .reg 1⟩ : RRS) with b := .reg 64 },
   .mul { (⟨yes, 1, 1, .reg 1⟩ : RRS) with b := .imm (2 ^ 32) }, .mul { (⟨yes, 1, 1, .reg 1⟩ : RRS) with g := ⟨16, false⟩ },
   .shl { (⟨yes, 1, 1, .imm 63⟩ : RRS) with b := .imm 64 }, .shl { (⟨yes, 1, 1, .imm 63⟩ : RRS) with g := ⟨16, false⟩ },
   .clz { (⟨yes, 1, 1⟩ : RR) with sd := 64 }, .clz { (⟨yes, 1, 1⟩ : RR) with sa := 64 }, .clz { (⟨yes, 1, 1⟩ : RR) with g := ⟨16, false⟩ },
   .sel { (⟨yes, 1, 1, 1, 1⟩ : SelOps) with sd := 64 }, .sel { (⟨yes, 1, 1, 1, 1⟩ : SelOps) with sa := 64 },
   .sel { (⟨yes, 1, 1, 1, 1⟩ : SelOps) with sb := 64 }, .sel { (⟨yes, 1, 1, 1, 1⟩ : SelOps) with k := 16 },
   .sel { (⟨yes, 1, 1, 1, 1⟩ : SelOps) with g := ⟨16, false⟩ }, .li { (⟨yes, 1, 1⟩ : RI) with sd := 64 },
   .li { (⟨yes, 1, 1⟩ : RI) with imm := 2 ^ 32 }, .li { (⟨yes, 1, 1⟩ : RI) with g := ⟨16, false⟩ },
   .cmp { (⟨yes, 1, 7, 1, 1⟩ : CmpOps) with pd := 16 }, .cmp { (⟨yes, 1, 7, 1, 1⟩ : CmpOps) with cc := 8 },
   .cmp { (⟨yes, 1, 7, 1, 1⟩ : CmpOps) with sa := 64 }, .cmp { (⟨yes, 1, 7, 1, 1⟩ : CmpOps) with sb := 64 },
   .cmp { (⟨yes, 1, 7, 1, 1⟩ : CmpOps) with g := ⟨16, false⟩ }, .cmpi { (⟨yes, 1, 7, 1, 1⟩ : CmpIOps) with pd := 16 },
   .cmpi { (⟨yes, 1, 7, 1, 1⟩ : CmpIOps) with cc := 8 }, .cmpi { (⟨yes, 1, 7, 1, 1⟩ : CmpIOps) with sa := 64 },
   .cmpi { (⟨yes, 1, 7, 1, 1⟩ : CmpIOps) with imm := 2 ^ 32 }, .cmpi { (⟨yes, 1, 7, 1, 1⟩ : CmpIOps) with g := ⟨16, false⟩ },
   .pand { (⟨yes, 1, 1, false, 1, false⟩ : PPP) with pd := 16 }, .pand { (⟨yes, 1, 1, false, 1, false⟩ : PPP) with pa := 16 },
   .pand { (⟨yes, 1, 1, false, 1, false⟩ : PPP) with pb := 16 }, .pand { (⟨yes, 1, 1, false, 1, false⟩ : PPP) with g := ⟨16, false⟩ },
   .pnot { (⟨yes, 1, 1, false⟩ : PP) with pd := 16 }, .pnot { (⟨yes, 1, 1, false⟩ : PP) with pa := 16 },
   .pnot { (⟨yes, 1, 1, false⟩ : PP) with g := ⟨16, false⟩ }, .br { (⟨yes, 1⟩ : BrOps) with sa := 64 },
   .br { (⟨yes, 1⟩ : BrOps) with g := ⟨16, false⟩ }, .bri { (⟨yes, 1⟩ : BriOps) with imm := 2 ^ 32 },
   .bri { (⟨yes, 1⟩ : BriOps) with g := ⟨16, false⟩ }, .csrr { (⟨yes, 1, 0x1F0⟩ : CsrrOps) with sd := 64 },
   .csrr { (⟨yes, 1, 0x1F0⟩ : CsrrOps) with csr := 4096 }, .csrr { (⟨yes, 1, 0x1F0⟩ : CsrrOps) with csr := 0x00B },
   .csrr { (⟨yes, 1, 0x1F0⟩ : CsrrOps) with csr := 0x016 }, .csrr { (⟨yes, 1, 0x1F0⟩ : CsrrOps) with csr := 0x024 },
   .csrr { (⟨yes, 1, 0x1F0⟩ : CsrrOps) with csr := 0x050 }, .csrr { (⟨yes, 1, 0x1F0⟩ : CsrrOps) with csr := 0x110 },
   .csrr { (⟨yes, 1, 0x1F0⟩ : CsrrOps) with csr := 0x1F1 }, .csrr { (⟨yes, 1, 0x1F0⟩ : CsrrOps) with g := ⟨16, false⟩ },
   .csrw { (⟨yes, 1, 0x080⟩ : CsrwOps) with sa := 64 }, .csrw { (⟨yes, 1, 0x080⟩ : CsrwOps) with csr := 4096 },
   .csrw { (⟨yes, 1, 0x080⟩ : CsrwOps) with csr := 0x07F }, .csrw { (⟨yes, 1, 0x080⟩ : CsrwOps) with g := ⟨16, false⟩ },
   .trap { (⟨yes, 1⟩ : CodeOps) with code := 65536 }, .trap { (⟨yes, 1⟩ : CodeOps) with g := ⟨16, false⟩ },
   .layw { (⟨yes, 1, 1, 1⟩ : LaywOps) with sa := 64 }, .layw { (⟨yes, 1, 1, 1⟩ : LaywOps) with n := 64 },
   .layw { (⟨yes, 1, 1, 1⟩ : LaywOps) with k := 4 }, .layw { (⟨yes, 1, 1, 1⟩ : LaywOps) with g := ⟨16, false⟩ },
   .layr { (⟨yes, 1, 1, 1⟩ : LayrOps) with sd := 64 }, .layr { (⟨yes, 1, 1, 1⟩ : LayrOps) with n := 64 },
   .layr { (⟨yes, 1, 1, 1⟩ : LayrOps) with k := 4 }, .layr { (⟨yes, 1, 1, 1⟩ : LayrOps) with g := ⟨16, false⟩ },
   .movh { (⟨yes, 1, 1, 1, true⟩ : MovhOps) with sd := 64 }, .movh { (⟨yes, 1, 1, 1, true⟩ : MovhOps) with h := 16 },
   .movh { (⟨yes, 1, 1, 1, true⟩ : MovhOps) with w := 16 }, .movh { (⟨yes, 1, 1, 1, true⟩ : MovhOps) with g := ⟨16, false⟩ }] : List Instr).all (fun i => !i.wf) = true := by decide
/-- One field too wide, or one value that its table does not list (vector). -/
theorem test_wf_refuses_vector : ([
  .vadd { (⟨.a, yes, 1, 1, 1, 1, 6, 1⟩ : V3R) with vd := 512 }, .vadd { (⟨.a, yes, 1, 1, 1, 1, 6, 1⟩ : V3R) with vs1 := 512 },
   .vadd { (⟨.a, yes, 1, 1, 1, 1, 6, 1⟩ : V3R) with vs2 := 512 }, .vadd { (⟨.a, yes, 1, 1, 1, 1, 6, 1⟩ : V3R) with msel := 8 },
   .vadd { (⟨.a, yes, 1, 1, 1, 1, 6, 1⟩ : V3R) with ty := 3 }, .vadd { (⟨.a, yes, 1, 1, 1, 1, 6, 1⟩ : V3R) with ty := 4 },
   .vadd { (⟨.a, yes, 1, 1, 1, 1, 6, 1⟩ : V3R) with ty := 5 }, .vadd { (⟨.a, yes, 1, 1, 1, 1, 6, 1⟩ : V3R) with ty := 7 },
   .vadd { (⟨.a, yes, 1, 1, 1, 1, 6, 1⟩ : V3R) with rnd := 4 }, .vadd { (⟨.a, yes, 1, 1, 1, 1, 6, 1⟩ : V3R) with g := ⟨16, false⟩ },
   .vfma { (⟨.a, yes, 1, 1, 1, 1, 1, 6, 1⟩ : V4R) with vd := 512 }, .vfma { (⟨.a, yes, 1, 1, 1, 1, 1, 6, 1⟩ : V4R) with vs1 := 512 },
   .vfma { (⟨.a, yes, 1, 1, 1, 1, 1, 6, 1⟩ : V4R) with vs2 := 512 }, .vfma { (⟨.a, yes, 1, 1, 1, 1, 1, 6, 1⟩ : V4R) with vs3 := 512 },
   .vfma { (⟨.a, yes, 1, 1, 1, 1, 1, 6, 1⟩ : V4R) with msel := 8 }, .vfma { (⟨.a, yes, 1, 1, 1, 1, 1, 6, 1⟩ : V4R) with ty := 3 },
   .vfma { (⟨.a, yes, 1, 1, 1, 1, 1, 6, 1⟩ : V4R) with rnd := 4 }, .vfma { (⟨.a, yes, 1, 1, 1, 1, 1, 6, 1⟩ : V4R) with g := ⟨16, false⟩ },
   .vimulh { (⟨.a, yes, 1, 1, 1, 1, 13⟩ : V3T) with vd := 512 }, .vimulh { (⟨.a, yes, 1, 1, 1, 1, 13⟩ : V3T) with vs1 := 512 },
   .vimulh { (⟨.a, yes, 1, 1, 1, 1, 13⟩ : V3T) with vs2 := 512 }, .vimulh { (⟨.a, yes, 1, 1, 1, 1, 13⟩ : V3T) with msel := 8 },
   .vimulh { (⟨.a, yes, 1, 1, 1, 1, 13⟩ : V3T) with ty := 6 }, .vimulh { (⟨.a, yes, 1, 1, 1, 1, 13⟩ : V3T) with ty := 14 },
   .vimulh { (⟨.a, yes, 1, 1, 1, 1, 13⟩ : V3T) with g := ⟨16, false⟩ }, .vmin { (⟨.a, yes, 1, 1, 1, 1, 6⟩ : V3T) with ty := 7 },
   .vmin { (⟨.a, yes, 1, 1, 1, 1, 6⟩ : V3T) with g := ⟨16, false⟩ }, .vperm { (⟨.a, yes, 1, 1, 1, 1, 6⟩ : V3T) with ty := 5 },
   .vperm { (⟨.a, yes, 1, 1, 1, 1, 6⟩ : V3T) with ty := 14 }, .vperm { (⟨.a, yes, 1, 1, 1, 1, 6⟩ : V3T) with g := ⟨16, false⟩ },
   .viabs { (⟨.a, yes, 1, 1, 1, 13⟩ : V2T) with vd := 512 }, .viabs { (⟨.a, yes, 1, 1, 1, 13⟩ : V2T) with vs1 := 512 },
   .viabs { (⟨.a, yes, 1, 1, 1, 13⟩ : V2T) with msel := 8 }, .viabs { (⟨.a, yes, 1, 1, 1, 13⟩ : V2T) with ty := 10 },
   .viabs { (⟨.a, yes, 1, 1, 1, 13⟩ : V2T) with ty := 11 }, .viabs { (⟨.a, yes, 1, 1, 1, 13⟩ : V2T) with ty := 12 },
   .viabs { (⟨.a, yes, 1, 1, 1, 13⟩ : V2T) with ty := 14 }, .viabs { (⟨.a, yes, 1, 1, 1, 13⟩ : V2T) with g := ⟨16, false⟩ },
   .vrsum { (⟨.a, yes, 1, 1, 1, 13⟩ : V2T) with ty := 3 }, .vrsum { (⟨.a, yes, 1, 1, 1, 13⟩ : V2T) with ty := 4 },
   .vrsum { (⟨.a, yes, 1, 1, 1, 13⟩ : V2T) with ty := 5 }, .vrsum { (⟨.a, yes, 1, 1, 1, 13⟩ : V2T) with ty := 14 },
   .vrsum { (⟨.a, yes, 1, 1, 1, 13⟩ : V2T) with g := ⟨16, false⟩ }, .vrcp { (⟨.a, yes, 1, 1, 1, 6, 1⟩ : V2R) with vd := 512 },
   .vrcp { (⟨.a, yes, 1, 1, 1, 6, 1⟩ : V2R) with vs1 := 512 }, .vrcp { (⟨.a, yes, 1, 1, 1, 6, 1⟩ : V2R) with msel := 8 },
   .vrcp { (⟨.a, yes, 1, 1, 1, 6, 1⟩ : V2R) with ty := 5 }, .vrcp { (⟨.a, yes, 1, 1, 1, 6, 1⟩ : V2R) with rnd := 4 },
   .vrcp { (⟨.a, yes, 1, 1, 1, 6, 1⟩ : V2R) with g := ⟨16, false⟩ }, .vcmp { (⟨.a, yes, 1, 1, 1, 1, 6, 7⟩ : VCmpOps) with md := 8 },
   .vcmp { (⟨.a, yes, 1, 1, 1, 1, 6, 7⟩ : VCmpOps) with vs1 := 512 }, .vcmp { (⟨.a, yes, 1, 1, 1, 1, 6, 7⟩ : VCmpOps) with vs2 := 512 },
   .vcmp { (⟨.a, yes, 1, 1, 1, 1, 6, 7⟩ : VCmpOps) with msel := 8 }, .vcmp { (⟨.a, yes, 1, 1, 1, 1, 6, 7⟩ : VCmpOps) with ty := 3 },
   .vcmp { (⟨.a, yes, 1, 1, 1, 1, 6, 7⟩ : VCmpOps) with ty := 7 }, .vcmp { (⟨.a, yes, 1, 1, 1, 1, 6, 7⟩ : VCmpOps) with ty := 14 },
   .vcmp { (⟨.a, yes, 1, 1, 1, 1, 6, 7⟩ : VCmpOps) with cond := 8 }, .vcmp { (⟨.a, yes, 1, 1, 1, 1, 6, 7⟩ : VCmpOps) with g := ⟨16, false⟩ },
   .viadd { (⟨.a, yes, 1, 1, 1, 1, 7, 1⟩ : V3O) with vd := 512 }, .viadd { (⟨.a, yes, 1, 1, 1, 1, 7, 1⟩ : V3O) with vs1 := 512 },
   .viadd { (⟨.a, yes, 1, 1, 1, 1, 7, 1⟩ : V3O) with vs2 := 512 }, .viadd { (⟨.a, yes, 1, 1, 1, 1, 7, 1⟩ : V3O) with msel := 8 },
   .viadd { (⟨.a, yes, 1, 1, 1, 1, 7, 1⟩ : V3O) with ty := 6 }, .viadd { (⟨.a, yes, 1, 1, 1, 1, 7, 1⟩ : V3O) with ovf := 4 },
   .viadd { (⟨.a, yes, 1, 1, 1, 1, 7, 1⟩ : V3O) with g := ⟨16, false⟩ }, .vand { (⟨.a, yes, 1, 1, 1, 1⟩ : V3L) with vd := 512 },
   .vand { (⟨.a, yes, 1, 1, 1, 1⟩ : V3L) with vs1 := 512 }, .vand { (⟨.a, yes, 1, 1, 1, 1⟩ : V3L) with vs2 := 512 },
   .vand { (⟨.a, yes, 1, 1, 1, 1⟩ : V3L) with msel := 8 }, .vand { (⟨.a, yes, 1, 1, 1, 1⟩ : V3L) with g := ⟨16, false⟩ },
   .vshl { (⟨.a, yes, 1, 1, .imm 2047, 1, 7⟩ : VSS) with vd := 512 }, .vshl { (⟨.a, yes, 1, 1, .imm 2047, 1, 7⟩ : VSS) with vs1 := 512 },
   .vshl { (⟨.a, yes, 1, 1, .imm 2047, 1, 7⟩ : VSS) with b := .reg 64 }, .vshl { (⟨.a, yes, 1, 1, .imm 2047, 1, 7⟩ : VSS) with b := .imm 2048 },
   .vshl { (⟨.a, yes, 1, 1, .imm 2047, 1, 7⟩ : VSS) with msel := 8 }, .vshl { (⟨.a, yes, 1, 1, .imm 2047, 1, 7⟩ : VSS) with ty := 6 },
   .vshl { (⟨.a, yes, 1, 1, .imm 2047, 1, 7⟩ : VSS) with g := ⟨16, false⟩ }, .vslide { (⟨.a, yes, 1, 1, .imm 2047, 1, 6⟩ : VSS) with ty := 14 },
   .vslide { (⟨.a, yes, 1, 1, .imm 2047, 1, 6⟩ : VSS) with g := ⟨16, false⟩ }, .vcvt { (⟨.a, yes, 1, 1, 1, 6, 6, 1, 1⟩ : VCvtOps) with vd := 512 },
   .vcvt { (⟨.a, yes, 1, 1, 1, 6, 6, 1, 1⟩ : VCvtOps) with vs1 := 512 }, .vcvt { (⟨.a, yes, 1, 1, 1, 6, 6, 1, 1⟩ : VCvtOps) with msel := 8 },
   .vcvt { (⟨.a, yes, 1, 1, 1, 6, 6, 1, 1⟩ : VCvtOps) with ty := 7 }, .vcvt { (⟨.a, yes, 1, 1, 1, 6, 6, 1, 1⟩ : VCvtOps) with src := 7 },
   .vcvt { (⟨.a, yes, 1, 1, 1, 6, 6, 1, 1⟩ : VCvtOps) with rnd := 4 }, .vcvt { (⟨.a, yes, 1, 1, 1, 6, 6, 1, 1⟩ : VCvtOps) with ovf := 4 },
   .vcvt { (⟨.a, yes, 1, 1, 1, 6, 6, 1, 1⟩ : VCvtOps) with g := ⟨16, false⟩ }, .vcvti { (⟨.a, yes, 1, 1, 1, 7, 13, 1, 1⟩ : VCvtOps) with ty := 6 },
   .vcvti { (⟨.a, yes, 1, 1, 1, 7, 13, 1, 1⟩ : VCvtOps) with src := 14 },
   .vcvti { (⟨.a, yes, 1, 1, 1, 7, 13, 1, 1⟩ : VCvtOps) with g := ⟨16, false⟩ },
   .vcvtf { (⟨.a, yes, 1, 1, 1, 6, 7, 1, 1⟩ : VCvtOps) with ty := 7 }, .vcvtf { (⟨.a, yes, 1, 1, 1, 6, 7, 1, 1⟩ : VCvtOps) with src := 6 },
   .vcvtf { (⟨.a, yes, 1, 1, 1, 6, 7, 1, 1⟩ : VCvtOps) with g := ⟨16, false⟩ }, .vqfp4 { (⟨.a, yes, 1, 1, 1, 1, 1, 1, 1⟩ : VQOps) with vd := 512 },
   .vqfp4 { (⟨.a, yes, 1, 1, 1, 1, 1, 1, 1⟩ : VQOps) with vs1 := 512 }, .vqfp4 { (⟨.a, yes, 1, 1, 1, 1, 1, 1, 1⟩ : VQOps) with vs2 := 512 },
   .vqfp4 { (⟨.a, yes, 1, 1, 1, 1, 1, 1, 1⟩ : VQOps) with vs3 := 512 }, .vqfp4 { (⟨.a, yes, 1, 1, 1, 1, 1, 1, 1⟩ : VQOps) with msel := 8 },
   .vqfp4 { (⟨.a, yes, 1, 1, 1, 1, 1, 1, 1⟩ : VQOps) with rnd := 4 }, .vqfp4 { (⟨.a, yes, 1, 1, 1, 1, 1, 1, 1⟩ : VQOps) with ovf := 4 },
   .vqfp4 { (⟨.a, yes, 1, 1, 1, 1, 1, 1, 1⟩ : VQOps) with g := ⟨16, false⟩ },
   .vscale { (⟨.a, yes, 1, 1, 1, 1, 6, 1, 1⟩ : VScaleOps) with vd := 512 },
   .vscale { (⟨.a, yes, 1, 1, 1, 1, 6, 1, 1⟩ : VScaleOps) with vs1 := 512 },
   .vscale { (⟨.a, yes, 1, 1, 1, 1, 6, 1, 1⟩ : VScaleOps) with vs2 := 512 },
   .vscale { (⟨.a, yes, 1, 1, 1, 1, 6, 1, 1⟩ : VScaleOps) with msel := 8 }, .vscale { (⟨.a, yes, 1, 1, 1, 1, 6, 1, 1⟩ : VScaleOps) with ty := 3 },
   .vscale { (⟨.a, yes, 1, 1, 1, 1, 6, 1, 1⟩ : VScaleOps) with rnd := 4 }, .vscale { (⟨.a, yes, 1, 1, 1, 1, 6, 1, 1⟩ : VScaleOps) with ovf := 4 },
   .vscale { (⟨.a, yes, 1, 1, 1, 1, 6, 1, 1⟩ : VScaleOps) with g := ⟨16, false⟩ }, .vmov { (⟨.a, yes, 1, 1, 1⟩ : V2L) with vd := 512 },
   .vmov { (⟨.a, yes, 1, 1, 1⟩ : V2L) with vs1 := 512 }, .vmov { (⟨.a, yes, 1, 1, 1⟩ : V2L) with msel := 8 },
   .vmov { (⟨.a, yes, 1, 1, 1⟩ : V2L) with g := ⟨16, false⟩ }, .vbcast { (⟨.a, yes, 1, .reg 1, 1, 13⟩ : VBcastOps) with vd := 512 },
   .vbcast { (⟨.a, yes, 1, .reg 1, 1, 13⟩ : VBcastOps) with b := .reg 64 },
   .vbcast { (⟨.a, yes, 1, .reg 1, 1, 13⟩ : VBcastOps) with b := .imm 2048 }, .vbcast { (⟨.a, yes, 1, .reg 1, 1, 13⟩ : VBcastOps) with msel := 8 },
   .vbcast { (⟨.a, yes, 1, .reg 1, 1, 13⟩ : VBcastOps) with ty := 14 },
   .vbcast { (⟨.a, yes, 1, .reg 1, 1, 13⟩ : VBcastOps) with g := ⟨16, false⟩ }, .vsel { (⟨.a, yes, 1, 1, 1, 1, 1⟩ : VSelOps) with vd := 512 },
   .vsel { (⟨.a, yes, 1, 1, 1, 1, 1⟩ : VSelOps) with vs1 := 512 }, .vsel { (⟨.a, yes, 1, 1, 1, 1, 1⟩ : VSelOps) with vs2 := 512 },
   .vsel { (⟨.a, yes, 1, 1, 1, 1, 1⟩ : VSelOps) with msel := 8 }, .vsel { (⟨.a, yes, 1, 1, 1, 1, 1⟩ : VSelOps) with sel := 8 },
   .vsel { (⟨.a, yes, 1, 1, 1, 1, 1⟩ : VSelOps) with g := ⟨16, false⟩ }, .vmovh { (⟨.a, yes, 1, 1, 1, true⟩ : VMovhOps) with vd := 512 },
   .vmovh { (⟨.a, yes, 1, 1, 1, true⟩ : VMovhOps) with msel := 8 }, .vmovh { (⟨.a, yes, 1, 1, 1, true⟩ : VMovhOps) with h := 16 },
   .vmovh { (⟨.a, yes, 1, 1, 1, true⟩ : VMovhOps) with g := ⟨16, false⟩ }, .vlane { (⟨.a, yes, 1, 1, .imm 1, 13⟩ : VLaneOps) with sd := 64 },
   .vlane { (⟨.a, yes, 1, 1, .imm 1, 13⟩ : VLaneOps) with vs1 := 512 }, .vlane { (⟨.a, yes, 1, 1, .imm 1, 13⟩ : VLaneOps) with b := .reg 64 },
   .vlane { (⟨.a, yes, 1, 1, .imm 1, 13⟩ : VLaneOps) with b := .imm 2048 }, .vlane { (⟨.a, yes, 1, 1, .imm 1, 13⟩ : VLaneOps) with ty := 14 },
   .vlane { (⟨.a, yes, 1, 1, .imm 1, 13⟩ : VLaneOps) with g := ⟨16, false⟩ }, .mand { (⟨.a, yes, 1, 1, 1⟩ : MMM) with md := 8 },
   .mand { (⟨.a, yes, 1, 1, 1⟩ : MMM) with m1 := 8 }, .mand { (⟨.a, yes, 1, 1, 1⟩ : MMM) with m2 := 8 },
   .mand { (⟨.a, yes, 1, 1, 1⟩ : MMM) with g := ⟨16, false⟩ }, .mnot { (⟨.a, yes, 1, 1⟩ : MM) with md := 8 },
   .mnot { (⟨.a, yes, 1, 1⟩ : MM) with m1 := 8 }, .mnot { (⟨.a, yes, 1, 1⟩ : MM) with g := ⟨16, false⟩ },
   .mpop { (⟨.a, yes, 1, 1⟩ : MPopOps) with sd := 64 }, .mpop { (⟨.a, yes, 1, 1⟩ : MPopOps) with m1 := 8 },
   .mpop { (⟨.a, yes, 1, 1⟩ : MPopOps) with g := ⟨16, false⟩ }] : List Instr).all (fun i => !i.wf) = true := by decide
/-- One field too wide, or one value that its table does not list (matrix). -/
theorem test_wf_refuses_matrix : ([
  .mcallMma { (⟨yes, 7, true⟩ : McallOps) with mp := 8 }, .mcallMma { (⟨yes, 7, true⟩ : McallOps) with g := ⟨16, false⟩ },
   .mpar { (⟨yes, 1, 1⟩ : MparOps) with mp := 8 }, .mpar { (⟨yes, 1, 1⟩ : MparOps) with ss := 64 },
   .mpar { (⟨yes, 1, 1⟩ : MparOps) with g := ⟨16, false⟩ }, .mlds { (⟨yes, .a, 1, 1, 127⟩ : MldsOps) with vr := 512 },
   .mlds { (⟨yes, .a, 1, 1, 127⟩ : MldsOps) with plane := 2 }, .mlds { (⟨yes, .a, 1, 1, 127⟩ : MldsOps) with row := 128 },
   .mlds { (⟨yes, .a, 1, 1, 127⟩ : MldsOps) with g := ⟨16, false⟩ }, .mplane { (⟨yes, 1, 63, 511⟩ : MplaneOps) with plane := 2 },
   .mplane { (⟨yes, 1, 63, 511⟩ : MplaneOps) with le := 64 }, .mplane { (⟨yes, 1, 63, 511⟩ : MplaneOps) with tile := 512 },
   .mplane { (⟨yes, 1, 63, 511⟩ : MplaneOps) with g := ⟨16, false⟩ }, .mrd { (⟨yes, true, .a, 1, 127, 15, true⟩ : MrwOps) with vr := 512 },
   .mrd { (⟨yes, true, .a, 1, 127, 15, true⟩ : MrwOps) with row := 128 }, .mrd { (⟨yes, true, .a, 1, 127, 15, true⟩ : MrwOps) with seg := 16 },
   .mrd { (⟨yes, true, .a, 1, 127, 15, true⟩ : MrwOps) with g := ⟨16, false⟩ }, .mclr { (⟨yes, true⟩ : MtOps) with g := ⟨16, false⟩ },
   .mfmt { (⟨yes, 15⟩ : MfmtOps) with k := 16 }, .mfmt { (⟨yes, 15⟩ : MfmtOps) with g := ⟨16, false⟩ },
   .mstat { (⟨yes, 1, 0x1F⟩ : MstatOps) with ss := 64 }, .mstat { (⟨yes, 1, 0x1F⟩ : MstatOps) with sel := 4 },
   .mstat { (⟨yes, 1, 0x1F⟩ : MstatOps) with sel := 0x0F }, .mstat { (⟨yes, 1, 0x1F⟩ : MstatOps) with sel := 0x20 },
   .mstat { (⟨yes, 1, 0x1F⟩ : MstatOps) with g := ⟨16, false⟩ }] : List Instr).all (fun i => !i.wf) = true := by decide
/-- One field too wide, or one value that its table does not list (memory). -/
theorem test_wf_refuses_memory : ([
  .lds { (⟨yes, 63, 63, ⟨true, 63⟩, ⟨true, 1⟩, ⟨true, 1⟩, ⟨true, 1⟩⟩ : LdOps) with d := 64 },
   .lds { (⟨yes, 63, 63, ⟨true, 63⟩, ⟨true, 1⟩, ⟨true, 1⟩, ⟨true, 1⟩⟩ : LdOps) with le := 64 },
   .lds { (⟨yes, 63, 63, ⟨true, 63⟩, ⟨true, 1⟩, ⟨true, 1⟩, ⟨true, 1⟩⟩ : LdOps) with c0 := ⟨true, 64⟩ },
   .lds { (⟨yes, 63, 63, ⟨true, 63⟩, ⟨true, 1⟩, ⟨true, 1⟩, ⟨true, 1⟩⟩ : LdOps) with c1 := ⟨true, 64⟩ },
   .lds { (⟨yes, 63, 63, ⟨true, 63⟩, ⟨true, 1⟩, ⟨true, 1⟩, ⟨true, 1⟩⟩ : LdOps) with c2 := ⟨true, 64⟩ },
   .lds { (⟨yes, 63, 63, ⟨true, 63⟩, ⟨true, 1⟩, ⟨true, 1⟩, ⟨true, 1⟩⟩ : LdOps) with c3 := ⟨true, 64⟩ },
   .lds { (⟨yes, 63, 63, ⟨true, 63⟩, ⟨true, 1⟩, ⟨true, 1⟩, ⟨true, 1⟩⟩ : LdOps) with g := ⟨16, false⟩ },
   .ldh { (⟨yes, 15, 63, ⟨true, 63⟩, ⟨true, 1⟩, ⟨true, 1⟩, ⟨true, 1⟩⟩ : LdOps) with d := 16 },
   .ldh { (⟨yes, 15, 63, ⟨true, 63⟩, ⟨true, 1⟩, ⟨true, 1⟩, ⟨true, 1⟩⟩ : LdOps) with g := ⟨16, false⟩ },
   .ldv { (⟨yes, 511, .b, 63, ⟨true, 63⟩, ⟨true, 1⟩, ⟨true, 1⟩, ⟨true, 1⟩⟩ : LdvOps) with d := 512 },
   .ldv { (⟨yes, 511, .b, 63, ⟨true, 63⟩, ⟨true, 1⟩, ⟨true, 1⟩, ⟨true, 1⟩⟩ : LdvOps) with le := 64 },
   .ldv { (⟨yes, 511, .b, 63, ⟨true, 63⟩, ⟨true, 1⟩, ⟨true, 1⟩, ⟨true, 1⟩⟩ : LdvOps) with c0 := ⟨true, 64⟩ },
   .ldv { (⟨yes, 511, .b, 63, ⟨true, 63⟩, ⟨true, 1⟩, ⟨true, 1⟩, ⟨true, 1⟩⟩ : LdvOps) with c1 := ⟨true, 64⟩ },
   .ldv { (⟨yes, 511, .b, 63, ⟨true, 63⟩, ⟨true, 1⟩, ⟨true, 1⟩, ⟨true, 1⟩⟩ : LdvOps) with c2 := ⟨true, 64⟩ },
   .ldv { (⟨yes, 511, .b, 63, ⟨true, 63⟩, ⟨true, 1⟩, ⟨true, 1⟩, ⟨true, 1⟩⟩ : LdvOps) with c3 := ⟨true, 64⟩ },
   .ldv { (⟨yes, 511, .b, 63, ⟨true, 63⟩, ⟨true, 1⟩, ⟨true, 1⟩, ⟨true, 1⟩⟩ : LdvOps) with g := ⟨16, false⟩ },
   .ldvg { (⟨yes, 511, .b, 63, ⟨true, 63⟩, ⟨true, 1⟩, ⟨true, 1⟩, 511⟩ : LdvgOps) with d := 512 },
   .ldvg { (⟨yes, 511, .b, 63, ⟨true, 63⟩, ⟨true, 1⟩, ⟨true, 1⟩, 511⟩ : LdvgOps) with le := 64 },
   .ldvg { (⟨yes, 511, .b, 63, ⟨true, 63⟩, ⟨true, 1⟩, ⟨true, 1⟩, 511⟩ : LdvgOps) with c0 := ⟨true, 64⟩ },
   .ldvg { (⟨yes, 511, .b, 63, ⟨true, 63⟩, ⟨true, 1⟩, ⟨true, 1⟩, 511⟩ : LdvgOps) with c1 := ⟨true, 64⟩ },
   .ldvg { (⟨yes, 511, .b, 63, ⟨true, 63⟩, ⟨true, 1⟩, ⟨true, 1⟩, 511⟩ : LdvgOps) with c2 := ⟨true, 64⟩ },
   .ldvg { (⟨yes, 511, .b, 63, ⟨true, 63⟩, ⟨true, 1⟩, ⟨true, 1⟩, 511⟩ : LdvgOps) with vx := 512 },
   .ldvg { (⟨yes, 511, .b, 63, ⟨true, 63⟩, ⟨true, 1⟩, ⟨true, 1⟩, 511⟩ : LdvgOps) with g := ⟨16, false⟩ },
   .tmov { (⟨yes, 63, 63, ⟨true, 1⟩, ⟨true, 1⟩, 63⟩ : TmovOps) with src := 64 },
   .tmov { (⟨yes, 63, 63, ⟨true, 1⟩, ⟨true, 1⟩, 63⟩ : TmovOps) with dst := 64 },
   .tmov { (⟨yes, 63, 63, ⟨true, 1⟩, ⟨true, 1⟩, 63⟩ : TmovOps) with ts := ⟨true, 64⟩ },
   .tmov { (⟨yes, 63, 63, ⟨true, 1⟩, ⟨true, 1⟩, 63⟩ : TmovOps) with td := ⟨false, 64⟩ },
   .tmov { (⟨yes, 63, 63, ⟨true, 1⟩, ⟨true, 1⟩, 63⟩ : TmovOps) with fg := 64 },
   .tmov { (⟨yes, 63, 63, ⟨true, 1⟩, ⟨true, 1⟩, 63⟩ : TmovOps) with g := ⟨16, false⟩ },
   .sts { (⟨yes, 63, 63, ⟨true, 63⟩, ⟨true, 1⟩, ⟨true, 1⟩, ⟨true, 1⟩, true, 15⟩ : StOps) with d := 64 },
   .sts { (⟨yes, 63, 63, ⟨true, 63⟩, ⟨true, 1⟩, ⟨true, 1⟩, ⟨true, 1⟩, true, 15⟩ : StOps) with le := 64 },
   .sts { (⟨yes, 63, 63, ⟨true, 63⟩, ⟨true, 1⟩, ⟨true, 1⟩, ⟨true, 1⟩, true, 15⟩ : StOps) with c0 := ⟨true, 64⟩ },
   .sts { (⟨yes, 63, 63, ⟨true, 63⟩, ⟨true, 1⟩, ⟨true, 1⟩, ⟨true, 1⟩, true, 15⟩ : StOps) with c1 := ⟨true, 64⟩ },
   .sts { (⟨yes, 63, 63, ⟨true, 63⟩, ⟨true, 1⟩, ⟨true, 1⟩, ⟨true, 1⟩, true, 15⟩ : StOps) with c2 := ⟨true, 64⟩ },
   .sts { (⟨yes, 63, 63, ⟨true, 63⟩, ⟨true, 1⟩, ⟨true, 1⟩, ⟨true, 1⟩, true, 15⟩ : StOps) with c3 := ⟨true, 64⟩ },
   .sts { (⟨yes, 63, 63, ⟨true, 63⟩, ⟨true, 1⟩, ⟨true, 1⟩, ⟨true, 1⟩, true, 15⟩ : StOps) with hidx := 16 },
   .sts { (⟨yes, 63, 63, ⟨true, 63⟩, ⟨true, 1⟩, ⟨true, 1⟩, ⟨true, 1⟩, true, 15⟩ : StOps) with g := ⟨16, false⟩ },
   .stv { (⟨yes, 511, .b, 63, ⟨true, 63⟩, ⟨true, 1⟩, ⟨true, 1⟩, ⟨true, 1⟩, true, 15⟩ : StvOps) with d := 512 },
   .stv { (⟨yes, 511, .b, 63, ⟨true, 63⟩, ⟨true, 1⟩, ⟨true, 1⟩, ⟨true, 1⟩, true, 15⟩ : StvOps) with le := 64 },
   .stv { (⟨yes, 511, .b, 63, ⟨true, 63⟩, ⟨true, 1⟩, ⟨true, 1⟩, ⟨true, 1⟩, true, 15⟩ : StvOps) with c0 := ⟨true, 64⟩ },
   .stv { (⟨yes, 511, .b, 63, ⟨true, 63⟩, ⟨true, 1⟩, ⟨true, 1⟩, ⟨true, 1⟩, true, 15⟩ : StvOps) with c1 := ⟨true, 64⟩ },
   .stv { (⟨yes, 511, .b, 63, ⟨true, 63⟩, ⟨true, 1⟩, ⟨true, 1⟩, ⟨true, 1⟩, true, 15⟩ : StvOps) with c2 := ⟨true, 64⟩ },
   .stv { (⟨yes, 511, .b, 63, ⟨true, 63⟩, ⟨true, 1⟩, ⟨true, 1⟩, ⟨true, 1⟩, true, 15⟩ : StvOps) with c3 := ⟨true, 64⟩ },
   .stv { (⟨yes, 511, .b, 63, ⟨true, 63⟩, ⟨true, 1⟩, ⟨true, 1⟩, ⟨true, 1⟩, true, 15⟩ : StvOps) with hidx := 16 },
   .stv { (⟨yes, 511, .b, 63, ⟨true, 63⟩, ⟨true, 1⟩, ⟨true, 1⟩, ⟨true, 1⟩, true, 15⟩ : StvOps) with g := ⟨16, false⟩ },
   .vred { (⟨yes, 511, .b, 63, ⟨true, 63⟩, ⟨true, 1⟩, ⟨true, 1⟩, ⟨true, 1⟩, false, 0⟩ : StvOps) with h := true },
   .vred { (⟨yes, 511, .b, 63, ⟨true, 63⟩, ⟨true, 1⟩, ⟨true, 1⟩, ⟨true, 1⟩, false, 0⟩ : StvOps) with hidx := 1 },
   .vred { (⟨yes, 511, .b, 63, ⟨true, 63⟩, ⟨true, 1⟩, ⟨true, 1⟩, ⟨true, 1⟩, false, 0⟩ : StvOps) with g := ⟨16, false⟩ },
   .stvm { (⟨yes, 511, .b, 63, ⟨true, 63⟩, ⟨true, 1⟩, ⟨true, 1⟩, 7, true, 15⟩ : StvmOps) with d := 512 },
   .stvm { (⟨yes, 511, .b, 63, ⟨true, 63⟩, ⟨true, 1⟩, ⟨true, 1⟩, 7, true, 15⟩ : StvmOps) with le := 64 },
   .stvm { (⟨yes, 511, .b, 63, ⟨true, 63⟩, ⟨true, 1⟩, ⟨true, 1⟩, 7, true, 15⟩ : StvmOps) with c0 := ⟨true, 64⟩ },
   .stvm { (⟨yes, 511, .b, 63, ⟨true, 63⟩, ⟨true, 1⟩, ⟨true, 1⟩, 7, true, 15⟩ : StvmOps) with c1 := ⟨true, 64⟩ },
   .stvm { (⟨yes, 511, .b, 63, ⟨true, 63⟩, ⟨true, 1⟩, ⟨true, 1⟩, 7, true, 15⟩ : StvmOps) with c2 := ⟨true, 64⟩ },
   .stvm { (⟨yes, 511, .b, 63, ⟨true, 63⟩, ⟨true, 1⟩, ⟨true, 1⟩, 7, true, 15⟩ : StvmOps) with msel := 8 },
   .stvm { (⟨yes, 511, .b, 63, ⟨true, 63⟩, ⟨true, 1⟩, ⟨true, 1⟩, 7, true, 15⟩ : StvmOps) with hidx := 16 },
   .stvm { (⟨yes, 511, .b, 63, ⟨true, 63⟩, ⟨true, 1⟩, ⟨true, 1⟩, 7, true, 15⟩ : StvmOps) with g := ⟨16, false⟩ },
   .aadd { (⟨yes, 63, 63, ⟨true, 63⟩, ⟨true, 1⟩, some 15, 4, true, true, 0⟩ : AtomOps) with d := 64 },
   .aadd { (⟨yes, 63, 63, ⟨true, 63⟩, ⟨true, 1⟩, some 15, 4, true, true, 0⟩ : AtomOps) with le := 64 },
   .aadd { (⟨yes, 63, 63, ⟨true, 63⟩, ⟨true, 1⟩, some 15, 4, true, true, 0⟩ : AtomOps) with c0 := ⟨true, 64⟩ },
   .aadd { (⟨yes, 63, 63, ⟨true, 63⟩, ⟨true, 1⟩, some 15, 4, true, true, 0⟩ : AtomOps) with c1 := ⟨true, 64⟩ },
   .aadd { (⟨yes, 63, 63, ⟨true, 63⟩, ⟨true, 1⟩, some 15, 4, true, true, 0⟩ : AtomOps) with hl := some 16 },
   .aadd { (⟨yes, 63, 63, ⟨true, 63⟩, ⟨true, 1⟩, some 15, 4, true, true, 0⟩ : AtomOps) with scope := 5 },
   .aadd { (⟨yes, 63, 63, ⟨true, 63⟩, ⟨true, 1⟩, some 15, 4, true, true, 0⟩ : AtomOps) with sc := 1 },
   .aadd { (⟨yes, 63, 63, ⟨true, 63⟩, ⟨true, 1⟩, some 15, 4, true, true, 0⟩ : AtomOps) with g := ⟨16, false⟩ },
   .acas { (⟨yes, 63, 63, ⟨true, 63⟩, ⟨true, 1⟩, none, 4, true, true, 63⟩ : AtomOps) with sc := 64 },
   .acas { (⟨yes, 63, 63, ⟨true, 63⟩, ⟨true, 1⟩, none, 4, true, true, 63⟩ : AtomOps) with g := ⟨16, false⟩ }] : List Instr).all (fun i => !i.wf) = true := by decide
/-- One field too wide, or one value that its table does not list (engine). -/
theorem test_wf_refuses_engine : ([
  .cjob { (⟨yes, 63, 63, 15, 63⟩ : CjobOps) with sa := 64 }, .cjob { (⟨yes, 63, 63, 15, 63⟩ : CjobOps) with le := 64 },
   .cjob { (⟨yes, 63, 63, 15, 63⟩ : CjobOps) with hl := 16 }, .cjob { (⟨yes, 63, 63, 15, 63⟩ : CjobOps) with fg := 64 },
   .cjob { (⟨yes, 63, 63, 15, 63⟩ : CjobOps) with g := ⟨16, false⟩ }, .cwait { (⟨yes, 63, 15⟩ : ChOps) with sa := 64 },
   .cwait { (⟨yes, 63, 15⟩ : ChOps) with hl := 16 }, .cwait { (⟨yes, 63, 15⟩ : ChOps) with g := ⟨16, false⟩ },
   .ckill { (⟨yes, 63⟩ : CkillOps) with sa := 64 }, .ckill { (⟨yes, 63⟩ : CkillOps) with g := ⟨16, false⟩ },
   .csend { (⟨yes, 63, 63, 63, 63, 0, 0, 4095⟩ : CfragOps) with sa := 64 },
   .csend { (⟨yes, 63, 63, 63, 63, 0, 0, 4095⟩ : CfragOps) with sb := 64 },
   .csend { (⟨yes, 63, 63, 63, 63, 0, 0, 4095⟩ : CfragOps) with le := 64 },
   .csend { (⟨yes, 63, 63, 63, 63, 0, 0, 4095⟩ : CfragOps) with fg := 64 },
   .csend { (⟨yes, 63, 63, 63, 63, 0, 0, 4095⟩ : CfragOps) with len := 4096 },
   .csend { (⟨yes, 63, 63, 63, 63, 0, 0, 4095⟩ : CfragOps) with op := 1 }, .csend { (⟨yes, 63, 63, 63, 63, 0, 0, 4095⟩ : CfragOps) with tag := 1 },
   .csend { (⟨yes, 63, 63, 63, 63, 0, 0, 4095⟩ : CfragOps) with g := ⟨16, false⟩ },
   .cred { (⟨yes, 63, 63, 63, 63, 3, 255, 4095⟩ : CfragOps) with op := 4 },
   .cred { (⟨yes, 63, 63, 63, 63, 3, 255, 4095⟩ : CfragOps) with tag := 256 },
   .cred { (⟨yes, 63, 63, 63, 63, 3, 255, 4095⟩ : CfragOps) with g := ⟨16, false⟩ },
   .cbell { (⟨yes, 63, 63, true, 0, 4095⟩ : CbellOps) with sa := 64 }, .cbell { (⟨yes, 63, 63, true, 0, 4095⟩ : CbellOps) with sb := 64 },
   .cbell { (⟨yes, 63, 63, true, 0, 4095⟩ : CbellOps) with win := 1 }, .cbell { (⟨yes, 63, 63, true, 0, 4095⟩ : CbellOps) with sqid := 4096 },
   .cbell { (⟨yes, 63, 63, true, 0, 4095⟩ : CbellOps) with g := ⟨16, false⟩ },
   .cbell { (⟨yes, 63, 63, false, 15, 4095⟩ : CbellOps) with win := 16 },
   .cbell { (⟨yes, 63, 63, false, 15, 4095⟩ : CbellOps) with g := ⟨16, false⟩ }] : List Instr).all (fun i => !i.wf) = true := by decide
/-- One field too wide, or one value that its table does not list (sync). -/
theorem test_wf_refuses_sync : ([
  .lset { (⟨yes, true, 1023, 7, .imm 63⟩ : LsetOps) with e := 1024 }, .lset { (⟨yes, true, 1023, 7, .imm 63⟩ : LsetOps) with depth := 8 },
   .lset { (⟨yes, true, 1023, 7, .imm 63⟩ : LsetOps) with cnt := .imm 64 },
   .lset { (⟨yes, true, 1023, 7, .imm 63⟩ : LsetOps) with cnt := .reg 64 },
   .lset { (⟨yes, true, 1023, 7, .imm 63⟩ : LsetOps) with g := ⟨16, false⟩ }, .lbrk { (⟨yes, 6⟩ : NumOps) with n := 0 },
   .lbrk { (⟨yes, 6⟩ : NumOps) with n := 7 }, .lbrk { (⟨yes, 6⟩ : NumOps) with g := ⟨16, false⟩ }, .phase { (⟨yes, 4⟩ : NumOps) with n := 5 },
   .phase { (⟨yes, 4⟩ : NumOps) with g := ⟨16, false⟩ }, .setf { (⟨yes, 63⟩ : NumOps) with n := 64 },
   .setf { (⟨yes, 63⟩ : NumOps) with g := ⟨16, false⟩ }, .join { (⟨yes, 255⟩ : NumOps) with n := 256 },
   .join { (⟨yes, 255⟩ : NumOps) with g := ⟨16, false⟩ }, .waitf { (⟨yes, true, 63⟩ : WaitfOps) with flag := 64 },
   .waitf { (⟨yes, true, 63⟩ : WaitfOps) with g := ⟨16, false⟩ }, .spin { (⟨yes, 63, 63, 63, 4⟩ : SpinOps) with le := 64 },
   .spin { (⟨yes, 63, 63, 63, 4⟩ : SpinOps) with sc := 64 }, .spin { (⟨yes, 63, 63, 63, 4⟩ : SpinOps) with sx := 64 },
   .spin { (⟨yes, 63, 63, 63, 4⟩ : SpinOps) with cond := 5 }, .spin { (⟨yes, 63, 63, 63, 4⟩ : SpinOps) with g := ⟨16, false⟩ },
   .take { (⟨yes, 63, 32767⟩ : TakeOps) with d := 64 }, .take { (⟨yes, 63, 32767⟩ : TakeOps) with chunk := 0 },
   .take { (⟨yes, 63, 32767⟩ : TakeOps) with chunk := 32768 }, .take { (⟨yes, 63, 32767⟩ : TakeOps) with g := ⟨16, false⟩ }] : List Instr).all (fun i => !i.wf) = true := by decide
/-- One field too wide, or one value that its table does not list (pilot). -/
theorem test_wf_refuses_pilot : ([
  .emptyBundle { (⟨15, false, false⟩ : EmptyOps) with erun := 16 }, .pilotAdd { (⟨7, 7, 7⟩ : PR) with d := 8 },
   .pilotAdd { (⟨7, 7, 7⟩ : PR) with a := 8 }, .pilotAdd { (⟨7, 7, 7⟩ : PR) with b := 8 }, .pilotShl { (⟨7, 7, 63⟩ : PI) with d := 8 },
   .pilotShl { (⟨7, 7, 63⟩ : PI) with a := 8 }, .pilotShl { (⟨7, 7, 63⟩ : PI) with imm := 64 },
   .pilotAddi { (⟨7, 7, 1048575⟩ : PI) with imm := 1048576 }, .pilotLi { (⟨7, 1048575⟩ : PLi) with d := 8 },
   .pilotLi { (⟨7, 1048575⟩ : PLi) with imm := 1048576 }, .ldm { (⟨7, 7, 3, 3, 1023⟩ : PM) with d := 8 },
   .ldm { (⟨7, 7, 3, 3, 1023⟩ : PM) with a := 8 }, .ldm { (⟨7, 7, 3, 3, 1023⟩ : PM) with w := 4 }, .ldm { (⟨7, 7, 3, 3, 1023⟩ : PM) with sp := 4 },
   .ldm { (⟨7, 7, 3, 3, 1023⟩ : PM) with off := 1024 }, .beq { (⟨7, 7, 1048575⟩ : PB) with a := 8 }, .beq { (⟨7, 7, 1048575⟩ : PB) with b := 8 },
   .beq { (⟨7, 7, 1048575⟩ : PB) with off := 1048576 }, .loop { (⟨63, 1048575⟩ : PL) with n := 64 },
   .loop { (⟨63, 1048575⟩ : PL) with len := 1048576 }, .emitBell { (⟨7, 7, 4095⟩ : PBell) with a := 8 },
   .emitBell { (⟨7, 7, 4095⟩ : PBell) with b := 8 }, .emitBell { (⟨7, 7, 4095⟩ : PBell) with sqid := 4096 }] : List Instr).all (fun i => !i.wf) = true := by decide
/-- Events that name an agent that does not exist, or a value out of range. -/
theorem test_wf_refuses_events : ([
  .endStrand ⟨16, false⟩, .ret ⟨16, false⟩, .resultLand 512, .clockStep 8, .release 8 0, .sliceWindow 0 2, .shrinkAdjust 0 2 0 0,
   .shrinkAdjust 0 0 256 0, .windowArrival 0 64, .retransmitTimeout 0 1024 0, .retransmitTimeout 0 0 16, .resyncTransaction 0 0 0 64,
   .resyncTransaction 0 0 16 0, .linkFailure 24, .linkTraining 24 true, .evictRegions 8 0, .restore 0 8 0, .invalidate 0 1024 0 0 true,
   .candidacy 0 8, .packageNumber 128, .getVersion ⟨12, 0, 0, .mctp⟩, .sessionHeartbeatLapse 12 0, .lock ⟨8, 0, 0, 0, 0, 0⟩, .lock ⟨0, 0, 0, 65535, 0, 0⟩, .start ⟨0, 1024, 0⟩,
   .restoreService ⟨0, 0, 0⟩ 0 8 [], .bell ⟨0, 0, 4096, 0, 0, 0, true, true⟩, .pilotEntry 0 16, .emitLaunch 8, .drop 256, .setPowerLimit 1999,
   .setPowerLimit 6001, .thermalStep 8 0, .imageLoad 8 0 ending, .railOutsideTolerance 16, .retiredPageMove 8 0 0] : List Instr).all (fun i => !i.wf) = true := by decide

/-! ## Witnesses: traps, encodings and the invariant -/

/-- A state in which strand 1, on core 1, serves the fault ring of context 0 in its slot 255. -/
def delegated : State :=
  let s := (core0.modStrand 1 (fun _ => { wordStrand with num := 1, place := some 4, home := some 4, st := .ready })).modCtx 0 0 (fun c =>
    { c with deleg := ⟨some ⟨BitVec.ofNat 32 (2 ^ 32 - 1), 0, 1, 63, 0⟩, 255⟩ })
  s.modDie 0 (fun d => { d with tlb := [⟨0, 0, 2 ^ 21, 0xF, 2⟩] })
/-- TrapEntry: a HAIL, which may not be delegated, and a TRAP, which may. -/
theorem wit_trap :
    ((core0.strand 0).ending = false ∧ (Cause.delegable false .hail) = false) ∧
    ((Cause.delegable false .softwareTrap) = true ∧ delegated.faultSlot 0 (Cause.code .softwareTrap) = some (1, 63, 32640) ∧ 63 < 64 ∧
      (delegated.strand 1).st ≠ .saved) := by decide
/-- EncodingRoundTrip. -/
theorem wit_roundTrip :
    (slotOf (.add ⟨yes, 63, 1, 2⟩) = some .s ∧ (Instr.add ⟨yes, 63, 1, 2⟩).wf = true) ∧
    (isPilot (.pilotAdd ⟨7, 1, 2⟩) = true ∧ (Instr.pilotAdd ⟨7, 1, 2⟩).wf = true) ∧ (EmptyOps.mk 15 true true).wf = true := by decide
/-- StepKeepsMemory: memory that lists nothing, and a step. -/
theorem wit_stepKeeps : memWf core0.mem = true ∧ nextIs (step core0) (fun _ => true) = true := by decide

/-! ## Single steps -/

/-- The words of a bundle with one S syllable: the second word of the header is its low word (R47, R48). -/
def sBundle (syl : Nat) : Nat := 0x80 * 2 ^ 24 + 2 * 2 ^ 16 + 2 ^ 32 * syl
/-- An ADDI of 7 to s0 (R152), on its way to s5 for the next cycle. -/
theorem test_step_addi :
    nextIs (step (State.reset.withFetchWord 96 (sBundle (3 * 2 ^ 56 + 5 * 2 ^ 45 + 2 ^ 32 + 7)))) (fun t =>
      decide ((t.strand 0).inflight.map (fun e => (e.dest, e.rem, e.data)) = [(.sreg 5, 1, 7)])) = true := by decide
/-- A word that no slot assigns raises ILLEGAL_OP and moves the strand to SAVING (R51, R355). -/
theorem test_step_illegal :
    nextIs (step (State.reset.withFetchWord 96 (sBundle (0xFF * 2 ^ 56)))) (fun t => decide ((t.strand 0).st = .saving) && (t.strand 0).cause == 2) =
      true := by decide
/-- A pilot LI (R403). -/
theorem test_step_pilotLi :
    nextIs (step (State.reset.withFetchWord 32 0x31800007)) (fun t => (storeGet Lane.reset (t.die 0).lanes 0).r 3 == 7) = true := by decide

end Sys2Proof.Tests
end

section
/-! PROOF. Memory stays in canonical form (`memWf`) through every step (O60), and the state after reset is as the spec gives it (O57).

All writes of memory go through the operations of Laws/ that keep the canonical form (`State.poke_memWf`, `State.homeWrite_memWf`,
`State.deliver_memWf` and so on). Here each further function of the machine gets one lemma, in the order of the model's files: `f_mem` when
it leaves memory alone, `f_memWf` when it may write it. Each is proved from the lemmas of the functions that it calls, through the case split
of its own definition. Above them stand the operations (`Op.run_nextWf`), the meanings of all instructions and events (`exec_keepsMemWf`),
and the sequencer, for every meaning that keeps the form (`State.turn_nextWf`). -/
namespace Sys2Proof.Machine

/-! ## Loops and branches -/

/-- A loop whose every pass leaves memory alone leaves it alone, whatever it carries with the state. -/
theorem foldl_mem_of {α β : Type} (st : β → State) (f : β → α → β) (hf : ∀ b a, (st (f b a)).mem = (st b).mem) (l : List α) (b : β) :
    (st (l.foldl f b)).mem = (st b).mem := by
  induction l generalizing b with
  | nil => rfl
  | cons a r ih => exact (ih (f b a)).trans (hf b a)

/-- The same of a loop that carries the state alone. -/
theorem foldl_mem {α : Type} (f : State → α → State) (hf : ∀ s a, (f s a).mem = s.mem) (l : List α) (s : State) :
    (l.foldl f s).mem = s.mem := foldl_mem_of id f hf l s

/-- A loop whose every pass keeps the canonical form keeps it, whatever it carries with the state. -/
theorem foldl_memWf_of {α β : Type} (st : β → State) (f : β → α → β)
    (hf : ∀ b a, memWf (st b).mem = true → memWf (st (f b a)).mem = true) (l : List α) (b : β) (h : memWf (st b).mem = true) :
    memWf (st (l.foldl f b)).mem = true := by
  induction l generalizing b with
  | nil => exact h
  | cons a r ih => exact ih _ (hf b a h)

/-- The same of a loop that carries the state alone. -/
theorem foldl_memWf {α : Type} (f : State → α → State) (hf : ∀ s a, memWf s.mem = true → memWf (f s a).mem = true) (l : List α) (s : State)
    (h : memWf s.mem = true) : memWf (l.foldl f s).mem = true := foldl_memWf_of id f hf l s h

/-- Either branch keeps the canonical form, whatever the condition is. -/
theorem memWf_ite {c : Prop} [Decidable c] {s t : State} (hs : memWf s.mem = true) (ht : memWf t.mem = true) :
    memWf (if c then s else t).mem = true := by
  split
  · exact hs
  · exact ht

/-! ## What leaves memory alone -/

/-! ### Memory: what leaves memory alone -/

@[simp] theorem State.publishUnits_mem (s : State) (wid : Nat) (us : List Nat) : (s.publishUnits wid us).mem = s.mem := rfl

/-! ### Access: what leaves memory alone -/

@[simp] theorem State.setStrand_mem (s : State) (k : Nat) (t : Strand) : (s.setStrand k t).mem = s.mem := rfl
@[simp] theorem State.modStrand_mem (s : State) (k : Nat) (f : Strand → Strand) : (s.modStrand k f).mem = s.mem := rfl
@[simp] theorem State.modCore_mem (s : State) (c : Nat) (f : CoreSt → CoreSt) : (s.modCore c f).mem = s.mem := rfl
@[simp] theorem State.modDie_mem (s : State) (d : Nat) (f : Die → Die) : (s.modDie d f).mem = s.mem := rfl
@[simp] theorem State.modCtx_mem (s : State) (d t : Nat) (f : Ctx → Ctx) : (s.modCtx d t f).mem = s.mem := rfl
@[simp] theorem State.modLaunch_mem (s : State) (l : Nat) (f : Launch → Launch) : (s.modLaunch l f).mem = s.mem := rfl
@[simp] theorem State.fresh_mem (s : State) : (s.fresh).2.mem = s.mem := rfl
@[simp] theorem State.report_mem (s : State) (r : Report) : (s.report r).mem = s.mem := rfl
@[simp] theorem State.jam_mem (s : State) (f : Fault) : (s.jam f).mem = s.mem := rfl
@[simp] theorem State.onMe_mem (s : State) (f : Strand → Strand) : (s.onMe f).mem = s.mem := by
  grind [State.onMe, State.modStrand_mem]

/-! ### Translate: what leaves memory alone -/

@[simp] theorem State.partDrop_mem (s : State) (point : Option Nat) (die tcid : Nat) : (s.partDrop point die tcid).mem = s.mem := by
  cases point <;> rfl
@[simp] theorem State.modWin_mem (s : State) (die tcid n : Nat) (f : Win → Win) : (s.modWin die tcid n f).mem = s.mem := rfl

/-! ### Ops: what leaves memory alone -/

@[simp] theorem State.charge_mem (s : State) (die tcid cls n : Nat) : (s.charge die tcid cls n).mem = s.mem := by
  grind [State.charge, State.modDie_mem, State.modCtx_mem]
@[simp] theorem State.chargeOf_mem (s : State) (t : Strand) (cls n : Nat) : (s.chargeOf t cls n).mem = s.mem := by
  grind [State.chargeOf, State.charge_mem]
@[simp] theorem State.pushIn_mem (s : State) (e : InFlight) : (s.pushIn e).mem = s.mem := by
  grind [State.pushIn, State.onMe_mem]
@[simp] theorem State.land_mem (s : State) (d : Dest) (l : Nat) (v : Vec) (slot : Slot) : (s.land d l v slot).mem = s.mem := by
  grind [State.land, State.pushIn_mem]
@[simp] theorem State.landWord_mem (s : State) (d : Dest) (l : Nat) (v : Word) (slot : Slot) : (s.landWord d l v slot).mem = s.mem := by
  grind [State.landWord, State.land_mem]
@[simp] theorem State.landBit_mem (s : State) (d : Dest) (l : Nat) (b : Bool) (slot : Slot) : (s.landBit d l b slot).mem = s.mem := by
  grind [State.landBit, State.land_mem]
@[simp] theorem State.keepBytes_mem (s : State) (k : Nat) (as_ : List Nat) : (s.keepBytes k as_).mem = s.mem := rfl
@[simp] theorem State.tick_mem (s : State) (k : Nat) (run : Bool) : (s.tick k run).mem = s.mem := by
  grind [State.tick, State.modStrand_mem, foldl_mem]

/-! ### Control: what leaves memory alone -/

@[simp] theorem State.settlePos_mem (s : State) (k : Nat) : (s.settlePos k).mem = s.mem := rfl

/-! ### Arrival: what leaves memory alone -/

@[simp] theorem State.gangTidy_mem (s : State) (die : Nat) : (s.gangTidy die).mem = s.mem := rfl
@[simp] theorem State.gangArrive_mem (s : State) (die gid : Nat) : (s.gangArrive die gid).mem = s.mem := by
  grind [State.gangArrive, State.modDie_mem, State.gangTidy_mem]
@[simp] theorem State.queueHandler_mem (s : State) (k entry : Nat) (wids : List WKey) : (s.queueHandler k entry wids).mem = s.mem := rfl
theorem State.handlerArrive_mem (s : State) (die tcid hidx : Nat) (wids : List WKey) {s' : State} (e : s.handlerArrive die tcid hidx wids = some s') :
    s'.mem = s.mem := by
  grind [State.handlerArrive, State.modCtx_mem, State.queueHandler_mem]
@[simp] theorem State.portRetry_mem (s : State) : (s.portRetry).mem = s.mem := by
  grind [State.portRetry, State.handlerArrive_mem, foldl_mem]

/-! ### Requests: what leaves memory alone -/

@[simp] theorem State.chargeHomes_mem (s : State) (die tcid : Nat) (addrs : List Nat) : (s.chargeHomes die tcid addrs).mem = s.mem := by
  grind [State.chargeHomes, State.charge_mem]
@[simp] theorem State.chargeAway_mem (s : State) (die tcid n : Nat) : (s.chargeAway die tcid n).mem = s.mem := by
  grind [State.chargeAway, State.charge_mem]
@[simp] theorem State.keepAway_mem (s : State) (k : Nat) (r : Req) (els : List El) (lost : Bool) : (s.keepAway k r els lost).mem = s.mem := rfl
@[simp] theorem State.loadData_mem (s : State) (k : Nat) (r : Req) : (s.loadData k r).2.mem = s.mem := rfl
@[simp] theorem State.renew_mem (s : State) (k : Nat) : (s.renew k).mem = s.mem := rfl
@[simp] theorem State.writeComp_mem (s : State) (k scope : Nat) : (s.writeComp k scope).mem = s.mem := by
  grind [State.writeComp, State.modWin_mem, foldl_mem]
@[simp] theorem State.phaseDone_mem (s : State) (k scope bound tbun : Nat) : (s.phaseDone k scope bound tbun).mem = s.mem := by
  grind [State.phaseDone, State.publish_mem, State.modStrand_mem, State.renew_mem, State.writeComp_mem]
@[simp] theorem State.atomReturn_mem (s : State) (k : Nat) (r : Req) (v : Vec) : (s.atomReturn k r v).mem = s.mem := by
  grind [State.atomReturn, State.modStrand_mem, State.renew_mem]
@[simp] theorem State.chargeSend_mem (s : State) (die tcid win n : Nat) : (s.chargeSend die tcid win n).mem = s.mem := by
  grind [State.chargeSend, State.charge_mem]
@[simp] theorem State.postXact_mem (s : State) (die tcid win sid rid core : Nat) (kind : ReqKind) (els : List El) (gang : Nat) (hnd : Option Nat)
    (units : Nat) :
    (s.postXact die tcid win sid rid core kind els gang hnd units).2.mem = s.mem := rfl
@[simp] theorem State.keepMember_mem (s : State) (x : Xact) (m : Nat) (lost : Bool) : (s.keepMember x m lost).mem = s.mem := by
  grind [State.keepMember, State.modStrand_mem]
@[simp] theorem State.sendXact_mem (s : State) (k : Nat) (r : Req) : (s.sendXact k r).mem = s.mem := by
  grind [State.sendXact, State.publish_mem, State.modStrand_mem, State.chargeSend_mem, State.postXact_mem, State.keepMember_mem, foldl_mem]
@[simp] theorem State.noteLost_mem (s : State) (x : Xact) (m : Nat) : (s.noteLost x m).mem = s.mem := by
  grind [State.noteLost, State.modStrand_mem]
@[simp] theorem State.settleXact_mem (s : State) (xid : Nat) : (s.settleXact xid).mem = s.mem := by
  grind [State.settleXact, State.modStrand_mem, State.renew_mem, State.keepMember_mem, foldl_mem]
@[simp] theorem State.loseFill_mem (s : State) (k : Nat) (r : Req) : (s.loseFill k r).mem = s.mem := rfl
@[simp] theorem State.writeFlt_mem (s : State) (die tcid win : Nat) (c : Cause) (v : Word) : (s.writeFlt die tcid win c v).mem = s.mem := by
  grind [State.writeFlt, State.modWin_mem]
@[simp] theorem State.replay_mem (s : State) (k : Nat) : (s.replay k).mem = s.mem := by
  grind [State.replay, State.modStrand_mem, State.modWin_mem, foldl_mem]

/-! ### MemAccess: what leaves memory alone -/

@[simp] theorem State.addReq_mem (s : State) (k : Nat) (f : Nat → Req) : (s.addReq k f).mem = s.mem := rfl
@[simp] theorem State.addMyReq_mem (s : State) (f : Nat → Req) : (s.addMyReq f).mem = s.mem := by
  grind [State.addMyReq, State.addReq_mem]
@[simp] theorem State.bufferStore_mem (s : State) (k : Nat) (m : MemChk) (es : List Datum) (bytewise h : Bool) (hidx : Nat) :
    (s.bufferStore k m es bytewise h hidx).mem = s.mem := rfl
@[simp] theorem storeEff_mem (m : MemChk) (es : List Datum) (h : Bool) (hidx : Nat) (s : State) : (storeEff m es h hidx s).mem = s.mem := by
  grind [storeEff, State.pushIn_mem, State.bufferStore_mem]
@[simp] theorem State.chargeMoves_mem (s : State) (t : Strand) (ms : List (Nat × Nat)) : (s.chargeMoves t ms).mem = s.mem := by
  grind [State.chargeMoves, State.chargeHomes_mem]

/-! ### Engine: what leaves memory alone -/

@[simp] theorem State.queueCe_mem (s : State) (op : CeOp) : (s.queueCe op).mem = s.mem := by
  grind [State.queueCe, State.modStrand_mem, State.modCore_mem, State.fresh_mem]
@[simp] theorem State.modJob_mem (s : State) (jid : Nat) (f : Job → Job) : (s.modJob jid f).mem = s.mem := rfl
@[simp] theorem State.engineDone_mem (s : State) (k id : Nat) : (s.engineDone k id).mem = s.mem := rfl
@[simp] theorem State.modSlice_mem (s : State) (x : Nat × Nat) (f : Slice → Slice) : (s.modSlice x f).mem = s.mem := rfl
@[simp] theorem State.takeTokens_mem (s : State) (x : Nat × Nat) (tenant n : Nat) : (s.takeTokens x tenant n).mem = s.mem := rfl
@[simp] theorem State.countReads_mem (s : State) (x : Nat × Nat) (tenant n : Nat) : (s.countReads x tenant n).mem = s.mem := rfl
theorem State.jobPost_mem (s : State) (jid : Nat) (j : Job) (p : Nat) (r : Region) {s' : State} (e : s.jobPost jid j p r = .ok s') :
    s'.mem = s.mem := by
  grind [State.jobPost, State.chargeSend_mem, State.postXact_mem]
theorem State.admitUnit_mem (s : State) (tenant u : Nat) (read : Bool) {s' : State} (e : s.admitUnit tenant u read = some s') : s'.mem = s.mem := by
  grind [State.admitUnit, State.takeTokens_mem, State.countReads_mem]
@[simp] theorem State.chargeServed_mem (s : State) (die tcid : Nat) (addrs : List Nat) : (s.chargeServed die tcid addrs).mem = s.mem := by
  grind [State.chargeServed, State.charge_mem]
@[simp] theorem State.chargeUnit_mem (s : State) (j : Job) (p : Nat) (x : Nat × Bool) : (s.chargeUnit j p x).mem = s.mem := by
  grind [State.chargeUnit, State.chargeHomes_mem, State.chargeServed_mem]
@[simp] theorem State.chargeBlockAway_mem (s : State) (j : Job) (p : Nat) : (s.chargeBlockAway j p).mem = s.mem := by
  grind [State.chargeBlockAway, State.chargeAway_mem]
theorem State.payBlock_mem (s : State) (jid : Nat) (j : Job) (p : Nat) : (s.payBlock jid j p).2.mem = s.mem := by
  unfold State.payBlock
  refine foldl_mem_of (fun r : Bool × State => r.2) _ (fun r x => ?_) _ _
  split
  · next t e => simpa using State.admitUnit_mem _ _ _ _ e
  · simp
@[simp] theorem State.jobDemands_mem (s : State) (die : Nat) : (s.jobDemands die).mem = s.mem := by
  grind [State.jobDemands, State.takeTokens_mem, foldl_mem]
@[simp] theorem State.startSegment_mem (s : State) (jid : Nat) (j : Job) : (s.startSegment jid j).mem = s.mem := rfl
@[simp] theorem State.takeSegments_mem (die n : Nat) (s : State) : (State.takeSegments die n s).mem = s.mem := by
  induction n generalizing s with
  | zero => rfl
  | succ n ih => grind [State.takeSegments, State.startSegment_mem]
@[simp] theorem State.jobHave_mem (s : State) (jid : Nat) (j : Job) (p : Nat) (us : List (Nat × Nat)) : (s.jobHave jid j p us).mem = s.mem := by
  grind [State.jobHave, State.charge_mem, State.modJob_mem, State.chargeBlockAway_mem]
@[simp] theorem State.admitUnits_mem (s : State) (tenant : Nat) (us : List Nat) (n : Nat) : (s.admitUnits tenant us n).2.mem = s.mem := by
  induction us generalizing s n with
  | nil => rfl
  | cons u r ih => grind [State.admitUnits, State.takeTokens_mem, State.admitUnit_mem]

/-! ### Matrix: what leaves memory alone -/

@[simp] theorem State.mxError_mem (s : State) (k : Nat) (o : MOp) (es : List (Option Nat)) : (s.mxError k o es).mem = s.mem := by
  grind [State.mxError, State.modStrand_mem]
@[simp] theorem State.mxAccess_mem (s : State) (k : Nat) (es : List (Lay × C4)) : (s.mxAccess k es).mem = s.mem := by
  grind [State.mxAccess, State.chargeOf_mem]
@[simp] theorem loadB_mem (s : State) (k : Nat) (o : MOp) (q n : Nat) : (loadB s k o q n).mem = s.mem := by
  grind [loadB, State.modStrand_mem, State.mxError_mem, State.mxAccess_mem]
@[simp] theorem feedB_mem (s : State) (k : Nat) (o : MOp) : (feedB s k o).mem = s.mem := by
  grind [feedB, State.modStrand_mem, loadB_mem]
@[simp] theorem enterRows_mem (s : State) (k : Nat) (o : MOp) : (enterRows s k o).mem = s.mem := by
  grind [enterRows, State.modStrand_mem, State.mxError_mem, State.mxAccess_mem, foldl_mem]
@[simp] theorem planeAll_mem (s : State) (k : Nat) (o : MOp) (plane tile : Nat) : (planeAll s k o plane tile).mem = s.mem := by
  grind [planeAll, State.modStrand_mem, State.mxError_mem, State.mxAccess_mem]
@[simp] theorem mxFinish_mem (s : State) (k : Nat) (o : MOp) : (mxFinish s k o).mem = s.mem := by
  grind [mxFinish, State.modStrand_mem, planeAll_mem]
@[simp] theorem State.mxStarts_mem (s : State) (k : Nat) : (s.mxStarts k).mem = s.mem := rfl
@[simp] theorem State.mxEnds_mem (s : State) (k : Nat) : (s.mxEnds k).mem = s.mem := by
  grind [State.mxEnds, State.modStrand_mem, mxFinish_mem, foldl_mem]
@[simp] theorem State.mxQueue_mem (s : State) (kind : MKind) (tile mp : Nat) (par : List Word) (fmt : BitVec 32) (opnds : List (List Word)) :
    (s.mxQueue kind tile mp par fmt opnds).mem = s.mem := by
  grind [State.mxQueue, State.modDie_mem, State.fresh_mem, State.onMe_mem]

/-! ### Sync: what leaves memory alone -/

@[simp] theorem State.phaseOp_mem (s : State) (scope : Nat) : (s.phaseOp scope).mem = s.mem := by
  grind [State.phaseOp, State.modStrand_mem, State.phaseDone_mem]
@[simp] theorem State.spinMiss_mem (s : State) (o : SpinOps) : (s.spinMiss o).mem = s.mem := by
  grind [State.spinMiss, State.onMe_mem]
@[simp] theorem State.spinEnd_mem (s : State) (o : SpinOps) : (s.spinEnd o).mem = s.mem := by
  grind [State.spinEnd, State.onMe_mem]
@[simp] theorem State.spinHit_mem (s : State) : (s.spinHit).mem = s.mem := by
  grind [State.spinHit, State.modStrand_mem, State.renew_mem]
@[simp] theorem State.spinTimeout_mem (s : State) (k : Nat) : (s.spinTimeout k).mem = s.mem := by
  grind [State.spinTimeout, State.modStrand_mem]
@[simp] theorem State.setCrew_mem (s : State) (die tcid c : Nat) (x : Crew) : (s.setCrew die tcid c x).mem = s.mem := rfl
@[simp] theorem State.sendMsg_mem (s : State) (m : Steal) : (s.sendMsg m).mem = s.mem := rfl
@[simp] theorem State.sendSteal_mem (s : State) (k : Nat) : (s.sendSteal k).mem = s.mem := rfl
@[simp] theorem State.forwardFrom_mem (s : State) (k req : Nat) : (s.forwardFrom k req).mem = s.mem := rfl
@[simp] theorem State.takeOp_mem (s : State) (d chunk : Nat) : (s.takeOp d chunk).mem = s.mem := by
  grind [State.takeOp, State.modStrand_mem, State.landWord_mem, State.sendMsg_mem, State.sendSteal_mem, State.forwardFrom_mem]
@[simp] theorem State.dropSlot_mem (s : State) (k : Nat) : (s.dropSlot k).mem = s.mem := by
  grind [State.dropSlot, State.modStrand_mem, State.forwardFrom_mem]

/-! ### Sequencer: what leaves memory alone -/

@[simp] theorem State.readCards_mem (s : State) (k : Nat) : (s.readCards k).mem = s.mem := by
  grind [State.readCards, State.modStrand_mem, State.chargeOf_mem]
@[simp] theorem State.countCycle_mem (s : State) (k : Nat) (run : Bool) : (s.countCycle k run).mem = s.mem := by
  grind [State.countCycle, State.modStrand_mem, State.modCore_mem, State.chargeOf_mem, State.readCards_mem]
@[simp] theorem State.bankCycle_mem (s : State) (k : Nat) : (s.bankCycle k).mem = s.mem := rfl
@[simp] theorem State.stopTest_mem (s : State) (k : Nat) : (s.stopTest k).mem = s.mem := by
  grind [State.stopTest, State.modStrand_mem, State.dropSlot_mem]
@[simp] theorem State.settle_mem (s : State) (k : Nat) : (s.settle k).mem = s.mem := by
  grind [State.settle, State.modStrand_mem, State.stopTest_mem]
@[simp] theorem State.dropHandlers_mem (s : State) (k : Nat) : (s.dropHandlers k).mem = s.mem := rfl
@[simp] theorem State.toCheckpoint_mem (s : State) (k : Nat) : (s.toCheckpoint k).mem = s.mem := rfl
@[simp] theorem State.takeHandler_mem (s : State) (k : Nat) : (s.takeHandler k).mem = s.mem := by
  grind [State.takeHandler, State.modStrand_mem, State.portRetry_mem]
@[simp] theorem State.selectFrame_mem (s : State) (c : Nat) (f : Nat × Nat) : (s.selectFrame c f).mem = s.mem := by
  grind [State.selectFrame, State.modStrand_mem, State.modCore_mem, State.takeHandler_mem]
@[simp] theorem State.select_mem (s : State) (c : Nat) : (s.select c).mem = s.mem := by
  grind [State.select, State.selectFrame_mem]
@[simp] theorem State.countBundle_mem (s : State) (k : Nat) (b : Bundle) : (s.countBundle k b).mem = s.mem := by
  grind [State.countBundle, State.countReads_mem, foldl_mem]
@[simp] theorem State.spinCost_mem (s : State) (k : Nat) (o : SpinOps) : (s.spinCost k o).mem = s.mem := by
  grind [State.spinCost, State.chargeOf_mem, State.chargeHomes_mem]
@[simp] theorem State.spinToken_mem (s : State) (k : Nat) (o : SpinOps) : (s.spinToken k o).2.mem = s.mem := by
  unfold State.spinToken
  refine foldl_mem_of (fun r : Bool × State => r.2) _ (fun r y => ?_) _ _
  split
  · simp
  · simp
@[simp] theorem State.payTokens_mem (s : State) (k : Nat) (toks : List ((Nat × Nat) × Nat)) : (s.payTokens k toks).2.mem = s.mem := by
  unfold State.payTokens
  exact foldl_mem_of (fun r : Bool × State => r.2) _ (fun r y => by simp) _ _
@[simp] theorem State.nameBundle_mem (s : State) (k : Nat) (b : Bundle) : (s.nameBundle k b).mem = s.mem := rfl
@[simp] theorem State.header_mem (s : State) (k erun : Nat) : (s.header k erun).mem = s.mem := rfl
@[simp] theorem State.emptyBundle_mem (s : State) (o : EmptyOps) : (s.emptyBundle o).mem = s.mem := by
  grind [State.emptyBundle, State.stopTest_mem, State.header_mem]
@[simp] theorem State.chargeBundle_mem (s : State) (k : Nat) (b : Bundle) (banks : Nat) : (s.chargeBundle k b banks).mem = s.mem := by
  grind [State.chargeBundle, State.chargeOf_mem]
@[simp] theorem State.stalled_mem (s : State) (k : Nat) (b : Bundle) : (s.stalled k b).mem = s.mem := by
  grind [State.stalled, State.spinMiss_mem, State.spinEnd_mem, State.settle_mem, State.spinCost_mem, State.spinToken_mem]
@[simp] theorem State.mxOpStart_mem (s : State) (c : Nat) : (s.mxOpStart c).mem = s.mem := by
  grind [State.mxOpStart, State.mxStarts_mem]
@[simp] theorem State.mxCommitDue_mem (s : State) (c : Nat) : (s.mxCommitDue c).mem = s.mem := by
  grind [State.mxCommitDue, State.modStrand_mem]
@[simp] theorem State.accError_mem (s : State) (c : Nat) (a : Nat × Nat × Nat) : (s.accError c a).mem = s.mem := by
  grind [State.accError, State.modStrand_mem, State.report_mem]
@[simp] theorem State.mxOpEnd_mem (s : State) (c : Nat) : (s.mxOpEnd c).mem = s.mem := by
  grind [State.mxOpEnd, State.mxEnds_mem]

/-! ### Launch: what leaves memory alone -/

@[simp] theorem State.placeAt_mem (s : State) (k c : Nat) : (s.placeAt k c).mem = s.mem := rfl
theorem State.placeOne_mem (s : State) (die : Nat) (cl : Option Nat) (k : Nat) {t : State} (e : s.placeOne die cl k = some t) : t.mem = s.mem := by
  obtain ⟨c, -, rfl⟩ := Option.map_eq_some_iff.mp e
  rfl
theorem State.placeAll_mem (die : Nat) (ks : List Nat) (asg : List (Nat × Nat)) (s : State) {t : State} (e : State.placeAll die ks asg s = some t) :
    t.mem = s.mem := by
  induction ks generalizing asg s with
  | nil => cases e; rfl
  | cons k r ih =>
    have one (cl : Option Nat) (asg' : List (Nat × Nat)) (h : (s.placeOne die cl k).bind (State.placeAll die r asg') = some t) : t.mem = s.mem := by
      obtain ⟨u, hu, ht⟩ := Option.bind_eq_some_iff.mp h
      exact (ih asg' u ht).trans (s.placeOne_mem die cl k hu)
    grind [State.placeAll]
@[simp] theorem State.modShare_mem (s : State) (die lid : Nat) (f : Share → Share) : (s.modShare die lid f).mem = s.mem := rfl
@[simp] theorem State.freeCore_mem (s : State) (k : Nat) : (s.freeCore k).mem = s.mem := by
  grind [State.freeCore, State.modStrand_mem, State.modCore_mem]
@[simp] theorem State.dropSteals_mem (s : State) (k : Nat) : (s.dropSteals k).mem = s.mem := rfl
@[simp] theorem State.giveUp_mem (s : State) (k : Nat) : (s.giveUp k).mem = s.mem := by
  grind [State.giveUp, State.modWin_mem, foldl_mem]
@[simp] theorem State.shareBack_mem (s : State) (die lid : Nat) : (s.shareBack die lid).mem = s.mem := by
  grind [State.shareBack, State.modDie_mem]
@[simp] theorem State.shareHere_mem (s : State) (die lid : Nat) : (s.shareHere die lid).mem = s.mem := by
  grind [State.shareHere, State.modDie_mem, State.modLaunch_mem, State.modShare_mem]
theorem State.loadRows_mem (s : State) (c tcid image : Nat) {s' : State} (e : s.loadRows c tcid image = some s') : s'.mem = s.mem := by
  grind [State.loadRows, State.modCore_mem]
@[simp] theorem State.release_mem (s : State) (die lid : Nat) : (s.release die lid).mem = s.mem := by
  unfold State.release
  dsimp only
  split
  · rfl
  · split
    · refine (State.modShare_mem _ _ _ _).trans (foldl_mem _ (fun _ _ => ?_) _ _)
      rfl
    · rfl
@[simp] theorem State.endPhase_mem (s : State) (k : Nat) : (s.endPhase k).mem = s.mem := by
  grind [State.endPhase, State.modStrand_mem, State.phaseDone_mem]
/-! ### Traps: what leaves memory alone -/

@[simp] theorem State.captured_mem (s : State) (core : Nat) : (s.captured core).mem = s.mem := rfl
@[simp] theorem State.takeFills_mem (s : State) (k : Nat) : (s.takeFills k).mem = s.mem := by
  grind [State.takeFills, State.modStrand_mem, State.atomReturn_mem, State.loseFill_mem, foldl_mem]
@[simp] theorem State.leaveFrame_mem (s : State) (k : Nat) : (s.leaveFrame k).mem = s.mem := by
  grind [State.leaveFrame, State.modStrand_mem, State.modCore_mem, State.freeCore_mem]

/-! ### Sched: what leaves memory alone -/

@[simp] theorem State.switchRequest_mem (s : State) (c : Nat) (p : Strand → List Nat → Bool) : (s.switchRequest c p).mem = s.mem := by
  grind [State.switchRequest, State.modStrand_mem]
@[simp] theorem State.tokenGain_mem (s : State) (die : Nat) : (s.tokenGain die).mem = s.mem := by
  grind [State.tokenGain, State.modDie_mem]
@[simp] theorem State.boostDecay_mem (s : State) (die : Nat) : (s.boostDecay die).mem = s.mem := by
  grind [State.boostDecay, State.modDie_mem, State.gangTidy_mem]
@[simp] theorem State.countBoosts_mem (s : State) (die : Nat) : (s.countBoosts die).mem = s.mem := rfl
@[simp] theorem State.sliceWindow_mem (s : State) (die sl : Nat) : (s.sliceWindow die sl).mem = s.mem := by
  grind [State.sliceWindow, State.modSlice_mem, State.jobDemands_mem, foldl_mem]
@[simp] theorem State.remtTick_mem (s : State) (die : Nat) : (s.remtTick die).mem = s.mem := by
  grind [State.remtTick, State.modDie_mem]
@[simp] theorem State.fairWindow_mem (s : State) (die : Nat) : (s.fairWindow die).mem = s.mem := rfl
@[simp] theorem State.energyReady_mem (s : State) (die : Nat) : (s.energyReady die).mem = s.mem := rfl
@[simp] theorem State.reconcile_mem (s : State) (die : Nat) : (s.reconcile die).mem = s.mem := by
  grind [State.reconcile, State.modDie_mem]
@[simp] theorem State.clockStep_mem (s : State) (die : Nat) : (s.clockStep die).mem = s.mem := by
  grind [State.clockStep, State.modDie_mem]

/-! ### Fabric: what leaves memory alone -/

@[simp] theorem State.modXact_mem (s : State) (xid : Nat) (f : Xact → Xact) : (s.modXact xid f).mem = s.mem := rfl
@[simp] theorem State.setCopy_mem (s : State) (xid m : Nat) (c : CopySt) : (s.setCopy xid m c).mem = s.mem := rfl
@[simp] theorem State.xactOld_mem (s : State) (x : Xact) (v : Vec) : (s.xactOld x v).mem = s.mem := by
  grind [State.xactOld, State.modStrand_mem]
@[simp] theorem State.loseCopy_mem (s : State) (xid m : Nat) (x : Xact) : (s.loseCopy xid m x).mem = s.mem := by
  grind [State.loseCopy, State.modWin_mem, State.keepMember_mem, State.noteLost_mem, State.settleXact_mem, State.setCopy_mem]
@[simp] theorem State.xactDrop_mem (s : State) (x : Xact) (dst : Dest') : (s.xactDrop x dst).mem = s.mem := by
  grind [State.xactDrop, State.partDrop_mem]
@[simp] theorem State.xactTaken_mem (s : State) (xid m rdie : Nat) (x : Xact) (c : CopySt) : (s.xactTaken xid m rdie x c).mem = s.mem := by
  grind [State.xactTaken, State.gangArrive_mem, State.setCopy_mem]
@[simp] theorem State.xactDone_mem (s : State) (xid m rdie : Nat) (x : Xact) (dst : Dest') : (s.xactDone xid m rdie x dst).mem = s.mem := by
  unfold State.xactDone
  dsimp only
  split
  · cases e : State.handlerArrive _ _ _ _ _ with
    | none => simp
    | some t => simpa using State.handlerArrive_mem _ _ _ _ _ e
  · simp
@[simp] theorem State.windowAck_mem (s : State) (xid m : Nat) : (s.windowAck xid m).mem = s.mem := by
  grind [State.windowAck, State.modDie_mem, State.modWin_mem, State.settleXact_mem, State.setCopy_mem]
@[simp] theorem State.publishCopy_mem (s : State) (x : Xact) (m : Nat) : (s.publishCopy x m).mem = s.mem := by
  grind [State.publishCopy, State.publishUnits_mem]
@[simp] theorem State.xactUncertain_mem (s : State) (xid : Nat) (p : CopySt → Bool) : (s.xactUncertain xid p).mem = s.mem := by
  grind [State.xactUncertain, State.keepMember_mem, State.noteLost_mem, State.settleXact_mem, State.loseFill_mem, State.modXact_mem,
    State.setCopy_mem, State.publishCopy_mem, foldl_mem]
@[simp] theorem State.windowUncertain_mem (s : State) (die tcid win : Nat) (xs : List Nat) : (s.windowUncertain die tcid win xs).mem = s.mem := by
  grind [State.windowUncertain, State.modWin_mem, State.xactUncertain_mem, foldl_mem]
@[simp] theorem State.retransmit_mem (s : State) (die tcid win : Nat) : (s.retransmit die tcid win).mem = s.mem := by
  grind [State.retransmit, State.modWin_mem, State.modXact_mem, State.windowUncertain_mem, foldl_mem]
@[simp] theorem State.gapSend_mem (s : State) (xid m : Nat) : (s.gapSend xid m).mem = s.mem := by
  grind [State.gapSend, State.settleXact_mem, State.setCopy_mem]
@[simp] theorem State.setPort_mem (s : State) (port : Nat) (m : PortMode) : (s.setPort port m).mem = s.mem := rfl
@[simp] theorem State.loseLoads_mem (s : State) : (s.loseLoads).mem = s.mem := by
  grind [State.loseLoads, State.loseFill_mem, foldl_mem]
@[simp] theorem State.loseBells_mem (s : State) : (s.loseBells).mem = s.mem := by
  grind [State.loseBells, State.modWin_mem, State.engineDone_mem, foldl_mem]
@[simp] theorem State.modFrag_mem (s : State) (fid : Nat) (f : Frag → Frag) : (s.modFrag fid f).mem = s.mem := rfl
@[simp] theorem State.reductionTimeout_mem (s : State) (gid : Nat) : (s.reductionTimeout gid).mem = s.mem := by
  grind [State.reductionTimeout, State.modCtx_mem]
theorem State.allocRegions_mem (s : State) (die tcid csize dsize : Nat) {s' : State} (e : s.allocRegions die tcid csize dsize = some s') :
    s'.mem = s.mem := by
  grind [State.allocRegions, State.modCtx_mem]
@[simp] theorem State.berthLast_mem (s : State) (die tcid : Nat) (r : BerthRef) : (s.berthLast die tcid r).mem = s.mem := by
  grind [State.berthLast, State.modCtx_mem, State.settleXact_mem, State.setCopy_mem, State.modFrag_mem]
@[simp] theorem State.berthWriter_mem (s : State) (die : Nat) (r : BerthRef) : (s.berthWriter die r).2.mem = s.mem := by
  grind [State.berthWriter, State.fresh_mem]
@[simp] theorem State.berthCheck_mem (s : State) (die tcid off : Nat) : (s.berthCheck die tcid off).mem = s.mem := rfl

/-! ### Queues: what leaves memory alone -/

@[simp] theorem State.modQueue_mem (s : State) (die pq : Nat) (f : Queue → Queue) : (s.modQueue die pq f).mem = s.mem := rfl
@[simp] theorem State.bellDone_mem (s : State) (m : BellMsg) : (s.bellDone m).mem = s.mem := by
  grind [State.bellDone, State.engineDone_mem]
@[simp] theorem State.modLane_mem (s : State) (f : Lane → Lane) : (s.modLane f).mem = s.mem := rfl
@[simp] theorem State.laneFree_mem (s : State) (die l pq : Nat) : (s.laneFree die l pq).mem = s.mem := rfl
@[simp] theorem State.lanesStop_mem (s : State) (die : Nat) : (s.lanesStop die).1.mem = s.mem := by
  unfold State.lanesStop
  refine foldl_mem_of (fun p : State × List (Nat × Nat × Nat) => p.1) _ (fun p e => ?_) _ _
  grind [State.laneFree_mem, State.modQueue_mem]

/-! ### Peers: what leaves memory alone -/

@[simp] theorem State.countDrop_mem (s : State) (p : Nat) : (s.countDrop p).mem = s.mem := rfl
@[simp] theorem State.peerWin_mem (s : State) (p : Inbound) : (s.peerWin p).mem = s.mem := rfl
@[simp] theorem State.peerFilter_mem (s : State) (p : Inbound) (rd : Nat) (resync : Bool) : (s.peerFilter p rd resync).mem = s.mem := by
  grind [State.peerFilter]

/-! ### Harbour: what leaves memory alone -/

@[simp] theorem State.setPermits_mem (s : State) : (s.setPermits).mem = s.mem := rfl
@[simp] theorem State.resetRelease_mem (s : State) (die : Nat) : (s.resetRelease die).mem = s.mem := by
  grind [State.resetRelease, State.modDie_mem, State.report_mem]
@[simp] theorem State.bootNext_mem (s : State) (die : Nat) : (s.bootNext die).mem = s.mem := by
  grind [State.bootNext, State.modDie_mem, State.report_mem]
@[simp] theorem State.bootTimeout_mem (s : State) (die : Nat) : (s.bootTimeout die).mem = s.mem := by
  grind [State.bootTimeout, State.modDie_mem, State.report_mem]
@[simp] theorem State.candidacy_mem (s : State) (die frm : Nat) : (s.candidacy die frm).mem = s.mem := by
  grind [State.candidacy, State.modDie_mem]
@[simp] theorem State.electionTimeout_mem (s : State) (die : Nat) : (s.electionTimeout die).mem = s.mem := by
  grind [State.electionTimeout, State.modDie_mem]
@[simp] theorem State.quayMeasure_mem (s : State) (d p : Nat) : (s.quayMeasure d p).mem = s.mem := rfl
@[simp] theorem State.packageNumber_mem (s : State) (p : Nat) : (s.packageNumber p).mem = s.mem := by
  grind [State.packageNumber, State.modDie_mem, State.quayMeasure_mem, foldl_mem]
@[simp] theorem State.peersTold_mem (s : State) (die tcid : Nat) : (s.peersTold die tcid).mem = s.mem := by
  grind [State.peersTold, State.windowUncertain_mem, foldl_mem]
@[simp] theorem State.tidyGroups_mem (s : State) : (s.tidyGroups).mem = s.mem := rfl
@[simp] theorem State.modSession_mem (s : State) (r sess : Nat) (f : Session → Session) : (s.modSession r sess f).mem = s.mem := rfl
@[simp] theorem State.answer_mem (s : State) (b : Bind) (status value : Nat) : (s.answer b status value).mem = s.mem := rfl
@[simp] theorem State.heard_mem (s : State) (die sess : Nat) : (s.heard die sess).mem = s.mem := rfl
theorem State.assignIdx_mem (s : State) (requester : Nat) {p} (e : s.assignIdx requester = some p) : p.2.mem = s.mem := by
  grind [State.assignIdx]
@[simp] theorem State.itemSet_mem (b : Bind) (limit : Bool) (needs : Nat) (f : Ctx → Ctx) (s : State) :
    (State.itemSet b limit needs f s).2.mem = s.mem := by
  grind [State.itemSet, State.modCtx_mem]
@[simp] theorem State.winPut_mem (s : State) (b : Bind) (w : WinSet) : (s.winPut b w).2.mem = s.mem := by
  grind [State.winPut, State.tidyGroups_mem, State.itemSet_mem]
@[simp] theorem State.delegSet_mem (b : Bind) (r : DelegRec) (s : State) : (State.delegSet b r s).2.mem = s.mem := by
  grind [State.delegSet, State.itemSet_mem]
@[simp] theorem State.handlersSet_mem (b : Bind) (t : List (Nat × HEntry)) (s : State) : (State.handlersSet b t s).2.mem = s.mem := by
  grind [State.handlersSet, State.itemSet_mem]
@[simp] theorem State.faultpolSet_mem (b : Bind) (p : Nat) (s : State) : (State.faultpolSet b p s).2.mem = s.mem := by
  grind [State.faultpolSet, State.itemSet_mem]
@[simp] theorem State.start_mem (s : State) (b : Bind) : (s.start b).mem = s.mem := by
  grind [State.start, State.modCtx_mem, State.answer_mem, State.heard_mem]
@[simp] theorem State.qdestroy_mem (s : State) (b : Bind) (qslot : Nat) : (s.qdestroy b qslot).2.2.mem = s.mem := by
  grind [State.qdestroy, State.modDie_mem]
theorem State.qresetAt_mem (s : State) (die tcid sqid idx : Nat) {p} (e : s.qresetAt die tcid sqid idx = some p) : p.2.mem = s.mem := by
  grind [State.qresetAt, State.modQueue_mem]
@[simp] theorem State.loadpilot_mem (s : State) (b : Bind) (words : List Nat) : (s.loadpilot b words).2.2.mem = s.mem := by
  grind [State.loadpilot, State.modDie_mem]
@[simp] theorem State.pdropHandle_mem (s : State) (b : Bind) (handle : Nat) : (s.pdropHandle b handle).2.2.mem = s.mem := by
  grind [State.pdropHandle, State.modDie_mem]

/-! ### Package: what leaves memory alone -/

@[simp] theorem State.powerUp_mem (s : State) : (s.powerUp).mem = s.mem := by
  grind [State.powerUp]
@[simp] theorem State.thermalAt_mem (s : State) (die temp : Nat) : (s.thermalAt die temp).mem = s.mem := by
  grind [State.thermalAt, State.modDie_mem, State.report_mem]
@[simp] theorem State.tripOn_mem (s : State) (die temp : Nat) : (s.tripOn die temp).mem = s.mem := by
  grind [State.tripOn, State.report_mem]
@[simp] theorem State.tripCheck_mem (s : State) : (s.tripCheck).mem = s.mem := by
  grind [State.tripCheck, State.jam_mem]
@[simp] theorem State.regError_mem (s : State) (c : Nat) (sl : Slot) : (s.regError c sl).mem = s.mem := by
  grind [State.regError, State.modStrand_mem, State.report_mem]
@[simp] theorem State.rowError_mem (s : State) (c : Nat) (r : Nat × Nat × Nat) : (s.rowError c r).mem = s.mem := by
  grind [State.rowError, State.report_mem]
@[simp] theorem State.osQueue_mem (s : State) (die : Nat) (c : Qcb) (words : List Nat) : (s.osQueue die c words).mem = s.mem := by
  grind [State.osQueue, State.modDie_mem]
@[simp] theorem State.osTail_mem (s : State) (die tail : Nat) : (s.osTail die tail).mem = s.mem := by
  grind [State.osTail, State.modQueue_mem]
@[simp] theorem State.countCorrected_mem (s : State) (store : Nat) : (s.countCorrected store).mem = s.mem := rfl
@[simp] theorem State.telemetry_mem (s : State) : (s.telemetry).mem = s.mem := rfl
@[simp] theorem State.telemetryTick_mem (s : State) : (s.telemetryTick).mem = s.mem := by
  grind [State.telemetryTick, State.telemetry_mem]
@[simp] theorem State.imageLoad_mem (s : State) (die tcid : Nat) (i : Image) : (s.imageLoad die tcid i).mem = s.mem := by
  grind [State.imageLoad, State.modCtx_mem]

/-! ### Turn: what leaves memory alone -/

@[simp] theorem State.dieCycle_mem (s : State) (d : Nat) : (s.dieCycle d).mem = s.mem := by
  grind [State.dieCycle, State.modDie_mem, State.tokenGain_mem, State.boostDecay_mem, State.countBoosts_mem, State.sliceWindow_mem]
@[simp] theorem State.coreTurn_mem (s : State) (c : Nat) : (s.coreTurn c).mem = s.mem := by
  grind [State.coreTurn, State.modDie_mem, State.dieCycle_mem]

/-! ## What writes memory, or may write it, and keeps the canonical form -/

/-! ### Translate: what keeps the canonical form -/

theorem touchDest_memWf (s : State) (w : Win) (dst : Dest') (acc : Acc) (els : List El) (hs : memWf s.mem = true) :
    memWf (touchDest s w dst acc els).mem = true := by
  induction els generalizing s with
  | nil => exact hs
  | cons e r ih => grind [touchDest, touchLeaf_memWf]

theorem touchEls_memWf (s : State) (k : Nat) (acc : Acc) (space : Nat) (els : List El) (hs : memWf s.mem = true) :
    memWf (touchEls s k acc space els).mem = true := by
  induction els generalizing s with
  | nil => exact hs
  | cons e r ih =>
    simp only [touchEls]
    split
    · exact ih _ (touchLeaf_memWf _ _ _ _ _ hs)
    · exact ih _ (touchLeaf_memWf _ _ _ _ _ hs)
    · exact hs

theorem touchWin_memWf (s : State) (k win : Nat) (acc : Acc) (els : List El) (hs : memWf s.mem = true) :
    memWf (touchWin s k win acc els).mem = true := by
  grind [touchWin, touchDest_memWf]

/-! ### SaveImage: what keeps the canonical form -/

theorem State.allocOs_memWf (s : State) (die n : Nat) (hs : memWf s.mem = true) {p : Nat × State} (e : s.allocOs die n = some p) :
    memWf p.2.mem = true := by
  unfold State.allocOs at e
  dsimp only at e
  split at e
  · cases e; exact State.zeroRange_memWf _ _ _ hs
  · cases e

theorem State.assignArea_memWf (s : State) (k : Nat) (hs : memWf s.mem = true) : memWf (s.assignArea k).mem = true := by
  unfold State.assignArea
  extract_lets t here
  split
  · exact hs
  · cases e : s.allocOs t.die areaSize with
    | none => exact hs
    | some x => exact s.allocOs_memWf t.die areaSize hs e

theorem State.dropArea_memWf (s : State) (k : Nat) (hs : memWf s.mem = true) : memWf (s.dropArea k).mem = true := by
  grind [State.dropArea, State.zeroRange_memWf]

theorem State.assignSpill_memWf (s : State) (k : Nat) (hs : memWf s.mem = true) : memWf (s.assignSpill k).mem = true := by
  unfold State.assignSpill
  cases e : s.allocOs (s.strand k).die 4096 with
  | none => exact hs
  | some x => exact s.allocOs_memWf _ _ hs e

theorem State.writeSpill_memWf (s : State) (k n : Nat) (hs : memWf s.mem = true) : memWf (s.writeSpill k n).mem = true := by
  unfold State.writeSpill
  dsimp only
  split
  · exact hs
  · exact foldl_memWf _ (fun s _ h => s.poke_memWf _ _ _ h) _ _ hs

/-! ### Ops: what keeps the canonical form -/

theorem State.toEnergy_memWf (s : State) (k : Nat) (hs : memWf s.mem = true) : memWf (s.toEnergy k).mem = true := by
  grind [State.toEnergy, State.modStrand_mem, State.modCtx_mem, State.sendFault_memWf]

theorem State.wake_memWf (s : State) (k : Nat) (hs : memWf s.mem = true) : memWf (s.wake k).mem = true := by
  grind [State.wake, State.wakePlain_mem, State.toEnergy_memWf]

theorem State.setFlag_memWf (s : State) (k n : Nat) (wids : List Nat) (hs : memWf s.mem = true) : memWf (s.setFlag k n wids).mem = true := by
  grind [State.setFlag, State.flagEvent_memWf, State.toEnergy_memWf]

theorem State.landOne_memWf (s : State) (k : Nat) (e : InFlight) (hs : memWf s.mem = true) : memWf (s.landOne k e).mem = true := by
  grind [State.landOne, State.modStrand_mem, State.scratchWrite_memWf, State.keepBytes_mem, foldl_memWf]

theorem State.landDue_memWf (s : State) (k : Nat) (bands : Bool) (hs : memWf s.mem = true) : memWf (s.landDue k bands).mem = true := by
  grind [State.landDue, State.modStrand_mem, State.landOne_memWf, foldl_memWf]

theorem State.raise_memWf (s : State) (fs : List Finding) (hs : memWf s.mem = true) : memWf (s.raise fs).mem = true := by
  grind [State.raise, State.takeTrap_memWf]

/-! ### Control: what keeps the canonical form -/

theorem State.endTrap_memWf (s : State) (k : Nat) (p : Pending) (hs : memWf s.mem = true) : memWf (s.endTrap k p).mem = true := by
  grind [State.endTrap, State.modStrand_mem, State.takeTrap_memWf, State.settlePos_mem]

theorem State.raiseCe_memWf (s : State) (k : Nat) (p : Pending) (hs : memWf s.mem = true) : memWf (s.raiseCe k p).mem = true := by
  grind [State.raiseCe, State.modStrand_mem, State.endTrap_memWf]

/-! ### Arrival: what keeps the canonical form -/

theorem State.noticeWrite_memWf (s : State) (die tcid kind st qslot num : Nat) (hs : memWf s.mem = true) :
    memWf (s.noticeWrite die tcid kind st qslot num).mem = true := by
  grind [State.noticeWrite, State.modCtx_mem, touchLeaf_memWf, State.deviceWrite_memWf]

/-! ### Requests: what keeps the canonical form -/

theorem State.storeLeave_memWf (s : State) (k : Nat) (r : Req) (hs : memWf s.mem = true) : memWf (s.storeLeave k r).mem = true := by
  grind [State.storeLeave, State.modStrand_mem, State.jam_mem, touchEls_memWf, State.chargeHomes_mem, State.chargeAway_mem]

theorem State.storeUnit_memWf (s : State) (k : Nat) (r : Req) (hs : memWf s.mem = true) : memWf (s.storeUnit k r).mem = true := by
  grind [State.storeUnit, State.modStrand_mem, State.homeWrite_memWf, State.keepAway_mem]

theorem State.storeHome_memWf (s : State) (k : Nat) (r : Req) (hs : memWf s.mem = true) : memWf (s.storeHome k r).mem = true := by
  grind [State.storeHome, State.modStrand_mem, State.homeWrite_memWf, State.keepAway_mem, State.storeLeave_memWf]

theorem rmwEls_memWf (wr : Writer) (scope : Nat) (scratch : Bool) (kind : ReqKind) (s : State) (els : List (List Nat × El))
    (hs : memWf s.mem = true) : memWf (rmwEls wr scope scratch kind s els).2.mem = true := by
  induction els generalizing s with
  | nil => exact hs
  | cons e r ih =>
    obtain ⟨as, e⟩ := e
    refine ih _ ?_
    split
    · exact s.scratchWrite_memWf _ hs
    · exact s.homeWrite_memWf _ _ hs

theorem State.rmwHome_memWf (s : State) (k : Nat) (r : Req) (hs : memWf s.mem = true) : memWf (s.rmwHome k r).mem = true := by
  grind [State.rmwHome, State.publish_mem, State.modStrand_mem, State.jam_mem, touchEls_memWf, State.chargeHomes_mem, State.chargeAway_mem,
    rmwEls_memWf, State.atomReturn_mem]

/-! ### MemAccess: what keeps the canonical form -/

theorem State.emulate_memWf (s : State) (k : Nat) (i : Instr) (hs : memWf s.mem = true) : memWf (s.emulate k i).mem = true := by
  have put (m : MemChk) (cells : List Host.Cell) (as : List Nat) (es : List Datum) (h : Bool) (hidx : Nat) : memWf (
      if es.isEmpty then s
      else if m.lay.space = 0 then (s.keepBytes k as).scratchWrite cells else s.bufferStore k m es true h hidx).mem = true := by
    split
    · exact hs
    · split
      · exact State.scratchWrite_memWf _ _ (by simpa using hs)
      · simpa using hs
  cases i with
  | ldh o =>
    simp only [State.emulate]
    split
    · exact hs
    · simpa using touchEls_memWf _ _ _ _ _ hs
  | sts o | stv o | stvs o | stvm o | stvh o => exact put _ _ _ _ _ _
  | _ => exact hs

theorem State.copyBytes_memWf (s : State) (wr : Writer) (ms : List (Nat × Nat)) (hs : memWf s.mem = true) : memWf (s.copyBytes wr ms).mem = true := by
  unfold State.copyBytes
  dsimp only
  split
  · split
    · exact s.scratchWrite_memWf _ hs
    · exact s.homeWrite_memWf _ _ hs
  · exact hs

theorem State.copyUnits_memWf (s : State) (wr : Writer) (us : List (List (Nat × Nat))) (hs : memWf s.mem = true) :
    memWf (s.copyUnits wr us).mem = true := by
  grind [State.copyUnits, State.copyBytes_memWf, foldl_memWf]

theorem tmovEff_memWf (o : TmovOps) (s : State) (hs : memWf s.mem = true) : memWf (tmovEff o s).mem = true := by
  grind [tmovEff, State.modStrand_mem, State.modCore_mem, State.fresh_mem, State.landBit_mem, State.copyUnits_memWf, State.chargeMoves_mem]

theorem State.tmovComplete_memWf (s : State) (core : Nat) (hs : memWf s.mem = true) : memWf (s.tmovComplete core).mem = true := by
  grind [State.tmovComplete, State.modStrand_mem, State.modCore_mem, State.setFlag_memWf, State.raiseCe_memWf, State.copyUnits_memWf]

theorem State.storePerform_memWf (s : State) (k rid : Nat) (hs : memWf s.mem = true) : memWf (s.storePerform k rid).mem = true := by
  grind [State.storePerform, State.storeLeave_memWf, State.storeUnit_memWf, State.sendXact_mem]

theorem State.atomicPerform_memWf (s : State) (k rid : Nat) (hs : memWf s.mem = true) : memWf (s.atomicPerform k rid).mem = true := by
  grind [State.atomicPerform, State.rmwHome_memWf, State.sendXact_mem]

theorem State.latchFill_memWf (s : State) (k rid : Nat) (hs : memWf s.mem = true) : memWf (s.latchFill k rid).mem = true := by
  grind [State.latchFill, State.modStrand_mem, State.modDie_mem, State.jam_mem, touchEls_memWf, touchWin_memWf, State.chargeHomes_mem,
    State.chargeAway_mem, State.loadData_mem, State.atomReturn_mem]

theorem State.walkedTo_memWf (s : State) (k : Nat) (r : Req) (hs : memWf s.mem = true) : memWf (s.walkedTo k r).mem = true := by
  grind [State.walkedTo, touchEls_memWf, touchWin_memWf]

theorem State.accessFault_memWf (s : State) (k : Nat) (hs : memWf s.mem = true) : memWf (s.accessFault k).mem = true := by
  grind [State.accessFault, State.modStrand_mem, State.partDrop_mem, State.endTrap_memWf, State.writeFlt_mem, State.walkedTo_memWf]

/-! ### Engine: what keeps the canonical form -/

theorem State.imagePut_memWf (s : State) (sid : Option Nat) (off : Nat) (bs : List Byte) (hs : memWf s.mem = true) :
    memWf (s.imagePut sid off bs).mem = true := by
  cases sid with
  | none => exact hs
  | some k => exact State.resave_memWf _ _ hs

theorem State.jobWriteBack_memWf (s : State) (j : Job) (hs : memWf s.mem = true) : memWf (s.jobWriteBack j).mem = true := by
  grind [State.jobWriteBack, touchLeaf_memWf, State.deviceWrite_memWf, State.scratchWrite_memWf, State.imagePut_memWf]

theorem State.engineFill_memWf (s : State) (k n id kind : Nat) (v : Word) (hs : memWf s.mem = true) :
    memWf (s.engineFill k n id kind v).mem = true := by
  grind [State.engineFill, State.modStrand_mem, State.resave_memWf]

theorem State.jobEnd_memWf (s : State) (jid status detail : Nat) (hs : memWf s.mem = true) : memWf (s.jobEnd jid status detail).mem = true := by
  grind [State.jobEnd, State.publishWids_mem, State.setFlag_memWf, State.jobWriteBack_memWf, State.engineFill_memWf, State.engineDone_mem,
    foldl_memWf]

theorem jobTouch_memWf (s : State) (j : Job) (acc : Acc) (r : Option Region) (p : Nat) (hs : memWf s.mem = true) :
    memWf (jobTouch s j acc r p).mem = true := by
  unfold jobTouch
  split
  · exact hs
  · split
    · exact touchLeaf_memWf _ _ _ _ _ hs
    · split
      · dsimp only
        split
        · exact touchDest_memWf _ _ _ _ _ hs
        · exact hs
      · exact hs

theorem State.jobWrite_memWf (s : State) (jid : Nat) (j : Job) (p o v : Nat) (hs : memWf s.mem = true) {s' : State}
    (e : s.jobWrite jid j p o v = .ok s') :
    memWf s'.mem = true := by
  grind [State.jobWrite, State.jam_mem, State.homeWrite_memWf, State.scratchWrite_memWf, State.imagePut_memWf, jobTouch_memWf, State.jobPost_mem]

theorem State.jobParks_memWf (s : State) (die : Nat) (hs : memWf s.mem = true) : memWf (s.jobParks die).mem = true := by
  grind [State.jobParks, State.modJob_mem, State.jobWriteBack_memWf, foldl_memWf]

theorem State.jobStop_memWf (s : State) (jid : Nat) (j : Job) (p : Nat) (c : Cause) (v : Word) (r : Option Region) (hs : memWf s.mem = true) :
    memWf (s.jobStop jid j p c v r).mem = true := by
  unfold State.jobStop
  refine State.jobEnd_memWf _ _ _ _ ?_
  cases r <;> grind [State.partDrop_mem, State.writeFlt_mem]

theorem State.jobFetch_memWf (s : State) (jid : Nat) (j : Job) (p : Nat) (hs : memWf s.mem = true) : memWf (s.jobFetch jid j p).mem = true := by
  grind [State.jobFetch, State.modJob_mem, jobTouch_memWf, State.jobStop_memWf, State.jobHave_mem]

theorem State.jobStore_memWf (s : State) (jid : Nat) (j : Job) (p : Nat) (hs : memWf s.mem = true) : memWf (s.jobStore jid j p).mem = true := by
  unfold State.jobStore
  split
  · exact hs
  · dsimp only
    split
    · exact State.jobStop_memWf _ _ _ _ _ _ _ (jobTouch_memWf _ _ _ _ _ hs)
    · next u e =>
      have hu : memWf u.mem = true := State.jobWrite_memWf _ _ _ _ _ _ (by exact hs) e
      split
      · exact hu
      · exact hu

theorem State.moveBlock_memWf (s : State) (jid : Nat) (j : Job) (hs : memWf s.mem = true) : memWf (s.moveBlock jid j).mem = true := by
  grind [State.moveBlock, State.payBlock_mem, State.jobFetch_memWf, State.jobStore_memWf]

theorem State.jobSegment_memWf (s : State) (die : Nat) (hs : memWf s.mem = true) : memWf (s.jobSegment die).mem = true := by
  grind [State.jobSegment, State.jobDemands_mem, State.jobParks_memWf, State.takeSegments_mem, State.moveBlock_memWf]

theorem State.finishBlock_memWf (jid n : Nat) (s : State) (hs : memWf s.mem = true) : memWf (State.finishBlock jid n s).mem = true := by
  induction n generalizing s with
  | zero => exact hs
  | succ n ih => grind [State.finishBlock, State.jobFetch_memWf, State.jobStore_memWf]

theorem State.killJob_memWf (s : State) (jid : Nat) (hs : memWf s.mem = true) : memWf (s.killJob jid).mem = true := by
  grind [State.killJob, State.jobEnd_memWf, State.finishBlock_memWf]

theorem State.jobComplete_memWf (s : State) (jid : Nat) (hs : memWf s.mem = true) : memWf (s.jobComplete jid).mem = true := by
  grind [State.jobComplete, State.jobEnd_memWf]

theorem State.acceptJob_memWf (s : State) (e : CeEntry) (card : List Word) (off latch flag pri : Nat) (hs : memWf s.mem = true) :
    memWf (s.acceptJob e card off latch flag pri).mem = true := by
  grind [State.acceptJob, State.fresh_mem, State.setFlag_memWf, State.engineFill_memWf, State.engineDone_mem]

theorem State.acceptStatus_memWf (s : State) (e : CeEntry) (handle latch : Nat) (wait : Bool) (hs : memWf s.mem = true) :
    memWf (s.acceptStatus e handle latch wait).mem = true := by
  grind [State.acceptStatus, State.modJob_mem, State.engineFill_memWf]

theorem fragTouch_memWf (s : State) (e : CeEntry) (space off n : Nat) (hs : memWf s.mem = true) : memWf (fragTouch s e space off n).mem = true := by
  grind [fragTouch, touchLeaf_memWf, foldl_memWf]

theorem State.acceptFrag_memWf (s : State) (e : CeEntry) (space off n : Nat) (d : Word) (op : Option Nat) (tag flag : Nat) (hs : memWf s.mem = true) :
    memWf (s.acceptFrag e space off n d op tag flag).mem = true := by
  grind [State.acceptFrag, State.fresh_mem, State.partDrop_mem, State.charge_mem, State.setFlag_memWf, State.raiseCe_memWf, State.chargeHomes_mem,
    State.chargeAway_mem, State.writeFlt_mem, State.engineDone_mem, fragTouch_memWf]

theorem State.tryFrag_memWf (s : State) (core : Nat) (e : CeEntry) (done : State) (sp off len : Nat) (d : Word) (op : Option Nat) (tag flag : Nat)
    (hs : memWf s.mem = true) (hd : memWf done.mem = true) : memWf (s.tryFrag core e done sp off len d op tag flag).mem = true := by
  grind [State.tryFrag, State.admitUnits_mem, State.modCore_mem, State.acceptFrag_memWf]

theorem State.acceptBell_memWf (s : State) (e : CeEntry) (tail : Nat) (data : Word) (loc : Bool) (win sqid : Nat) (hs : memWf s.mem = true) :
    memWf (s.acceptBell e tail data loc win sqid).mem = true := by
  grind [State.acceptBell, State.fresh_mem, State.partDrop_mem, State.raiseCe_memWf, State.writeFlt_mem, State.engineDone_mem]

theorem State.jobAccept_memWf (s : State) (core : Nat) (hs : memWf s.mem = true) : memWf (s.jobAccept core).mem = true := by
  grind [State.jobAccept, State.modCore_mem, State.killJob_memWf, State.acceptJob_memWf, State.acceptStatus_memWf, State.tryFrag_memWf,
    State.acceptBell_memWf]

/-! ### Matrix: what keeps the canonical form -/

theorem splitStep_memWf (s : State) (k : Nat) (o : MOp) (q : Nat) (hs : memWf s.mem = true) : memWf (splitStep s k o q).mem = true := by
  unfold splitStep
  extract_lets p la lb n i blk t src s₁ vs old put place scale s₂ top bad e s₃ dst s₄
  clear_value (hs₄ : s₄ = _) dst (hs₃ : s₃ = _) e bad top (hs₂ : s₂ = _) (hscale : scale = _) (hput : put = _) vs (hs₁ : s₁ = _)
  have put_memWf (e : Option Int) (u : State) (hu : memWf u.mem = true) : memWf (put e u).mem = true := by
    rwa [hput, State.modStrand_mem]
  have scale_memWf (e : Option Int) (u : State) (hu : memWf u.mem = true) : memWf (scale e u).mem = true := by
    rw [hscale]
    refine State.scratchWrite_memWf _ _ ?_
    rwa [State.mxAccess_mem]
  have h₂ : memWf s₂.mem = true := by rwa [hs₂, State.mxError_mem, hs₁, State.mxAccess_mem]
  have h₄ : memWf s₄.mem = true := by
    rw [hs₄, State.mxAccess_mem, hs₃]
    split
    · exact scale_memWf _ _ (put_memWf _ _ h₂)
    · exact h₂
  split
  · split
    · exact scale_memWf _ _ (put_memWf _ _ h₂)
    · exact put_memWf _ _ h₂
  · exact foldl_memWf _ (fun u l hu => foldl_memWf _ (fun u x hu => u.scratchWrite_memWf _ hu) _ _ hu) _ _ h₄

theorem transStep_memWf (s : State) (k : Nat) (o : MOp) (q : Nat) (hs : memWf s.mem = true) : memWf (transStep s k o q).mem = true := by
  grind [transStep, State.scratchWrite_memWf, State.mxError_mem, State.mxAccess_mem, foldl_memWf]

theorem mxWork_memWf (s : State) (k : Nat) (o : MOp) (hs : memWf s.mem = true) : memWf (mxWork s k o).mem = true := by
  grind [mxWork, feedB_mem, enterRows_mem, splitStep_memWf, transStep_memWf]

theorem State.mxStreams_memWf (s : State) (k : Nat) (hs : memWf s.mem = true) : memWf (s.mxStreams k).mem = true := by
  grind [State.mxStreams, State.modCore_mem, State.chargeOf_mem, mxWork_memWf]

theorem State.mxCycle_memWf (s : State) (k : Nat) (hs : memWf s.mem = true) : memWf (s.mxCycle k).mem = true := by
  grind [State.mxCycle, State.modStrand_mem, State.landDue_memWf, State.mxStarts_mem, State.mxEnds_mem, State.mxStreams_memWf]

/-! ### Sync: what keeps the canonical form -/

theorem State.phaseComplete_memWf (s : State) (k : Nat) (hs : memWf s.mem = true) : memWf (s.phaseComplete k).mem = true := by
  grind [State.phaseComplete, State.modStrand_mem, State.wake_memWf, State.phaseDone_mem]

theorem State.crewWake_memWf (s : State) (x : Crew) (hs : memWf s.mem = true) : memWf (s.crewWake x).mem = true := by
  grind [State.crewWake, State.modStrand_mem, State.wake_memWf, State.renew_mem, foldl_memWf]

theorem State.crewSettle_memWf (s : State) (die tcid c n : Nat) (hs : memWf s.mem = true) : memWf (s.crewSettle die tcid c n).mem = true := by
  induction n generalizing s with
  | zero => exact hs
  | succ n ih => grind [State.crewSettle, State.crewWake_memWf, State.setCrew_mem]

theorem State.leaveAll_memWf (s : State) (k : Nat) (hs : memWf s.mem = true) : memWf (s.leaveAll k).mem = true := by
  grind [State.leaveAll, State.setCrew_mem, State.crewSettle_memWf, foldl_memWf]

theorem State.cbarOp_memWf (s : State) (c : Nat) (hs : memWf s.mem = true) : memWf (s.cbarOp c).mem = true := by
  grind [State.cbarOp, State.modStrand_mem, State.setCrew_mem, State.crewSettle_memWf]

theorem State.stealRequest_memWf (s : State) (mid : Nat) (hs : memWf s.mem = true) : memWf (s.stealRequest mid).mem = true := by
  grind [State.stealRequest, State.modStrand_mem, State.resave_memWf, State.forwardFrom_mem]

theorem State.stealGrant_memWf (s : State) (mid : Nat) (hs : memWf s.mem = true) : memWf (s.stealGrant mid).mem = true := by
  grind [State.stealGrant, State.modStrand_mem, State.resave_memWf]

/-! ### Sequencer: what keeps the canonical form -/

theorem State.beginCycle_memWf (s : State) (k : Nat) (hs : memWf s.mem = true) : memWf (s.beginCycle k).mem = true := by
  grind [State.beginCycle, State.modStrand_mem, State.landDue_memWf, State.tick_mem, State.mxCycle_memWf]

theorem State.deliverCause_memWf (s : State) (k : Nat) (hs : memWf s.mem = true) : memWf (s.deliverCause k).mem = true := by
  grind [State.deliverCause, State.modStrand_mem, State.endTrap_memWf]

theorem State.endCycle_memWf (s : State) (k : Nat) (hs : memWf s.mem = true) : memWf (s.endCycle k).mem = true := by
  grind [State.endCycle, State.settle_mem, State.deliverCause_memWf]

theorem State.runLimitTrap_memWf (s : State) (k : Nat) (hs : memWf s.mem = true) : memWf (s.runLimitTrap k).mem = true := by
  grind [State.runLimitTrap, State.modStrand_mem, State.takeTrap_memWf]

theorem State.emptyCycle_memWf (s : State) (k : Nat) (hs : memWf s.mem = true) : memWf (s.emptyCycle k).mem = true := by
  grind [State.emptyCycle, State.modStrand_mem, State.beginCycle_memWf, State.countCycle_mem, State.endCycle_memWf, State.runLimitTrap_memWf]

theorem State.toReady_memWf (s : State) (k : Nat) (hs : memWf s.mem = true) : memWf (s.toReady k).mem = true := by
  grind [State.toReady, State.modStrand_mem, State.toEnergy_memWf]

theorem State.drainEnd_memWf (s : State) (k : Nat) (d : DrainTo) (hs : memWf s.mem = true) : memWf (s.drainEnd k d).mem = true := by
  have toReady (u : State) (hu : memWf u.mem = true) : memWf (u.toReady k).mem = true := u.toReady_memWf k hu
  cases d with
  | ended => simpa [State.drainEnd] using hs
  | _ => grind [State.drainEnd, State.modCore_mem, State.modStrand_mem, State.toCheckpoint_mem]

theorem State.drainCycle_memWf (s : State) (k : Nat) (d : DrainTo) (hs : memWf s.mem = true) : memWf (s.drainCycle k d).mem = true := by
  grind [State.drainCycle, State.beginCycle_memWf, State.countCycle_mem, State.deliverCause_memWf, State.drainEnd_memWf]

theorem State.retiringCycle_memWf (s : State) (k : Nat) (hs : memWf s.mem = true) : memWf (s.retiringCycle k).mem = true := by
  grind [State.retiringCycle, State.modStrand_mem, State.modCore_mem, State.beginCycle_memWf, State.countCycle_mem, State.deliverCause_memWf]

theorem State.strandSelect_memWf (s : State) (c : Nat) (hs : memWf s.mem = true) : memWf (s.strandSelect c).mem = true := by
  grind [State.strandSelect, State.drainEnd_memWf, State.select_mem]

theorem State.issued_memWf (s : State) (k : Nat) (b : Bundle) (banks : Nat) (hs : memWf s.mem = true) : memWf (s.issued k b banks).mem = true := by
  grind [State.issued, State.modStrand_mem, State.writeSpill_memWf, State.countCycle_mem, State.endCycle_memWf, State.chargeBundle_mem]

theorem State.skipBundle_memWf (ex : Instr → State → Host.Outcome State Fault Refusal) (s : State) (k : Nat) (b : Bundle) (hs : memWf s.mem = true) :
    memWf (State.skipBundle ex s k b).mem = true := by
  grind [State.skipBundle, State.raise_memWf, State.settle_mem, State.nameBundle_mem, State.header_mem]

theorem State.emptyIssueCycle_memWf (s : State) (c : Nat) (hs : memWf s.mem = true) : memWf (s.emptyIssueCycle c).mem = true := by
  grind [State.emptyIssueCycle, State.emptyCycle_memWf, State.drainCycle_memWf, State.retiringCycle_memWf]

theorem State.resultLand_memWf (s : State) (c : Nat) (hs : memWf s.mem = true) : memWf (s.resultLand c).mem = true := by
  grind [State.resultLand, State.landDue_memWf]

theorem State.runLimit_memWf (s : State) (c : Nat) (hs : memWf s.mem = true) : memWf (s.runLimit c).mem = true := by
  grind [State.runLimit, State.beginCycle_memWf, State.runLimitTrap_memWf]

/-! ### Launch: what keeps the canonical form -/

theorem State.touchPacket_memWf (s : State) (die tcid va n : Nat) (hs : memWf s.mem = true) : memWf (s.touchPacket die tcid va n).mem = true := by
  grind [State.touchPacket, touchLeaf_memWf, foldl_memWf]

theorem State.writeRecord_memWf (s : State) (die tcid va status detail : Nat) (hs : memWf s.mem = true) :
    memWf (s.writeRecord die tcid va status detail).mem = true := by
  grind [State.writeRecord, touchLeaf_memWf, State.deviceWrite_memWf]

theorem State.launchSubmit_memWf (s : State) (die tcid va : Nat) (sup : Bool) (hs : memWf s.mem = true) :
    memWf (s.launchSubmit die tcid va sup).mem = true := by
  grind [State.launchSubmit, State.modDie_mem, State.fresh_mem, State.touchPacket_memWf, State.writeRecord_memWf, foldl_memWf]

theorem State.makeStrands_memWf (s : State) (lid : Nat) (l : Launch) (die tcid : Nat) (hs : memWf s.mem = true) :
    memWf (s.makeStrands lid l die tcid).1.mem = true := by
  unfold State.makeStrands
  refine foldl_memWf_of (fun p : State × List Nat => p.1) _ (fun p x hp => ?_) _ _ hs
  split
  · exact hp
  · dsimp only
    refine State.assignSpill_memWf _ _ ?_
    rwa [State.setStrand_mem, State.fresh_mem]

theorem State.loadCore_memWf (s : State) (k : Nat) (hs : memWf s.mem = true) : memWf (s.loadCore k).mem = true := by
  grind [State.loadCore, State.pokeBytes_memWf, State.zeroRange_memWf, foldl_memWf]

theorem State.loadBytes_memWf (s : State) (lid die a : Nat) (bs : List Byte) (hs : memWf s.mem = true) :
    memWf (s.loadBytes lid die a bs).mem = true := by
  grind [State.loadBytes, State.modLaunch_mem, State.deviceWrite_memWf]

theorem State.loadRegions_memWf (s : State) (lid die tcid : Nat) (ks : List Nat) (hs : memWf s.mem = true) :
    memWf (s.loadRegions lid die tcid ks).mem = true := by
  grind [State.loadRegions, State.modLaunch_mem, State.loadBytes_memWf, foldl_memWf]

theorem State.loadHbm_memWf (s : State) (lid : Nat) (hs : memWf s.mem = true) : memWf (s.loadHbm lid).mem = true := by
  grind [State.loadHbm, State.modLaunch_mem, touchLeaf_memWf, State.loadBytes_memWf, foldl_memWf]

theorem State.removeStrand_memWf (s : State) (k : Nat) (hs : memWf s.mem = true) : memWf (s.removeStrand k).mem = true := by
  grind [State.removeStrand, State.dropArea_memWf, State.gangTidy_mem, State.leaveAll_memWf, State.dropSlot_mem, State.freeCore_mem,
    State.dropSteals_mem]

theorem State.stopReq_memWf (s : State) (k : Nat) (r : Req) (hs : memWf s.mem = true) : memWf (s.stopReq k r).mem = true := by
  grind [State.stopReq, State.modStrand_mem, State.storeHome_memWf, State.rmwHome_memWf, State.sendXact_mem]

theorem State.stopStrand_memWf (s : State) (k : Nat) (hs : memWf s.mem = true) : memWf (s.stopStrand k).mem = true := by
  grind [State.stopStrand, State.modCore_mem, State.killJob_memWf, State.dropHandlers_mem, State.removeStrand_memWf, State.stopReq_memWf,
    State.giveUp_mem, foldl_memWf]

theorem State.endLaunch_memWf (s : State) (lid status detail : Nat) (hs : memWf s.mem = true) : memWf (s.endLaunch lid status detail).mem = true := by
  grind [State.endLaunch, State.modDie_mem, State.writeRecord_memWf, State.stopStrand_memWf, foldl_memWf]

theorem State.shareDone_memWf (s : State) (die lid : Nat) (hs : memWf s.mem = true) : memWf (s.shareDone die lid).mem = true := by
  grind [State.shareDone, State.modShare_mem, State.endLaunch_memWf, State.shareBack_mem]

theorem State.loseStrand_memWf (s : State) (k : Nat) (hs : memWf s.mem = true) : memWf (s.loseStrand k).mem = true := by
  grind [State.loseStrand, State.noticeWrite_memWf, State.endLaunch_memWf]

theorem State.loadImage_memWf (s : State) (k : Nat) (hs : memWf s.mem = true) : memWf (s.loadImage k).mem = true := by
  grind [State.loadImage, State.pokeCells_memWf, State.modStrand_mem]

theorem State.admitShare_memWf (s : State) (die : Nat) (h : Share) (hs : memWf s.mem = true) {s' : State} (e : s.admitShare die h = some s') :
    memWf s'.mem = true := by
  unfold State.admitShare at e
  dsimp only at e
  split at e
  · cases e
  · split at e
    · split at e
      · cases e
      · next v hv =>
        have hv' : memWf v.mem = true := by rwa [State.placeAll_mem _ _ _ _ hv]
        split at e
        · obtain rfl := Option.some.inj e
          rw [State.modShare_mem]
          exact foldl_memWf _ (fun s k hk => State.loadImage_memWf _ _ (State.zeroRange_memWf _ _ _ hk)) _ _ hv'
        · obtain rfl := Option.some.inj e
          exact State.loseStrand_memWf _ _ hv'
    · obtain ⟨v, hv, rfl⟩ := Option.map_eq_some_iff.mp e
      have hv' : memWf v.mem = true := by
        rw [State.placeAll_mem _ _ _ _ hv]
        exact s.makeStrands_memWf _ _ _ _ hs
      rw [State.modShare_mem]
      refine State.loadHbm_memWf _ _ (State.loadRegions_memWf _ _ _ _ _ ?_)
      exact foldl_memWf _ (fun s k hk => s.loadCore_memWf k hk) _ _ hv'

theorem State.admitFirst_memWf (s : State) (die : Nat) (l : List Share) (hs : memWf s.mem = true) {s' : State} (e : s.admitFirst die l = some s') :
    memWf s'.mem = true := by
  induction l with
  | nil => cases e
  | cons h r ih => grind [State.admitFirst, State.admitShare_memWf]

theorem State.scanLoop_memWf (die n : Nat) (s : State) (hs : memWf s.mem = true) : memWf (State.scanLoop die n s).mem = true := by
  induction n generalizing s with
  | zero => exact hs
  | succ n ih => grind [State.scanLoop, State.admitFirst_memWf]

theorem State.scanRounds_memWf (n : Nat) (s : State) (hs : memWf s.mem = true) : memWf (State.scanRounds n s).mem = true := by
  induction n generalizing s with
  | zero => exact hs
  | succ n ih =>
    have h := foldl_memWf _ (fun s d h => State.scanLoop_memWf d ((s.die d).shares.length + 1) s h) (List.range 8) s hs
    simp only [State.scanRounds]
    split
    · exact ih _ h
    · exact h

theorem State.scanAll_memWf (s : State) (hs : memWf s.mem = true) : memWf (s.scanAll).mem = true := by
  grind [State.scanAll, State.scanRounds_memWf]

theorem State.scan_memWf (s : State) (die : Nat) (hs : memWf s.mem = true) : memWf (s.scan die).mem = true := by
  grind [State.scan, State.scanLoop_memWf, State.scanAll_memWf]

theorem State.shareArrival_memWf (s : State) (die lid : Nat) (hs : memWf s.mem = true) : memWf (s.shareArrival die lid).mem = true := by
  grind [State.shareArrival, State.modDie_mem, State.scan_memWf]

theorem State.shareReserve_memWf (s : State) (die lid : Nat) (hs : memWf s.mem = true) : memWf (s.shareReserve die lid).mem = true := by
  grind [State.shareReserve, State.modShare_mem, State.scan_memWf]

theorem State.proceed_memWf (s : State) (k : Nat) (hs : memWf s.mem = true) : memWf (s.proceed k).mem = true := by
  grind [State.proceed, State.modStrand_mem, State.replay_mem, State.toReady_memWf]

theorem State.rowLoadComplete_memWf (s : State) (k : Nat) (hs : memWf s.mem = true) : memWf (s.rowLoadComplete k).mem = true := by
  grind [State.rowLoadComplete, State.modStrand_mem, State.modDie_mem, State.loadRows_mem, State.proceed_memWf]

theorem State.retire_memWf (s : State) (k : Nat) (hs : memWf s.mem = true) : memWf (s.retire k).mem = true := by
  grind [State.retire, State.deliverCause_memWf, State.removeStrand_memWf, State.shareDone_memWf, State.scanAll_memWf, State.endPhase_mem]

theorem State.preempt_memWf (s : State) (die : Nat) (v : Share) (hs : memWf s.mem = true) : memWf (s.preempt die v).mem = true := by
  grind [State.preempt, State.modStrand_mem, State.endLaunch_memWf, foldl_memWf]

theorem State.preemptCheck_memWf (s : State) (die : Nat) (hs : memWf s.mem = true) : memWf (s.preemptCheck die).mem = true := by
  grind [State.preemptCheck, State.modShare_mem, State.scanAll_memWf, State.preempt_memWf, foldl_memWf]

/-! ### Paging: what keeps the canonical form -/

/-- One level of the walk that writes a leaf: here is the leaf, or the walk goes down by an entry that there is or by a table that is taken now. -/
theorem State.writeLeaf_succ (die va target leaf n level table : Nat) (s : State) :
    State.writeLeaf die va target leaf (n + 1) level table s =
    let a := hbmAddr die (table + 16 * vaIndex va level)
    if level = target then some (s.poke a 16 leaf)
    else
      let e := Pte.ofNat (s.read a 16)
      if e.v && e.leaf then none
      else if e.v then State.writeLeaf die va target leaf n (level + 1) e.pa s
      else
        (s.allocOs die 8192).bind (fun x => State.writeLeaf die va target leaf n (level + 1) x.1 (x.2.poke a 16 (x.1 + 1))) := by
  have unrolled := congrFun (congrFun (congrFun (Nat.brecOn.eq (n + 1) (State.writeLeaf._f die va target leaf)) level) table) s
  have hrec : State.writeLeaf die va target leaf n = (Nat.brecOn.go (n + 1) (State.writeLeaf._f die va target leaf)).2.1 := by
    delta State.writeLeaf
    rfl
  rw [hrec]
  delta State.writeLeaf
  refine unrolled.trans ?_
  generalize Nat.brecOn.go (n + 1) _ = b
  obtain ⟨_, f, _⟩ := b
  delta State.writeLeaf._f
  dsimp only
  cases s.allocOs die 8192 <;> rfl

theorem State.writeLeaf_memWf (die va target leaf n level table : Nat) (s : State) (hs : memWf s.mem = true) {s' : State}
    (e : State.writeLeaf die va target leaf n level table s = some s') : memWf s'.mem = true := by
  induction n generalizing level table s with
  | zero => cases e
  | succ n ih =>
    rw [State.writeLeaf_succ] at e
    dsimp only at e
    split at e
    · obtain rfl := Option.some.inj e
      exact s.poke_memWf _ _ _ hs
    · split at e
      · cases e
      · split at e
        · exact ih _ _ _ hs e
        · obtain ⟨x, hx, hu⟩ := Option.bind_eq_some_iff.mp e
          exact ih _ _ _ (State.poke_memWf _ _ _ _ (s.allocOs_memWf _ _ hs hx)) hu

theorem State.rootOf_memWf (s : State) (die tcid : Nat) (hs : memWf s.mem = true) {p : Nat × State} (e : s.rootOf die tcid = some p) :
    memWf p.2.mem = true := by
  unfold State.rootOf at e
  split at e
  · obtain rfl := Option.some.inj e
    exact hs
  · obtain ⟨x, hx, rfl⟩ := Option.map_eq_some_iff.mp e
    rw [State.modCtx_mem]
    exact s.allocOs_memWf _ _ hs hx

theorem State.mapLeaf_memWf (s : State) (die tcid va level leaf : Nat) (hs : memWf s.mem = true) {s' : State}
    (e : s.mapLeaf die tcid va level leaf = some s') : memWf s'.mem = true := by
  obtain ⟨x, hx, hu⟩ := Option.bind_eq_some_iff.mp e
  exact State.writeLeaf_memWf _ _ _ _ _ _ _ _ (s.rootOf_memWf _ _ hs hx) hu

/-- Leaves mapped one after another, until one finds no room. -/
theorem State.mapLeaves_memWf (die tcid : Nat) (va level leaf : State → Nat → Nat) (l : List Nat) (o : Option State)
    (ho : ∀ s, o = some s → memWf s.mem = true) {s' : State}
    (e : l.foldl (fun (o : Option State) i => o.bind (fun s => s.mapLeaf die tcid (va s i) (level s i) (leaf s i))) o = some s') :
    memWf s'.mem = true := by
  induction l generalizing o with
  | nil => exact ho s' e
  | cons i r ih =>
    refine ih _ (fun v hv => ?_) e
    obtain ⟨s, hs, hv⟩ := Option.bind_eq_some_iff.mp hv
    exact s.mapLeaf_memWf _ _ _ _ _ (ho s hs) hv

theorem State.finishStores_memWf (s : State) (die tcid va size : Nat) (all : Bool) (hs : memWf s.mem = true) :
    memWf (s.finishStores die tcid va size all).mem = true := by
  grind [State.finishStores, State.storeHome_memWf, foldl_memWf]

theorem State.finishXacts_memWf (s : State) (hs : memWf s.mem = true) : memWf (s.finishXacts).mem = true := by
  grind [State.finishXacts, State.homeWrite_memWf, foldl_memWf]

theorem State.invalidate_memWf (s : State) (die tcid va size : Nat) (all : Bool) (hs : memWf s.mem = true) :
    memWf (s.invalidate die tcid va size all).mem = true := by
  grind [State.invalidate, State.modDie_mem, State.finishStores_memWf, State.finishXacts_memWf]

theorem State.changeLeaf_memWf (s : State) (die tcid va : Nat) (f : Nat → Nat → Nat) (hs : memWf s.mem = true) :
    memWf (s.changeLeaf die tcid va f).mem = true := by
  grind [State.changeLeaf, State.poke_memWf, State.invalidate_memWf, foldl_memWf]

theorem State.remapPage_memWf (s : State) (die tcid va : Nat) (hs : memWf s.mem = true) : memWf (s.remapPage die tcid va).mem = true := by
  grind [State.remapPage, State.changeLeaf_memWf]

theorem State.servePage_memWf (s : State) (die tcid va : Nat) (hs : memWf s.mem = true) {s' : State} (e : s.servePage die tcid va = some s') :
    memWf s'.mem = true := by
  unfold State.servePage at e
  dsimp only at e
  split at e
  · cases e
  · split at e
    · cases e
    · obtain ⟨pa, -, he⟩ := Option.bind_eq_some_iff.mp e
      obtain ⟨v, hv, rfl⟩ := Option.map_eq_some_iff.mp he
      have hv' := State.mapLeaf_memWf _ _ _ _ _ _ (s.zeroRange_memWf _ _ hs) hv
      exact State.invalidate_memWf _ _ _ _ _ _ hv'

theorem State.copyPage_memWf (s : State) (a dst size : Nat) (hs : memWf s.mem = true) : memWf (s.copyPage a dst size).mem = true := by
  grind [State.copyPage, State.pokeCells_memWf, State.zeroRange_memWf, foldl_memWf]

theorem State.fetchPage_memWf (s : State) (home dst size : Nat) (hs : memWf s.mem = true) : memWf (s.fetchPage home dst size).mem = true := by
  grind [State.fetchPage, State.pokeBytes_memWf]

theorem State.moveLeaf_memWf (s : State) (u : LeafUse) (aper pa home : Nat) (hs : memWf s.mem = true) :
    memWf (s.moveLeaf u aper pa home).mem = true := by
  grind [State.moveLeaf, State.poke_memWf, State.invalidate_memWf]

theorem State.moveUses_memWf (s : State) (home pa size die dst : Nat) (hs : memWf s.mem = true) :
    memWf (s.moveUses home pa size die dst).mem = true := by
  grind [State.moveUses, State.moveLeaf_memWf, foldl_memWf]

theorem State.quiet_memWf (s : State) (home pa size : Nat) (hs : memWf s.mem = true) : memWf (s.quiet home pa size).mem = true := by
  grind [State.quiet, State.finishXacts_memWf, State.invalidate_memWf, foldl_memWf]

theorem State.migratePage_memWf (s : State) (die tcid va : Nat) (hs : memWf s.mem = true) {s' : State} (e : s.migratePage die tcid va = some s') :
    memWf s'.mem = true := by
  unfold State.migratePage at e
  split at e
  · cases e
  · dsimp only at e
    split at e
    · cases e
    · obtain ⟨dst, -, rfl⟩ := Option.map_eq_some_iff.mp e
      refine State.moveUses_memWf _ _ _ _ _ _ ?_
      have hq := s.quiet_memWf
      split
      · exact State.zeroRange_memWf _ _ _ (State.copyPage_memWf _ _ _ _ (hq _ _ _ hs))
      · exact State.fetchPage_memWf _ _ _ _ (hq _ _ _ hs)

theorem State.faultPolicy_memWf (s : State) (die tcid va : Nat) (hs : memWf s.mem = true) {s' : State} (e : s.faultPolicy die tcid va = some s') :
    memWf s'.mem = true := by
  grind [State.faultPolicy, State.modCtx_mem, State.remapPage_memWf, State.migratePage_memWf]

/-! ### Traps: what keeps the canonical form -/

theorem State.osKill_memWf (s : State) (k : Nat) (p : Pending) (hs : memWf s.mem = true) : memWf (s.osKill k p).mem = true := by
  grind [State.osKill, State.endLaunch_memWf]

theorem State.osServed_memWf (s : State) (k : Nat) (hs : memWf s.mem = true) : memWf (s.osServed k).mem = true := by
  grind [State.osServed, State.modStrand_mem, State.resave_memWf]

theorem State.osEmulate_memWf (s : State) (k : Nat) (p : Pending) (hs : memWf s.mem = true) : memWf (s.osEmulate k p).mem = true := by
  grind [State.osEmulate, State.modStrand_mem, State.emulate_memWf, foldl_memWf]

theorem State.osPage_memWf (s : State) (k : Nat) (p : Pending) (hs : memWf s.mem = true) : memWf (s.osPage k p).mem = true := by
  unfold State.osPage
  extract_lets t va held fails n s₁
  have h₁ : memWf s₁.mem = true := hs
  split
  · exact s.osServed_memWf k hs
  · split
    · cases e : s₁.servePage t.die t.tcid va with
      | some s' => exact s'.osServed_memWf k (s₁.servePage_memWf _ _ _ h₁ e)
      | none => exact s₁.osKill_memWf k p h₁
    · exact s₁.osKill_memWf k p h₁

theorem State.osAct_memWf (s : State) (k : Nat) (hs : memWf s.mem = true) : memWf (s.osAct k).mem = true := by
  grind [State.osAct, State.modStrand_mem, State.faultPolicy_memWf, State.osKill_memWf, State.osServed_memWf, State.osEmulate_memWf,
    State.osPage_memWf]

theorem State.landReds_memWf (s : State) (k : Nat) (hs : memWf s.mem = true) : memWf (s.landReds k).mem = true := by
  grind [State.landReds, State.modStrand_mem, State.landOne_memWf, foldl_memWf]

theorem State.saveComplete_memWf (s : State) (k : Nat) (hs : memWf s.mem = true) : memWf (s.saveComplete k).mem = true := by
  grind [State.saveComplete, State.assignArea_memWf, State.writeImage_memWf, State.gangTidy_mem, State.shareBack_mem, State.scanAll_memWf,
    State.osAct_memWf, State.takeFills_mem, State.leaveFrame_mem, State.landReds_memWf]

theorem State.hailDone_memWf (s : State) (caller status : Nat) (s2 : Option Nat) (hs : memWf s.mem = true) :
    memWf (s.hailDone caller status s2).mem = true := by
  grind [State.hailDone, State.modStrand_mem, State.osServed_memWf]

theorem State.endService_memWf (s : State) (caller : Nat) (hs : memWf s.mem = true) : memWf (s.endService caller).mem = true := by
  grind [State.endService, State.modLaunch_mem, State.stopStrand_memWf, State.shareDone_memWf, State.scanAll_memWf, State.hailDone_memWf]

/-! ### Sched: what keeps the canonical form -/

theorem State.energyRefill_memWf (s : State) (die : Nat) (hs : memWf s.mem = true) : memWf (s.energyRefill die).mem = true := by
  grind [State.energyRefill, State.modDie_mem, State.scan_memWf, State.fairWindow_mem, State.energyReady_mem]

/-! ### Fabric: what keeps the canonical form -/

theorem State.xactServe_memWf (s : State) (x : Xact) (dst : Dest') (hs : memWf s.mem = true) : memWf (s.xactServe x dst).mem = true := by
  grind [State.xactServe, touchDest_memWf, State.chargeServed_mem]

theorem State.xactPerform_memWf (s : State) (x : Xact) (dst : Dest') (hs : memWf s.mem = true) : memWf (s.xactPerform x dst).mem = true := by
  grind [State.xactPerform, rmwEls_memWf, State.xactOld_mem, State.xactServe_memWf]

theorem State.xactFail_memWf (s : State) (xid m : Nat) (x : Xact) (c : Cause) (v : Word) (hs : memWf s.mem = true) :
    memWf (s.xactFail xid m x c v).mem = true := by
  grind [State.xactFail, State.modWin_mem, State.writeFlt_mem, State.jobEnd_memWf, State.modXact_mem, State.setCopy_mem, State.loseCopy_mem]

theorem State.berthBytes_memWf (s : State) (die tcid off : Nat) (bs : List Byte) (hs : memWf s.mem = true) :
    memWf (s.berthBytes die tcid off bs).mem = true := by
  grind [State.berthBytes, touchLeaf_memWf, State.deviceWrite_memWf, foldl_memWf]

theorem State.berthAppend_memWf (s : State) (die tcid : Nat) (rec' : List Byte) (hs : memWf s.mem = true) {s' : State}
    (e : s.berthAppend die tcid rec' = some s') :
    memWf s'.mem = true := by
  grind [State.berthAppend, State.modCtx_mem, State.berthBytes_memWf]

theorem State.berthRecs_memWf (s : State) (die tcid : Nat) (rs : List (List Byte)) (hs : memWf s.mem = true) :
    memWf (s.berthRecs die tcid rs).2.mem = true := by
  induction rs generalizing s with
  | nil => exact hs
  | cons r rs ih => grind [State.berthRecs, State.berthAppend_memWf]

theorem State.berthArrive_memWf (s : State) (die tcid id m cl : Nat) (frag : Bool) (recs : List (List Byte)) (hs : memWf s.mem = true) :
    memWf (s.berthArrive die tcid id m cl frag recs).2.mem = true := by
  grind [State.berthArrive, State.modCtx_mem, State.berthRecs_memWf]

theorem State.xactUnits_memWf (s : State) (xid m rdie : Nat) (x : Xact) (dst : Dest') (ps : List (Nat × Nat × Nat)) (hs : memWf s.mem = true) :
    memWf (s.xactUnits xid m rdie x dst ps).mem = true := by
  grind [State.xactUnits, State.homeWrite_memWf, State.modXact_mem, State.xactDone_mem]

theorem State.xactArrive_memWf (s : State) (xid m rdie : Nat) (x : Xact) (dst : Dest') (hs : memWf s.mem = true) :
    memWf (s.xactArrive xid m rdie x dst).mem = true := by
  grind [State.xactArrive, State.xactServe_memWf, State.xactPerform_memWf, State.xactFail_memWf, State.xactDrop_mem, State.berthArrive_memWf,
    State.xactTaken_mem, State.xactDone_mem, State.xactUnits_memWf]

theorem State.xactAway_memWf (s : State) (xid m : Nat) (x : Xact) (dst : Dest') (hs : memWf s.mem = true) :
    memWf (s.xactAway xid m x dst).mem = true := by
  grind [State.xactAway, State.partDrop_mem, State.setCopy_mem, State.xactOld_mem, State.xactFail_memWf, State.xactDrop_mem]

theorem State.windowArrival_memWf (s : State) (xid m : Nat) (hs : memWf s.mem = true) : memWf (s.windowArrival xid m).mem = true := by
  unfold State.windowArrival
  split
  · exact hs
  · split
    · split
      · exact s.xactAway_memWf _ _ _ _ hs
      · refine memWf_ite (s.xactArrive_memWf _ _ _ _ _ hs) (memWf_ite hs ?_)
        rwa [State.setCopy_mem]
    · exact hs

theorem State.clearDone_memWf (s : State) (die tcid win : Nat) (hs : memWf s.mem = true) : memWf (s.clearDone die tcid win).mem = true := by
  grind [State.clearDone, State.report_mem, State.modWin_mem, State.hailDone_memWf, foldl_memWf]

theorem State.resyncSend_memWf (s : State) (die tcid win m : Nat) (hs : memWf s.mem = true) : memWf (s.resyncSend die tcid win m).mem = true := by
  grind [State.resyncSend, State.modWin_mem, State.clearDone_memWf]

theorem State.clearBegin_memWf (s : State) (die tcid win : Nat) (cmd : Bool) (hs : memWf s.mem = true) :
    memWf (s.clearBegin die tcid win cmd).2.mem = true := by
  grind [State.clearBegin, State.modWin_mem, State.xactUncertain_mem, State.clearDone_memWf, foldl_memWf]

theorem State.fragSettled_memWf (s : State) (f : Frag) (fid : Nat) (hs : memWf s.mem = true) : memWf (s.fragSettled f fid).mem = true := by
  grind [State.fragSettled, State.setFlag_memWf, State.engineDone_mem]

theorem State.loseFrags_memWf (s : State) (hs : memWf s.mem = true) : memWf (s.loseFrags).mem = true := by
  grind [State.loseFrags, State.modWin_mem, State.fragSettled_memWf, foldl_memWf]

theorem State.fragTouchDest_memWf (s : State) (f : Frag) (dst : Dest') (hs : memWf s.mem = true) : memWf (s.fragTouchDest f dst).mem = true := by
  grind [State.fragTouchDest, touchDest_memWf]

theorem State.engineWrites_memWf (s : State) (die : Nat) (ps : List (Nat × List Byte)) (hs : memWf s.mem = true) :
    memWf (s.engineWrites die ps).2.mem = true :=
  foldl_memWf_of (fun p : List Nat × State => p.2) _ (fun p _ hp => p.2.deviceWrite_memWf _ _ _ _ hp) _ _ hs

theorem State.receiverFlag_memWf (s : State) (die tcid nidx rflag : Nat) (wids : List Nat) (hs : memWf s.mem = true) :
    memWf (s.receiverFlag die tcid nidx rflag wids).mem = true := by
  grind [State.receiverFlag, State.modCtx_mem, State.setFlag_memWf]

theorem State.fragOver_memWf (s : State) (fid : Nat) (hs : memWf s.mem = true) : memWf (s.fragOver fid).mem = true := by
  grind [State.fragOver, State.fragSettled_memWf]

theorem State.fragFail_memWf (s : State) (fid m : Nat) (f : Frag) (c : Cause) (v : Word) (hs : memWf s.mem = true) :
    memWf (s.fragFail fid m f c v).mem = true := by
  grind [State.fragFail, State.raiseCe_memWf, State.writeFlt_mem, State.modFrag_mem, State.fragOver_memWf]

theorem State.fragWrites_memWf (s : State) (f : Frag) (dst : Dest') (rd : Nat) (ps : List (Nat × List Byte)) (hs : memWf s.mem = true) :
    memWf (s.fragWrites f dst rd ps).2.mem = true := by
  grind [State.fragWrites, State.chargeServed_mem, State.fragTouchDest_memWf, State.engineWrites_memWf]

theorem State.groupDone_memWf (s : State) (gid : Nat) (g : RGroup) (f : Frag) (dst : Dest') (hs : memWf s.mem = true) :
    memWf (s.groupDone gid g f dst).mem = true := by
  grind [State.groupDone, State.gangArrive_mem, State.receiverFlag_memWf, State.fragWrites_memWf]

theorem State.credTaken_memWf (s : State) (fid m rd : Nat) (f : Frag) (dst : Dest') (op : Nat) (hs : memWf s.mem = true) :
    memWf (s.credTaken fid m rd f dst op).mem = true := by
  grind [State.credTaken, State.modCtx_mem, State.fresh_mem, State.modFrag_mem, State.groupDone_memWf]

theorem State.csendTaken_memWf (s : State) (fid m rd : Nat) (f : Frag) (dst : Dest') (ps : List (Nat × List Byte)) (hs : memWf s.mem = true) :
    memWf (s.csendTaken fid m rd f dst ps).mem = true := by
  grind [State.csendTaken, State.gangArrive_mem, State.receiverFlag_memWf, State.modFrag_mem, State.fragWrites_memWf]

theorem State.fragMiss_memWf (s : State) (fid m : Nat) (f : Frag) (dst : Dest') (c : Cause) (v : Word) (hs : memWf s.mem = true) :
    memWf (s.fragMiss fid m f dst c v).mem = true := by
  grind [State.fragMiss, State.partDrop_mem, State.fragFail_memWf]

theorem State.fragArrive_memWf (s : State) (fid m rd : Nat) (f : Frag) (dst : Dest') (hs : memWf s.mem = true) :
    memWf (s.fragArrive fid m rd f dst).mem = true := by
  grind [State.fragArrive, State.gangArrive_mem, State.admitUnits_mem, State.berthArrive_memWf, State.modFrag_mem, State.credTaken_memWf,
    State.csendTaken_memWf, State.fragMiss_memWf]

theorem State.fragAway_memWf (s : State) (fid m : Nat) (f : Frag) (dst : Dest') (hs : memWf s.mem = true) :
    memWf (s.fragAway fid m f dst).mem = true := by
  grind [State.fragAway, State.partDrop_mem, State.modFrag_mem, State.fragFail_memWf, State.fragMiss_memWf]

theorem State.fragmentArrival_memWf (s : State) (fid m : Nat) (hs : memWf s.mem = true) : memWf (s.fragmentArrival fid m).mem = true := by
  grind [State.fragmentArrival, State.fragArrive_memWf, State.fragAway_memWf]

theorem State.fragmentAck_memWf (s : State) (fid m : Nat) (hs : memWf s.mem = true) : memWf (s.fragmentAck fid m).mem = true := by
  grind [State.fragmentAck, State.modDie_mem, State.modFrag_mem, State.fragOver_memWf]

theorem State.zeroRegions_memWf (s : State) (die tcid : Nat) (hs : memWf s.mem = true) : memWf (s.zeroRegions die tcid).mem = true := by
  grind [State.zeroRegions, State.zeroRange_memWf, foldl_memWf]

theorem State.evictArea_memWf (s : State) (die tcid : Nat) (hs : memWf s.mem = true) {p : Nat × State} (e : s.evictArea die tcid = some p) :
    memWf p.2.mem = true := by
  unfold State.evictArea at e
  dsimp only at e
  split at e
  · obtain rfl := Option.some.inj e
    exact hs
  · obtain ⟨x, hx, rfl⟩ := Option.map_eq_some_iff.mp e
    dsimp only
    exact s.allocOs_memWf _ _ hs hx

theorem State.copyCells_memWf (s : State) (r : Nat × Nat) (a : Nat) (hs : memWf s.mem = true) : memWf (s.copyCells r a).mem = true := by
  grind [State.copyCells, State.pokeCells_memWf]

theorem State.evict_memWf (s : State) (die tcid : Nat) (hs : memWf s.mem = true) : memWf (s.evict die tcid).mem = true := by
  unfold State.evict
  dsimp only
  split
  · exact hs
  · split
    · exact hs
    · next a u e =>
      have hu : memWf u.mem = true := s.evictArea_memWf _ _ hs e
      rw [State.modCtx_mem]
      refine State.zeroRegions_memWf _ _ _ (foldl_memWf _ (fun s p h => ?_) _ _ (u.finishXacts_memWf hu))
      exact State.copyCells_memWf _ _ _ (s.zeroRange_memWf _ _ h)

theorem State.berthTouch_memWf (s : State) (die tcid off n : Nat) (hs : memWf s.mem = true) : memWf (s.berthTouch die tcid off n).mem = true := by
  grind [State.berthTouch, touchLeaf_memWf, foldl_memWf]

theorem State.berthTake_memWf (s : State) (die tcid : Nat) (r : BerthRef) (hd : List Byte) (wid : Nat) (hs : memWf s.mem = true) :
    memWf (s.berthTake die tcid r hd wid).mem = true := by
  unfold State.berthTake
  extract_lets b wids
  refine memWf_ite (s.receiverFlag_memWf _ _ _ _ _ hs) (memWf_ite hs ?_)
  cases e : s.handlerArrive die tcid (b 6 % 16) wids with
  | none => exact hs
  | some s' => exact (s.handlerArrive_mem _ _ _ _ e).symm ▸ hs

theorem State.berthWrite_memWf (s : State) (w : Writer) (r : BerthRef) (a : Nat) (pay : List Byte) (hs : memWf s.mem = true) :
    memWf (s.berthWrite w r a pay).2.mem = true := by
  grind [State.berthWrite, State.publishUnits_mem, State.homeWrite_memWf]

theorem State.berthOne_memWf (s : State) (die tcid : Nat) (r : BerthRef) (hd pay : List Byte) (hs : memWf s.mem = true) :
    memWf (s.berthOne die tcid r hd pay).2.mem = true := by
  grind [State.berthOne, State.berthTake_memWf, State.berthLast_mem, State.berthWriter_mem, State.berthCheck_mem, State.berthWrite_memWf]

theorem State.berthDeliver_memWf (die tcid n : Nat) (s : State) (hs : memWf s.mem = true) : memWf (State.berthDeliver die tcid n s).2.mem = true := by
  induction n generalizing s with
  | zero => exact hs
  | succ n ih =>
    simp only [State.berthDeliver]
    split
    · exact hs
    · split
      · exact ih _ hs
      · exact ih _ (State.berthOne_memWf _ _ _ _ _ _ (s.berthTouch_memWf _ _ _ _ hs))

theorem State.berthRelease_memWf (s : State) (die tcid : Nat) (hs : memWf s.mem = true) : memWf (s.berthRelease die tcid).mem = true := by
  grind [State.berthRelease, State.modCtx_mem, State.windowArrival_memWf, State.fragmentArrival_memWf, foldl_memWf]

theorem State.bringIn_memWf (s : State) (die tcid : Nat) (hs : memWf s.mem = true) {s' : State} (e : s.bringIn die tcid = some s') :
    memWf s'.mem = true := by
  obtain ⟨v, hv, rfl⟩ := Option.map_eq_some_iff.mp e
  have hv' : memWf v.mem = true := by rwa [State.allocRegions_mem _ _ _ _ _ hv, State.modCtx_mem]
  refine State.berthRelease_memWf _ _ _ (foldl_memWf _ (fun s k h => ?_) _ _ (State.berthDeliver_memWf _ _ _ _ ?_))
  · rwa [State.modStrand_mem]
  · split
    · refine foldl_memWf _ (fun s p h => ?_) _ _ hv'
      exact State.zeroRange_memWf _ _ _ (State.copyCells_memWf _ _ _ (s.zeroRange_memWf _ _ h))
    · exact hv'

theorem State.bringBack_memWf (s : State) (die tcid : Nat) (hs : memWf s.mem = true) : memWf (s.bringBack die tcid).mem = true := by
  grind [State.bringBack, State.scan_memWf, State.bringIn_memWf]

/-! ### Restore: what keeps the canonical form -/

theorem State.restoreAt_memWf (s : State) (k die tcid core : Nat) (hs : memWf s.mem = true) : memWf (s.restoreAt k die tcid core).mem = true := by
  grind [State.restoreAt, State.modStrand_mem, State.zeroRange_memWf, State.placeAt_mem, State.freeCore_mem, State.shareDone_memWf,
    State.loadImage_memWf, State.shareHere_mem, State.scanAll_memWf]

theorem State.withRegions_memWf (s : State) (die tcid : Nat) (hs : memWf s.mem = true) {s' : State} (e : s.withRegions die tcid = some s') :
    memWf s'.mem = true := by
  grind [State.withRegions, State.bringIn_memWf]

theorem State.restoreTo_memWf (s : State) (k die serial : Nat) (hs : memWf s.mem = true) : memWf (s.restoreTo k die serial).2.mem = true := by
  unfold State.restoreTo
  dsimp only
  split
  · exact hs
  · split
    · exact hs
    · split
      · exact hs
      · next tc v e =>
        obtain ⟨tc', -, he⟩ := Option.bind_eq_some_iff.mp e
        obtain ⟨w, hw, hvw⟩ := Option.map_eq_some_iff.mp he
        obtain ⟨rfl, rfl⟩ := Prod.mk.inj hvw
        have hv : memWf w.mem = true := s.withRegions_memWf _ _ hs hw
        split
        · exact hs
        · exact hs
        · split
          · exact State.scanAll_memWf _ (s.loseStrand_memWf k hs)
          · have hr (c : Nat) (n : Nat) : memWf (({ w with nfree := n } : State).restoreAt k die tc' c).mem = true :=
              State.restoreAt_memWf _ _ _ _ _ hv
            dsimp only
            split
            · exact hr _ _
            · exact State.scan_memWf _ _ (hr _ _)

theorem State.restore_memWf (s : State) (k die serial : Nat) (hs : memWf s.mem = true) : memWf (s.restore k die serial).mem = true := by
  grind [State.restore, State.restoreTo_memWf]

theorem State.hailRestored_memWf (s : State) (caller st : Nat) (hs : memWf s.mem = true) : memWf (s.hailRestored caller st).mem = true := by
  grind [State.hailRestored, State.hailDone_memWf]

theorem State.resumeService_memWf (s : State) (caller : Nat) (hs : memWf s.mem = true) : memWf (s.resumeService caller).mem = true := by
  grind [State.resumeService, State.hailDone_memWf, State.restoreTo_memWf, State.hailRestored_memWf]

theorem State.redirectService_memWf (s : State) (caller : Nat) (hs : memWf s.mem = true) : memWf (s.redirectService caller).mem = true := by
  grind [State.redirectService, State.modStrand_mem, State.hailDone_memWf, State.restoreTo_memWf, State.hailRestored_memWf]

/-! ### Queues: what keeps the canonical form -/

theorem State.queueError_memWf (s : State) (die pq st : Nat) (f : Queue → Queue) (hs : memWf s.mem = true) :
    memWf (s.queueError die pq st f).mem = true := by
  grind [State.queueError, State.noticeWrite_memWf, State.modQueue_mem]

theorem State.queueBad_memWf (s : State) (die pq : Nat) (hs : memWf s.mem = true) : memWf (s.queueBad die pq).mem = true := by
  grind [State.queueBad, State.queueError_memWf]

theorem State.touchTenant_memWf (s : State) (die tcid va n : Nat) (hs : memWf s.mem = true) : memWf (s.touchTenant die tcid va n).mem = true := by
  grind [State.touchTenant, touchLeaf_memWf, foldl_memWf]

theorem State.bellJudge_memWf (s : State) (m : BellMsg) (pq : Nat) (c : Qcb) (hs : memWf s.mem = true) : memWf (s.bellJudge m pq c).mem = true := by
  have modQueue (f : Queue → Queue) : memWf (s.modQueue m.die pq f).mem = true := by rwa [State.modQueue_mem]
  unfold State.bellJudge
  extract_lets q seq reject d
  exact memWf_ite (modQueue _) (memWf_ite (modQueue _) (memWf_ite (s.queueError_memWf _ _ _ _ hs) (memWf_ite (modQueue _) (modQueue _))))

theorem State.bellTake_memWf (s : State) (m : BellMsg) (hs : memWf s.mem = true) : memWf (s.bellTake m).mem = true := by
  grind [State.bellTake, State.modDie_mem, State.modQueue_mem, State.queueBad_memWf, State.touchTenant_memWf, State.bellJudge_memWf]

theorem State.bellAway_memWf (s : State) (id : Nat) (f : BellFly) (hs : memWf s.mem = true) : memWf (s.bellAway id f).mem = true := by
  grind [State.bellAway, State.partDrop_mem, State.raiseCe_memWf, State.writeFlt_mem, State.engineDone_mem]

theorem State.bellArrive_memWf (s : State) (m : BellMsg) (hs : memWf s.mem = true) : memWf (s.bellArrive m).mem = true := by
  grind [State.bellArrive, State.modDie_mem, State.bellTake_memWf, State.bellDone_mem, State.bellAway_memWf]

theorem State.bellRelease_memWf (s : State) (die : Nat) (hs : memWf s.mem = true) : memWf (s.bellRelease die).mem = true := by
  grind [State.bellRelease, State.modDie_mem, State.bellTake_memWf, State.bellDone_mem, foldl_memWf]

theorem State.takeEntry_memWf (s : State) (die l pq : Nat) (hs : memWf s.mem = true) : memWf (s.takeEntry die l pq).mem = true := by
  grind [State.takeEntry, State.modDie_mem, State.queueError_memWf, State.queueBad_memWf, State.touchTenant_memWf]

theorem State.pilotEntry_memWf (s : State) (die l : Nat) (hs : memWf s.mem = true) : memWf (s.pilotEntry die l).mem = true := by
  grind [State.pilotEntry, State.takeEntry_memWf]

theorem State.emitCopy_memWf (s : State) (die tcid qslot idx va : Nat) (hs : memWf s.mem = true) {s' : State}
    (e : s.emitCopy die tcid qslot idx va = some s') :
    memWf s'.mem = true := by
  grind [State.emitCopy, State.fresh_mem, State.noticeWrite_memWf, State.touchTenant_memWf]

theorem State.performEmit_memWf (s : State) (die pq : Nat) (c : Qcb) (e : Emit) (hs : memWf s.mem = true) {s' : State}
    (h : s.performEmit die pq c e = some s') : memWf s'.mem = true := by
  cases e with
  | launch va => cases h; exact s.launchSubmit_memWf _ _ _ _ hs
  | copy va => exact s.emitCopy_memWf _ _ _ _ _ hs h
  | _ => cases h; exact hs

/-! ### Peers: what keeps the canonical form -/

theorem State.peerAccess_memWf (s : State) (p : Inbound) (rd : Nat) (w : BitVec 32) (kind : ReqKind) (els : List El) (hs : memWf s.mem = true) :
    memWf (s.peerAccess p rd w kind els).mem = true := by
  grind [State.peerAccess, State.fresh_mem, State.xactServe_memWf, State.windowArrival_memWf, State.peerWin_mem]

theorem State.peerFragment_memWf (s : State) (p : Inbound) (w : BitVec 32) (off : Nat) (bytes : List Byte) (op : Option Nat)
    (tag ncon rflag nidx : Nat) (hs : memWf s.mem = true) :
    memWf (s.peerFragment p w off bytes op tag ncon rflag nidx).mem = true := by
  grind [State.peerFragment, State.fresh_mem, State.fragmentArrival_memWf, State.peerWin_mem]

theorem State.peerBell_memWf (s : State) (p : Inbound) (rd : Nat) (w : BitVec 32) (sqid tail : Nat) (data : Word) (hs : memWf s.mem = true) :
    memWf (s.peerBell p rd w sqid tail data).mem = true := by
  grind [State.peerBell, State.fresh_mem, State.bellArrive_memWf]

theorem State.peerMemory_memWf (s : State) (p : Inbound) (rd : Nat) (kind : ReqKind) (els : List El) (hs : memWf s.mem = true) :
    memWf (s.peerMemory p rd kind els).mem = true := by
  unfold State.peerMemory
  dsimp only
  split
  · exact hs
  · split
    · exact hs
    · exact State.homeWrite_memWf _ _ _ hs
    · exact rmwEls_memWf _ _ _ _ _ _ hs

theorem State.peerAct_memWf (s : State) (p : Inbound) (rd : Nat) (w : BitVec 32) (hs : memWf s.mem = true) : memWf (s.peerAct p rd w).mem = true := by
  grind [State.peerAct, State.publish_mem, State.peerAccess_memWf, State.peerFilter_mem, State.peerFragment_memWf, State.peerBell_memWf,
    State.peerMemory_memWf]

theorem State.inbound_memWf (s : State) (p : Inbound) (hs : memWf s.mem = true) : memWf (s.inbound p).mem = true := by
  grind [State.inbound, State.modDie_mem, State.countDrop_mem, State.peerAct_memWf]

/-! ### Harbour: what keeps the canonical form -/

theorem State.ctxStop_memWf (s : State) (die tcid : Nat) (hs : memWf s.mem = true) : memWf (s.ctxStop die tcid).mem = true := by
  grind [State.ctxStop, State.modDie_mem, State.killJob_memWf, State.stopStrand_memWf, foldl_memWf]

theorem State.ctxError_memWf (s : State) (die tcid : Nat) (hs : memWf s.mem = true) : memWf (s.ctxError die tcid).mem = true := by
  grind [State.ctxError, State.modCtx_mem, State.scanAll_memWf, State.ctxStop_memWf]

theorem State.ctxDrain_memWf (s : State) (die tcid : Nat) (hs : memWf s.mem = true) : memWf (s.ctxDrain die tcid).mem = true := by
  grind [State.ctxDrain, State.windowArrival_memWf, foldl_memWf]

theorem State.berthDrop_memWf (s : State) (die tcid : Nat) (hs : memWf s.mem = true) : memWf (s.berthDrop die tcid).mem = true := by
  grind [State.berthDrop, State.zeroRange_memWf, State.settleXact_mem, State.setCopy_mem, State.modFrag_mem, foldl_memWf]

theorem State.ctxRelease_memWf (s : State) (die tcid : Nat) (hs : memWf s.mem = true) : memWf (s.ctxRelease die tcid).mem = true := by
  grind [State.ctxRelease, State.modDie_mem, State.zeroRange_memWf, State.scanAll_memWf, State.finishXacts_memWf, State.zeroRegions_memWf,
    State.setPermits_mem, State.berthDrop_memWf, State.tidyGroups_mem]

theorem State.resetLaunch_memWf (s : State) (die lid : Nat) (hs : memWf s.mem = true) : memWf (s.resetLaunch die lid).mem = true := by
  grind [State.resetLaunch, State.modDie_mem, State.modLaunch_mem, State.writeRecord_memWf, foldl_memWf]

theorem State.tenantReset_memWf (s : State) (die tcid : Nat) (hs : memWf s.mem = true) : memWf (s.tenantReset die tcid).mem = true := by
  grind [State.tenantReset, State.zeroRange_memWf, State.ctxStop_memWf, State.ctxDrain_memWf, State.peersTold_mem, State.ctxRelease_memWf,
    State.resetLaunch_memWf, foldl_memWf]

/-- A request in a session, whose answer keeps the canonical form. -/
theorem State.spdm_memWf (s : State) (q : Spdm) (f : State → State) (hf : ∀ s, memWf s.mem = true → memWf (f s).mem = true)
    (hs : memWf s.mem = true) : memWf (s.spdm q f).mem = true := by
  unfold State.spdm
  split
  · exact hs
  · split
    · split
      · exact hf _ hs
      · exact hs
    · split
      · exact hf _ (by simpa using hs)
      · exact hs

theorem State.spdmAnswer_memWf (s : State) (kind : Nat) (q : Spdm) (hs : memWf s.mem = true) : memWf (s.spdmAnswer kind q).mem = true :=
  s.spdm_memWf q _ (fun _ h => h) hs

theorem State.sessionOnly_memWf (s : State) (kind : Nat) (q : Spdm) (hs : memWf s.mem = true) : memWf (s.sessionOnly kind q).mem = true := by
  refine s.spdm_memWf q _ (fun _ h => ?_) hs
  split
  · exact h
  · exact h

theorem State.sessionEnd_memWf (s : State) (die sess : Nat) (hs : memWf s.mem = true) : memWf (s.sessionEnd die sess).mem = true := by
  grind [State.sessionEnd, State.modDie_mem, State.ctxRelease_memWf, foldl_memWf]

theorem State.reserve_memWf (s : State) (t : Nat) (r : LockReq) (hs : memWf s.mem = true) {s' : State} (e : s.reserve t r = some s') :
    memWf s'.mem = true := by
  obtain ⟨-, h⟩ := Option.ite_none_left_eq_some.mp e
  obtain ⟨v, hv, rfl⟩ := Option.map_eq_some_iff.mp h
  rw [State.modCtx_mem]
  refine State.zeroRegions_memWf _ _ _ ?_
  rwa [State.allocRegions_mem _ _ _ _ _ hv]

theorem State.lock_memWf (s : State) (r : LockReq) (hs : memWf s.mem = true) : memWf (s.lock r).mem = true := by
  unfold State.lock
  split
  · exact hs
  · dsimp only
    have hh : memWf (s.heard r.die r.sess).mem = true := by rwa [State.heard_mem]
    generalize s.heard r.die r.sess = u at hh ⊢
    generalize (List.range 1024).filter (fun t => !(u.ctx r.die t).bound) = free
    cases free with
    | nil => exact (State.report_mem _ _).symm ▸ hh
    | cons t l =>
      dsimp only
      split
      · rwa [State.report_mem]
      · next s' e =>
        obtain ⟨y, hy, hr⟩ := Option.bind_eq_some_iff.mp e
        rw [State.report_mem]
        refine State.reserve_memWf _ _ _ ?_ hr
        rwa [State.modCtx_mem, State.assignIdx_mem _ _ hy]

/-- The contents of an item, installed by a step that keeps the canonical form. -/
theorem State.install_memWf (s : State) (b : Bind) (item part : Nat) (content : List Nat) (keyed : Bool) (f : State → Nat × State)
    (hf : ∀ s, memWf s.mem = true → memWf (f s).2.mem = true) (hs : memWf s.mem = true) :
    memWf (s.install b item part content keyed f).mem = true := by
  unfold State.install
  split
  · exact hs
  · dsimp only
    have hh : memWf (s.heard b.die b.sess).mem = true := by simpa using hs
    split
    · simpa using hh
    · have hr := hf { s.heard b.die b.sess with nfree := (s.heard b.die b.sess).nfree + 1 } hh
      split
      · simpa using hh
      · split
        · rw [State.answer_mem]
          exact State.ctxError_memWf _ _ _ hh
        · simpa using hr

theorem within_memWf (ok : Bool) (x : Nat × State) (s : State) (hx : memWf x.2.mem = true) (hs : memWf s.mem = true) :
    memWf (within ok x s).2.mem = true := by
  unfold within
  split
  · exact hs
  · exact hx

theorem State.mapBerth_memWf (s : State) (die tcid : Nat) (hs : memWf s.mem = true) {s' : State} (e : s.mapBerth die tcid = some s') :
    memWf s'.mem = true := by
  unfold State.mapBerth at e
  dsimp only at e
  split at e
  · cases e; exact hs
  · obtain ⟨x, hx, hu⟩ := Option.bind_eq_some_iff.mp e
    refine State.mapLeaves_memWf _ _ _ _ _ _ _ (fun v hv => ?_) hu
    cases hv
    exact s.allocOs_memWf _ _ hs hx

theorem State.attest_memWf (s : State) (b : Bind) (nonce : Nat) (hs : memWf s.mem = true) : memWf (s.attest b nonce).mem = true := by
  grind [State.attest, State.modCtx_mem, State.report_mem, State.answer_mem, State.heard_mem, State.mapBerth_memWf]

theorem State.unbind_memWf (s : State) (b : Bind) (hs : memWf s.mem = true) : memWf (s.unbind b).mem = true := by
  grind [State.unbind, State.tenantReset_memWf, State.answer_mem, State.heard_mem]

/-- A service in a session of the tenant, which keeps the canonical form. -/
theorem State.service_memWf (s : State) (b : Bind) (f : State → Nat × Nat × State) (hf : ∀ s, memWf s.mem = true → memWf (f s).2.2.mem = true)
    (hs : memWf s.mem = true) : memWf (s.service b f).mem = true := by
  unfold State.service
  split
  · exact hs
  · dsimp only
    have hh : memWf (s.heard b.die b.sess).mem = true := by simpa using hs
    split
    · simpa using hh
    · split
      · simpa using hf _ hh
      · simpa using hh

theorem State.keyPages_memWf (s : State) (a size key : Nat) (hs : memWf s.mem = true) : memWf (s.keyPages a size key).mem = true := by
  grind [State.keyPages, State.pokeBytes_memWf, foldl_memWf]

theorem State.mapOne_memWf (s : State) (b : Bind) (p : PageReq) (hs : memWf s.mem = true) : memWf (s.mapOne b p).2.mem = true := by
  unfold State.mapOne
  dsimp only
  split
  · exact hs
  · split
    · exact hs
    · split
      · exact hs
      · split
        · exact hs
        · next u e =>
          have hu : memWf u.mem = true := State.mapLeaves_memWf _ _ _ _ _ _ _ (fun v hv => by cases hv; exact hs) e
          refine State.invalidate_memWf _ _ _ _ _ _ ?_
          rw [State.modCtx_mem]
          split
          · exact u.keyPages_memWf _ _ _ hu
          · exact hu

theorem State.unmapOne_memWf (s : State) (b : Bind) (va level : Nat) (hs : memWf s.mem = true) : memWf (s.unmapOne b va level).2.mem = true := by
  grind [State.unmapOne, State.modCtx_mem, State.changeLeaf_memWf]

theorem State.protectOne_memWf (s : State) (b : Bind) (p : PageReq) (hs : memWf s.mem = true) : memWf (s.protectOne b p).2.mem = true := by
  grind [State.protectOne, State.changeLeaf_memWf]

theorem eachPage_memWf {α : Type} (f : State → α → Nat × State) (hf : ∀ s a, memWf s.mem = true → memWf (f s a).2.mem = true) (l : List α)
    (s : State) (hs : memWf s.mem = true) : memWf (eachPage f l s).2.mem = true := by
  refine foldl_memWf_of (fun x : Nat × State => x.2) _ (fun x p hx => ?_) _ _ hs
  split
  · exact hf _ _ hx
  · exact hx

theorem State.qcreate_memWf (s : State) (b : Bind) (q : QReq) (hs : memWf s.mem = true) : memWf (s.qcreate b q).2.2.mem = true := by
  grind [State.qcreate, State.modDie_mem, State.ctxError_memWf]

theorem State.qreset_memWf (s : State) (b : Bind) (sqid idx : Nat) (caller : Option Nat) (hs : memWf s.mem = true) :
    memWf (s.qreset b sqid idx caller).mem = true := by
  unfold State.qreset
  split
  · split
    · exact hs
    · dsimp only
      split
      · exact hs
      · next ok u e =>
        have hu : memWf u.mem = true := by rw [State.qresetAt_mem _ _ _ _ _ e]; exact hs
        exact u.hailDone_memWf _ _ _ hu
  · split
    · exact hs
    · refine s.service_memWf b _ (fun s hs => ?_) hs
      split
      · next u e => exact (State.qresetAt_mem _ _ _ _ _ e).symm ▸ hs
      · exact hs

theorem State.windowSet_memWf (s : State) (b : Bind) (w : WinSet) (hs : memWf s.mem = true) : memWf (s.windowSet b w).2.2.mem = true := by
  unfold State.windowSet
  split
  · exact hs
  · dsimp only
    have hw : memWf (s.winPut b w).2.mem = true := by simpa using hs
    split
    · exact hw
    · exact foldl_memWf _ (fun s k h => s.hailDone_memWf _ _ _ h) _ _ hw

theorem State.clearunc_memWf (s : State) (b : Bind) (win : Nat) (caller : Option Nat) (hs : memWf s.mem = true) :
    memWf (s.clearunc b win caller).mem = true := by
  cases caller with
  | some k =>
    grind [State.clearunc, State.hailDone_memWf, State.clearBegin_memWf]
  | none =>
    grind [State.clearunc, State.heard_mem, State.answer_mem, State.clearBegin_memWf]

theorem State.restoreCommand_memWf (s : State) (b : Bind) (serial die : Nat) (rw : List Rewrite) (hs : memWf s.mem = true) :
    memWf (s.restoreCommand b serial die rw).mem = true := by
  grind [State.restoreCommand, State.modStrand_mem, State.resave_memWf, State.restoreTo_memWf, State.answer_mem, State.heard_mem]

theorem State.recover_memWf (s : State) (die : Nat) (hs : memWf s.mem = true) : memWf (s.recover die).mem = true := by
  grind [State.recover, State.modDie_mem, State.lanesStop_mem, State.sessionEnd_memWf, foldl_memWf]

theorem State.recovered_memWf (s : State) (die : Nat) (hs : memWf s.mem = true) : memWf (s.recovered die).mem = true := by
  grind [State.recovered, State.modDie_mem, State.noticeWrite_memWf, State.scan_memWf, State.bellRelease_memWf, State.ctxError_memWf, foldl_memWf]

theorem State.reboot_memWf (s : State) (die : Nat) (hs : memWf s.mem = true) : memWf (s.reboot die).mem = true := by
  grind [State.reboot, State.modDie_mem, State.report_mem, State.recovered_memWf]

theorem State.watchdogRestart_memWf (s : State) (die : Nat) (hs : memWf s.mem = true) : memWf (s.watchdogRestart die).mem = true := by
  grind [State.watchdogRestart, State.modDie_mem, State.reboot_memWf]

theorem State.dieOut_memWf (s : State) (die : Nat) (hs : memWf s.mem = true) : memWf (s.dieOut die).mem = true := by
  grind [State.dieOut, State.modDie_mem, State.report_mem, State.noticeWrite_memWf, State.endLaunch_memWf, State.scanAll_memWf, State.ctxStop_memWf,
    foldl_memWf]

/-! ### Package: what keeps the canonical form -/

theorem State.powerLoss_memWf (s : State) : memWf s.powerLoss.mem = true := rfl

theorem State.resetAsserted_memWf (s : State) : memWf s.resetAsserted.mem = true := rfl

theorem State.outside_memWf (s : State) (a : Outside) (hs : memWf s.mem = true) : memWf (s.outside a).mem = true := by
  cases a with
  | areaByte k off b => grind [State.outside, State.pokeBytes_memWf]
  | osWrite d a bs => grind [State.outside, State.pokeBytes_memWf]
  | tableError d t => grind [State.outside, State.ctxError_memWf]
  | inbound p => exact s.inbound_memWf p hs
  | resetN => exact s.resetAsserted_memWf
  | chg d c v | badCheck b | osQueue d c w | osTail d t | qcbError d pq copyB | corrected st | setPoint d v | hart d n h =>
    simp only [State.outside]
    split
    · simpa using hs
    · exact hs
  | _ => simpa [State.outside] using hs

theorem State.retireArea_memWf (s : State) (die src dst : Nat) (hs : memWf s.mem = true) : memWf (s.retireArea die src dst).mem = true := by
  grind [State.retireArea, State.modStrand_mem, State.modDie_mem, State.zeroRange_memWf, State.copyPage_memWf]

theorem State.retirePage_memWf (s : State) (die src dst : Nat) (hs : memWf s.mem = true) : memWf (s.retirePage die src dst).mem = true := by
  grind [State.retirePage, State.zeroRange_memWf, State.copyPage_memWf, State.moveUses_memWf, State.quiet_memWf, State.retireArea_memWf]

/-! ### Turn: what keeps the canonical form -/

theorem powerTurn_memWf (t : Turn) (s : State) (hs : memWf s.mem = true) {s' : State} (e : powerTurn t s = some s') : memWf s'.mem = true := by
  unfold powerTurn at e
  split at e
  · cases e; exact s.powerLoss_memWf
  · cases e; simpa using hs
  · cases e

theorem State.dieUsec_memWf (s : State) (d : Nat) (hs : memWf s.mem = true) : memWf (s.dieUsec d).mem = true := by
  grind [State.dieUsec, State.remtTick_mem, State.energyRefill_memWf, State.reconcile_mem, State.clockStep_mem]

theorem State.usec_memWf (s : State) (hs : memWf s.mem = true) : memWf (s.usec).mem = true := by
  grind [State.usec, State.tripCheck_mem, State.telemetryTick_mem, State.dieUsec_memWf, foldl_memWf]

/-! ## Operations and outcomes -/

/-- If there is a next state, its memory is in canonical form. -/
def NextWf (o : Host.Outcome State Fault Refusal) : Prop :=
  match o with
  | .next s => memWf s.mem = true
  | _ => True

/-- A meaning of instructions that keeps the canonical form. -/
def KeepsMemWf (ex : Instr → State → Host.Outcome State Fault Refusal) : Prop := ∀ i s, memWf s.mem = true → NextWf (ex i s)

theorem NextWf.of_memWf {s : State} (hs : memWf s.mem = true) : NextWf (.next s) := hs

theorem NextWf.of_mem {s t : State} (e : t.mem = s.mem) (hs : memWf s.mem = true) : NextWf (.next t) := by
  rwa [← e] at hs

theorem NextWf.ite {c : Prop} [Decidable c] {o p : Host.Outcome State Fault Refusal} (ho : NextWf o) (hp : NextWf p) :
    NextWf (if c then o else p) := by
  split
  · exact ho
  · exact hp

/-- One operation: its effect, a trap, or a wait. -/
theorem Op.run_nextWf {o : Op} {s : State} (ho : memWf (o.eff s).mem = true) (hs : memWf s.mem = true) : NextWf (o.run s) := by
  show memWf (o.apply s).mem = true
  unfold Op.apply
  refine memWf_ite hs ?_
  dsimp only
  split
  · exact hs
  · exact memWf_ite ho hs
  · exact memWf_ite (s.raise_memWf _ hs) (memWf_ite hs (memWf_ite ho hs))

/-- An operation whose effect leaves memory alone. -/
theorem Op.run_nextWf_of_mem {o : Op} {s : State} (e : (o.eff s).mem = s.mem) (hs : memWf s.mem = true) : NextWf (o.run s) :=
  Op.run_nextWf (by rwa [e]) hs

theorem State.pilotOp_nextWf (s : State) (f : Lane → Lane) (hs : memWf s.mem = true) : NextWf (s.pilotOp f) := by
  show memWf (if s.lane.stage = .run then s.modLane f else s).mem = true
  refine memWf_ite ?_ hs
  rwa [State.modLane_mem]

/-! ## Operations whose effect has cases -/

theorem opLoad_nextWf (i : Instr) (g : Guard) (chk : List Cause) (m : MemChk) (dest : Dest) (val : State → Vec) (s : State)
    (hs : memWf s.mem = true) : NextWf ((opLoad i g chk m dest val s).run s) := by
  refine Op.run_nextWf (memWf_ite ?_ ?_) hs
  · rwa [State.land_mem]
  · rwa [State.pushIn_mem]

theorem opStore_eff_memWf (i : Instr) (g : Guard) (chk : List Cause) (m : MemChk) (late : Option (Cause × Word)) (wait : Bool)
    (data : Strand → List Datum) (h : Bool) (hidx : Nat) (s : State) (hs : memWf s.mem = true) :
    memWf ((opStore i g chk m late wait data h hidx s).eff s).mem = true := by
  refine memWf_ite hs ?_
  rwa [storeEff_mem]

theorem opStore_nextWf (i : Instr) (g : Guard) (chk : List Cause) (m : MemChk) (late : Option (Cause × Word)) (wait : Bool)
    (data : Strand → List Datum) (h : Bool) (hidx : Nat) (s : State) (hs : memWf s.mem = true) :
    NextWf ((opStore i g chk m late wait data h hidx s).run s) :=
  Op.run_nextWf (opStore_eff_memWf i g chk m late wait data h hidx s hs) hs

theorem opStvh_eff_memWf (o : StOps) (s : State) (hs : memWf s.mem = true) : memWf ((opStvh o s).eff s).mem = true := by
  unfold opStvh
  extract_lets m p
  have hp : memWf (p.eff s).mem = true := opStore_eff_memWf _ _ _ _ _ _ _ _ _ _ hs
  clear_value p
  split <;> exact hp

theorem opVred_nextWf (o : StvOps) (s : State) (hs : memWf s.mem = true) : NextWf ((opVred o s).run s) := by
  refine Op.run_nextWf (memWf_ite ?_ ?_) hs
  · rwa [State.pushIn_mem]
  · rwa [State.onMe_mem, State.addMyReq_mem]

theorem opWaitf_nextWf (o : WaitfOps) (s : State) (hs : memWf s.mem = true) : NextWf ((opWaitf o s).run s) := by
  refine Op.run_nextWf (memWf_ite (memWf_ite ?_ hs) ?_) hs
  · rwa [State.landBit_mem]
  · rwa [State.onMe_mem]

theorem opSpin_nextWf (o : SpinOps) (s : State) (hs : memWf s.mem = true) : NextWf ((opSpin o s).run s) := by
  have hit : memWf s.spinHit.mem = true := by rwa [State.spinHit_mem]
  refine Op.run_nextWf (memWf_ite hit (memWf_ite ?_ (memWf_ite hit ?_))) hs
  · rwa [State.spinEnd_mem]
  · rwa [State.spinMiss_mem]

theorem opCrew_nextWf (i : Instr) (o : NumOps) (f : Crew → Nat → Crew) (s : State) (hs : memWf s.mem = true) : NextWf ((opCrew i o f s).run s) := by
  refine Op.run_nextWf ?_ hs
  unfold opCrew
  dsimp only
  split
  · exact hs
  · refine State.crewSettle_memWf _ _ _ _ _ ?_
    rwa [State.setCrew_mem]

/-! ## Events and services whose effect has parts -/

theorem State.itemSet_memWf (b : Bind) (limit : Bool) (needs : Nat) (f : Ctx → Ctx) (s : State) (hs : memWf s.mem = true) :
    memWf (State.itemSet b limit needs f s).2.mem = true := by
  rwa [State.itemSet_mem]

theorem execLinkFailure_nextWf (port : Nat) (s : State) (hs : memWf s.mem = true) : NextWf (execLinkFailure port s) := by
  refine .of_mem (State.loseBells_mem _) (State.loseFrags_memWf _ ?_)
  rwa [State.loseLoads_mem, State.setPort_mem]

theorem execNegotiateAlgorithms_nextWf (q : Spdm) (s : State) (hs : memWf s.mem = true) : NextWf (execNegotiateAlgorithms q s) := by
  refine s.spdm_memWf q _ (fun s h => ?_) hs
  rwa [State.report_mem, State.modDie_mem]

theorem execGetMeasurements_nextWf (q : Spdm) (s : State) (hs : memWf s.mem = true) : NextWf (execGetMeasurements q s) := by
  refine s.spdm_memWf q _ (fun s h => ?_) hs
  dsimp only
  rwa [State.report_mem]

theorem execKeyExchange_nextWf (q : Spdm) (s : State) (hs : memWf s.mem = true) : NextWf (execKeyExchange q s) := by
  refine s.spdm_memWf q _ (fun s h => memWf_ite ?_ ?_) hs
  · rwa [State.report_mem]
  · rwa [State.report_mem, State.modDie_mem, State.fresh_mem]

theorem execFinish_nextWf (q : Spdm) (s : State) (hs : memWf s.mem = true) : NextWf (execFinish q s) := by
  refine s.spdm_memWf q _ (fun s h => memWf_ite h ?_) hs
  rwa [State.report_mem, State.modSession_mem]

theorem execEndSession_nextWf (q : Spdm) (s : State) (hs : memWf s.mem = true) : NextWf (execEndSession q s) := by
  refine s.spdm_memWf q _ (fun s h => memWf_ite h ?_) hs
  rw [State.report_mem]
  exact s.sessionEnd_memWf _ _ h

theorem execSessionHeartbeatLapse_nextWf (die sess : Nat) (s : State) (hs : memWf s.mem = true) : NextWf (execSessionHeartbeatLapse die sess s) := by
  unfold execSessionHeartbeatLapse
  split
  · exact memWf_ite (s.sessionEnd_memWf _ _ hs) hs
  · exact hs

theorem execInstallPart_nextWf (b : Bind) (part suite : Nat) (s : State) (hs : memWf s.mem = true) : NextWf (execInstallPart b part suite s) :=
  .of_mem (State.setPermits_mem _) (State.install_memWf _ _ _ _ _ _ _ (fun _ h => State.itemSet_memWf _ _ _ _ _ h) hs)

theorem execInstallRegions_nextWf (b : Bind) (csize dsize bva : Nat) (s : State) (hs : memWf s.mem = true) :
    NextWf (execInstallRegions b csize dsize bva s) := by
  refine State.install_memWf _ _ _ _ _ _ _ (fun s h => ?_) hs
  split
  · exact h
  · split
    · next s' e =>
      dsimp only
      rw [State.modCtx_mem]
      refine s'.zeroRegions_memWf _ _ ?_
      rwa [State.allocRegions_mem _ _ _ _ _ e]
    · exact h

/-- An item that a resource bounds. -/
theorem State.install_within_memWf (s : State) (b : Bind) (item part : Nat) (content : List Nat) (keyed limit : Bool) (needs : Nat)
    (ok : State → Bool) (f : State → Ctx → Ctx) (hs : memWf s.mem = true) :
    memWf (s.install b item part content keyed (fun s => within (ok s) (State.itemSet b limit needs (f s) s) s)).mem = true :=
  State.install_memWf _ _ _ _ _ _ _ (fun _ h => within_memWf _ _ _ (State.itemSet_memWf _ _ _ _ _ h) h) hs

theorem execInstallMemory_nextWf (b : Bind) (quota : Nat) (s : State) (hs : memWf s.mem = true) : NextWf (execInstallMemory b quota s) :=
  s.install_within_memWf b 6 0 [quota] false true 0
    (fun s => decide ((s.heldBy b.die b.tcid (fun c => c.quota) + quota) * 2 ^ 21 ≤ osBase)) (fun _ c => { c with quota := quota }) hs

theorem execInstallAccount_nextWf (b : Bind) (a : Account) (s : State) (hs : memWf s.mem = true) : NextWf (execInstallAccount b a s) :=
  State.install_memWf _ _ _ _ _ _ _ (fun _ h => within_memWf _ _ _ (State.itemSet_memWf _ _ _ _ _ h) h) hs

theorem execInstallBandwidth_nextWf (b : Bind) (sl weight : Nat) (critical : Bool) (target : Nat) (s : State) (hs : memWf s.mem = true) :
    NextWf (execInstallBandwidth b sl weight critical target s) := by
  refine State.install_memWf _ _ _ _ _ _ _ (fun s h => memWf_ite ?_ h) hs
  rwa [State.modCtx_mem, State.modSlice_mem]

theorem execInstallFeatures_nextWf (b : Bind) (w : Nat) (s : State) (hs : memWf s.mem = true) : NextWf (execInstallFeatures b w s) := by
  refine State.install_memWf _ _ _ _ _ _ _ (fun s h => ?_) hs
  split
  · exact State.itemSet_memWf _ _ _ _ _ h
  · exact h

theorem execInstallQuayenrol_nextWf (b : Bind) (key : Nat) (s : State) (hs : memWf s.mem = true) : NextWf (execInstallQuayenrol b key s) := by
  refine State.install_memWf _ _ _ _ _ _ _ (fun s h => ?_) hs
  have hr (ok : Bool) := within_memWf ok _ s (State.itemSet_memWf b true (2 ^ 5) (fun c => { c with qenr := true }) s h) h
  exact memWf_ite (hr _) (hr _)

theorem execPatrolScrub_nextWf (blk : Nat) (r : ScrubResult) (s : State) (hs : memWf s.mem = true) : NextWf (execPatrolScrub blk r s) := by
  refine memWf_ite hs ?_
  cases r with
  | clean => exact hs
  | corrected => exact (State.countCorrected_mem _ _).symm ▸ hs
  | uncorrectable =>
    refine memWf_ite (State.recover_memWf _ _ ?_) ?_
    · rwa [State.report_mem]
    · rwa [State.report_mem]

theorem execRailOutsideTolerance_nextWf (rail : Nat) (s : State) (hs : memWf s.mem = true) : NextWf (execRailOutsideTolerance rail s) :=
  .of_mem (foldl_mem (fun s d => s.modDie d (fun x => { x with void := true })) (fun _ _ => rfl) (railDies rail) s) hs

/-- Every meaning of an instruction or event keeps the canonical form. -/
theorem exec_keepsMemWf : KeepsMemWf exec := by
  intro i s hs
  cases i with
  | add _ | sub _ | addi _ | mul _ | mulh _ | mulhu _ | div _ | divu _ | rem _ | remu _ | and _ | or _ | xor _ | andn _ | shl _ | shr _
    | sar _ | rotl _ | clz _ | popc _ | min _ | max _ | minu _ | maxu _ | sel _ | li _ | lih _ | csrr _ | layw _ | layr _ | vlane _ | mpop _
    | mpar _ | mstat _ => exact Op.run_nextWf_of_mem (State.landWord_mem _ _ _ _ _) hs
  | cmp _ | cmpi _ | pand _ | por _ | pxor _ | pnot _ | setf _ | clrf _ => exact Op.run_nextWf_of_mem (State.landBit_mem _ _ _ _ _) hs
  | mand _ | mor _ | mxor _ | mnot _ | mwr _ | mfmt _ => exact Op.run_nextWf_of_mem (State.land_mem _ _ _ _ _) hs
  | vadd _ | vsub _ | vmul _ | vfma _ | vfms _ | vfnma _ | vmin _ | vmax _ | vabs _ | vneg _ | vcpys _ | vrcp _ | vrsq _ | vsqrt _ | vexp2 _
    | vlog2 _ | vcmp _ | viadd _ | visub _ | vimul _ | vimulh _ | vimin _ | vimax _ | viabs _ | vand _ | vor _ | vxor _ | vandn _ | vshl _
    | vshr _ | vsar _ | vcvt _ | vcvti _ | vcvtf _ | vqfp4 _ | vdqfp4 _ | vexpmax _ | vscale _ | vmov _ | vbcast _ | vperm _ | vshuf _
    | vslide _ | vsel _ | vxfer _ | vrsum _ | vrmax _ | vrmin _ | mrd _ => exact Op.run_nextWf_of_mem (State.pushIn_mem _ _) hs
  | br _ | bri _ | ret _ | trap _ | hail _ | lset _ | lbrk _ | endStrand _ | fence _ | yield _ | hret _ =>
    exact Op.run_nextWf_of_mem (State.onMe_mem _ _) hs
  | call _ | calli _ | movh _ => exact Op.run_nextWf_of_mem ((State.onMe_mem _ _).trans (State.landWord_mem _ _ _ _ _)) hs
  | vmovh _ => exact Op.run_nextWf_of_mem ((State.onMe_mem _ _).trans (State.pushIn_mem _ _)) hs
  | csrw _ | csrs _ | csrc _ => exact Op.run_nextWf (memWf_ite hs ((State.landWord_mem _ _ _ _ _).symm ▸ hs)) hs
  | mcallMma _ | mcallMmat _ | mcallMmab _ | mcallSplit _ | mcallSlmma _ | mcallFold _ | mcallTrans _ | mcallMcopy _ | mlds _ | mplane _
    | mclr _ | mnorm _ => exact Op.run_nextWf_of_mem (State.mxQueue_mem _ _ _ _ _ _ _) hs
  | ckill _ | cbell _ => exact Op.run_nextWf_of_mem (State.queueCe_mem _ _) hs
  | cwait _ | cpoll _ => exact Op.run_nextWf_of_mem ((State.onMe_mem _ _).trans (State.queueCe_mem _ _)) hs
  | csend _ | cred _ => exact Op.run_nextWf_of_mem ((State.landBit_mem _ _ _ _ _).trans (State.queueCe_mem _ _)) hs
  | cjob _ => exact Op.run_nextWf_of_mem ((State.landBit_mem _ _ _ _ _).trans ((State.onMe_mem _ _).trans (State.queueCe_mem _ _))) hs
  | lds _ | ldv _ | ldvg _ => exact opLoad_nextWf _ _ _ _ _ _ _ hs
  | ldh _ | aadd _ | aaddf _ | amin _ | amax _ | aand _ | aor _ | axor _ | aswp _ | acas _ =>
    exact Op.run_nextWf_of_mem ((State.onMe_mem _ _).trans (State.addMyReq_mem _ _)) hs
  | sts _ | stv _ | stvs _ | stvm _ => exact opStore_nextWf _ _ _ _ _ _ _ _ _ _ hs
  | tmov _ => exact Op.run_nextWf (tmovEff_memWf _ _ hs) hs
  | phase _ => exact Op.run_nextWf_of_mem (State.phaseOp_mem _ _) hs
  | join _ | leave _ => exact opCrew_nextWf _ _ _ _ hs
  | cbar _ => exact Op.run_nextWf (State.cbarOp_memWf _ _ hs) hs
  | take _ => exact Op.run_nextWf_of_mem (State.takeOp_mem _ _ _) hs
  | pilotAdd _ | pilotSub _ | pilotAnd _ | pilotOr _ | pilotXor _ | pilotMul _ | pilotShl _ | pilotShr _ | pilotAddi _ | pilotAndi _
    | pilotOri _ | pilotLi _ | ldm _ | stm _ | beq _ | bne _ | bltu _ | bgeu _ | loop _ | emitLaunch _ | emitCopy _ | emitBell _ | drop _ =>
    exact State.pilotOp_nextWf _ _ hs
  | emptyBundle _ => exact .of_mem (State.emptyBundle_mem _ _) hs
  | mxOpStart _ => exact .of_mem (State.mxOpStart_mem _ _) hs
  | mxCommit _ => exact .of_mem (State.mxCommitDue_mem _ _) hs
  | mxOpEnd _ => exact .of_mem (State.mxOpEnd_mem _ _) hs
  | mxTokenGain _ => exact .of_mem (State.tokenGain_mem _ _) hs
  | spinWaitTimeout _ => exact .of_mem (State.spinTimeout_mem _ _) hs
  | release _ _ => exact .of_mem (State.release_mem _ _ _) hs
  | saveCaptureComplete _ => exact .of_mem (State.captured_mem _ _) hs
  | boostDecay _ => exact .of_mem (State.boostDecay_mem _ _) hs
  | remtTick _ => exact .of_mem (State.remtTick_mem _ _) hs
  | chargeReconcile _ => exact .of_mem (State.reconcile_mem _ _) hs
  | clockStep _ => exact .of_mem (State.clockStep_mem _ _) hs
  | sliceWindow _ _ => exact .of_mem (State.sliceWindow_mem _ _ _) hs
  | windowAck _ _ => exact .of_mem (State.windowAck_mem _ _ _) hs
  | retransmitTimeout _ _ _ => exact .of_mem (State.retransmit_mem _ _ _ _) hs
  | gapTransaction _ _ => exact .of_mem (State.gapSend_mem _ _ _) hs
  | reductionTimeout _ => exact .of_mem (State.reductionTimeout_mem _ _) hs
  | resetRelease _ => exact .of_mem (State.resetRelease_mem _ _) hs
  | bootTimeout _ => exact .of_mem (State.bootTimeout_mem _ _) hs
  | candidacy _ _ => exact .of_mem (State.candidacy_mem _ _ _) hs
  | electionTimeout _ => exact .of_mem (State.electionTimeout_mem _ _) hs
  | packageNumber _ => exact .of_mem (State.packageNumber_mem _ _) hs
  | start _ => exact .of_mem (State.start_mem _ _) hs
  | powerGood => exact .of_mem (State.powerUp_mem _) hs
  | telemetryReport => exact .of_mem (State.telemetryTick_mem _) hs
  | telemetryRequest => exact .of_mem (State.telemetry_mem _) hs
  | imageLoad _ _ _ => exact .of_mem (State.imageLoad_mem _ _ _ _) hs
  | emptyIssueCycle _ => exact State.emptyIssueCycle_memWf _ _ hs
  | resultLand _ => exact State.resultLand_memWf _ _ hs
  | runLimit _ => exact State.runLimit_memWf _ _ hs
  | tmovComplete _ => exact State.tmovComplete_memWf _ _ hs
  | storePerform _ _ => exact State.storePerform_memWf _ _ _ hs
  | atomicPerform _ _ => exact State.atomicPerform_memWf _ _ _ hs
  | latchFill _ _ => exact State.latchFill_memWf _ _ _ hs
  | accessFaultReport _ => exact State.accessFault_memWf _ _ hs
  | jobAccept _ => exact State.jobAccept_memWf _ _ hs
  | jobSegment _ => exact State.jobSegment_memWf _ _ hs
  | jobComplete _ => exact State.jobComplete_memWf _ _ hs
  | phaseComplete _ => exact State.phaseComplete_memWf _ _ hs
  | stealRequest _ => exact State.stealRequest_memWf _ _ hs
  | stealGrant _ => exact State.stealGrant_memWf _ _ hs
  | strandSelect _ => exact State.strandSelect_memWf _ _ hs
  | rowLoadComplete _ => exact State.rowLoadComplete_memWf _ _ hs
  | retire _ => exact State.retire_memWf _ _ hs
  | shareArrival _ _ => exact State.shareArrival_memWf _ _ _ hs
  | shareReserveTimeout _ _ => exact State.shareReserve_memWf _ _ _ hs
  | preemptCheck _ => exact State.preemptCheck_memWf _ _ hs
  | saveComplete _ => exact State.saveComplete_memWf _ _ hs
  | energyRefill _ => exact State.energyRefill_memWf _ _ hs
  | windowArrival _ _ => exact State.windowArrival_memWf _ _ _ hs
  | resyncTransaction _ _ _ _ => exact State.resyncSend_memWf _ _ _ _ _ hs
  | fragmentArrival _ _ => exact State.fragmentArrival_memWf _ _ _ hs
  | fragmentAck _ _ => exact State.fragmentAck_memWf _ _ _ hs
  | evictRegions _ _ => exact State.evict_memWf _ _ _ hs
  | restore _ _ _ => exact State.restore_memWf _ _ _ _ hs
  | invalidate _ _ _ _ _ => exact State.invalidate_memWf _ _ _ _ _ _ hs
  | getVersion _ | getCapabilities _ | getDigests _ | getCertificate _ | challenge _ => exact State.spdmAnswer_memWf _ _ _ hs
  | keyUpdate _ | heartbeat _ => exact State.sessionOnly_memWf _ _ _ hs
  | lock _ => exact State.lock_memWf _ _ hs
  | attest _ _ => exact State.attest_memWf _ _ _ hs
  | unbind _ => exact State.unbind_memWf _ _ hs
  | qreset _ _ _ _ => exact State.qreset_memWf _ _ _ _ _ hs
  | clearunc _ _ _ => exact State.clearunc_memWf _ _ _ _ hs
  | restoreService _ _ _ _ => exact State.restoreCommand_memWf _ _ _ _ _ hs
  | resume _ => exact State.resumeService_memWf _ _ hs
  | redirect _ => exact State.redirectService_memWf _ _ hs
  | endstrand _ => exact State.endService_memWf _ _ hs
  | bell _ => exact State.bellArrive_memWf _ _ hs
  | pilotEntry _ _ => exact State.pilotEntry_memWf _ _ _ hs
  | watchdogRestart _ => exact State.watchdogRestart_memWf _ _ hs
  | machineCheckStop _ => exact State.recover_memWf _ _ hs
  | powerLoss => exact State.powerLoss_memWf _
  | retiredPageMove _ _ _ => exact State.retirePage_memWf _ _ _ _ hs
  | quantumExpiry _ | starvationTimeout _ | prioritySwitchRequest _ => exact .of_mem (State.switchRequest_mem _ _ _) hs
  | shrinkAdjust _ _ _ _ => exact .of_mem (State.modSlice_mem _ _ _) hs
  | linkTraining _ _ => exact .of_mem (State.setPort_mem _ _ _) hs
  | residencyRestore _ _ => exact memWf_ite (State.bringBack_memWf _ _ _ hs) hs
  | installWindow _ _ => exact State.install_memWf _ _ _ _ _ _ _ (fun _ h => (State.winPut_mem _ _ _).symm ▸ h) hs
  | installDeleg _ _ => exact State.install_memWf _ _ _ _ _ _ _ (fun _ h => (State.delegSet_mem _ _ _).symm ▸ h) hs
  | installHandlers _ _ => exact State.install_memWf _ _ _ _ _ _ _ (fun _ h => (State.handlersSet_mem _ _ _).symm ▸ h) hs
  | installFaultpol _ _ => exact State.install_memWf _ _ _ _ _ _ _ (fun _ h => (State.faultpolSet_mem _ _ _).symm ▸ h) hs
  | map _ _ => exact State.service_memWf _ _ _ (fun _ h => eachPage_memWf _ (fun _ _ h => State.mapOne_memWf _ _ _ h) _ _ h) hs
  | unmap _ _ => exact State.service_memWf _ _ _ (fun _ h => eachPage_memWf _ (fun _ _ h => State.unmapOne_memWf _ _ _ _ h) _ _ h) hs
  | protect _ _ => exact State.service_memWf _ _ _ (fun _ h => eachPage_memWf _ (fun _ _ h => State.protectOne_memWf _ _ _ h) _ _ h) hs
  | qcreate _ _ => exact State.service_memWf _ _ _ (fun _ h => State.qcreate_memWf _ _ _ h) hs
  | qdestroy _ _ => exact State.service_memWf _ _ _ (fun _ h => (State.qdestroy_mem _ _ _).symm ▸ h) hs
  | loadpilot _ _ => exact State.service_memWf _ _ _ (fun _ h => (State.loadpilot_mem _ _ _).symm ▸ h) hs
  | pdrop _ _ => exact State.service_memWf _ _ _ (fun _ h => (State.pdropHandle_mem _ _ _).symm ▸ h) hs
  | window _ _ => exact State.service_memWf _ _ _ (fun _ h => State.windowSet_memWf _ _ _ h) hs
  | deleg _ _ => exact State.service_memWf _ _ _ (fun _ h => (State.delegSet_mem _ _ _).symm ▸ h) hs
  | handlers _ _ => exact State.service_memWf _ _ _ (fun _ h => (State.handlersSet_mem _ _ _).symm ▸ h) hs
  | faultpol _ _ => exact State.service_memWf _ _ _ (fun _ h => (State.faultpolSet_mem _ _ _).symm ▸ h) hs
  | watchdogExpiry _ => exact memWf_ite (State.recover_memWf _ _ hs) hs
  | recoveryTimeout _ => exact memWf_ite (State.dieOut_memWf _ _ hs) hs
  | setPowerLimit _ => exact memWf_ite hs hs
  | thermalStep _ _ => exact .of_mem ((State.tripOn_mem _ _ _).trans (State.thermalAt_mem _ _ _)) hs
  | thermtrip _ _ => exact memWf_ite (((State.tripOn_mem _ _ _).trans (State.thermalAt_mem _ _ _)).symm ▸ hs) hs
  | errorCounterRequest => exact .of_mem (State.report_mem _ _) hs
  | filterStateLost _ _ _ => exact .of_mem (State.windowUncertain_mem _ _ _ _ _) hs
  | installKeys _ _ | installLinkkeys _ _ _ _ | installSavekeys _ _ _ | installGangs _ _ | installQueues _ _ _ | installNotice _ _ =>
    exact State.install_memWf _ _ _ _ _ _ _ (fun _ h => State.itemSet_memWf _ _ _ _ _ h) hs
  | stvh o => exact Op.run_nextWf (opStvh_eff_memWf o s hs) hs
  | vred o => exact opVred_nextWf o s hs
  | waitf o => exact opWaitf_nextWf o s hs
  | spin o => exact opSpin_nextWf o s hs
  | linkFailure port => exact execLinkFailure_nextWf port s hs
  | negotiateAlgorithms q => exact execNegotiateAlgorithms_nextWf q s hs
  | getMeasurements q => exact execGetMeasurements_nextWf q s hs
  | keyExchange q => exact execKeyExchange_nextWf q s hs
  | finish q => exact execFinish_nextWf q s hs
  | endSession q => exact execEndSession_nextWf q s hs
  | sessionHeartbeatLapse die sess => exact execSessionHeartbeatLapse_nextWf die sess s hs
  | installPart b part suite => exact execInstallPart_nextWf b part suite s hs
  | installRegions b csize dsize bva => exact execInstallRegions_nextWf b csize dsize bva s hs
  | installMemory b quota => exact execInstallMemory_nextWf b quota s hs
  | installAccount b a => exact execInstallAccount_nextWf b a s hs
  | installBandwidth b sl weight critical target => exact execInstallBandwidth_nextWf b sl weight critical target s hs
  | installFeatures b w => exact execInstallFeatures_nextWf b w s hs
  | installQuayenrol b key => exact execInstallQuayenrol_nextWf b key s hs
  | patrolScrub blk r => exact execPatrolScrub_nextWf blk r s hs
  | railOutsideTolerance rail => exact execRailOutsideTolerance_nextWf rail s hs

/-! ## Bundles, cycles and turns -/

section Sequencer
variable {ex : Instr → State → Host.Outcome State Fault Refusal} (hex : KeepsMemWf ex)
include hex

theorem runOps_nextWf (is : List Instr) (s : State) (hs : memWf s.mem = true) : NextWf (runOps ex is s) := by
  induction is generalizing s with
  | nil => exact hs
  | cons i r ih =>
    have hi := hex i s hs
    unfold runOps
    generalize ex i s = o at hi
    cases o with
    | next s' => exact ih s' hi
    | fault f => trivial
    | refused x => trivial

theorem State.commitOps_nextWf (s : State) (b : Bundle) (hs : memWf s.mem = true) : NextWf (s.commitOps ex b) := by
  unfold State.commitOps
  split
  · exact hex _ _ hs
  · exact hex _ _ hs
  · exact runOps_nextWf hex _ _ hs

theorem State.issueBundle_nextWf (s : State) (k : Nat) (b : Bundle) (hs : memWf s.mem = true) : NextWf (s.issueBundle ex k b) := by
  unfold State.issueBundle
  extract_lets s₁ t c ds r s₂
  have h₁ : memWf s₁.mem = true := by
    unfold s₁
    rwa [State.nameBundle_mem]
  clear_value s₁
  have hr : memWf r.2.mem = true := by
    unfold r
    rwa [State.payTokens_mem]
  clear_value r
  have h₂ : memWf s₂.mem = true := by
    unfold s₂
    split
    · rwa [State.spinCost_mem]
    · exact hr
  clear_value s₂ t c ds
  generalize bankStalls (ds ++ s₁.cardDemands k) = n
  refine .ite (.of_memWf (State.raise_memWf _ _ ?_)) (.ite (.of_memWf ?_) (.ite (.of_memWf hr) (.ite (.of_memWf ?_) ?_)))
  · exact h₁
  · rwa [State.stalled_mem]
  · rwa [State.bankCycle_mem]
  have ho := State.commitOps_nextWf hex ((s₂.countBundle k b).header k 0) b (by rwa [State.header_mem, State.countBundle_mem])
  generalize ((s₂.countBundle k b).header k 0).commitOps ex b = o at ho
  cases o with
  | next s' => exact State.issued_memWf _ _ _ _ ho
  | fault f => trivial
  | refused x => trivial

theorem State.fetchIssue_nextWf (k fuel : Nat) (s : State) (hs : memWf s.mem = true) : NextWf (State.fetchIssue ex k fuel s) := by
  induction fuel generalizing s with
  | zero => exact hs
  | succ fuel ih =>
    unfold State.fetchIssue
    extract_lets d park s₁ s₂ t skip
    have h₁ : memWf s₁.mem = true := by
      refine memWf_ite ?_ hs
      rwa [State.modStrand_mem, State.stopTest_mem]
    have h₂ : memWf s₂.mem = true := s₁.beginCycle_memWf k h₁
    clear_value d park s₁ s₂ t skip
    split
    · exact h₁
    split
    · exact s₂.runLimitTrap_memWf k h₂
    cases d with
    | error h => exact State.takeTrap_memWf _ _ _ _ h₂
    | ok b =>
      dsimp only
      have h₃ := State.skipBundle_memWf ex s₂ k b h₂
      split
      · split
        · exact ih _ h₃
        · exact h₃
      · exact State.issueBundle_nextWf hex s₂ k b h₂

theorem State.strandCycle_nextWf (s : State) (k : Nat) (hs : memWf s.mem = true) : NextWf (s.strandCycle ex k) := by
  unfold State.strandCycle
  dsimp only
  split
  · exact s.retiringCycle_memWf k hs
  split
  · exact s.drainCycle_memWf k _ hs
  split
  · exact s.deliverCause_memWf k hs
  split
  · exact s.emptyCycle_memWf k hs
  split
  · exact .of_mem (s.takeHandler_mem k) hs
  · exact State.fetchIssue_nextWf hex k 2 s hs

theorem State.coreCycle_nextWf (s : State) (c : Nat) (hs : memWf s.mem = true) : NextWf (s.coreCycle ex c) := by
  unfold State.coreCycle
  dsimp only
  split
  · exact hs
  split
  · exact .of_mem (State.select_mem _ _) hs
  · exact State.strandCycle_nextWf hex _ _ hs

theorem State.laneTurn_nextWf (s : State) (die l : Nat) (hs : memWf s.mem = true) : NextWf (s.laneTurn ex die l) := by
  unfold State.laneTurn
  extract_lets s₁ ln
  have h₁ : memWf s₁.mem = true := hs
  clear_value s₁ ln
  cases ln.stage with
  | idle => exact h₁
  | run =>
    dsimp only
    split
    · exact hex _ _ h₁
    · exact .of_mem (State.modLane_mem _ _) h₁
  | scratch => exact .of_mem ((State.modLane_mem _ _).trans (State.modQueue_mem _ _ _ _)) h₁
  | update => exact .of_mem ((State.modLane_mem _ _).trans (State.modQueue_mem _ _ _ _)) h₁
  | emit =>
    dsimp only
    split
    · exact .of_mem (State.laneFree_mem _ _ _ _) h₁
    split
    · next s' e => exact .of_mem (State.laneFree_mem _ _ _ _) (s₁.performEmit_memWf _ _ _ _ h₁ e)
    · exact h₁

theorem State.runTurn_nextWf (s : State) (t : Turn) (hs : memWf s.mem = true) : NextWf (s.runTurn ex t) := by
  unfold State.runTurn
  cases t with
  | event i =>
    dsimp only
    split
    · exact hs
    split
    · trivial
    · exact hex i s hs
  | strand c =>
    dsimp only
    split
    · trivial
    · exact State.coreCycle_nextWf hex _ c (by rwa [State.coreTurn_mem])
  | lane d l =>
    dsimp only
    split
    · trivial
    · exact State.laneTurn_nextWf hex s d l hs
  | clock d =>
    dsimp only
    split
    · trivial
    · exact .of_mem (s.dieCycle_mem d) hs
  | usec => exact s.usec_memWf hs
  | outside a =>
    dsimp only
    split
    · trivial
    · exact s.outside_memWf a hs

theorem State.turn_nextWf (s : State) (hs : memWf s.mem = true) : NextWf (s.turn ex) := by
  unfold State.turn
  extract_lets t s₁
  have h₁ : memWf s₁.mem = true := hs
  clear_value t s₁
  cases e : powerTurn t s₁ with
  | some s' => exact powerTurn_memWf t s₁ h₁ e
  | none =>
    cases s₁.stuck with
    | some f => trivial
    | none => exact State.runTurn_nextWf hex s₁ t h₁

end Sequencer

/-- One step of the package keeps the canonical form. -/
theorem step_nextWf (s : State) (hs : memWf s.mem = true) : NextWf (step s) := State.turn_nextWf exec_keepsMemWf s hs

end Sys2Proof.Machine
end

section
open Sys2Proof Sys2Proof.Machine

/-- Settles O60: whatever turn is next, each of its parts keeps the canonical form, and memory is written only through operations that
keep it. -/
theorem stepKeepsMemory : Obligations.StepKeepsMemory := by
  unfold Obligations.StepKeepsMemory
  intro s t hs e
  have h := step_nextWf s hs
  rwa [e] at h

/-- Settles O57: the stores of the state after reset list nothing, so each lookup gives the reset value of its part. -/
theorem resetState : Obligations.ResetState := by
  unfold Obligations.ResetState
  refine ⟨fun k => rfl, fun d t => ⟨rfl, rfl, rfl⟩, fun d => ⟨rfl, rfl, rfl, ?_, rfl⟩, rfl, fun a => rfl, fun n => ⟨?_, ?_, fun h₀ _ => ?_⟩,
    rfl, rfl, rfl, rfl⟩
  · intro x hx
    cases hx with
    | head => rfl
    | tail _ hx =>
      cases hx with
      | head => rfl
      | tail _ hx => cases hx
  · exact ite_self 0
  · exact BitVec.getLsbD_zero
  · have hn : (n == 0) = false := beq_false_of_ne (Nat.ne_of_gt h₀)
    simp only [Strand.rp, Strand.reset, hn, Bool.false_or]
    exact BitVec.getLsbD_zero
end

section
/-! PROOF. The S slot's scalar and system operations, branches, calls and loops, and synchronisation (O1 to O4, O6, O9 to O14).

Each operation is run by one lemma: `scalarOp_run` and the lemmas `Op.run_…` for the common forms, `opX_run` for an operation with checks, traps
or stalls of its own, and `opX_run_bad` where it traps. What remains of a statement is then either the value of a result, as an equation of
words, or what one function of `Control` does to the strand or to its levels. -/
namespace Sys2Proof.Machine

/-! ## Common forms of operations -/

/-- An operation that meets no condition, raises no trap and need not wait has its effect. -/
theorem Op.run_unchecked (o : Op) {s : State} {k : Nat} (h : Issues s k) (hg : (s.strand k).guard o.g = true) (hchk : o.chk = [])
    (hdyn : o.dyn = none) (hstall : o.stall = false) : o.run s = .next (o.eff s) := by
  have hf : o.findings (s.strand k) = [] := by simp [Op.findings, hchk, hdyn]
  exact o.run_clear h ⟨hg, hf, hstall⟩

/-- An operation that meets no condition of R51 takes its precise trap. -/
theorem Op.run_dyn (o : Op) {s : State} {k : Nat} {c : Cause} {v : Word} (h : Issues s k) (hg : (s.strand k).guard o.g = true)
    (hchk : o.chk = []) (hdyn : o.dyn = some (c, v)) :
    o.run s = .next (s.takeTrap k ⟨c, v, (s.strand k).bun.addr, 2 ^ o.slot.bit⟩ o.emul) := by
  have hf : o.findings (s.strand k) = [⟨c, o.slot, v, o.emul⟩] := by simp [Op.findings, hchk, hdyn, hg]
  exact o.run_one h ⟨c, o.slot, v, o.emul⟩ hf

/-- Outside a handler, R38 forbids nothing. -/
theorem noHandler_of_none {t : Strand} (h : t.hsave = none) : noHandler t = [] := by simp [noHandler, h, Machine.cond]

/-- An operation that only R38 forbids has its effect outside a handler. -/
theorem Op.run_plain_noHandler (i : Instr) (sl : Slot) (g : Guard) (eff : State → State) {s : State} {k : Nat} (h : Issues s k)
    (hg : (s.strand k).guard g = true) (hh : (s.strand k).hsave = none) :
    ({ Op.plain i sl g eff with chk := noHandler s.me } : Op).run s = .next (eff s) := by
  have hchk : noHandler s.me = [] := by rw [State.me_of_issues h]; exact noHandler_of_none hh
  exact Op.run_unchecked _ h hg hchk rfl rfl

/-- An operation without checks that changes its strand. -/
theorem Op.run_plain_onMe (i : Instr) (sl : Slot) (g : Guard) (f : State → Strand → Strand) {s : State} {k : Nat} (h : Issues s k)
    (hg : (s.strand k).guard g = true) : (Op.plain i sl g (fun s => s.onMe (f s))).run s = .next (s.modStrand k (f s)) := by
  rw [Op.run_plain i sl g _ h hg, State.onMe_of_issues h]

/-- An operation without checks that sends one 64-bit result. -/
theorem Op.run_plain_landWord (i : Instr) (sl : Slot) (g : Guard) (d : Dest) (l : Nat) (v : State → Strand → Word) {s : State} {k : Nat}
    (h : Issues s k) (hg : (s.strand k).guard g = true) :
    (Op.plain i sl g (fun s => s.landWord d l (v s s.me) sl)).run s =
      .next (landed s k (onWay (s.strand k) sl d l ((v s (s.strand k)).setWidth 1024) fullEn none)) := by
  rw [Op.run_plain i sl g _ h hg, State.landWord_of_issues h, State.me_of_issues h]

/-- An operation without checks that sends one bit. -/
theorem Op.run_plain_landBit (i : Instr) (sl : Slot) (g : Guard) (d : Dest) (l : Nat) (b : Bool) {s : State} {k : Nat}
    (h : Issues s k) (hg : (s.strand k).guard g = true) :
    (Op.plain i sl g (fun s => s.landBit d l b sl)).run s =
      .next (landed s k (onWay (s.strand k) sl d l (if b then 1 else 0) fullEn none)) := by
  rw [Op.run_plain i sl g _ h hg, State.landBit_of_issues h]

/-- A scalar operation lands any value that equals the one it computes. -/
theorem landsScalar_of_scalarOp {i : Instr} {g : Guard} {sd l : Nat} {v w : Strand → Word}
    (hexec : ∀ s, exec i s = (scalarOp i g sd l v).run s) (hv : ∀ t, v t = w t) : LandsScalar i g sd l w := by
  intro s k hi hg
  rw [hexec s, scalarOp_run i g sd l v hi hg, hv]

/-! ## Values of the scalar operations (R152 to R155) -/

/-- The first number below n at which a property fails, or n, is how many numbers from 0 up have it. -/
theorem length_takeWhile_range {p : Nat → Bool} {k n : Nat} (hkn : k ≤ n) (hlt : ∀ i < k, p i = true) (hk : k < n → p k = false) :
    ((List.range n).takeWhile p).length = k := by
  obtain ⟨m, rfl⟩ := Nat.exists_eq_add_of_le hkn
  have hpre : ∀ i ∈ List.range k, p i = true := fun i hi => hlt i (List.mem_range.mp hi)
  rw [List.range_add, List.takeWhile_append_of_pos hpre]
  cases m with
  | zero => simp
  | succ m => simp [List.range_succ_eq_map, hk (by omega)]

/-- CLZ counts the zero bits from the top down: the highest set bit is at the logarithm. -/
theorem countLead_eq (a : Word) : countLead a = ((List.range 64).takeWhile (fun i => !a.getMsbD i)).length := by
  symm
  unfold countLead
  split
  case isTrue h => exact length_takeWhile_range (Nat.le_refl 64) (by simp [h]) (by omega)
  case isFalse h =>
    have hne : a.toNat ≠ 0 := fun e => h (BitVec.eq_of_toNat_eq e)
    have hlog : a.toNat.log2 < 64 := (Nat.log2_lt hne).mpr a.isLt
    refine length_takeWhile_range (by omega) (fun i hi => ?_) (fun _ => ?_)
    · have hlow : a.toNat < 2 ^ (63 - i) := (Nat.log2_lt hne).mp (by omega)
      simp [BitVec.getMsbD, BitVec.getLsbD, Nat.testBit_lt_two_pow hlow]
    · have hsub : 63 - (63 - a.toNat.log2) = a.toNat.log2 := by omega
      simp [BitVec.getMsbD, BitVec.getLsbD, hsub, Nat.testBit_log2 hne]
      omega

theorem countOnes_eq (a : Word) (n : Nat) : countOnes a.toNat n = ((List.range n).filter a.getLsbD).length := by
  induction n with
  | zero => rfl
  | succ n ih =>
    rw [countOnes, ih, List.range_succ, List.filter_append, List.length_append, Nat.add_comm, List.filter_cons, List.filter_nil, BitVec.getLsbD]
    cases a.toNat.testBit n <;> rfl

theorem minS_eq (a b : Word) : minS a b = if a.toInt ≤ b.toInt then a else b := by
  simp only [minS, BitVec.slt_iff_toInt_lt, ← Int.not_le, ite_not]

theorem minU_eq (a b : Word) : minU a b = if a.toNat ≤ b.toNat then a else b := by
  simp only [minU, BitVec.ult_iff_lt, BitVec.lt_def, ← Nat.not_le, ite_not]

theorem maxS_eq (a b : Word) : maxS a b = if a.toInt ≤ b.toInt then b else a := by
  simp only [maxS, BitVec.slt_iff_toInt_lt]
  rcases Int.lt_trichotomy a.toInt b.toInt with h | h | h
  · rw [if_pos h, if_pos (Int.le_of_lt h)]
  · rw [BitVec.eq_of_toInt_eq h, ite_self, ite_self]
  · rw [if_neg (Int.not_lt.mpr (Int.le_of_lt h)), if_neg (Int.not_le.mpr h)]

theorem maxU_eq (a b : Word) : maxU a b = if a.toNat ≤ b.toNat then b else a := by
  simp only [maxU, BitVec.ult_iff_lt, BitVec.lt_def]
  rcases Nat.lt_trichotomy a.toNat b.toNat with h | h | h
  · rw [if_pos h, if_pos (Nat.le_of_lt h)]
  · rw [BitVec.eq_of_toNat_eq h, ite_self, ite_self]
  · rw [if_neg (Nat.not_lt.mpr (Nat.le_of_lt h)), if_neg (Nat.not_le.mpr h)]

/-- DIV: the truncated quotient of the least integer by −1 is 2^63, which is the overflow case of R153. -/
theorem divS_eq (a b : Word) : divS a b = if b = 0 then BitVec.ofNat 64 (2 ^ 64 - 1)
    else if a.toInt = -2 ^ 63 ∧ b.toInt = -1 then BitVec.ofNat 64 (2 ^ 63) else BitVec.ofInt 64 (a.toInt.tdiv b.toInt) := by
  unfold divS
  split
  case isTrue => rfl
  case isFalse =>
    split
    case isTrue h => rw [h.1, h.2]; rfl
    case isFalse => rfl

/-- REM: in the overflow case of R153 the remainder is 0. -/
theorem remS_eq (a b : Word) : remS a b = if b = 0 then a
    else if a.toInt = -2 ^ 63 ∧ b.toInt = -1 then 0 else BitVec.ofInt 64 (a.toInt.tmod b.toInt) := by
  unfold remS
  split
  case isTrue => rfl
  case isFalse =>
    split
    case isTrue h => rw [h.1, h.2]; rfl
    case isFalse => rfl

theorem shiftLeft_eq_ofNat (a : Word) (n : Nat) : a <<< n = BitVec.ofNat 64 (a.toNat * 2 ^ n) := by
  apply BitVec.eq_of_toNat_eq
  rw [BitVec.toNat_shiftLeft, BitVec.toNat_ofNat, Nat.shiftLeft_eq]

theorem ushiftRight_eq_ofNat (a : Word) (n : Nat) : a >>> n = BitVec.ofNat 64 (a.toNat / 2 ^ n) := by
  have hlt : a.toNat / 2 ^ n < 2 ^ 64 := Nat.lt_of_le_of_lt (Nat.div_le_self _ _) a.isLt
  apply BitVec.eq_of_toNat_eq
  rw [BitVec.toNat_ushiftRight, BitVec.toNat_ofNat, Nat.shiftRight_eq_div_pow, Nat.mod_eq_of_lt hlt]

theorem sshiftRight_eq_ofInt (a : Word) (n : Nat) : a.sshiftRight n = BitVec.ofInt 64 (a.toInt / 2 ^ n) := by
  rw [← BitVec.ofInt_toInt (x := a.sshiftRight n), BitVec.toInt_sshiftRight, Int.shiftRight_eq_div_pow]
  rfl

/-- ROTL: the two parts of a rotation share no bit, so their sum is their union. -/
theorem rotLeft_eq_rotateLeft (a : Word) {n : Nat} (hn : n < 64) : rotLeft a n = a.rotateLeft n := by
  have hlow : a.toNat / 2 ^ (64 - n) < 2 ^ n := by
    rw [Nat.div_lt_iff_lt_mul (Nat.two_pow_pos _), ← Nat.pow_add, Nat.add_sub_cancel' (Nat.le_of_lt hn)]
    exact a.isLt
  rw [rotLeft, BitVec.rotateLeft_eq_rotateLeftAux_of_lt hn, BitVec.rotateLeftAux, ← Nat.shiftLeft_eq,
    Nat.shiftLeft_add_eq_or_of_lt hlow, BitVec.ofNat_or, Nat.shiftLeft_eq, shiftLeft_eq_ofNat, ushiftRight_eq_ofNat]

/-- LIH: the immediate above the low half of the register is the union of the two halves. -/
theorem lih_eq_or (imm : Nat) (a : Word) : BitVec.ofNat 64 (imm * 2 ^ 32 + a.toNat % 2 ^ 32) =
    ((BitVec.ofNat 32 imm).setWidth 64 <<< 32) ||| (a.setWidth 32).setWidth 64 := by
  have hhigh : BitVec.ofNat 64 (imm <<< 32) = (BitVec.ofNat 32 imm).setWidth 64 <<< 32 := by
    apply BitVec.eq_of_toNat_eq
    simp only [BitVec.toNat_ofNat, BitVec.toNat_shiftLeft, BitVec.toNat_setWidth, Nat.shiftLeft_eq]
    omega
  have hlow : BitVec.ofNat 64 (a.toNat % 2 ^ 32) = (a.setWidth 32).setWidth 64 := by
    apply BitVec.eq_of_toNat_eq
    simp only [BitVec.toNat_ofNat, BitVec.toNat_setWidth]
  rw [← Nat.shiftLeft_eq, Nat.shiftLeft_add_eq_or_of_lt (Nat.mod_lt _ (by decide)), BitVec.ofNat_or, hhigh, hlow]

/-! ## Latches and CSRs (R70, R71, R158, R159) -/

theorem latchChk_of_full {t : Strand} {n : Nat} (hn : n < t.nlatch) (hfull : (t.rh n).full = true) : latchChk t n = [] := by
  simp [latchChk, hreg, Machine.cond, hn, hfull]

theorem latchDyn_of_full (i : Instr) {t : Strand} {n : Nat} (hfull : (t.rh n).full = true) : latchDyn i t n = none := by
  simp [latchDyn, hfull]

/-- MOVH of a full latch that waits for no fill. -/
theorem opMovh_run (o : MovhOps) {s : State} {k : Nat} (h : Issues s k) (hg : (s.strand k).guard o.g = true)
    (hn : o.h < (s.strand k).nlatch) (hfull : ((s.strand k).rh o.h).full = true) (hpend : ((s.strand k).rh o.h).pend = none) :
    (opMovh o s).run s = .next ((landed s k (onWay (s.strand k) .s (.sreg o.sd) 1
      ((BitVec.ofNat 64 (((s.strand k).rh o.h).data.toNat / 2 ^ (64 * o.w))).setWidth 1024) fullEn none)).modStrand k
        (fun t => t.takeLatch o.h o.keep)) := by
  have hme : s.me = s.strand k := State.me_of_issues h
  have hchk : (opMovh o s).chk = [] := by rw [opMovh, hme]; exact latchChk_of_full hn hfull
  have hdyn : (opMovh o s).dyn = none := by rw [opMovh, hme]; exact latchDyn_of_full _ hfull
  have hstall : (opMovh o s).stall = false := by simp [opMovh, hme, latchStall, hpend]
  rw [Op.run_unchecked _ h hg hchk hdyn hstall]
  simp only [opMovh, hme, State.landWord_of_issues h, State.onMe_of_issues (h.landed k _)]

/-- A CSR write that the strand's privilege allows, of a CSR with RW fields. -/
theorem opCsrw_run (i : Instr) (op : CsrOp) (o : CsrwOps) {s : State} {k : Nat} (h : Issues s k) (hg : (s.strand k).guard o.g = true)
    (hp : csrPriv o.csr = true → (s.strand k).supervisor = true) (hw : csrRw o.csr ≠ 0) :
    (opCsrw i op o s).run s = .next (landed s k (onWay (s.strand k) .s (.csr o.csr) 1
      ((s.csrNew (s.strand k) op o.csr ((s.strand k).rs o.sa)).setWidth 1024) fullEn none)) := by
  have hme : s.me = s.strand k := State.me_of_issues h
  have hchk : (opCsrw i op o s).chk = [] := by
    simp only [opCsrw, Machine.cond, hme]
    cases hpriv : csrPriv o.csr
    · rfl
    · rw [hp hpriv]; rfl
  rw [Op.run_unchecked _ h hg hchk rfl rfl]
  simp only [opCsrw, Op.plain, if_neg hw, hme, State.landWord_of_issues h]

/-! ## Calls and returns (R165 to R168) -/

/-- A call with room on the shadow stack and on chip. -/
theorem opCall_run (i : Instr) (g : Guard) (target : Strand → Nat) {s : State} {k : Nat} (h : Issues s k)
    (hg : (s.strand k).guard g = true) (hheld : (s.strand k).held < shadowMax) (hchip : (s.strand k).shadow.length < 64) :
    (opCall i g target s).run s = .next ((landed s k (onWay (s.strand k) .s (.sreg 62) 1
      ((BitVec.ofNat 64 (s.strand k).bun.succ).setWidth 1024) fullEn none)).modStrand k (fun t =>
        ({ t with shadow := ⟨t.bun.succ % 65536, t.ldepth⟩ :: t.shadow, floor := t.ldepth } : Strand).transfer (target t))) := by
  have hme : s.me = s.strand k := State.me_of_issues h
  have hdyn : (opCall i g target s).dyn = none := by rw [opCall, hme]; exact if_neg (Nat.not_le.mpr hheld)
  have hstall : (opCall i g target s).stall = false := by rw [opCall, hme]; exact decide_eq_false (Nat.not_le.mpr hchip)
  rw [Op.run_unchecked _ h hg rfl hdyn hstall]
  simp only [opCall, hme, State.landWord_of_issues h, State.onMe_of_issues (h.landed k _)]

/-- A return whose newest entry is on chip, belongs to the running code, and agrees with s62. -/
theorem opRet_run (g : Guard) {s : State} {k : Nat} {e : SEntry} {r : List SEntry} (h : Issues s k) (hg : (s.strand k).guard g = true)
    (hs : (s.strand k).shadow = e :: r) (hb : (s.strand k).shadowBase < (s.strand k).held)
    (hlink : (s.strand k).rs 62 = BitVec.ofNat 64 e.ret) : (opRet g s).run s = .next (s.modStrand k Strand.doRet) := by
  have hme : s.me = s.strand k := State.me_of_issues h
  have hdyn : (opRet g s).dyn = none := by
    simp only [opRet, hme, retDyn, if_neg (Nat.not_le.mpr hb), hs, hlink, if_true]
  have hstall : (opRet g s).stall = false := by simp [opRet, hme, hs]
  rw [Op.run_unchecked _ h hg rfl hdyn hstall, ← State.onMe_of_issues h]
  rfl

/-- A branch opens no level. -/
theorem Strand.branchTo_loops_length (t : Strand) (target : Nat) : (t.branchTo target).loops.length ≤ t.loops.length := by
  obtain ⟨n, -, hdrop, -, -⟩ := popOutside_spec t.floor target t.loops t.lbase
  have hloops : (t.branchTo target).loops = t.loops.drop n := hdrop
  rw [hloops, List.length_drop]
  exact Nat.sub_le _ _

/-- A return uses up the newest entry: its position and, at most, its loop depth. -/
theorem Strand.doRet_spec {t : Strand} {e : SEntry} {r : List SEntry} (hs : t.shadow = e :: r) :
    t.doRet.shadow = r ∧ t.doRet.pos = e.ret ∧ t.doRet.bres = 2 ∧ t.doRet.loops.length ≤ e.depth ∧ ∀ n, t.doRet.rs n = t.rs n := by
  rw [Strand.doRet, hs]
  refine ⟨rfl, rfl, rfl, Nat.le_trans (Strand.branchTo_loops_length _ _) ?_, fun _ => rfl⟩
  show (popLevels (t.ldepth - e.depth) t.loops t.lbase).1.length ≤ e.depth
  rw [popLevels_drop, List.length_drop, Strand.ldepth]
  omega

/-! ## The loop unit (R169 to R175) -/

theorem opLset_run (o : LsetOps) {s : State} {k : Nat} (h : Issues s k) (hc : (opLset o s).Clear (s.strand k)) :
    (opLset o s).run s = .next (s.modStrand k (fun t => t.doLset o)) := by
  rw [Op.run_clear _ h hc, ← State.onMe_of_issues h]
  rfl

/-- LSET with a count of zero goes on behind its body. -/
theorem Strand.doLset_of_count_zero {t : Strand} {o : LsetOps} (h : lsetCount t o.cnt = 0) :
    t.doLset o = { t with bres := 2, next := .eval ((lsetEnd t o + 1) * 16) (some (lsetEnd t o)) } := if_pos h

/-- LSET with another count pushes its level. -/
theorem Strand.doLset_of_count_ne_zero {t : Strand} {o : LsetOps} (h : lsetCount t o.cnt ≠ 0) :
    t.doLset o = { t with
      loops := ⟨t.bun.succ, lsetEnd t o, o.depth, o.f, lsetCount t o.cnt - 1⟩ :: t.loops
      ldone := if 0 < o.depth then 0 else t.ldone, pos := t.bun.succ, next := .known } := if_neg h

/-- The four conditions of R170. -/
theorem lsetBad_of {t : Strand} {o : LsetOps} (h : lsetEnd t o < t.bun.succ / 16 ∨ t.loops.length = 6 ∨
    (∃ l r, t.loops = l :: r ∧ t.floor < t.loops.length ∧ l.endl < lsetEnd t o) ∨ (0 < o.depth ∧ ∃ l ∈ t.loops, 0 < l.depth)) :
    lsetBad t o = true := by
  simp only [lsetBad, Bool.or_eq_true, Bool.and_eq_true, decide_eq_true_eq, beq_iff_eq, List.any_eq_true]
  rcases h with hempty | hfull | ⟨l, r, hl, hfloor, hend⟩ | hsecond
  · exact .inl (.inl (.inl hempty))
  · exact .inl (.inl (.inr hfull))
  · rw [hl] at hfloor
    refine .inl (.inr ?_)
    simp only [Strand.ldepth, hl, Bool.and_eq_true, decide_eq_true_eq]
    exact ⟨hfloor, hend⟩
  · exact .inr hsecond

theorem opLset_run_bad (o : LsetOps) {s : State} {k : Nat} (h : Issues s k) (hg : (s.strand k).guard o.g = true)
    (hb : lsetBad (s.strand k) o = true) :
    (opLset o s).run s = .next (s.takeTrap k ⟨.illegalOp, syllableOf (.lset o), (s.strand k).bun.addr, 2 ^ Slot.bit .sy⟩ false) := by
  have hdyn : (opLset o s).dyn = some (.illegalOp, syllableOf (.lset o)) := by
    rw [opLset, State.me_of_issues h]; exact if_pos hb
  exact Op.run_dyn _ h hg rfl hdyn

/-- LBRK of levels that stand above the floor. -/
theorem opLbrk_run (o : NumOps) {s : State} {k : Nat} (h : Issues s k) (hg : (s.strand k).guard o.g = true)
    (hn : o.n ≤ (s.strand k).ldepth - (s.strand k).floor) :
    (opLbrk o s).run s = .next (s.modStrand k (fun t => t.doLbrk o.n)) := by
  have hdyn : (opLbrk o s).dyn = none := by rw [opLbrk, State.me_of_issues h]; exact if_neg (Nat.not_lt.mpr hn)
  rw [Op.run_unchecked _ h hg rfl hdyn rfl, ← State.onMe_of_issues h]
  rfl

theorem opLbrk_run_bad (o : NumOps) {s : State} {k : Nat} (h : Issues s k) (hg : (s.strand k).guard o.g = true)
    (hn : (s.strand k).ldepth - (s.strand k).floor < o.n) :
    (opLbrk o s).run s = .next (s.takeTrap k ⟨.illegalOp, syllableOf (.lbrk o), (s.strand k).bun.addr, 2 ^ Slot.bit .sy⟩ false) := by
  have hdyn : (opLbrk o s).dyn = some (.illegalOp, syllableOf (.lbrk o)) := by
    rw [opLbrk, State.me_of_issues h]; exact if_pos hn
  exact Op.run_dyn _ h hg rfl hdyn

theorem Strand.doLbrk_loops (t : Strand) (n : Nat) : (t.doLbrk n).loops = t.loops.drop n := popLevels_drop n t.loops t.lbase

theorem Strand.doLbrk_next {t : Strand} {n : Nat} {l : Loop} (h : t.loops[n - 1]? = some l) :
    (t.doLbrk n).next = .eval ((l.endl + 1) * 16) (some l.endl) := by simp only [Strand.doLbrk, h]

section EdgeWalk
variable {l : Loop} {floor line : Nat} {r : List Loop} (succ lb ld : Nat) (stop e : Bool)

/-- Without a stop, a level above the floor that ends on the line takes its back edge while count is left. -/
theorem edgeWalk_back (hf : floor < (l :: r).length) (he : l.endl = line) (hc : 0 < l.count) :
    edgeWalk floor line succ false (l :: r) lb ld e =
      ⟨{ l with count := l.count - 1 } :: r, l.start, lb, if 0 < l.depth then ld + 1 else ld, true, false⟩ := by
  rw [edgeWalk, if_pos ⟨hf, he⟩, if_neg (fun h => Bool.false_ne_true h.2.2), if_pos hc]

/-- With no count left it is popped, and the search goes on with the next level. -/
theorem edgeWalk_exit (hf : floor < (l :: r).length) (he : l.endl = line) (hc : l.count = 0) :
    edgeWalk floor line succ stop (l :: r) lb ld e =
      edgeWalk floor line succ stop r (l.lbaseAfter lb) (if 0 < l.depth then ld + 1 else ld) true := by
  have hnone : ¬0 < l.count := Nat.not_lt.mpr (Nat.le_of_eq hc)
  rw [edgeWalk, if_pos ⟨hf, he⟩, if_neg (fun h => hnone h.1), if_neg hnone]

/-- When no level above the floor ends on the line, the search ends at the successor. -/
theorem edgeWalk_stay (hr : r = [] ∨ floor = r.length ∨ ∃ m q, r = m :: q ∧ m.endl ≠ line) :
    edgeWalk floor line succ stop r lb ld e = ⟨r, succ, lb, ld, e, false⟩ := by
  cases r with
  | nil => rfl
  | cons m q =>
    refine if_neg fun ⟨hf, he⟩ => ?_
    rcases hr with hr | hr | ⟨m', q', hr, hne⟩
    · cases hr
    · exact Nat.lt_irrefl _ (hr ▸ hf)
    · cases hr; exact hne he

end EdgeWalk

/-! ## Flags and PHASE (R233, R345) -/

/-- WAITF: a clear flag makes it wait, a set one completes it. -/
theorem opWaitf_run (o : WaitfOps) {s : State} {k : Nat} (h : Issues s k) (hg : (s.strand k).guard o.g = true)
    (hh : (s.strand k).hsave = none) : (opWaitf o s).run s = .next (
      if (s.strand k).rf o.flag = false then s.modStrand k (fun t => { t with switchTo := some (.wait (.flag o.flag o.c)) })
      else if o.c then landed s k (onWay (s.strand k) .sy (.flag o.flag) 1 0 fullEn none) else s) := by
  rw [opWaitf, Op.run_plain_noHandler _ _ _ _ h hg hh, State.me_of_issues h, State.landBit_of_issues h, State.onMe_of_issues h]
  cases (s.strand k).rf o.flag <;> rfl

/-- Alone in its bundle, an operation comes after every request made so far. -/
theorem State.bunMark_of_issues {s : State} {k : Nat} (h : Issues s k) : s.bunMark = s.nextId := by
  simp [State.bunMark, h.2]

theorem State.phaseOp_of_issues {s : State} {k : Nat} (h : Issues s k) (scope : Nat) : s.phaseOp scope =
    if phaseReady s k scope s.nextId then s.phaseDone k scope s.nextId (s.strand k).bun.addr
    else s.modStrand k (fun t => { t with switchTo := some (.wait (.phase scope s.nextId t.bun.addr)) }) := by
  simp only [State.phaseOp, h.1, State.bunMark_of_issues h]
  exact ite_congr rfl (fun _ => rfl) (fun _ => State.modStrand_congr _ _ _ _ rfl)

end Sys2Proof.Machine
end

section
open Sys2Proof Sys2Proof.Machine

/-- Settles O10: the pops of a taken transfer are those of `popOutside`, by induction on the levels. -/
theorem transferPops : Obligations.TransferPops := by
  unfold Obligations.TransferPops
  intro t target
  obtain ⟨n, hn, hdrop, hpopped, hkept⟩ := popOutside_spec t.floor target t.loops t.lbase
  exact ⟨n, hn, hdrop, rfl, rfl, hpopped, hkept, fun _ => rfl, rfl, rfl⟩

/-- Settles O1: each meaning is a scalar operation; the values that R152 words otherwise are equal to the model's. -/
theorem scalarArithmetic : Obligations.ScalarArithmetic := by
  unfold Obligations.ScalarArithmetic
  refine ⟨?add, ?sub, ?addi, ?mul, ?mulh, ?mulhu, ?and, ?or, ?xor, ?andn, ?clz, ?popc, ?min, ?max, ?minu, ?maxu,
    ?encRRR, ?encRRI, ?encRRS, ?encRR⟩
  case clz => exact fun o => landsScalar_of_scalarOp (fun _ => rfl) fun _ => congrArg _ (countLead_eq _)
  case popc => exact fun o => landsScalar_of_scalarOp (fun _ => rfl) fun _ => congrArg _ (countOnes_eq _ 64)
  case min => exact fun o => landsScalar_of_scalarOp (fun _ => rfl) fun _ => minS_eq _ _
  case max => exact fun o => landsScalar_of_scalarOp (fun _ => rfl) fun _ => maxS_eq _ _
  case minu => exact fun o => landsScalar_of_scalarOp (fun _ => rfl) fun _ => minU_eq _ _
  case maxu => exact fun o => landsScalar_of_scalarOp (fun _ => rfl) fun _ => maxU_eq _ _
  case encRRR => exact fun _ => ⟨rfl, rfl, rfl, rfl⟩
  case encRRI => exact fun _ => rfl
  case encRRS => exact fun _ => ⟨rfl, rfl, rfl, rfl, rfl, rfl, rfl, rfl, rfl⟩
  case encRR => exact fun _ => ⟨rfl, rfl⟩
  all_goals exact fun o => landsScalar_of_scalarOp (fun _ => rfl) fun _ => rfl

/-- Settles O2: the overflow cases of R153 are values of the truncated quotient and remainder (`divS_eq`, `remS_eq`). -/
theorem divisionResults : Obligations.DivisionResults := by
  unfold Obligations.DivisionResults
  refine ⟨fun o => ?div, fun o => ?rem, fun o => ?divu, fun o => ?remu, fun _ => ⟨rfl, rfl, rfl, rfl⟩⟩
  case div => exact landsScalar_of_scalarOp (fun _ => rfl) fun _ => divS_eq _ _
  case rem => exact landsScalar_of_scalarOp (fun _ => rfl) fun _ => remS_eq _ _
  case divu => exact landsScalar_of_scalarOp (fun _ => rfl) fun _ => rfl
  case remu => exact landsScalar_of_scalarOp (fun _ => rfl) fun _ => rfl

/-- Settles O3: shifts are products and quotients by powers of two, and a rotation is the union of two shifts. -/
theorem shiftResults : Obligations.ShiftResults := by
  unfold Obligations.ShiftResults
  refine ⟨fun o => ?shl, fun o => ?shr, fun o => ?sar, fun o => ?rotl⟩
  case shl => exact landsScalar_of_scalarOp (fun _ => rfl) fun _ => shiftLeft_eq_ofNat _ _
  case shr => exact landsScalar_of_scalarOp (fun _ => rfl) fun _ => ushiftRight_eq_ofNat _ _
  case sar => exact landsScalar_of_scalarOp (fun _ => rfl) fun _ => sshiftRight_eq_ofInt _ _
  case rotl => exact landsScalar_of_scalarOp (fun _ => rfl) fun _ => rotLeft_eq_rotateLeft _ (Nat.mod_lt _ (by decide))

/-- Settles O4: SEL, LI and LIH are scalar operations, and LIH joins two halves (`lih_eq_or`). -/
theorem selectAndImmediates : Obligations.SelectAndImmediates := by
  unfold Obligations.SelectAndImmediates
  refine ⟨fun o => ?sel, fun o => ?li, fun o => ?lih, fun _ => rfl, fun _ => ⟨rfl, rfl⟩⟩
  case sel => exact landsScalar_of_scalarOp (fun _ => rfl) fun _ => rfl
  case li => exact landsScalar_of_scalarOp (fun _ => rfl) fun _ => rfl
  case lih => exact landsScalar_of_scalarOp (fun _ => rfl) fun _ => lih_eq_or _ _

/-- Settles O6: MOVH and the CSR writes pass their checks; the other operations have none. -/
theorem systemOperations : Obligations.SystemOperations := by
  unfold Obligations.SystemOperations
  refine ⟨fun o s k h hg hn hfull hpend => opMovh_run o h hg hn hfull hpend, fun o s k h hg => ?csrr, fun o s k h hg hp hw => ?csrw,
    fun o s k h hg => ?trap, fun o s k h hg => ?layw, fun o s k h hg => ?layr⟩
  case csrr => exact Op.run_plain_landWord (.csrr o) .s o.g (.sreg o.sd) 2 (fun s t => s.csr t o.csr) h hg
  case csrw => exact ⟨opCsrw_run _ _ o h hg hp hw, opCsrw_run _ _ o h hg hp hw, opCsrw_run _ _ o h hg hp hw⟩
  case trap => exact ⟨Op.run_plain_onMe _ _ _ _ h hg, Op.run_plain_onMe _ _ _ _ h hg⟩
  case layw => exact Op.run_plain_landWord (.layw o) .s o.g (.lay (4 * o.n + o.k)) 2 (fun _ t => t.rs o.sa) h hg
  case layr =>
    exact Op.run_plain_landWord (.layr o) .s o.g (.sreg o.sd) 2
      (fun _ t => t.layWord (4 * o.n + o.k) &&& layReadable o.k (fld (t.layWord (4 * o.n)).toNat 6 2 == 0)) h hg

/-- Settles O9: each transfer's effect from its run lemma; a return's from `Strand.doRet_spec`. -/
theorem transfersComplete : Obligations.TransfersComplete := by
  unfold Obligations.TransfersComplete
  refine ⟨fun o s k h hg => ?br, fun o s k h hg => ?bri, fun o s k h hg hheld hchip => ?call, fun o s k h hg hheld hchip => ?calli,
    fun g s k e r h hg hs hb hlink => ?ret⟩
  case br => exact Op.run_plain_onMe (.br o) .s o.g _ h hg
  case bri => exact Op.run_plain_onMe (.bri o) .s o.g _ h hg
  case call => exact opCall_run (.call o) o.g _ h hg hheld hchip
  case calli => exact opCall_run (.calli o) o.g _ h hg hheld hchip
  case ret =>
    obtain ⟨hshadow, hpos, hbres, hdepth, hrs⟩ := Strand.doRet_spec hs
    refine ⟨_, opRet_run g h hg hs hb hlink, ?_⟩
    rw [State.strand_modStrand]
    exact ⟨hshadow, hpos, hbres, hdepth, rfl, hrs⟩

/-- Settles O11: LSET's effect by its count, and LBRK's by the levels it drops. -/
theorem loopOperations : Obligations.LoopOperations := by
  unfold Obligations.LoopOperations
  refine ⟨fun o s k h hc hn => ?push, fun o s k h hc hn => ?skip, fun o s k l h hg _ hn hl => ?leave⟩
  case push => exact (opLset_run o h hc).trans (congrArg _ (State.modStrand_congr _ _ _ _ (Strand.doLset_of_count_ne_zero hn)))
  case skip => exact (opLset_run o h hc).trans (congrArg _ (State.modStrand_congr _ _ _ _ (Strand.doLset_of_count_zero hn)))
  case leave =>
    refine ⟨_, opLbrk_run o h hg hn, ?_⟩
    rw [State.strand_modStrand]
    exact ⟨Strand.doLbrk_loops _ _, rfl, Strand.doLbrk_next hl, rfl, fun _ => rfl⟩

/-- Settles O12: each condition is one that LSET or LBRK tests before it issues. -/
theorem loopTraps : Obligations.LoopTraps := by
  unfold Obligations.LoopTraps
  exact ⟨fun o s k h hg hbad => opLset_run_bad o h hg (lsetBad_of hbad), fun o s k h hg hn => opLbrk_run_bad o h hg hn⟩

/-- Settles O13: one step of the search takes the back edge, or pops the level and ends at the next one. -/
theorem backEdges : Obligations.BackEdges := by
  unfold Obligations.BackEdges
  intro l r floor line succ lb ld e hf he
  refine ⟨fun hc => ?_, fun hc hr => ?_⟩
  · rw [edgeWalk_back succ lb ld e hf he hc]
    exact ⟨rfl, rfl, rfl⟩
  · rw [edgeWalk_exit succ lb ld false e hf he hc, edgeWalk_stay _ _ _ _ _ hr]
    exact ⟨rfl, rfl⟩

/-- Settles O14: outside a handler these operations pass their checks, and FENCE and the flag operations have none. -/
theorem syncOperations : Obligations.SyncOperations := by
  unfold Obligations.SyncOperations
  refine ⟨fun g s k h hg hh => ⟨?yield, ?endStrand⟩, fun g s k h hg => ?fence, fun o s k h hg => ?flags,
    fun o s k h hg hh => opWaitf_run o h hg hh, fun o s k h hg hh => ?phase⟩
  case yield =>
    rw [← State.onMe_of_issues h]
    exact Op.run_plain_noHandler (.yield g) .sy g _ h hg hh
  case endStrand =>
    rw [← State.onMe_of_issues h]
    exact Op.run_plain_noHandler (.endStrand g) .sy g _ h hg hh
  case fence =>
    rw [← State.bunMark_of_issues h]
    exact Op.run_plain_onMe (.fence g) .sy g (fun s t => { t with fence := s.bunMark }) h hg
  case flags => exact ⟨Op.run_plain_landBit _ _ _ _ _ true h hg, Op.run_plain_landBit _ _ _ _ _ false h hg⟩
  case phase =>
    rw [← State.phaseOp_of_issues h]
    exact Op.run_plain_noHandler (.phase o) .sy o.g _ h hg hh
end

section
/-! PROOF. The VA and VB slots: lanes, moves, compares, reductions and masks (O19 to O24).

Every operation of these slots but VMOVH meets the same conditions, `vecChk`, and has the same effect, one result on its way: the sources are
read at issue (R185). So `landsVector_of_checked` runs them all, and `landsVector_of_vecOp` is its use for those that write a vector register.
What remains of a statement is that the result is the one it names. -/
namespace Sys2Proof.Machine

theorem State.pushIn_of_issues {s : State} {k : Nat} (h : Issues s k) (e : InFlight) : s.pushIn e = landed s k e :=
  State.onMe_of_issues h _

/-- An operation under the conditions of R77 and R187 alone, whose effect is one result made from its strand, lands that result. -/
theorem landsVector_of_checked {i : Instr} {sl : Slot} {g : Guard} {rs : List (VFile × Nat)} {eff : State → State} {e : Strand → InFlight}
    (hexec : ∀ s, exec i s = ({ Op.plain i sl g eff with chk := vecChk s.me rs } : Op).run s)
    (heff : ∀ s k, Issues s k → eff s = landed s k (e (s.strand k))) : LandsVector i g rs e := by
  intro s k h hg hw hh
  have hchk : vecChk s.me rs = [] := by rw [State.me_of_issues h]; exact vecChk_within _ _ hw hh
  rw [hexec s, Op.run_unchecked _ h hg hchk rfl rfl]
  exact congrArg _ (heff s k h)

/-- A vector operation lands its lanes under its byte enables, with the landing trap of its result. -/
theorem landsVector_of_vecOp {i : Instr} {f : VFile} {g : Guard} {vd l : Nat} {rs : List (VFile × Nat)} {r : Strand → VRes}
    {e : Strand → InFlight} (hexec : ∀ s, exec i s = (vecOp i f g vd l rs r s).run s)
    (he : ∀ t, e t = onWay t f.slot (.vreg f vd) l (r t).v (r t).en
      ((r t).trap.map (fun n => (.convertOverflow, BitVec.ofNat 64 n)))) : LandsVector i g rs e := by
  intro s k h hg hw hh
  rw [hexec s, vecOp_run i f g vd l rs r s k h hg hw hh, he]

/-- A mask operation lands its mask; it names no vector register. -/
theorem landsVector_of_maskOp {i : Instr} {f : VFile} {g : Guard} {md : Nat} {r : Strand → Mask}
    (hexec : ∀ s, exec i s = (maskOp i f g md r s).run s) :
    LandsVector i g [] (fun t => onWay t f.slot (.mask f md) 1 ((r t).setWidth 1024) fullEn none) :=
  landsVector_of_checked (eff := fun s => s.land (.mask f md) 1 ((r s.me).setWidth 1024) f.slot) hexec fun s k h => by
    rw [State.land_of_issues h, State.me_of_issues h]

/-- VMOVH of a full latch that waits for no fill (R70, R213). -/
theorem opVmovh_run (o : VMovhOps) {s : State} {k : Nat} (h : Issues s k) (hg : (s.strand k).guard o.g = true)
    (hw : Within (s.strand k) [(o.f, o.vd)]) (hh : (s.strand k).hsave = none) (hn : o.h < (s.strand k).nlatch)
    (hfull : ((s.strand k).rh o.h).full = true) (hpend : ((s.strand k).rh o.h).pend = none) :
    (opVmovh o s).run s = .next ((landed s k (onWay (s.strand k) o.f.slot (.vreg o.f o.vd) 1 ((s.strand k).rh o.h).data
      (laneEn ((s.strand k).rm o.f o.msel) 32) none)).modStrand k (fun t => t.takeLatch o.h o.keep)) := by
  have hme : s.me = s.strand k := State.me_of_issues h
  have hchk : (opVmovh o s).chk = [] := by
    simp only [opVmovh, hme, vecChk_within _ _ hw hh, latchChk_of_full hn hfull, List.append_nil]
  have hdyn : (opVmovh o s).dyn = none := by rw [opVmovh, hme]; exact latchDyn_of_full _ hfull
  have hstall : (opVmovh o s).stall = false := by simp [opVmovh, hme, latchStall, hpend]
  rw [Op.run_unchecked _ h hg hchk hdyn hstall]
  simp only [opVmovh, hme, State.pushIn_of_issues h, State.onMe_of_issues (h.landed k _), onWay]

/-- VCMP lands one bit per lane, under the lane mask and with the bits above the lanes cleared (R195, R196). -/
theorem opVcmp_eff (o : VCmpOps) {s : State} {k : Nat} (h : Issues s k) : (opVcmp o s).eff s = landed s k (
    let t := s.strand k
    let low : Mask := BitVec.ofNat 128 (2 ^ (1024 / tyWidth o.ty) - 1)
    onWay t o.f.slot (.mask o.f o.md) 2 (BitVec.ofNat 1024 (packLanes 1 (t.map2 o.f o.ty o.vs1 o.vs2 (fun a b =>
      (if isIntTy o.ty then intCond o.cond (intOf o.ty a) (intOf o.ty b)
       else floatCond o.cond ((fmtOf o.ty).decode a) ((fmtOf o.ty).decode b)).toNat))))
      ((t.rm o.f o.msel &&& low) ||| ~~~low) none) := by
  simp only [opVcmp, Op.plain, State.me_of_issues h, State.pushIn_of_issues h, onWay]

/-- VLANE lands the lane that its operand names, extended to a word (R214). -/
theorem opVlane_eff (o : VLaneOps) {s : State} {k : Nat} (h : Issues s k) : (opVlane o s).eff s = landed s k (
    let t := s.strand k
    onWay t o.f.slot (.sreg o.sd) 3 ((extendTy o.ty ((lanesOf (t.rv o.f o.vs1) (tyWidth o.ty)).getD
      (t.vsU o.b % (1024 / tyWidth o.ty)) 0)).setWidth 1024) fullEn none) := by
  simp only [opVlane, Op.plain, State.landWord_of_issues h, State.me_of_issues h]

/-- MPOP lands the number of set bits of its mask (R216). -/
theorem opMpop_eff (o : MPopOps) {s : State} {k : Nat} (h : Issues s k) : (opMpop o s).eff s = landed s k (
    onWay (s.strand k) o.f.slot (.sreg o.sd) 2
      ((BitVec.ofNat 64 (((List.range 128).filter (fun j => ((s.strand k).rm o.f o.m1).getLsbD j)).length)).setWidth 1024) fullEn none) := by
  simp only [opMpop, Op.plain, State.landWord_of_issues h, State.me_of_issues h]

end Sys2Proof.Machine
end

section
open Sys2Proof Sys2Proof.Machine

/-- Settles O19: every operation of the four tables is a vector operation, and its lanes are those of its form. -/
theorem vectorFloat : Obligations.VectorFloat := by
  unfold Obligations.VectorFloat
  refine ⟨fun o i op hi => ?arithmetic, fun o i np sc hi => ?fused, fun o i op hi => ?extrema, fun o i op hi => ?signs⟩
  all_goals simp only [List.mem_cons, Prod.mk.injEq, List.not_mem_nil, or_false] at hi
  case arithmetic | extrema =>
    rcases hi with ⟨rfl, rfl⟩ | ⟨rfl, rfl⟩ | ⟨rfl, rfl⟩
    all_goals exact landsVector_of_vecOp (fun _ => rfl) (fun _ => rfl)
  case fused =>
    rcases hi with ⟨rfl, rfl, rfl⟩ | ⟨rfl, rfl, rfl⟩ | ⟨rfl, rfl, rfl⟩
    all_goals exact landsVector_of_vecOp (fun _ => rfl) (fun _ => rfl)
  case signs =>
    rcases hi with ⟨rfl, rfl⟩ | ⟨rfl, rfl⟩
    all_goals exact landsVector_of_vecOp (fun _ => rfl) (fun _ => rfl)

/-- Settles O20: each is a vector operation on the lanes of one source, whose value is `approxResult`. -/
theorem vectorApproximate : Obligations.VectorApproximate := by
  unfold Obligations.VectorApproximate
  intro o i op l hi
  simp only [List.mem_cons, Prod.mk.injEq, List.not_mem_nil, or_false] at hi
  rcases hi with ⟨rfl, rfl, rfl⟩ | ⟨rfl, rfl, rfl⟩ | ⟨rfl, rfl, rfl⟩ | ⟨rfl, rfl, rfl⟩ | ⟨rfl, rfl, rfl⟩
  all_goals exact landsVector_of_vecOp (fun _ => rfl) (fun _ => rfl)

/-- Settles O21: arithmetic under a policy takes its landing trap from `trapRes`; the other operations have none. -/
theorem vectorInteger : Obligations.VectorInteger := by
  unfold Obligations.VectorInteger
  refine ⟨fun o i op l hi => ?policy, fun o i op l hi => ?products, fun o => ?iabs, fun o i op hi => ?logic, fun o i op hi => ?shifts⟩
  case policy =>
    rcases hi with ⟨rfl, rfl, rfl⟩ | ⟨rfl, rfl, rfl⟩ | ⟨rfl, rfl, rfl⟩
    all_goals exact landsVector_of_vecOp (fun _ => rfl) (fun _ => rfl)
  case iabs => exact landsVector_of_vecOp (fun _ => rfl) (fun _ => rfl)
  case logic =>
    rcases hi with ⟨rfl, rfl⟩ | ⟨rfl, rfl⟩ | ⟨rfl, rfl⟩ | ⟨rfl, rfl⟩
    all_goals exact landsVector_of_vecOp (fun _ => rfl) (fun _ => rfl)
  case products =>
    simp only [List.mem_cons, Prod.mk.injEq, List.not_mem_nil, or_false] at hi
    rcases hi with ⟨rfl, rfl, rfl⟩ | ⟨rfl, rfl, rfl⟩ | ⟨rfl, rfl, rfl⟩ | ⟨rfl, rfl, rfl⟩
    all_goals exact landsVector_of_vecOp (fun _ => rfl) (fun _ => rfl)
  case shifts =>
    simp only [List.mem_cons, Prod.mk.injEq, List.not_mem_nil, or_false] at hi
    rcases hi with ⟨rfl, rfl⟩ | ⟨rfl, rfl⟩ | ⟨rfl, rfl⟩
    all_goals exact landsVector_of_vecOp (fun _ => rfl) (fun _ => rfl)

/-- Settles O22: the three forms are vector operations; the lane without a value in each gives the landing trap. -/
theorem vectorConversions : Obligations.VectorConversions := by
  unfold Obligations.VectorConversions
  refine ⟨fun o i hi => ?formats, fun o i r hi => ?blocks, fun o => ?scaling⟩
  case formats =>
    simp only [List.mem_cons, List.not_mem_nil, or_false] at hi
    rcases hi with rfl | rfl | rfl
    all_goals exact landsVector_of_vecOp (fun _ => rfl) (fun _ => rfl)
  case blocks =>
    rcases hi with ⟨rfl, rfl⟩ | ⟨rfl, rfl⟩
    all_goals exact landsVector_of_vecOp (fun _ => rfl) (fun _ => rfl)
  case scaling => exact landsVector_of_vecOp (fun _ => rfl) (fun _ => rfl)

/-- Settles O23: all but three write a vector register from their strand's sources. VMOVH also takes its latch, VLANE lands in a scalar
register and VCMP in a mask. -/
theorem vectorMoves : Obligations.VectorMoves := by
  unfold Obligations.VectorMoves
  refine ⟨fun o => ?mov, fun o => ?xfer, fun o => ?bcast, fun o => ?perm, fun o => ?shuf, fun o => ?slide, fun o => ?sel,
    fun o s k h hg hw hh hn hfull hpend => opVmovh_run o h hg hw hh hn hfull hpend, fun o => ?lane, fun o => ?cmp, fun o i op l hi => ?red⟩
  case lane => exact landsVector_of_checked (fun _ => rfl) fun s k h => opVlane_eff o h
  case cmp => exact landsVector_of_checked (fun _ => rfl) fun s k h => opVcmp_eff o h
  case red =>
    simp only [List.mem_cons, Prod.mk.injEq, List.not_mem_nil, or_false] at hi
    rcases hi with ⟨rfl, rfl, rfl⟩ | ⟨rfl, rfl, rfl⟩ | ⟨rfl, rfl, rfl⟩
    all_goals exact landsVector_of_vecOp (fun _ => rfl) (fun _ => rfl)
  all_goals exact landsVector_of_vecOp (fun _ => rfl) (fun _ => rfl)

/-- Settles O24: the mask operations land a mask, and MPOP a word. -/
theorem maskOperations : Obligations.MaskOperations := by
  unfold Obligations.MaskOperations
  refine ⟨fun o i op hi => ?binary, fun o => landsVector_of_maskOp (fun _ => rfl), fun o => ?popcount⟩
  case binary =>
    rcases hi with ⟨rfl, rfl⟩ | ⟨rfl, rfl⟩ | ⟨rfl, rfl⟩
    all_goals exact landsVector_of_maskOp (fun _ => rfl)
  case popcount => exact landsVector_of_checked (fun _ => rfl) fun s k h => opMpop_eff o h
end

section
/-! PROOF. Requests of a strand: stores, atomics and fills at their homes, and requests that leave through a window (O44).

Each event is first reduced to the one function that does its work (`storeLeave`, `storeUnit`, `sendXact`, `rmwHome`, `atomReturn`). What that
function does to memory is a number written at an address (`byte_of_written`, `byte_of_not_written`): the units in which a write is performed
put the same bytes at the same addresses (`State.homeWrite_cellsAt_mem`). What it does to the strand stands apart from its charges and
translations, which leave the strands. -/
namespace Sys2Proof.Machine

/-! ## Bytes written at consecutive addresses -/

/-- Bytes as cells at consecutive addresses. -/
def cellsAt (a : Nat) : List Byte → List Host.Cell
  | [] => []
  | b :: r => (a, b) :: cellsAt (a + 1) r

/-- The addresses of an element's bytes, paired with as many bytes, are cells at consecutive addresses. -/
theorem bytesFrom_zip (a : Nat) (e : El) (bs : List Byte) (h : bs.length = e.w) : (bytesFrom a e).zip bs = cellsAt a bs := by
  unfold bytesFrom
  rw [← h]
  clear h
  induction bs generalizing a with
  | nil => rfl
  | cons b r ih =>
    have hshift : (fun i => a + i) ∘ Nat.succ = fun i => a + 1 + i := by funext i; simp only [Function.comp]; omega
    simp [List.range_succ_eq_map, hshift, cellsAt, ih]

/-- Cells at consecutive addresses, set one after another, are bytes written from the first address up. -/
theorem foldl_setMem_cellsAt (m : List Host.Cell) (a : Nat) (bs : List Byte) :
    (cellsAt a bs).foldl (fun m c => setMem m c.1 c.2) m = writeBytes m a bs := by
  induction bs generalizing m a with
  | nil => rfl
  | cons b r ih => exact ih _ _

/-- Bytes written in two parts. -/
theorem writeBytes_append (l r : List Byte) (m : List Host.Cell) (a : Nat) :
    writeBytes m a (l ++ r) = writeBytes (writeBytes m a l) (a + l.length) r := by
  induction l generalizing m a with
  | nil => rfl
  | cons b l ih => simp only [List.cons_append, writeBytes, ih, List.length_cons]; congr 1; omega

/-- The number of some bytes has these bytes. -/
theorem leBytes_leNat (bs : List Byte) : leBytes bs.length (leNat bs) = bs := by
  induction bs with
  | nil => rfl
  | cons b r ih =>
    have hb : b.toNat < 256 := b.isLt
    have hmod : (b.toNat + 256 * leNat r) % 256 = b.toNat := by omega
    have hdiv : (b.toNat + 256 * leNat r) / 256 = leNat r := by omega
    simp [leBytes, leNat, hmod, hdiv, ih]

/-- A byte of a number. -/
theorem getD_leBytes (n v i : Nat) (h : i < n) : (leBytes n v).getD i 0 = BitVec.ofNat 8 (v / 256 ^ i) := by
  induction n generalizing v i with
  | zero => omega
  | succ n ih =>
    cases i with
    | zero => simp only [leBytes, List.getD_cons_zero, Nat.pow_zero, Nat.div_one]; exact BitVec.eq_of_toNat_eq (by simp)
    | succ i => rw [leBytes, List.getD_cons_succ, ih _ _ (by omega), Nat.div_div_eq_div_mul, Nat.pow_succ, Nat.mul_comm]

/-- The bytes from an address up, one by one. -/
theorem State.bytes_eq_map (s : State) (a n : Nat) : s.bytes a n = (List.range n).map (fun i => s.byte (a + i)) := by
  induction n generalizing a with
  | zero => rfl
  | succ n ih =>
    have hshift : (fun i => s.byte (a + i)) ∘ Nat.succ = fun i => s.byte (a + 1 + i) := by
      funext i; simp only [Function.comp]; congr 1; omega
    simp [State.bytes, ih, List.range_succ_eq_map, hshift]

/-- The units of consecutive bytes, performed in order, write these bytes. -/
theorem State.performEls_chunkUnits_mem (wr : Writer) (fuel : Nat) (s : State) (a : Nat) (bs : List Byte) (h : bs.length < fuel) :
    (s.performEls wr (chunkUnits fuel a bs)).mem = writeBytes s.mem a bs := by
  induction fuel generalizing s a bs with
  | zero => omega
  | succ fuel ih =>
    cases bs with
    | nil => rfl
    | cons b r =>
      obtain ⟨n, hn⟩ : ∃ n, 8 - a % 8 = n + 1 := ⟨7 - a % 8, by omega⟩
      have hrest : ((b :: r).drop (n + 1)).length < fuel := by simp at h ⊢; omega
      have hsplit : writeBytes s.mem a (b :: r) =
          writeBytes (writeBytes s.mem a ((b :: r).take (n + 1))) (a + (n + 1)) ((b :: r).drop (n + 1)) := by
        have happend := writeBytes_append ((b :: r).take (n + 1)) ((b :: r).drop (n + 1)) s.mem a
        rw [List.take_append_drop] at happend
        rw [happend]
        by_cases hlen : n + 1 ≤ (b :: r).length
        · rw [List.length_take_of_le hlen]
        · rw [List.drop_eq_nil_of_le (by omega)]; rfl
      simp only [chunkUnits, hn, State.performEls]
      rw [ih _ _ _ hrest, hsplit, State.perform, leBytes_leNat]

/-- One cell joins the runs found so far, the latest first: the pass of `cellRuns`. -/
def addCell (rs : List (Nat × List Byte)) (c : Host.Cell) : List (Nat × List Byte) :=
  match rs with
  | (a, l) :: r => if a + l.length = c.1 then (a, l ++ [c.2]) :: r else (c.1, [c.2]) :: rs
  | [] => [(c.1, [c.2])]

theorem cellRuns_eq (cs : List Host.Cell) : cellRuns cs = (cs.foldl addCell []).reverse := rfl

/-- Cells that go on where the only run ends join it. -/
theorem foldl_addCell_cellsAt (a : Nat) (l bs : List Byte) : (cellsAt (a + l.length) bs).foldl addCell [(a, l)] = [(a, l ++ bs)] := by
  induction bs generalizing l with
  | nil => simp [cellsAt]
  | cons b r ih =>
    have hnext : (cellsAt (a + l.length + 1) r).foldl addCell [(a, l ++ [b])] = [(a, l ++ b :: r)] := by
      simpa [Nat.add_assoc] using ih (l ++ [b])
    simpa [cellsAt, addCell] using hnext

/-- Cells at consecutive addresses form one run. -/
theorem cellRuns_cellsAt (a : Nat) (b : Byte) (bs : List Byte) : cellRuns (cellsAt a (b :: bs)) = [(a, b :: bs)] := by
  rw [cellRuns_eq]
  exact congrArg List.reverse (foldl_addCell_cellsAt a [b] bs)

/-- A write at homes changes memory as its elements do. -/
theorem State.homeWrite_mem (s : State) (wr : Writer) (els : List (Nat × Nat × Nat)) :
    (s.homeWrite wr els).mem = (s.performEls wr els).mem := rfl

/-- Consecutive cells performed at their homes write their bytes. -/
theorem State.homeWrite_cellsAt_mem (s : State) (wr : Writer) (a : Nat) (bs : List Byte) :
    (s.homeWrite wr (cellUnits (cellsAt a bs))).mem = writeBytes s.mem a bs := by
  rw [State.homeWrite_mem]
  cases bs with
  | nil => rfl
  | cons b r =>
    rw [cellUnits, cellRuns_cellsAt, List.flatMap_cons, List.flatMap_nil, List.append_nil]
    exact State.performEls_chunkUnits_mem _ _ _ _ _ (Nat.lt_succ_self _)

/-- Consecutive cells of core scratch write their bytes. -/
theorem State.scratchWrite_cellsAt_mem (s : State) (a : Nat) (bs : List Byte) :
    (s.scratchWrite (cellsAt a bs)).mem = writeBytes s.mem a bs := foldl_setMem_cellsAt _ _ _

/-- After a number is written at an address, its bytes stand there. -/
theorem byte_of_written {s t : State} {a n v : Nat} (h : t.mem = writeBytes s.mem a (leBytes n v)) (i : Nat) (hi : i < n) :
    t.byte (a + i) = BitVec.ofNat 8 (v / 256 ^ i) := by
  have hin : a ≤ a + i ∧ a + i < a + n := by omega
  simp only [State.byte, h, byte_writeBytes, leBytes_length, hin, and_self, if_true, Nat.add_sub_cancel_left]
  exact getD_leBytes n v i hi

/-- And every other byte is as it was. -/
theorem byte_of_not_written {s t : State} {a n v b : Nat} (h : t.mem = writeBytes s.mem a (leBytes n v)) (hb : b < a ∨ a + n ≤ b) :
    t.byte b = s.byte b := by
  have hout : ¬(a ≤ b ∧ b < a + n) := by omega
  simp only [State.byte, h, byte_writeBytes, leBytes_length, hout, if_false]

/-! ## What the shared operations of requests leave as it was -/

/-- A reader of the state that every pass of a loop leaves as it was reads the same after the loop. -/
theorem foldl_keeps {α β : Type} (g : State → β) (f : State → α → State) (hf : ∀ s a, g (f s a) = g s) (l : List α) (s : State) :
    g (l.foldl f s) = g s :=
  List.foldlRecOn l f (motive := fun t => g t = g s) rfl fun t ht a _ => (hf t a).trans ht

/-- A change of a context leaves to a reader of contexts what it leaves of the one it changes. -/
theorem State.ctx_modCtx_keeps {α : Type} (g : Ctx → α) (s : State) (d t e u : Nat) (f : Ctx → Ctx) (hf : ∀ c, g (f c) = g c) :
    g ((s.modCtx d t f).ctx e u) = g (s.ctx e u) := by
  by_cases hkey : ctxKey e u = ctxKey d t
  · have hto (x : State) : x.ctx e u = x.ctx d t := by rw [State.ctx, State.ctx, hkey]
    rw [hto, hto, State.ctx_modCtx, hf]
  · rw [State.ctx_modCtx_other _ _ _ _ _ _ hkey]

/-- A window reads what was written. -/
@[simp] theorem State.win_modWin (s : State) (d t n : Nat) (f : Win → Win) :
    ((s.modWin d t n f).ctx d t).win n = f ((s.ctx d t).win n) := by
  simp [State.modWin, Ctx.win]

/-- A charge changes the energy of its die and of its context only (R335, R336). -/
theorem State.charge_cases (s : State) (d t cls n : Nat) :
    s.charge d t cls n = s ∨ ∃ f g, s.charge d t cls n = (s.modDie d f).modCtx d t g ∧ ∀ c, (g c).wins = c.wins := by
  unfold State.charge
  dsimp only
  split
  · exact .inl rfl
  · exact .inr ⟨_, _, rfl, fun _ => rfl⟩

/-- A reader of the state that no change of a die or of a context reaches. -/
theorem State.charge_keeps {α : Type} (p : State → α) (hd : ∀ s d f, p (State.modDie s d f) = p s)
    (hc : ∀ s d t f, p (State.modCtx s d t f) = p s) (s : State) (d t cls n : Nat) : p (s.charge d t cls n) = p s := by
  obtain h | ⟨f, g, h, -⟩ := s.charge_cases d t cls n
  · rw [h]
  · rw [h, hc, hd]

@[simp] theorem State.charge_strands (s : State) (d t cls n : Nat) : (s.charge d t cls n).strands = s.strands :=
  State.charge_keeps (·.strands) (fun _ _ _ => rfl) (fun _ _ _ _ => rfl) s d t cls n
@[simp] theorem State.charge_nextId (s : State) (d t cls n : Nat) : (s.charge d t cls n).nextId = s.nextId :=
  State.charge_keeps (·.nextId) (fun _ _ _ => rfl) (fun _ _ _ _ => rfl) s d t cls n
/-- It leaves the windows of every context. -/
@[simp] theorem State.charge_wins (s : State) (d t cls n e u : Nat) : ((s.charge d t cls n).ctx e u).wins = (s.ctx e u).wins := by
  obtain h | ⟨f, g, h, hg⟩ := s.charge_cases d t cls n
  · rw [h]
  · rw [h, State.ctx_modCtx_keeps Ctx.wins _ _ _ _ _ _ hg, State.ctx_modDie]

@[simp] theorem State.chargeHomes_strands (s : State) (d t : Nat) (as_ : List Nat) : (s.chargeHomes d t as_).strands = s.strands := by
  simp [State.chargeHomes]
@[simp] theorem State.chargeAway_strands (s : State) (d t n : Nat) : (s.chargeAway d t n).strands = s.strands := by simp [State.chargeAway]
@[simp] theorem State.chargeSend_nextId (s : State) (d t w n : Nat) : (s.chargeSend d t w n).nextId = s.nextId := by simp [State.chargeSend]
@[simp] theorem State.chargeSend_wins (s : State) (d t w n e u : Nat) : ((s.chargeSend d t w n).ctx e u).wins = (s.ctx e u).wins := by
  simp [State.chargeSend]

/-- States with the same strands have the same strand under every identity. -/
theorem State.strand_congr {s t : State} (h : t.strands = s.strands) (k : Nat) : t.strand k = s.strand k := by
  rw [State.strand, State.strand, h]

/-- The translations of an access leave the strands. -/
@[simp] theorem touchEls_strand (s : State) (k : Nat) (acc : Acc) (space : Nat) (els : List El) (j : Nat) :
    (touchEls s k acc space els).strand j = s.strand j := by
  induction els generalizing s with
  | nil => rfl
  | cons e r ih =>
    unfold touchEls
    split
    · rw [ih, touchLeaf_strand]
    · rw [ih, touchLeaf_strand]
    · rfl

/-- An access to scratch uses no translation (R130). -/
theorem touchEls_scratch (s : State) (k : Nat) (acc : Acc) {space : Nat} (h : space < 3) (els : List El) :
    touchEls s k acc space els = s := by
  cases els with
  | nil => rfl
  | cons e r =>
    unfold touchEls
    split
    · omega
    · omega
    · rfl

/-- An element in scratch has no place outside the package. -/
theorem State.awayPlaces_scratch (s : State) (k : Nat) {r : Req} (h : r.space < 3) (e : El) : s.awayPlaces k r e = [] := by
  unfold State.awayPlaces
  dsimp only
  split
  · omega
  · omega
  · rfl

/-! ## Requests of a strand -/

@[simp] theorem Strand.req_dropReq (t : Strand) (rid : Nat) : (t.dropReq rid).req rid = none := by
  simp [Strand.req, Strand.dropReq]

/-- A request changed but for its identity. -/
theorem Strand.req_modReq (t : Strand) (rid : Nat) (f : Req → Req) (hf : ∀ r, (f r).id = r.id) :
    (t.modReq rid f).req rid = (t.req rid).map f := by
  unfold Strand.req Strand.modReq
  dsimp only
  induction t.reqs with
  | nil => rfl
  | cons q r ih =>
    by_cases hq : q.id = rid
    · simp [hq, hf]
    · simp [hq, ih]

/-- The wait of a SPIN waiter ends without a change of its requests. -/
@[simp] theorem Strand.endSpin_reqs (t : Strand) (now : Nat) : (t.endSpin now).reqs = t.reqs := by
  unfold Strand.endSpin
  split
  · rfl
  · rfl

/-- A store is read through a change of its values. -/
theorem storeFind_map_values {α : Type} (f : α → α) (m : Store α) (a : Nat) :
    storeFind (m.map (fun e => (e.1, f e.2))) a = (storeFind m a).map f := by
  induction m with
  | nil => rfl
  | cons e r ih =>
    simp only [List.map_cons, storeFind]
    split
    · rfl
    · exact ih

/-- Writes at homes leave every strand's requests. -/
@[simp] theorem State.wakeSpin_reqs (s : State) (ws : List (Nat × Nat)) (k : Nat) : ((s.wakeSpin ws).strand k).reqs = (s.strand k).reqs := by
  simp only [State.wakeSpin, State.strand, storeGet]
  rw [storeFind_map_values (fun t : Strand => if t.spinsOn _ then t.endSpin s.time else t)]
  cases storeFind s.strands k with
  | none => rfl
  | some t =>
    simp only [Option.map_some, Option.getD_some]
    split
    · exact t.endSpin_reqs _
    · rfl

@[simp] theorem State.performEls_strands (wr : Writer) (els : List (Nat × Nat × Nat)) (s : State) : (s.performEls wr els).strands = s.strands := by
  induction els generalizing s with
  | nil => rfl
  | cons e r ih => exact ih _

@[simp] theorem State.homeWrite_reqs (s : State) (wr : Writer) (els : List (Nat × Nat × Nat)) (k : Nat) :
    ((s.homeWrite wr els).strand k).reqs = (s.strand k).reqs := by
  simp only [State.homeWrite, State.wakeSpin_reqs]
  exact congrArg Strand.reqs (State.strand_congr (State.performEls_strands wr els s) k)

@[simp] theorem State.scratchWrite_reqs (s : State) (cs : List Host.Cell) (k : Nat) : ((s.scratchWrite cs).strand k).reqs = (s.strand k).reqs := by
  simp only [State.scratchWrite, State.wakeSpin_reqs]
  rfl

/-! ## Latches -/

/-- A fill that its latch waits for (R70). -/
theorem Strand.fillLatch_of_pend {t : Strand} {n id : Nat} (h : (t.rh n).pend = some id) (kind : Nat) (v : Vec) :
    t.fillLatch n id kind v = t.wh n ⟨v, true, none, false, kind⟩ := if_pos h

@[simp] theorem Strand.rh_dropReq (t : Strand) (rid n : Nat) : (t.dropReq rid).rh n = t.rh n := rfl

/-! ## Stores outside the windows (R220) -/

theorem State.storePerform_of_home {s : State} {k : Nat} {r : Req} (h : (s.strand k).req r.id = some r) (hk : r.kind = .store)
    (hsp : r.space ≠ 4) (hmay : mayPerform s k r = true) :
    s.storePerform k r.id = if r.left then s.storeUnit k r else s.storeLeave k r := by
  simp [State.storePerform, h, hk, hsp, hmay]

/-- A store that leaves its core is marked so, whatever it was translated through and charged for. -/
theorem State.storeLeave_strand {s : State} {k : Nat} {r : Req} (hb : beyondHbm s k .store r.space r.win r.els = false) :
    (s.storeLeave k r).strand k = (s.strand k).modReq r.id (fun q => { q with left := true }) := by
  simp only [State.storeLeave, hb, Bool.false_eq_true, if_false, State.strand_modStrand]
  rw [State.strand_congr (State.chargeAway_strands _ _ _ _), State.strand_congr (State.chargeHomes_strands _ _ _ _), touchEls_strand]

/-- A store to scratch leaves without a write of memory. -/
theorem State.storeLeave_scratch_mem {s : State} {k : Nat} {r : Req} (hb : beyondHbm s k .store r.space r.win r.els = false)
    (hsp : r.space < 3) : (s.storeLeave k r).mem = s.mem := by
  simp [State.storeLeave, hb, touchEls_scratch _ _ _ hsp]

theorem placed_one {s : State} {k : Nat} {r : Req} {e : El} {a : Nat} (he : r.els = [e])
    (ha : elemAddr s k r.kind.acc r.space r.win e = some a) : placed s k r = [(a, e.w, e.data)] := by
  simp [placed, he, ha]

/-- A store of one element is performed whole: it is its only unit. -/
theorem State.storeUnit_one {s : State} {k : Nat} {r : Req} {e : El} {a : Nat} (hk : r.kind = .store) (he : r.els = [e])
    (ha : elemAddr s k .store r.space r.win e = some a) :
    s.storeUnit k r = ((({ s with nfree := s.nfree + 1 } : State).homeWrite ⟨r.id, some k, (s.strand k).core, true, none, none⟩
      [(a, e.w, e.data)]).keepAway k r [e] false).modStrand k (fun t => t.dropReq r.id) := by
  have hp : placed s k r = [(a, e.w, e.data)] := placed_one he (by rw [hk]; exact ha)
  have hu : [unitOf a].eraseDups = [unitOf a] := rfl
  simp [State.storeUnit, hp, he, ha, hu, Nat.mod_one]

/-- The memory after one element is performed. -/
theorem State.storeUnit_one_mem {s : State} {k : Nat} {r : Req} {e : El} {a : Nat} (hk : r.kind = .store) (he : r.els = [e])
    (ha : elemAddr s k .store r.space r.win e = some a) : (s.storeUnit k r).mem = writeBytes s.mem a (leBytes e.w e.data) := by
  rw [State.storeUnit_one hk he ha]
  rfl

/-! ## Requests through a window (R284, R292, R293) -/

/-- What a copy keeps for the strand's own loads is in the strand. -/
theorem State.keepMember_cases (s : State) (x : Xact) (m : Nat) (lost : Bool) :
    s.keepMember x m lost = s ∨ ∃ f, s.keepMember x m lost = s.modStrand x.sid f := by
  unfold State.keepMember
  dsimp only
  split
  · split
    · exact .inr ⟨_, rfl⟩
    · split
      · exact .inr ⟨_, rfl⟩
      · exact .inl rfl
  · exact .inl rfl

/-- A reader of the state that no change of a strand reaches. -/
theorem State.keepMember_keeps {α : Type} (p : State → α) (hs : ∀ s k f, p (State.modStrand s k f) = p s) (s : State) (x : Xact) (m : Nat)
    (lost : Bool) : p (s.keepMember x m lost) = p s := by
  obtain h | ⟨f, h⟩ := s.keepMember_cases x m lost
  · rw [h]
  · rw [h, hs]

/-- The transaction of a request that leaves. -/
theorem State.postXact_spec (s : State) (die tcid win sid rid core : Nat) (kind : ReqKind) (els : List El) (gang : Nat) (hnd : Option Nat)
    (units : Nat) : let p := s.postXact die tcid win sid rid core kind els gang hnd units
    (∃ x, storeFind p.2.xacts s.nextId = some x ∧ x.kind = kind ∧ x.els = els ∧ x.sid = sid ∧ x.rid = rid ∧
      x.seq = ((s.ctx die tcid).win win).next) ∧
    ((p.2.ctx die tcid).win win).next = (((s.ctx die tcid).win win).next + 1) % 2 ^ 32 := by
  refine ⟨⟨_, storeFind_storeSet_same _ _ _, rfl, rfl, rfl, rfl, rfl⟩, ?_⟩
  simp only [State.postXact, State.win_modWin]
  rfl

/-- A reader of the state that no change of a strand reaches sees a request leave as its charge and its transaction. -/
theorem State.sendXact_keeps {α : Type} (p : State → α) (hs : ∀ s k f, p (State.modStrand s k f) = p s) {s : State} {k : Nat} {r : Req}
    (hrel : r.rel = false) (hheld : r.held = false) (hx : r.xact = none)
    (hopen : s.winOpen (s.strand k).die (s.strand k).tcid r.win = true)
    (hun : unsentBefore s (s.strand k).die (s.strand k).tcid r.win r.id = false) :
    let t := s.strand k
    p (s.sendXact k r) = p ((s.chargeSend t.die t.tcid r.win (r.els.map (fun e => e.off / 128)).eraseDups.length).postXact t.die t.tcid r.win
      k r.id t.core r.kind r.els t.gang r.hnd r.units).2 := by
  simp only [State.sendXact, hrel, hheld, hx, hopen, hun, Option.isSome_none, Bool.false_eq_true, Bool.true_eq_false, or_self, if_false, hs]
  split
  · refine foldl_keeps p _ (fun u m => ?_) _ _
    split
    · rfl
    · exact State.keepMember_keeps p hs _ _ _ _
  · rfl

/-- A request that leaves has a transaction of its own under the next identity and with its window's next number. -/
theorem State.sendXact_spec {s : State} {k : Nat} {r : Req} (hrel : r.rel = false) (hheld : r.held = false) (hx : r.xact = none)
    (hopen : s.winOpen (s.strand k).die (s.strand k).tcid r.win = true)
    (hun : unsentBefore s (s.strand k).die (s.strand k).tcid r.win r.id = false) :
    let w := (s.ctx (s.strand k).die (s.strand k).tcid).win r.win
    (∃ x, storeFind (s.sendXact k r).xacts s.nextId = some x ∧ x.kind = r.kind ∧ x.els = r.els ∧ x.sid = k ∧ x.rid = r.id ∧
      x.seq = w.next) ∧
    (((s.sendXact k r).ctx (s.strand k).die (s.strand k).tcid).win r.win).next = (w.next + 1) % 2 ^ 32 := by
  intro w
  have hwin (u n : Nat) : (((s.chargeSend (s.strand k).die (s.strand k).tcid u n).ctx (s.strand k).die (s.strand k).tcid).win r.win) = w := by
    rw [Ctx.win, State.chargeSend_wins]; rfl
  have hx' := State.sendXact_keeps State.xacts (fun _ _ _ => rfl) hrel hheld hx hopen hun
  have hn' := State.sendXact_keeps (fun u => ((u.ctx (s.strand k).die (s.strand k).tcid).win r.win).next) (fun _ _ _ => rfl) hrel hheld hx
    hopen hun
  dsimp only at hx' hn'
  rw [hx', hn']
  have hpost := State.postXact_spec (s.chargeSend (s.strand k).die (s.strand k).tcid r.win (r.els.map (fun e => e.off / 128)).eraseDups.length)
    (s.strand k).die (s.strand k).tcid r.win k r.id (s.strand k).core r.kind r.els (s.strand k).gang r.hnd r.units
  simpa only [hwin, State.chargeSend_nextId] using hpost

/-- An instruction that ends in a state ends in whatever that state equals. -/
theorem exec_next_of_eq {i : Instr} {s t u : State} (h : exec i s = .next t) (e : t = u) : exec i s = .next u := e ▸ h

/-- A store, an atomic or a VRED through a window leaves when nothing comes before it. -/
theorem exec_sends {s : State} {k : Nat} {r : Req} {i : Instr} (h : (s.strand k).req r.id = some r) (hsp : r.space = 4) (hrel : r.rel = false)
    (hbefore : heldBefore s k r = false)
    (hi : (i = Instr.storePerform k r.id ∧ r.kind = .store) ∨
      (i = .atomicPerform k r.id ∧ r.isRmw = true ∧ acqBefore (s.strand k) r.id = false ∧ overlapBefore s k r = false)) :
    exec i s = .next (s.sendXact k r) := by
  obtain ⟨rfl, hk⟩ | ⟨rfl, hrmw, hacq, hover⟩ := hi
  · have hgo : s.storePerform k r.id = s.sendXact k r := by simp [State.storePerform, h, hk, hsp, hbefore]
    exact exec_next_of_eq rfl hgo
  · have hgo : s.atomicPerform k r.id = s.sendXact k r := by
      simp [State.atomicPerform, h, hrmw, hrel, hsp, hbefore, hacq, hover]
    exact exec_next_of_eq rfl hgo

/-! ## Atomics on scratch (R144, R146) -/

/-- One element of a read-modify-write: its old value, the memory after it, and the requests of every strand. -/
theorem rmwEls_one (wr : Writer) (scope : Nat) (scratch : Bool) (kind : ReqKind) (s : State) (a : Nat) (e : El) :
    let x := rmwEls wr scope scratch kind s [(bytesFrom a e, e)]
    x.1 = s.read a e.w ∧ x.2.mem = writeBytes s.mem a (leBytes e.w (kind.newVal (s.read a e.w) e)) ∧
      ∀ k, (x.2.strand k).reqs = (s.strand k).reqs := by
  have hold : leNat ((bytesFrom a e).map s.byte) = s.read a e.w := by
    simp [State.read, State.bytes_eq_map, bytesFrom, Function.comp_def]
  have hcells (v : Nat) : (bytesFrom a e).zip (leBytes e.w v) = cellsAt a (leBytes e.w v) := bytesFrom_zip a e _ (leBytes_length _ _)
  simp only [rmwEls, hold, hcells, true_and]
  cases scratch with
  | true => exact ⟨State.scratchWrite_cellsAt_mem _ _ _, fun k => State.scratchWrite_reqs _ _ k⟩
  | false => exact ⟨State.homeWrite_cellsAt_mem _ _ _ _, fun k => State.homeWrite_reqs _ _ _ k⟩

/-- An atomic with a latch, of one element of scratch, is performed and charged, and keeps its old value for its latch. -/
theorem State.rmwHome_one {s : State} {k : Nat} {r : Req} {e : El} {a n : Nat} (hsp : r.space < 3)
    (hrel : r.rel = false) (he : r.els = [e]) (hn : r.latch = some n) (ha : elemAddr s k .atomic r.space r.win e = some a)
    (hb : beyondHbm s k .atomic r.space r.win r.els = false) :
    let x := rmwEls ⟨r.id, some k, (s.strand k).core, false, none, none⟩ r.scope (r.space == 0) r.kind s [(bytesFrom a e, e)]
    ∃ u : State, u.mem = x.2.mem ∧ u.strands = x.2.strands ∧
      s.rmwHome k r = u.modStrand k (fun t => t.modReq r.id (fun q => { q with old := some (BitVec.ofNat 1024 x.1) })) := by
  rw [he] at hb
  simp only [State.rmwHome, hb, hrel, he, hn, ha, touchEls_scratch _ _ _ hsp, List.filterMap_cons, List.filterMap_nil, Option.map_some,
    List.isEmpty_cons, Bool.false_eq_true, if_false]
  refine ⟨_, ?_, ?_, rfl⟩
  · rw [State.chargeAway_mem, State.chargeHomes_mem]
  · rw [State.chargeAway_strands, State.chargeHomes_strands]

/-- So memory takes the new value of R146. -/
theorem State.rmwHome_scratch {s : State} {k : Nat} {r : Req} {e : El} {a n : Nat} (h : (s.strand k).req r.id = some r) (hsp : r.space < 3)
    (hrel : r.rel = false) (he : r.els = [e]) (hn : r.latch = some n) (ha : elemAddr s k .atomic r.space r.win e = some a)
    (hb : beyondHbm s k .atomic r.space r.win r.els = false) :
    (s.rmwHome k r).mem = writeBytes s.mem a (leBytes e.w (r.kind.newVal (s.read a e.w) e)) ∧
      ((s.rmwHome k r).strand k).req r.id = some { r with old := some (BitVec.ofNat 1024 (s.read a e.w)) } := by
  obtain ⟨u, humem, hustr, hgo⟩ := State.rmwHome_one hsp hrel he hn ha hb
  obtain ⟨hold, hmem, hreqs⟩ := rmwEls_one ⟨r.id, some k, (s.strand k).core, false, none, none⟩ r.scope (r.space == 0) r.kind s a e
  have hureq : (u.strand k).req r.id = some r := by
    rw [State.strand_congr hustr, Strand.req, hreqs k, ← Strand.req, h]
  rw [hgo]
  refine ⟨humem.trans hmem, ?_⟩
  rw [State.strand_modStrand, Strand.req_modReq, hureq, hold, Option.map_some]
  exact fun _ => rfl

/-! ## Fills (R70, R135, R144) -/

/-- A load whose data is here fills its latch and ends. -/
theorem State.latchFill_kept {s : State} {k : Nat} {r : Req} {n : Nat} {v : Vec} (h : (s.strand k).req r.id = some r) (hk : r.kind = .load)
    (hn : r.latch = some n) (hv : r.old = some v) :
    s.latchFill k r.id = s.modStrand k (fun t => (t.fillLatch n r.id 1 v).dropReq r.id) := by
  simp [State.latchFill, h, hk, hn, hv]

/-- A load of scratch that nothing holds is performed: its data fills its latch, and memory stays. -/
theorem State.latchFill_scratch {s : State} {k : Nat} {r : Req} {n : Nat} (h : (s.strand k).req r.id = some r) (hk : r.kind = .load)
    (hn : r.latch = some n) (hsp : r.space < 3) (hold : r.old = none) (hmay : mayPerform s k r = true)
    (hb : beyondHbm s k .load r.space r.win r.els = false) :
    (s.latchFill k r.id).mem = s.mem ∧
      (s.latchFill k r.id).strand k = ((s.strand k).fillLatch n r.id 1 (s.loadData k r).1).dropReq r.id := by
  have h4 : r.space ≠ 4 := by omega
  have haway : (r.els.findSome? (fun e => (s.awayPlaces k r e).head?.map (fun p => (e.off, p.1)))) = none := by
    simp [State.awayPlaces_scratch s k hsp]
  simp only [State.latchFill, h, hk, hold, hmay, hn, haway, hb, h4, touchEls_scratch _ _ _ hsp, Option.isSome_none, Bool.false_eq_true,
    false_and, ne_eq, not_true_eq_false, if_true, if_false, State.modStrand_mem, State.chargeAway_mem, State.chargeHomes_mem,
    State.loadData_mem, State.strand_modStrand, true_and]
  rw [State.strand_congr (State.chargeAway_strands _ _ _ _), State.strand_congr (State.chargeHomes_strands _ _ _ _)]
  rfl

/-- The old value of an atomic fills its latch, and with .ACQ its strand's view is renewed (R222). -/
theorem State.latchFill_atomic {s : State} {k : Nat} {r : Req} {op : AOp} {ty : Nat} {v : Vec} (h : (s.strand k).req r.id = some r)
    (hk : r.kind = .atomic op ty) (hv : r.old = some v) (hx : r.xact = none) : s.latchFill k r.id = s.atomReturn k r v := by
  simp [State.latchFill, h, hk, hv, hx]

/-- An old value that its latch waits for. -/
theorem State.atomReturn_spec {s : State} {k : Nat} {r : Req} {n : Nat} {v : Vec} (hn : r.latch = some n)
    (hp : ((s.strand k).rh n).pend = some r.id) :
    ((s.atomReturn k r v).strand k).rh n = ⟨v, true, none, false, 2⟩ ∧ ((s.atomReturn k r v).strand k).req r.id = none ∧
      (r.acq = true → ((s.atomReturn k r v).strand k).view = viewAdd (s.strand k).view (s.reaching (s.strand k).core)) := by
  have hlatch : (((s.strand k).wh n ⟨v, true, none, false, 2⟩).dropReq r.id).rh n = ⟨v, true, none, false, 2⟩ := by
    rw [Strand.rh_dropReq, Strand.rh_wh, if_pos rfl]
  have hgone : (((s.strand k).wh n ⟨v, true, none, false, 2⟩).dropReq r.id).req r.id = none := Strand.req_dropReq _ _
  cases hacq : r.acq with
  | true =>
    simp only [State.atomReturn, hn, hacq, if_true, State.renew, State.modStrand_modStrand, State.strand_modStrand,
      Strand.fillLatch_of_pend hp]
    exact ⟨hlatch, hgone, fun _ => rfl⟩
  | false =>
    simp only [State.atomReturn, hn, hacq, Bool.false_eq_true, if_false, State.strand_modStrand, Strand.fillLatch_of_pend hp]
    exact ⟨hlatch, hgone, fun h => h.elim⟩

end Sys2Proof.Machine
end

section
open Sys2Proof Sys2Proof.Machine

/-- Settles O44: each event is the one function that does its work, and that function is said once above. -/
theorem requestEvents : Obligations.RequestEvents := by
  unfold Obligations.RequestEvents
  refine ⟨fun s k r h hk hsp hmay hleft hb => ?leaves, fun s k r e a h hk hsp hmay hleft he ha _ _ => ?performed,
    fun s k r i h hsp hrel hheld hx hbefore hopen hun hi => ?window, fun s k r e a op ty n h hk hsp hrel hmay he hn ha _ hb => ?atomic,
    fun s k r n h hk hn hp => ⟨fun hsp hold hmay hb => ?load, fun v hv => ?kept⟩,
    fun s k r n op ty v h hk hv hx hn hp => ?oldValue, fun s k r c v h => ⟨fun hpoll => ?polls, fun hpoll => ?reported⟩⟩
  case leaves =>
    have hgo : s.storePerform k r.id = s.storeLeave k r := by simp [State.storePerform_of_home h hk hsp hmay, hleft]
    exact ⟨_, exec_next_of_eq rfl hgo, State.storeLeave_strand hb, State.storeLeave_scratch_mem hb⟩
  case performed =>
    have hgo : s.storePerform k r.id = s.storeUnit k r := by simp [State.storePerform_of_home h hk hsp hmay, hleft]
    have hmem := State.storeUnit_one_mem hk he ha
    refine ⟨_, exec_next_of_eq rfl hgo, byte_of_written hmem, fun b => byte_of_not_written hmem, ?_⟩
    rw [State.storeUnit_one hk he ha, State.strand_modStrand, Strand.req_dropReq]
  case window =>
    obtain ⟨⟨x, hfind, hkind, hels, hsid, hrid, hseq⟩, hnext⟩ := State.sendXact_spec hrel hheld hx hopen hun
    exact ⟨_, x, exec_sends h hsp hrel hbefore hi, hfind, hkind, hels, hsid, hrid, hseq, hseq ▸ hnext, State.sendXact_mem _ _ _⟩
  case atomic =>
    have hgo : s.atomicPerform k r.id = s.rmwHome k r := by
      have h4 : r.space ≠ 4 := by omega
      simp [State.atomicPerform, h, Req.isRmw, hk, hrel, h4, hmay]
    obtain ⟨hmem, hreq⟩ := State.rmwHome_scratch h hsp hrel he hn ha hb
    rw [hk] at hmem
    exact ⟨_, exec_next_of_eq rfl hgo, byte_of_written hmem, fun b => byte_of_not_written hmem, hreq⟩
  case load =>
    obtain ⟨hmem, hstrand⟩ := State.latchFill_scratch h hk hn hsp hold hmay hb
    refine ⟨_, rfl, hmem, ?_, ?_⟩
    · rw [hstrand, Strand.rh_dropReq, Strand.fillLatch_of_pend hp, Strand.rh_wh, if_pos rfl]
    · rw [hstrand, Strand.req_dropReq]
  case kept =>
    refine ⟨_, exec_next_of_eq rfl (State.latchFill_kept h hk hn hv), rfl, ?_, ?_⟩
    · rw [State.strand_modStrand, Strand.rh_dropReq, Strand.fillLatch_of_pend hp, Strand.rh_wh, if_pos rfl]
    · rw [State.strand_modStrand, Strand.req_dropReq]
  case oldValue =>
    obtain ⟨hlatch, hreq, hview⟩ := State.atomReturn_spec (v := v) hn hp
    exact ⟨_, exec_next_of_eq rfl (State.latchFill_atomic h hk hv hx), State.atomReturn_mem _ _ _ _, hlatch, hreq, hview⟩
  case polls =>
    have hgo : s.accessFault k = s := by simp [State.accessFault, h, hpoll]
    exact exec_next_of_eq rfl hgo
  case reported =>
    intro u f w
    have hgo : s.accessFault k = if (s.strand k).resident = false ∨ (s.strand k).st = .saving ∨ (s.strand k).st = .saved then w
        else w.endTrap k ⟨c, v, r.tbun, 2 ^ r.slot.bit⟩ := by
      simp only [State.accessFault, h, hpoll, Bool.false_eq_true, if_false, u, f, w]
    refine ⟨fun hheld => exec_next_of_eq rfl (hgo.trans (if_pos hheld)), fun hres hsaving hsaved => exec_next_of_eq rfl (hgo.trans (if_neg ?_))⟩
    simp [hres, hsaving, hsaved]
end

section
/-! PROOF. Windows: arrivals, failures, acknowledgements, repetitions, gaps and resynchronisation, and links (O48).

An arrival is judged by its number and its context (`State.windowArrival_eq`), then by what it meets: one lemma for each case of
`State.xactArrive`. `performsNow` names the free choice of which units of a store are performed, and `State.overdue` the transactions that a
timeout finds; the statement's clauses about them follow from what these two can be. The other events each get one equation per case. -/
namespace Sys2Proof.Machine

/-! ## Arrivals (R285, R286, R293, R376) -/

/-- What an arrival at a die of the package is judged by: how far its number is ahead of its filter's, and whether its context is bound. -/
theorem State.windowArrival_eq {s : State} {id m rd : Nat} {x : Xact} {dst : Dest'} (hx : storeFind s.xacts id = some x)
    (hm : storeFind x.copies m = some .sent) (hdst : s.xactDest x m = some dst) (hrd : s.dieOfDomain dst.ddie = some rd) :
    s.windowArrival id m =
      (let d := (x.seq + 2 ^ 32 - storeGet 0 s.filters (s.xactFilter x m rd)) % 2 ^ 32
       if d = 0 ∨ (s.ctx rd dst.tcid).bind = .unbound then s.xactArrive id m rd x dst
       else if d < 2 ^ 31 then s else s.setCopy id m .performed) := by
  simp only [State.windowArrival, hx, hm, hdst, hrd]

section
variable {s : State} {id m rd : Nat} {x : Xact} {dst : Dest'}

/-- The rest of a store that has begun goes on while its handler's strand has room. -/
theorem State.xactArrive_rest {qs : List (Nat × Nat × Nat)} (ht : storeFind x.todo m = some qs)
    (hfull : s.handlerFull x rd dst.tcid = false) : s.xactArrive id m rd x dst = s.xactUnits id m rd x dst qs := by
  simp [State.xactArrive, ht, hfull]

theorem State.xactArrive_fails {c : Cause} {v : Word} (ht : storeFind x.todo m = none) (hmet : s.xactMet x dst = some (c, v)) :
    s.xactArrive id m rd x dst = (if c = .partition then s.xactDrop x dst else s).xactFail id m x c v := by
  simp only [State.xactArrive, ht, hmet]

/-- A store of a context that is not resident goes to the berth. -/
theorem State.xactArrive_berths (ht : storeFind x.todo m = none) (hmet : s.xactMet x dst = none) (hsp : (s.xactWin x).dspace ≠ 3)
    (hres : (s.ctx rd dst.tcid).resident = false) (hk : x.kind = .store) :
    s.xactArrive id m rd x dst =
      (let r := s.xactRuns x dst
       let b := s.berthArrive rd dst.tcid id m (s.xactWin x).dcl false (recordsOf r.1 r.2)
       if b.1 then b.2.xactTaken id m rd x .berthed else b.2) := by
  simp only [State.xactArrive, ht, hmet, hk, if_true, if_pos (And.intro hsp hres)]

/-- A transaction whose home is in reach waits for its handler's strand, or is performed. -/
theorem State.xactArrive_served (ht : storeFind x.todo m = none) (hmet : s.xactMet x dst = none)
    (hres : (s.xactWin x).dspace = 3 ∨ (s.ctx rd dst.tcid).resident = true) :
    s.xactArrive id m rd x dst =
      if s.handlerFull x rd dst.tcid then s
      else if x.kind = .store then
        (s.xactServe x dst).xactUnits id m rd x dst ((s.xactPlaces x dst).map (fun p => (p.1, p.2.w, p.2.data)))
      else (s.xactPerform x dst).xactDone id m rd x dst := by
  have hhome : ¬((s.xactWin x).dspace ≠ 3 ∧ (s.ctx rd dst.tcid).resident = false) := by
    rintro ⟨hsp, hno⟩
    obtain h3 | hyes := hres
    · exact hsp h3
    · simp [hno] at hyes
  simp only [State.xactArrive, ht, hmet, if_neg hhome]

end

/-- A destination outside HBM uses no translation (R282). -/
theorem touchDest_of_not_hbm (s : State) {w : Win} (dst : Dest') (acc : Acc) (els : List El) (h : w.dspace ≠ 3) :
    touchDest s w dst acc els = s := by
  cases els with
  | nil => rfl
  | cons e r =>
    unfold touchDest
    split
    · exact if_neg h
    · rfl

theorem State.xactServe_mem_of_not_hbm (s : State) (x : Xact) (dst : Dest') (h : (s.xactWin x).dspace ≠ 3) :
    (s.xactServe x dst).mem = s.mem := by
  unfold State.xactServe
  rw [touchDest_of_not_hbm _ _ _ _ h]
  dsimp only
  split
  · rfl
  · exact State.chargeServed_mem _ _ _ _

/-! ## The units of a store (R219, R226, R228) -/

/-- The choice of `State.xactUnits`: whether an element is among those performed now, all of them or those of one unit. -/
def performsNow (n : Nat) (ps : List (Nat × Nat × Nat)) (p : Nat × Nat × Nat) : Bool :=
  let us := (ps.map (fun p => unitOf p.1)).eraseDups
  decide (us.length ≤ 1) || Config.pick n % 2 == 0 || unitOf p.1 == us.getD (Config.pick n / 2 % us.length) 0

theorem State.xactUnits_eq (u : State) (id m rd : Nat) (x : Xact) (dst : Dest') (ps : List (Nat × Nat × Nat)) :
    u.xactUnits id m rd x dst ps =
      (let w := ({ u with nfree := u.nfree + 1 } : State).homeWrite (x.writer none) (ps.filter (performsNow u.nfree ps))
       if (ps.filter (fun q => !performsNow u.nfree ps q)).isEmpty then
         (w.modXact id (fun x => { x with todo := storeErase x.todo m })).xactDone id m rd x dst
       else w.modXact id (fun x => { x with todo := storeSet x.todo m (ps.filter (fun q => !performsNow u.nfree ps q)) })) := rfl

/-- Something of a store is performed: its choice of a unit is one of its own. -/
theorem exists_performsNow (n : Nat) {ps : List (Nat × Nat × Nat)} (h : ps ≠ []) : ∃ q ∈ ps, performsNow n ps q = true := by
  obtain ⟨p, hp⟩ := List.exists_mem_of_ne_nil ps h
  by_cases hall : ((ps.map (fun p => unitOf p.1)).eraseDups.length ≤ 1) ∨ Config.pick n % 2 = 0
  · exact ⟨p, hp, by simp only [performsNow, Bool.or_eq_true, decide_eq_true_eq, beq_iff_eq]; exact .inl hall⟩
  · generalize hus : (ps.map (fun p => unitOf p.1)).eraseDups = us at hall
    have hi : Config.pick n / 2 % us.length < us.length := Nat.mod_lt _ (by omega)
    have hmem : us.getD (Config.pick n / 2 % us.length) 0 ∈ us := by
      rw [List.getD_eq_getElem?_getD, List.getElem?_eq_getElem hi, Option.getD_some]; exact List.getElem_mem hi
    rw [← hus, List.mem_eraseDups, List.mem_map] at hmem
    obtain ⟨q, hq, hunit⟩ := hmem
    refine ⟨q, hq, ?_⟩
    simp only [performsNow, Bool.or_eq_true, beq_iff_eq]
    exact .inr (by rw [hunit, hus])

theorem performsNow_congr (n : Nat) (ps : List (Nat × Nat × Nat)) {q r : Nat × Nat × Nat} (h : unitOf q.1 = unitOf r.1) :
    performsNow n ps q = performsNow n ps r := by simp only [performsNow, h]

/-- With its last units a store has been performed. -/
theorem State.xactUnits_of_all {u : State} {id m rd : Nat} {x : Xact} {dst : Dest'} {ps : List (Nat × Nat × Nat)}
    (h : ∀ q ∈ ps, performsNow u.nfree ps q = true) :
    u.xactUnits id m rd x dst ps =
      ((({ u with nfree := u.nfree + 1 } : State).homeWrite (x.writer none) (ps.filter (performsNow u.nfree ps))).modXact id
        (fun x => { x with todo := storeErase x.todo m })).xactDone id m rd x dst := by
  have hrest : (ps.filter (fun q => !performsNow u.nfree ps q)).isEmpty = true := by
    rw [List.isEmpty_iff, List.filter_eq_nil_iff]; intro q hq; simp [h q hq]
  rw [State.xactUnits_eq]
  exact if_pos hrest

/-- Until then the rest of it is still to do. -/
theorem State.xactUnits_of_some {u : State} {id m rd : Nat} {x : Xact} {dst : Dest'} {ps : List (Nat × Nat × Nat)}
    (h : ∃ q ∈ ps, performsNow u.nfree ps q = false) :
    u.xactUnits id m rd x dst ps =
      (({ u with nfree := u.nfree + 1 } : State).homeWrite (x.writer none) (ps.filter (performsNow u.nfree ps))).modXact id
        (fun x => { x with todo := storeSet x.todo m (ps.filter (fun q => !performsNow u.nfree ps q)) }) := by
  obtain ⟨q, hq, hnot⟩ := h
  have hrest : ¬(ps.filter (fun q => !performsNow u.nfree ps q)).isEmpty = true := by
    rw [List.isEmpty_iff]; exact List.ne_nil_of_mem (List.mem_filter.mpr ⟨hq, by simp [hnot]⟩)
  rw [State.xactUnits_eq]
  exact if_neg hrest

/-! ## A transaction taken (R293, R326) -/

@[simp] theorem State.gangArrive_filters (s : State) (die gid : Nat) : (s.gangArrive die gid).filters = s.filters := by
  unfold State.gangArrive
  split
  · rfl
  · split
    · rfl
    · dsimp only
      split
      · rfl
      · rfl

/-- The filter of an accepted transaction expects the next number. -/
theorem State.xactTaken_filter (v : State) (id m rd : Nat) (x : Xact) (c : CopySt) :
    storeGet 0 (v.xactTaken id m rd x c).filters (v.xactFilter x m rd) = (x.seq + 1) % 2 ^ 32 := by
  have hset : storeGet 0 (storeSet v.filters (v.xactFilter x m rd) ((x.seq + 1) % 2 ^ 32)) (v.xactFilter x m rd) = (x.seq + 1) % 2 ^ 32 :=
    storeGet_storeSet_same _ _ _ _
  unfold State.xactTaken
  dsimp only
  split
  · exact hset
  · rw [State.gangArrive_filters]; exact hset

theorem State.xactDone_of_no_handler {v : State} {id m rd : Nat} {x : Xact} {dst : Dest'} (h : x.hnd = none) :
    v.xactDone id m rd x dst = v.xactTaken id m rd x .performed := by simp only [State.xactDone, h]

theorem State.xactDone_of_handler {v : State} {id m rd h : Nat} {x : Xact} {dst : Dest'} (hh : x.hnd = some h) :
    v.xactDone id m rd x dst = ((v.xactTaken id m rd x .performed).handlerArrive rd dst.tcid h
      ((v.xactTaken id m rd x .performed).payloadWids rd x.sid x.win x.wid)).getD (v.xactTaken id m rd x .performed) := by
  simp only [State.xactDone, hh]

/-! ## Failures (R278, R285, R290) -/

/-- WFLT takes a report; the window stays what it is. -/
theorem State.writeFlt_mc (s : State) (x : Xact) (c : Cause) (v : Word) :
    ((s.writeFlt x.die x.tcid x.win c v).xactWin x).mc = (s.xactWin x).mc := by
  unfold State.writeFlt State.xactWin
  split
  · rw [State.win_modWin]; simp only [Win.mc]
  · rfl

@[simp] theorem State.writeFlt_hasStrand (s : State) (die tcid win : Nat) (c : Cause) (v : Word) (k : Nat) :
    (s.writeFlt die tcid win c v).hasStrand k = s.hasStrand k := by
  unfold State.writeFlt
  split
  · rfl
  · rfl

/-- The only copy of a strand's transaction is refused. -/
theorem State.xactFail_refused {s : State} {x : Xact} (id m : Nat) (c : Cause) (v : Word) (hs : s.hasStrand x.sid = true)
    (hsid : x.sid ≠ noSid) (hmc : (s.xactWin x).mc = false) :
    s.xactFail id m x c v =
      (((s.writeFlt x.die x.tcid x.win c v).setCopy id m .refused).modXact id (fun x => { x with flt := some (c, v) })).modWin
        x.die x.tcid x.win (fun w => { w with refusing := some x.seq }) := by
  simp only [State.xactFail, State.writeFlt_mc, hmc, State.writeFlt_hasStrand, hs, hsid, Bool.false_and, Bool.false_eq_true,
    Bool.true_eq_false, if_false]

/-- One of several copies is lost with a failure of R290. -/
theorem State.xactFail_lost {s : State} {x : Xact} (id m : Nat) {c : Cause} {v : Word} (hmc : (s.xactWin x).mc = true)
    (hu : undeliverable c v = true) : s.xactFail id m x c v = (s.writeFlt x.die x.tcid x.win c v).loseCopy id m x := by
  simp only [State.xactFail, State.writeFlt_mc, hmc, hu, Bool.and_self, if_true]

/-- The reason of a WINDOW_FAULT stands above its other fields. -/
theorem undeliverable_of_reason {r w : Nat} (hw : w < 2 ^ 56) (hr : r = 8 ∨ r = 9 ∨ r = 10) :
    undeliverable .windowFault (BitVec.ofNat 64 (r * 2 ^ 56 + w)) = true := by
  have hreason : (BitVec.ofNat 64 (r * 2 ^ 56 + w)).toNat / 2 ^ 56 = r := by
    rw [BitVec.toNat_ofNat]; omega
  simp only [undeliverable, hreason]
  obtain rfl | rfl | rfl := hr <;> rfl

/-! ## Acknowledgements and repetitions (R284, R293, R294) -/

/-- An acknowledgement in order that is not dropped is recorded. -/
theorem State.windowAck_recorded {s : State} {id m : Nat} {x : Xact} {c : CopySt} (hx : storeFind s.xacts id = some x)
    (he : s.earlierUnacked x m = false) (hlink : s.isAway (s.xactWin x) m = false ∨ Config.pick s.nfree % 2 = 0)
    (hc : (storeFind x.copies m = some .performed ∧ c = .acked) ∨ (storeFind x.copies m = some .berthed ∧ c = .stored)) :
    s.windowAck id m = ((({ s with nfree := s.nfree + 1 } : State).setCopy id m c).modWin x.die x.tcid x.win
      (fun w => { w with acks := storeSet w.acks m x.seq })).settleXact id := by
  have hkept : ¬(s.isAway (s.xactWin x) m = true ∧ Config.pick s.nfree % 2 = 1) := by
    rintro ⟨haway, hodd⟩
    obtain hhere | heven := hlink
    · simp [hhere] at haway
    · omega
  obtain ⟨hm, rfl⟩ | ⟨hm, rfl⟩ := hc
  all_goals simp only [State.windowAck, hx, hm, he, Bool.false_eq_true, if_false, if_neg hkept]

/-- The transactions of a window that `State.retransmit` finds overdue. -/
def State.overdue (s : State) (d tc w : Nat) : List (Nat × Xact) :=
  (s.openXacts d tc w).filter (fun e => decide (d < 1024) && decide (e.2.sentAt + 20 ≤ s.time) && !((s.ctx d tc).win w).holds e.2)

/-- Transactions sent again. -/
def State.resent (s : State) (d tc w : Nat) (xs : List Nat) : State :=
  (xs.foldl (fun u x => u.modXact x (fun x => { x with tries := x.tries + 1, sentAt := u.time })) s).modWin d tc w
    (fun w => { w with retx := (w.retx + xs.length) % 2 ^ 32 })

/-- Those sent fewer than 8 times are sent again, the others are uncertain. -/
theorem State.retransmit_eq (s : State) (d tc w : Nat) : s.retransmit d tc w =
    (let spent := ((s.overdue d tc w).filter (fun e => decide (8 ≤ e.2.tries))).map (fun e => e.1)
     let again := ((s.overdue d tc w).filter (fun e => decide (e.2.tries < 8))).map (fun e => e.1)
     let u := if again.isEmpty then s else s.resent d tc w again
     if spent.isEmpty then u else u.windowUncertain d tc w spent) := by
  unfold State.retransmit State.resent
  dsimp only [State.overdue]
  generalize List.map _ (List.filter (fun e : Nat × Xact => decide (e.2.tries < 8)) _) = again
  cases again with
  | nil => rfl
  | cons x r => rfl

theorem State.retransmit_of_none {s : State} {d tc w : Nat} (h : s.overdue d tc w = []) : s.retransmit d tc w = s := by
  simp [State.retransmit_eq, h]

theorem State.retransmit_of_few {s : State} {d tc w : Nat} (hne : s.overdue d tc w ≠ []) (h : ∀ e ∈ s.overdue d tc w, e.2.tries < 8) :
    s.retransmit d tc w = s.resent d tc w ((s.overdue d tc w).map (fun e => e.1)) := by
  have hagain : (s.overdue d tc w).filter (fun e => decide (e.2.tries < 8)) = s.overdue d tc w :=
    List.filter_eq_self.mpr fun e he => by simpa using h e he
  have hspent : (s.overdue d tc w).filter (fun e => decide (8 ≤ e.2.tries)) = [] :=
    List.filter_eq_nil_iff.mpr fun e he => by simpa using h e he
  simp [State.retransmit_eq, hagain, hspent, hne]

theorem State.retransmit_of_spent {s : State} {d tc w : Nat} (hne : s.overdue d tc w ≠ []) (h : ∀ e ∈ s.overdue d tc w, 8 ≤ e.2.tries) :
    s.retransmit d tc w = s.windowUncertain d tc w ((s.overdue d tc w).map (fun e => e.1)) := by
  have hspent : (s.overdue d tc w).filter (fun e => decide (8 ≤ e.2.tries)) = s.overdue d tc w :=
    List.filter_eq_self.mpr fun e he => by simpa using h e he
  have hagain : (s.overdue d tc w).filter (fun e => decide (e.2.tries < 8)) = [] :=
    List.filter_eq_nil_iff.mpr fun e he => by simpa using h e he
  simp [State.retransmit_eq, hagain, hspent, hne]

/-! ## Gaps and resynchronisation (R290, R293, R294) -/

theorem State.gapSend_away {s : State} {id m : Nat} {x : Xact} {dst : Dest'} (hx : storeFind s.xacts id = some x)
    (hm : storeFind x.copies m = some .undeliverable) (hdst : s.xactDest x m = some dst)
    (hpath : s.pathTo (s.xactWin x).ue dst.ddie = true) (hrd : s.dieOfDomain dst.ddie = none) :
    s.gapSend id m = (s.setCopy id m .gapSent).settleXact id := by
  simp [State.gapSend, hx, hm, hdst, hpath, hrd]

/-- In the package a gap takes the number that the member's filter expects. -/
theorem State.gapSend_here {s : State} {id m rd : Nat} {x : Xact} {dst : Dest'} (hx : storeFind s.xacts id = some x)
    (hm : storeFind x.copies m = some .undeliverable) (hdst : s.xactDest x m = some dst)
    (hpath : s.pathTo (s.xactWin x).ue dst.ddie = true) (hrd : s.dieOfDomain dst.ddie = some rd)
    (hseq : storeGet 0 s.filters (s.xactFilter x m rd) = x.seq) :
    s.gapSend id m = (({ s with filters := storeSet s.filters (s.xactFilter x m rd) ((x.seq + 1) % 2 ^ 32) } : State).setCopy id m
      .gapSent).settleXact id := by
  simp only [State.gapSend, hx, hm, hdst, hpath, hrd, hseq, Bool.true_eq_false, if_false, if_true]

section
variable {s : State} {d tc w m : Nat} {dst : Dest'} (hm : m ∈ ((s.ctx d tc).win w).resync)
  (hdst : storeFind (s.members ((s.ctx d tc).win w)) m = some dst) (hpath : s.pathTo ((s.ctx d tc).win w).ue dst.ddie = true)
include hm hdst hpath

/-- A member outside the package is resynchronised. -/
theorem State.resyncSend_away (hrd : s.dieOfDomain dst.ddie = none) : s.resyncSend d tc w m =
    (s.modWin d tc w (fun y => { y with resync := y.resync.filter (fun x => x != m) })).clearDone d tc w := by
  have hc : ((s.ctx d tc).win w).resync.contains m = true := List.contains_iff_mem.mpr hm
  simp only [State.resyncSend, hc, hdst, hpath, hrd, Bool.true_eq_false, if_false]

/-- In the package its filter expects the window's next number. -/
theorem State.resyncSend_here {rd : Nat} (hrd : s.dieOfDomain dst.ddie = some rd) : s.resyncSend d tc w m =
    (({ s with filters := storeSet s.filters (filterKey rd (s.domainIdx d) tc w m) ((s.ctx d tc).win w).next } : State).modWin d tc w
      (fun y => { y with resync := y.resync.filter (fun x => x != m) })).clearDone d tc w := by
  have hc : ((s.ctx d tc).win w).resync.contains m = true := List.contains_iff_mem.mpr hm
  simp only [State.resyncSend, hc, hdst, hpath, hrd, Bool.true_eq_false, if_false]

end

theorem State.clearDone_of_not_clearing {s : State} {d tc w : Nat} (h : ((s.ctx d tc).win w).clearing = false) : s.clearDone d tc w = s := by
  simp [State.clearDone, h]

theorem State.clearDone_of_resync {s : State} {d tc w : Nat} (h : ((s.ctx d tc).win w).resync ≠ []) : s.clearDone d tc w = s := by
  simp [State.clearDone, h]

/-- A change of a window leaves the callers of CLEARUNC. -/
theorem State.clearCallers_modWin (s : State) (d tc w : Nat) (f : Win → Win) :
    (s.modWin d tc w f).clearCallers d tc w = s.clearCallers d tc w := rfl

/-- A CLEARUNC that no strand and no command waits for ends with its last resynchronisation. -/
theorem State.clearDone_of_last {s : State} {d tc w : Nat} (hc : ((s.ctx d tc).win w).clearing = true)
    (hr : ((s.ctx d tc).win w).resync = []) (hcmd : ((s.ctx d tc).win w).clearCmd = false) (hcall : s.clearCallers d tc w = []) :
    s.clearDone d tc w = s.modWin d tc w (fun w => { w with unc := false, clearing := false, clearCmd := false }) := by
  simp [State.clearDone, hc, hr, hcmd, State.clearCallers_modWin, hcall]

/-! ## Links (R231, R275, R292, R312) -/

/-- A reader of the state that no change of a strand and no free value reaches sees no load lost. -/
theorem State.loseLoads_keeps {α : Type} (p : State → α) (hs : ∀ s k f, p (State.modStrand s k f) = p s)
    (hn : ∀ (s : State) n, p { s with nfree := n } = p s) (s : State) : p s.loseLoads = p s := by
  refine foldl_keeps p _ (fun u e => foldl_keeps p _ (fun v r => ?_) _ _) _ _
  dsimp only
  split
  · split
    · rw [State.loseFill, hs, hn]
    · exact hn _ _
  · rfl

theorem State.loseFrags_of_nil {s : State} (h : s.frags = []) : s.loseFrags = s := by simp [State.loseFrags, h]
theorem State.loseBells_of_nil {s : State} (h : s.bells = []) : s.loseBells = s := by simp [State.loseBells, h]

/-- A link failure with no fragment and no bell under way only loses loads. -/
theorem State.linkFailure_of_nil {s : State} (p : Nat) (hf : s.frags = []) (hb : s.bells = []) :
    (((s.setPort p .down).loseLoads).loseFrags).loseBells = (s.setPort p .down).loseLoads := by
  have hfrags : (s.setPort p .down).loseLoads.frags = [] :=
    (State.loseLoads_keeps State.frags (fun _ _ _ => rfl) (fun _ _ => rfl) _).trans hf
  have hbells : (s.setPort p .down).loseLoads.bells = [] :=
    (State.loseLoads_keeps State.bells (fun _ _ _ => rfl) (fun _ _ => rfl) _).trans hb
  rw [State.loseFrags_of_nil hfrags, State.loseBells_of_nil hbells]

/-- An entry of a list whose entries are changed by their places. -/
theorem getD_map_zipIdx {α : Type} (f : α × Nat → α) (l : List α) (q : Nat) (d : α) (h : q < l.length) :
    (l.zipIdx.map f).getD q d = f (l.getD q d, q) := by
  simp [List.getD_eq_getElem?_getD, h]

/-- An entry whose place is not concerned, or that is not there. -/
theorem getD_map_zipIdx_other {α : Type} (f : α × Nat → α) (l : List α) (q : Nat) (d : α) (hf : ∀ x, f (x, q) = x) :
    (l.zipIdx.map f).getD q d = l.getD q d := by
  by_cases h : q < l.length
  · rw [getD_map_zipIdx f l q d h, hf]
  · simp [List.getD_eq_getElem?_getD, List.getElem?_eq_none (Nat.le_of_not_lt h)]

section
variable (s : State) (p : Nat) (m : PortMode)

theorem State.setPort_port (h : p < s.pkg.ports.length) : (s.setPort p m).pkg.ports.getD p .down = m :=
  (getD_map_zipIdx _ _ _ _ h).trans (if_pos rfl)

theorem State.setPort_port_other {q : Nat} (h : q ≠ p) : (s.setPort p m).pkg.ports.getD q .down = s.pkg.ports.getD q .down :=
  getD_map_zipIdx_other _ _ _ _ fun _ => if_neg h

theorem State.setPort_ue {q : Nat} (hp : p = 16 + q) (h : q < s.pkg.uePorts.length) :
    (s.setPort p m).pkg.uePorts.getD q false = (m != .down) :=
  (getD_map_zipIdx _ _ _ _ h).trans (if_pos hp.symm)

theorem State.setPort_ue_other {q : Nat} (h : p ≠ 16 + q) : (s.setPort p m).pkg.uePorts.getD q false = s.pkg.uePorts.getD q false :=
  getD_map_zipIdx_other _ _ _ _ fun _ => if_neg h.symm

end

end Sys2Proof.Machine
end

section
open Sys2Proof Sys2Proof.Machine

/-- Settles O48: a transaction that is due is what `State.xactArrive` makes of it, case by case; every other event is the equation of its function
in the case that the statement names. -/
theorem windowEvents : Obligations.WindowEvents := by
  unfold Obligations.WindowEvents
  refine ⟨fun s id m x dst rd hx hm hdst hrd => ?arrival, fun s id m x c v hs hsid => ⟨fun hmc => ?refused, fun r w hmc hc hv hw hr => ?lost⟩,
    fun s id m x c hx he hlink hc => ?ack, fun s d tc w => ?retransmit, fun s id m x dst hx hm hdst hpath => ?gap,
    fun s d tc w m dst => ?resync, fun s d tc w => ?clear, fun s d tc w => ⟨rfl, rfl⟩, fun s p => ⟨rfl, fun hf hb => ?failure⟩,
    fun s p ext => ?training⟩
  case arrival =>
    intro d due ps
    have hgo := State.windowArrival_eq hx hm hdst hrd
    have hdue (h : due) : s.windowArrival id m = s.xactArrive id m rd x dst := hgo.trans (if_pos h)
    have hearly (hb : (s.ctx rd dst.tcid).bind ≠ .unbound) (hd : d ≠ 0) :
        s.windowArrival id m = if d < 2 ^ 31 then s else s.setCopy id m .performed :=
      hgo.trans (if_neg (not_or.mpr ⟨hd, hb⟩))
    refine ⟨fun h ht hmet hres => ?served, fun qs h ht hfull => ?rest, State.xactServe_mem_of_not_hbm s x dst, fun u qs => ?units, fun v => ?taken,
      fun c v h ht hmet => ?fails, fun h ht hmet hsp hres hk => ?berths, fun hb hd hlt => ?ahead, fun hb hge => ?behind⟩
    case served =>
      have hserved := (hdue h).trans (State.xactArrive_served ht hmet hres)
      refine ⟨fun hfull => exec_next_of_eq rfl (hserved.trans (if_pos hfull)), fun hfull => ?_⟩
      have hroom := hserved.trans (if_neg (by rw [hfull]; exact Bool.false_ne_true))
      exact ⟨fun hk => exec_next_of_eq rfl (hroom.trans (if_pos hk)), fun hk => exec_next_of_eq rfl (hroom.trans (if_neg hk))⟩
    case rest => exact exec_next_of_eq rfl ((hdue h).trans (State.xactArrive_rest ht hfull))
    case units =>
      exact ⟨performsNow u.nfree qs, exists_performsNow u.nfree, fun q _ r _ => performsNow_congr u.nfree qs,
        State.xactUnits_of_all, State.xactUnits_of_some⟩
    case taken =>
      exact ⟨State.xactTaken_filter v id m rd x .performed, State.xactDone_of_no_handler, fun h hh => State.xactDone_of_handler hh⟩
    case fails => exact exec_next_of_eq rfl ((hdue h).trans (State.xactArrive_fails ht hmet))
    case berths => exact exec_next_of_eq rfl ((hdue h).trans (State.xactArrive_berths ht hmet hsp hres hk))
    case ahead => exact exec_next_of_eq rfl ((hearly hb hd).trans (if_pos hlt))
    case behind => exact exec_next_of_eq rfl ((hearly hb (by omega)).trans (if_neg (by omega)))
  case refused => exact State.xactFail_refused id m c v hs hsid hmc
  case lost =>
    subst hc hv
    exact State.xactFail_lost id m hmc (undeliverable_of_reason hw hr)
  case ack => exact exec_next_of_eq rfl (State.windowAck_recorded hx he hlink hc)
  case retransmit =>
    intro late
    refine ⟨fun h => exec_next_of_eq rfl (State.retransmit_of_none h), fun hne h => exec_next_of_eq rfl ?_,
      fun h hne => exec_next_of_eq rfl (State.retransmit_of_spent hne h)⟩
    rw [State.retransmit_of_few hne h, State.resent, List.length_map]
    rfl
  case gap =>
    exact ⟨fun hrd => exec_next_of_eq rfl (State.gapSend_away hx hm hdst hpath hrd),
      fun rd hrd hseq => exec_next_of_eq rfl (State.gapSend_here hx hm hdst hpath hrd hseq)⟩
  case resync =>
    intro y hm hdst hpath out
    exact ⟨fun hrd => exec_next_of_eq rfl (State.resyncSend_away hm hdst hpath hrd),
      fun rd hrd => exec_next_of_eq rfl (State.resyncSend_here hm hdst hpath hrd)⟩
  case clear => exact ⟨State.clearDone_of_not_clearing, State.clearDone_of_resync, State.clearDone_of_last⟩
  case failure =>
    intro t
    have ht : t = (s.setPort p .down).loseLoads := State.linkFailure_of_nil p hf hb
    rw [ht]
    exact ⟨State.loseLoads_keeps State.mem (fun _ _ _ => rfl) (fun _ _ => rfl) _,
      State.loseLoads_keeps State.pkg (fun _ _ _ => rfl) (fun _ _ => rfl) _⟩
  case training =>
    have hup : ((if ext then PortMode.extended else .plain) != .down) = true := by cases ext <;> rfl
    exact ⟨_, rfl, State.setPort_port s p _, fun q hq => State.setPort_port_other s p _ hq,
      fun q hp h => (State.setPort_ue s p _ hp h).trans hup, fun q hq => State.setPort_ue_other s p _ hq, rfl, rfl⟩
end

section
/-! PROOF. The matrix unit: queued operations and the transfers (O27, O28).

A queued operation that is clear to issue has one effect, `State.mxQueue`, with the words that it captures from its strand; what that does to the
queue is said once, by `State.mxQueue_spec`. A transfer has one effect too, one result on its way. So each operation has here one lemma, for what
it does once it is clear to issue. -/
namespace Sys2Proof.Machine

/-! ## Operations that queue (R236, R245, R250, R252, R253, R256) -/

/-- An MCALL queues its routine with the parameters, the format and the layout entries that stand at its issue. -/
theorem opMcall_run (i : Instr) (kind : MKind) (o : McallOps) {s : State} {k : Nat} (h : Issues s k)
    (hc : (opMcall i kind o s).Clear (s.strand k)) :
    (opMcall i kind o s).run s = .next (s.mxQueue kind o.t.toNat o.mp (parWords (s.strand k) kind o.mp) (s.strand k).format
      (captured (s.strand k) kind (MPar.ofWords (parWords (s.strand k) kind o.mp)))) := by
  rw [Op.run_clear _ h hc]
  simp only [opMcall, State.me_of_issues h]

/-- MLDS queues the value that its vector register has at its issue. -/
theorem opMlds_run (o : MldsOps) {s : State} {k : Nat} (h : Issues s k) (hc : (opMlds o s).Clear (s.strand k)) :
    (opMlds o s).run s = .next (s.mxQueue (.mlds o.plane o.row ((s.strand k).rv o.fl o.vr)) 0 0 [] 0 []) := by
  rw [Op.run_clear _ h hc]
  simp only [opMlds, State.me_of_issues h]

/-- MPLANE queues the layout entry that stands at its issue. -/
theorem opMplane_run (o : MplaneOps) {s : State} {k : Nat} (h : Issues s k) (hc : (opMplane o s).Clear (s.strand k)) :
    (opMplane o s).run s = .next (s.mxQueue (.mplane o.plane o.tile) 0 0 [] 0 [(s.strand k).layEntry o.le]) := by
  rw [Op.run_clear _ h hc]
  simp only [opMplane, State.me_of_issues h]

/-- MCLR and MNORM queue their tile. -/
theorem opMtile_run (i : Instr) (kind : MKind) (o : MtOps) {s : State} {k : Nat} (h : Issues s k)
    (hc : (opMtile i kind o s).Clear (s.strand k)) :
    (opMtile i kind o s).run s = .next (s.mxQueue kind o.t.toNat 0 [] 0 []) :=
  Op.run_clear _ h hc

/-! ## Transfers (R251, R254, R255, R257, R258) -/

/-- An operation that only R38 forbids, and whose effect is one word read from its strand, lands that word. -/
theorem landsVector_of_landWord {i : Instr} {sl : Slot} {g : Guard} {d : Dest} {l : Nat} {v : Strand → Word}
    (hexec : ∀ s, exec i s = ({ Op.plain i sl g (fun s => s.landWord d l (v s.me) sl) with chk := noHandler s.me } : Op).run s) :
    LandsVector i g [] (fun t => onWay t sl d l ((v t).setWidth 1024) fullEn none) := by
  intro s k h hg _ hh
  rw [hexec s, Op.run_plain_noHandler i sl g _ h hg hh, State.landWord_of_issues h, State.me_of_issues h]

/-- MRD sends the row segment as it stands at issue, with the trap that its landing tests (R239, R254). -/
theorem opMrd_run (o : MrwOps) {s : State} {k : Nat} (h : Issues s k) (hc : (opMrd o s).Clear (s.strand k)) :
    (opMrd o s).run s = .next (landed s k (onWay (s.strand k) .mx (.vreg o.fl o.vr) 8
      ((s.strand k).bandRead o.t.toNat o.row o.seg o.raw (s.strand k).rofmt).1 fullEn
      ((s.strand k).bandRead o.t.toNat o.row o.seg o.raw (s.strand k).rofmt).2)) := by
  rw [Op.run_clear _ h hc]
  simp only [opMrd, State.me_of_issues h, State.pushIn_of_issues h, onWay]

/-- MWR sends its vector register to the row segment, under the read-out format at issue. -/
theorem opMwr_run (o : MrwOps) {s : State} {k : Nat} (h : Issues s k) (hc : (opMwr o s).Clear (s.strand k)) :
    (opMwr o s).run s = .next (landed s k (onWay (s.strand k) .mx (.band o.t.toNat o.row o.seg o.raw (s.strand k).rofmt) 8
      ((s.strand k).rv o.fl o.vr) fullEn none)) := by
  rw [Op.run_clear _ h hc]
  simp only [opMwr, State.me_of_issues h, State.land_of_issues h]

/-- MFMT sends its format entry to the read-out format. -/
theorem opMfmt_run (o : MfmtOps) {s : State} {k : Nat} (h : Issues s k) (hc : (opMfmt o s).Clear (s.strand k)) :
    (opMfmt o s).run s = .next (landed s k (onWay (s.strand k) .mx .rofmt 1 ((storeGet 0 (s.strand k).ftab o.k).setWidth 1024)
      fullEn none)) := by
  rw [Op.run_clear _ h hc]
  simp only [opMfmt, State.me_of_issues h, State.land_of_issues h]

end Sys2Proof.Machine
end

section
open Sys2Proof Sys2Proof.Machine

/-- Settles O27: each form queues the words that it captures (`opMcall_run`, `opMlds_run`, `opMplane_run`, `opMtile_run`), and
`State.mxQueue_spec` says where they stand in the queue, when the operation starts and what stays. -/
theorem matrixQueueing : Obligations.MatrixQueueing := by
  unfold Obligations.MatrixQueueing
  refine ⟨fun o s k i kind hi h hc => ?mcall, fun o s k h hc => ?mlds, fun o s k h hc => ?mplane, fun o s k i kind hi h hc => ?mtile⟩
  case mcall =>
    obtain ⟨_, op, rfl, hmq, hkind, htile, hmp, hpar, hfmt, _, hstart, hends, hmem, hrs, htiles⟩ := s.mxQueue_spec k h kind o.t.toNat o.mp
      (parWords (s.strand k) kind o.mp) (s.strand k).format (captured (s.strand k) kind (MPar.ofWords (parWords (s.strand k) kind o.mp)))
    have hexec : exec i s = (opMcall i kind o s).run s := by
      simp only [List.mem_cons, Prod.mk.injEq, List.not_mem_nil, or_false] at hi
      rcases hi with ⟨rfl, rfl⟩ | ⟨rfl, rfl⟩ | ⟨rfl, rfl⟩ | ⟨rfl, rfl⟩ | ⟨rfl, rfl⟩ | ⟨rfl, rfl⟩ | ⟨rfl, rfl⟩ | ⟨rfl, rfl⟩
      all_goals rfl
    exact ⟨_, op, hexec.trans (opMcall_run i kind o h hc), hmq, hkind, htile, hmp, hpar, hfmt, hstart, hends, hmem, hrs, htiles⟩
  case mlds =>
    obtain ⟨_, op, rfl, hmq, hkind, _, _, _, _, _, hstart, hends, hmem, _, _⟩ :=
      s.mxQueue_spec k h (.mlds o.plane o.row ((s.strand k).rv o.fl o.vr)) 0 0 [] 0 []
    exact ⟨_, op, opMlds_run o h hc, hmq, hkind, hstart, hends, hmem⟩
  case mplane =>
    obtain ⟨_, op, rfl, hmq, hkind, _, _, _, _, hopnds, hstart, hends, hmem, _, _⟩ :=
      s.mxQueue_spec k h (.mplane o.plane o.tile) 0 0 [] 0 [(s.strand k).layEntry o.le]
    exact ⟨_, op, opMplane_run o h hc, hmq, hkind, hopnds, hstart, hends, hmem⟩
  case mtile =>
    obtain ⟨_, op, rfl, hmq, hkind, htile, _, _, _, _, hstart, hends, hmem, _, htiles⟩ := s.mxQueue_spec k h kind o.t.toNat 0 [] 0 []
    have hexec : exec i s = (opMtile i kind o s).run s := by
      simp only [List.mem_cons, Prod.mk.injEq, List.not_mem_nil, or_false] at hi
      rcases hi with ⟨rfl, rfl⟩ | ⟨rfl, rfl⟩
      all_goals rfl
    exact ⟨_, op, hexec.trans (opMtile_run i kind o h hc), hmq, hkind, htile, hstart, hends, hmem, htiles⟩

/-- Settles O28: each sends one result. MPAR and MSTAT send a word and have R38's condition alone; the others send once they pass their own
checks. -/
theorem matrixTransfers : Obligations.MatrixTransfers := by
  unfold Obligations.MatrixTransfers
  refine ⟨fun o => ?mpar, fun o s k h hc => opMrd_run o h hc, fun o s k h hc => opMwr_run o h hc, fun o s k h hc => opMfmt_run o h hc,
    fun o => ?mstat⟩
  case mpar => exact landsVector_of_landWord (v := fun t => t.rs o.ss) fun _ => rfl
  case mstat => exact landsVector_of_landWord (v := fun t => mstatValue t o.sel) fun _ => rfl
end

section
/-! PROOF. The CE slot: operations that enter their core's queue (O34).

Each operation has one effect on the queue, `State.queueCe`, of which this part says once what it leaves: the entry, memory, and the issuing
strand but for its list of engine operations. A latch bound and a flag cleared after it are changes of that strand alone. -/
namespace Sys2Proof.Machine

/-! ## Entering the queue (R303, R304, R307, R308, R314) -/

/-- A core's queue of CE operations is not what names the strand that it issues for. -/
theorem State.self_modCore_ceq (s : State) (c : Nat) (f : CoreSt → List CeEntry) :
    (s.modCore c (fun x => { x with ceq := f x })).self = s.self := by
  show ((s.modCore c _).core s.cur).issuing = (s.core s.cur).issuing
  by_cases hc : s.cur = c
  · rw [hc, State.core_modCore]
  · rw [State.core_modCore_other _ _ _ _ hc]

section
variable {s : State} {k : Nat} (h : Issues s k) (op : CeOp)
include h

/-- An operation that enters the queue takes the next identity; of the issuing strand only the list of its engine operations may change. -/
theorem State.queueCe_spec :
    Issues (s.queueCe op) k ∧ CeQueued s (s.queueCe op) k op ∧ (s.queueCe op).mem = s.mem ∧
      ∃ es, (s.queueCe op).strand k = { s.strand k with engOps := es } := by
  have hself : (s.fresh.2.modCore (s.strand k).core (fun c => { c with ceq := c.ceq ++ [⟨s.nextId, k, (s.strand k).core, (s.strand k).tcid,
      (s.strand k).bun.addr, (s.strand k).fence, op, 0⟩] })).self = some k :=
    (State.self_modCore_ceq _ _ fun c => c.ceq ++ _).trans h.1
  have hqueue : (s.fresh.2.core (s.strand k).core).ceq = (s.core (s.strand k).core).ceq := rfl
  simp only [State.queueCe, h.1]
  cases op.isEngine with
  | true =>
    simp only [if_true]
    refine ⟨⟨hself, h.2⟩, ?_, rfl, _, State.strand_modStrand _ _ _⟩
    simp only [CeQueued, State.core_modStrand, State.core_modCore, hqueue]
    rfl
  | false =>
    simp only [Bool.false_eq_true, if_false]
    refine ⟨⟨hself, h.2⟩, ?_, rfl, (s.strand k).engOps, rfl⟩
    simp only [CeQueued, State.core_modCore, hqueue]
    rfl

theorem State.queueCe_keepsData : KeepsData s (s.queueCe op) k := by
  obtain ⟨-, -, hmem, es, hstrand⟩ := State.queueCe_spec h op
  exact ⟨hmem, fun r => by rw [hstrand]; rfl⟩

/-- A latch that the operation names waits for it. -/
theorem State.queueCe_bind_spec (n : Nat) : let t := (s.queueCe op).onMe (fun t => t.bindLatch n s.nextId)
    Issues t k ∧ CeQueued s t k op ∧ LatchBound s t k n ∧ KeepsData s t k ∧ (t.strand k).inflight = (s.strand k).inflight := by
  obtain ⟨hissues, hqueued, hmem, es, hstrand⟩ := State.queueCe_spec h op
  rw [State.onMe_of_issues hissues]
  have hbound := State.strand_modStrand (s.queueCe op) k (fun t => t.bindLatch n s.nextId)
  rw [hstrand] at hbound
  refine ⟨hissues.modStrand k _, hqueued, ?_, ⟨hmem, fun r => ?_⟩, ?_⟩
  · rw [LatchBound, hbound, Strand.bindLatch, Strand.rh_wh, if_pos rfl]; rfl
  · rw [hbound]; rfl
  · rw [hbound]; rfl

end

/-- A flag that an operation clears is one result on its way; nothing else of the state changes. -/
theorem State.landFlag_spec {s u : State} {k : Nat} (hu : Issues u k) (hin : (u.strand k).inflight = (s.strand k).inflight)
    (hkeep : KeepsData s u k) (f : Nat) : let t := u.landBit (.flag f) 1 false .ce
    FlagClears s t k f ∧ KeepsData s t k ∧ t.cores = u.cores ∧ ∀ n, (t.strand k).rh n = (u.strand k).rh n := by
  rw [State.landBit_of_issues hu]
  refine ⟨⟨onWay (u.strand k) .ce (.flag f) 1 0 fullEn none, ?_, rfl, rfl, rfl⟩, ⟨hkeep.1, fun r => ?_⟩, rfl, fun n => ?_⟩
  · rw [landed_strand, hin]; rfl
  · rw [landed_strand]; exact hkeep.2 r
  · rw [landed_strand]; rfl

/-- CWAIT and CPOLL of a latch within the allocation, with room in the queue. -/
theorem opHandle_spec (i : Instr) (o : ChOps) (op : CeOp) {s : State} {k : Nat} (h : Issues s k) (hg : (s.strand k).guard o.g = true)
    (hn : o.hl < (s.strand k).nlatch) (hroom : (s.core (s.strand k).core).ceq.length < 16) (hreqs : latchStallFull s (s.strand k) = false) :
    ∃ t, (opHandle i o op s).run s = .next t ∧ CeQueued s t k op ∧ LatchBound s t k o.hl ∧ KeepsData s t k := by
  have hme : s.me = s.strand k := State.me_of_issues h
  have hchk : (opHandle i o op s).chk = [] := by simp [opHandle, hme, hreg, Machine.cond, hn]
  have hstall : (opHandle i o op s).stall = false := by simp [opHandle, ceLatchStall, ceStall, hme, hreqs, hroom]
  obtain ⟨-, hqueued, hbound, hkeep, -⟩ := State.queueCe_bind_spec h op o.hl
  exact ⟨_, Op.run_unchecked _ h hg hchk rfl hstall, hqueued, hbound, hkeep⟩

/-- An operation that enters the queue and clears its flag. -/
theorem State.queueCe_flag_spec {s : State} {k : Nat} (h : Issues s k) (op : CeOp) (f : Nat) :
    let t := (s.queueCe op).landBit (.flag f) 1 false .ce
    CeQueued s t k op ∧ FlagClears s t k f ∧ KeepsData s t k := by
  obtain ⟨hissues, hqueued, -, es, hstrand⟩ := State.queueCe_spec h op
  obtain ⟨hflag, hkeep, hcores, -⟩ := State.landFlag_spec hissues (by rw [hstrand]) (State.queueCe_keepsData h op) f
  exact ⟨by rw [CeQueued, State.core, hcores]; exact hqueued, hflag, hkeep⟩

/-- An operation that enters the queue, binds its latch and clears its flag. -/
theorem State.queueCe_bind_flag_spec {s : State} {k : Nat} (h : Issues s k) (op : CeOp) (n f : Nat) :
    let t := ((s.queueCe op).onMe (fun t => t.bindLatch n s.nextId)).landBit (.flag f) 1 false .ce
    CeQueued s t k op ∧ LatchBound s t k n ∧ FlagClears s t k f ∧ KeepsData s t k := by
  obtain ⟨hissues, hqueued, hbound, hkeep, hin⟩ := State.queueCe_bind_spec h op n
  obtain ⟨hflag, hkeep', hcores, hlatch⟩ := State.landFlag_spec hissues hin hkeep f
  exact ⟨by rw [CeQueued, State.core, hcores]; exact hqueued, (hlatch n).trans hbound, hflag, hkeep'⟩

end Sys2Proof.Machine
end

section
open Sys2Proof Sys2Proof.Machine

/-- Settles O34: what each operation that is clear to issue captures, and what `State.queueCe`, a latch bound and a flag cleared leave. -/
theorem engineOperationsQueued : Obligations.EngineOperationsQueued := by
  unfold Obligations.EngineOperationsQueued
  refine ⟨fun o s k h hc => ?cjob, fun o s k h hg hn hroom hreqs => ⟨?cwait, ?cpoll⟩, fun o s k h hg hroom => ?ckill,
    fun o s k h hc => ?csend, fun o s k h hc => ?cred, fun o s k h hc => ?cbell⟩
  all_goals have hme : s.me = s.strand k := State.me_of_issues h
  case cjob =>
    refine ⟨_, Op.run_clear _ h hc, ?_⟩
    simp only [opCjob, hme]
    exact State.queueCe_bind_flag_spec h _ _ _
  case cwait =>
    have hexec : exec (.cwait o) s = (opHandle (.cwait o) o (.wait ((s.strand k).rn o.sa % 65536) o.hl) s).run s := by rw [← hme]; rfl
    rw [hexec]
    exact opHandle_spec _ _ _ h hg hn hroom hreqs
  case cpoll =>
    have hexec : exec (.cpoll o) s = (opHandle (.cpoll o) o (.poll ((s.strand k).rn o.sa % 65536) o.hl) s).run s := by rw [← hme]; rfl
    rw [hexec]
    exact opHandle_spec _ _ _ h hg hn hroom hreqs
  case ckill =>
    have hstall : ceStall s = false := by simp [ceStall, hme, hroom]
    refine ⟨_, Op.run_unchecked _ h hg rfl rfl hstall, ?_⟩
    simp only [Op.plain, hme]
    exact ⟨(State.queueCe_spec h _).2.1, State.queueCe_keepsData h _⟩
  case csend =>
    refine ⟨_, Op.run_clear _ h hc, ?_⟩
    simp only [opFrag, hme]
    exact State.queueCe_flag_spec h _ _
  case cred =>
    refine ⟨_, Op.run_clear _ h hc, ?_⟩
    simp only [opFrag, hme]
    exact State.queueCe_flag_spec h _ _
  case cbell =>
    refine ⟨_, Op.run_clear _ h hc, ?_⟩
    simp only [opCbell, hme]
    exact ⟨(State.queueCe_spec h _).2.1, State.queueCe_keepsData h _⟩
end

section
/-! PROOF. Fragments and reduction groups (O49).

An arrival at a die of the package is one case of `State.fragArrive`, each said once. What a CSEND fragment's writes do to memory is said by
`State.engineWrites_mem`; its receiver's flag depends on no byte of memory, so `Receives` names what the writes must leave of the receiver. -/
namespace Sys2Proof.Machine

/-! ## Arrivals (R286, R308, R309, R310, R340) -/

/-- A store read at a number whose value was changed. -/
theorem storeFind_storeMod_same {α : Type} (m : Store α) (a : Nat) (f : α → α) :
    storeFind (storeMod m a f) a = (storeFind m a).map f := by
  induction m with
  | nil => rfl
  | cons e r ih =>
    obtain ⟨k, v⟩ := e
    by_cases h : k = a
    · simp [storeMod, storeFind, h]
    · have h' : a ≠ k := fun e => h e.symm
      simpa [storeMod, storeFind, h, h'] using ih

section
variable {s : State} {id m rd : Nat} {f : Frag} {dst : Dest'}

/-- A copy on its way to a die of the package arrives there. -/
theorem State.fragmentArrival_eq (hf : storeFind s.frags id = some f) (hm : storeFind f.copies m = some .sent)
    (hdst : storeFind (s.members ((s.ctx f.die f.tcid).win f.win)) m = some dst) (hrd : s.dieOfDomain dst.ddie = some rd) :
    s.fragmentArrival id m = s.fragArrive id m rd f dst := by
  simp only [State.fragmentArrival, hf, hm, hdst, hrd]

theorem State.fragArrive_fails {c : Cause} {v : Word} (h : s.fragPlaces f dst = .error (c, v)) :
    s.fragArrive id m rd f dst = s.fragMiss id m f dst c v := by
  simp only [State.fragArrive, h]

/-- A fragment whose home is in reach makes the requests of its writes, and is taken when all are made. -/
theorem State.fragArrive_here {ps : List (Nat × List Byte)} (h : s.fragPlaces f dst = .ok ps)
    (hres : ((s.ctx f.die f.tcid).win f.win).dspace = 3 ∨ (s.ctx rd dst.tcid).resident = true) :
    s.fragArrive id m rd f dst =
      (let us := if s.fragCompletes rd f dst then (ps.map (fun p => p.1 / 128)).eraseDups else []
       let a := s.admitUnits (s.ctx f.die f.tcid).tenant (us.drop (storeGet 0 f.paid m)) (storeGet 0 f.paid m)
       if a.1 < us.length then a.2.modFrag id (fun f => { f with paid := storeSet f.paid m a.1 })
       else f.op.elim (a.2.csendTaken id m rd f dst ps) (fun op => a.2.credTaken id m rd f dst op)) := by
  have hhome : ¬(((s.ctx f.die f.tcid).win f.win).dspace ≠ 3 ∧ (s.ctx rd dst.tcid).resident = false) := by
    rintro ⟨hsp, hno⟩
    obtain h3 | hyes := hres
    · exact hsp h3
    · simp [hno] at hyes
  cases hop : f.op with
  | none => simp only [State.fragArrive, h, if_neg hhome, hop, Option.elim_none]
  | some op => simp only [State.fragArrive, h, if_neg hhome, hop, Option.elim_some]

section
variable {ps : List (Nat × List Byte)} (h : s.fragPlaces f dst = .ok ps) (hsp : ((s.ctx f.die f.tcid).win f.win).dspace ≠ 3)
  (hres : (s.ctx rd dst.tcid).resident = false)
include h hsp hres

/-- A CRED fragment for a context that is not resident waits. -/
theorem State.fragArrive_waits (hop : f.op ≠ none) : s.fragArrive id m rd f dst = s := by
  obtain ⟨op, hop⟩ := Option.ne_none_iff_exists'.mp hop
  simp only [State.fragArrive, h, if_pos (And.intro hsp hres), hop]

/-- A CSEND fragment goes to its berth. -/
theorem State.fragArrive_berths (hop : f.op = none) : s.fragArrive id m rd f dst =
    (let r := s.fragRuns f dst
     let b := s.berthArrive rd dst.tcid id m ((s.ctx f.die f.tcid).win f.win).dcl true (recordsOf r.1 r.2)
     if b.1 then (b.2.modFrag id (fun f => { f with copies := storeSet f.copies m .berthed })).gangArrive rd f.gang else b.2) := by
  simp only [State.fragArrive, h, if_pos (And.intro hsp hres), hop]

end

end

/-! ## Bytes that engines write (R130, R221, R335) -/

/-- The state after writes is that of the writes one after another, whatever numbers they took. -/
theorem State.engineWrites_state (s : State) (die : Nat) (ps : List (Nat × List Byte)) :
    (s.engineWrites die ps).2 = ps.foldl (fun u x => (u.deviceWrite die x.1 x.2 2).2) s :=
  (List.foldl_hom Prod.snd fun _ _ => rfl).symm

theorem State.deviceWrite_mem (s : State) (die a : Nat) (bs : List Byte) (scope : Nat) :
    (s.deviceWrite die a bs scope).2.mem = writeBytes s.mem a bs :=
  (State.homeWrite_mem _ _ _).trans (State.performEls_chunkUnits_mem _ _ _ _ _ (Nat.lt_succ_self _))

/-- Writes put their bytes at their addresses in order. -/
theorem State.engineWrites_mem (s : State) (die : Nat) (ps : List (Nat × List Byte)) :
    (s.engineWrites die ps).2.mem = ps.foldl (fun m x => writeBytes m x.1 x.2) s.mem := by
  rw [State.engineWrites_state]
  induction ps generalizing s with
  | nil => rfl
  | cons x r ih => rw [List.foldl_cons, List.foldl_cons, ih, State.deviceWrite_mem]

/-- A fragment's destination outside HBM uses no translation. -/
theorem State.fragWrites_of_not_hbm (s : State) {f : Frag} (dst : Dest') (rd : Nat) (ps : List (Nat × List Byte))
    (h : ((s.ctx f.die f.tcid).win f.win).dspace ≠ 3) :
    s.fragWrites f dst rd ps = (s.chargeServed f.die f.tcid (ps.map (fun p => p.1))).engineWrites rd ps := by
  rw [State.fragWrites, State.fragTouchDest, touchDest_of_not_hbm _ _ _ _ h]

/-! ## Flags of strands (R308, R309, R344) -/

@[simp] theorem Strand.rf_wf (t : Strand) {n : Nat} (h : n < 64) : (t.wf n true).rf n = true := by
  have hbit : (BitVec.ofNat 64 (2 ^ n)).getLsbD n = true := by rw [BitVec.getLsbD_ofNat, Nat.testBit_two_pow_self, decide_eq_true h]; rfl
  simp only [Strand.rf, Strand.wf, setBit, if_true, BitVec.getLsbD_or, hbit, Bool.or_true]

/-- A flag event at a strand that is neither saved nor waiting sets the flag, and adds its writes to the strand's view. -/
theorem State.setFlag_of_running {s : State} {k : Nat} (hsaved : (s.strand k).st ≠ .saved) (hwait : (s.strand k).st ≠ .waiting)
    (n : Nat) (wids : List Nat) :
    s.setFlag k n wids = s.modStrand k (fun t => { t.wf n true with view := viewAdd t.view (s.keysOf wids) }) := by
  generalize hf : (fun t : Strand => { t.wf n true with view := viewAdd t.view (s.keysOf wids) }) = f
  have hst : (f (s.strand k)).st = (s.strand k).st := by rw [← hf]; rfl
  have hwake : (s.modStrand k f).wakePlain k = s.modStrand k f := by
    rw [State.wakePlain, State.modStrand_modStrand]
    exact State.modStrand_congr _ _ _ _ (if_neg (hst ▸ hwait))
  have hevent : s.flagEvent k n wids = s.modStrand k f := by
    simp only [State.flagEvent, hf]
    split
    · rw [hwake, ite_self]
      exact State.resave_of_not_saved (by rw [State.strand_modStrand, hst]; exact hsaved)
    · exact State.resave_of_not_saved (by rw [State.strand_modStrand, hst]; exact hsaved)
  simp only [State.setFlag, hwait, false_and, if_false, hevent]

/-! ## The receiver of a fragment (R35, R309) -/

/-- The strand that a handler-table entry names, neither saved nor waiting. -/
def Receives (s : State) (d t n k e : Nat) : Prop :=
  s.handlerTarget d t n = some (k, e) ∧ (s.strand k).st ≠ .saved ∧ (s.strand k).st ≠ .waiting

theorem State.handlerTarget_iff {s : State} {d t n k e : Nat} : s.handlerTarget d t n = some (k, e) ↔
    ∃ h, storeFind (s.ctx d t).handlers n = some h ∧ s.namedStrand d t h.launch h.strand = some k ∧ (s.strand k).ending = false ∧
      h.entry = e := by
  unfold State.handlerTarget
  cases hfind : storeFind (s.ctx d t).handlers n with
  | none => simp
  | some h =>
    cases hname : s.namedStrand d t h.launch h.strand with
    | none => simp [hname]
    | some j =>
      cases hend : (s.strand j).ending with
      | true => simp [hend, hname]; rintro rfl; simp [hend]
      | false => simp [hend, hname]; rintro rfl -; exact hend

/-- The end of a SPIN leaves a strand its state if it is not waiting, and does not bring it to its end. -/
theorem Strand.endSpin_of_not_waiting {t : Strand} (h : t.st ≠ .waiting) (now : Nat) :
    (t.endSpin now).st = t.st ∧ (t.ending = false → (t.endSpin now).ending = false) := by
  have hspin : t.endSpin now = { t with switchTo := t.switchTo.map (fun _ => .yield), drain := t.drain.map (fun _ => .yield) } := if_neg h
  rw [hspin]
  refine ⟨rfl, fun hend => ?_⟩
  simp only [Strand.ending, Bool.or_eq_false_iff] at hend ⊢
  obtain ⟨⟨⟨hretiring, hwas⟩, -⟩, -⟩ := hend
  refine ⟨⟨⟨hretiring, hwas⟩, ?_⟩, ?_⟩
  · cases t.drain <;> rfl
  · cases t.switchTo <;> rfl

/-- A write at a home leaves each strand, or ends its SPIN. -/
theorem State.wakeSpin_strand (s : State) (ws : List (Nat × Nat)) (k : Nat) :
    (s.wakeSpin ws).strand k = s.strand k ∨ (s.wakeSpin ws).strand k = (s.strand k).endSpin s.time := by
  simp only [State.wakeSpin, State.strand, storeGet]
  rw [storeFind_map_values (fun t : Strand => if t.spinsOn _ then t.endSpin s.time else t)]
  cases storeFind s.strands k with
  | none => exact .inl rfl
  | some t =>
    simp only [Option.map_some, Option.getD_some]
    split
    · exact .inr rfl
    · exact .inl rfl

/-- No strand gets another name. -/
theorem State.wakeSpin_namedStrand (s : State) (ws : List (Nat × Nat)) (d t l n : Nat) :
    (s.wakeSpin ws).namedStrand d t l n = s.namedStrand d t l n := by
  have hend (x : Strand) : (x.endSpin s.time).die = x.die ∧ (x.endSpin s.time).tcid = x.tcid ∧ (x.endSpin s.time).num = x.num ∧
      (x.endSpin s.time).lid = x.lid := by
    unfold Strand.endSpin
    split
    · exact ⟨rfl, rfl, rfl, rfl⟩
    · exact ⟨rfl, rfl, rfl, rfl⟩
  simp only [State.namedStrand, State.wakeSpin, List.find?_map, Option.map_map]
  congr 1
  congr 1
  funext e
  simp only [Function.comp]
  split
  · obtain ⟨hd, ht, hn, hl⟩ := hend e.2
    rw [hd, ht, hn, hl]; rfl
  · rfl

section
variable {s : State} {d t n k e : Nat}

/-- The receiver depends on the handlers of its context, the launches and the strands alone. -/
theorem Receives.of_eq {u : State} (h : Receives s d t n k e) (hctx : (u.ctx d t).handlers = (s.ctx d t).handlers)
    (hlaunch : u.launches = s.launches) (hstrands : u.strands = s.strands) : Receives u d t n k e := by
  unfold Receives State.handlerTarget State.namedStrand State.launch State.strand at h ⊢
  rw [hctx, hlaunch, hstrands]
  exact h

theorem Receives.wakeSpin (h : Receives s d t n k e) (ws : List (Nat × Nat)) : Receives (s.wakeSpin ws) d t n k e := by
  obtain ⟨htarget, hsaved, hwait⟩ := h
  obtain ⟨x, hfind, hname, hend, rfl⟩ := State.handlerTarget_iff.mp htarget
  obtain ⟨hst, hending⟩ := Strand.endSpin_of_not_waiting hwait s.time
  have hname' : (s.wakeSpin ws).namedStrand d t x.launch x.strand = some k := (State.wakeSpin_namedStrand ..).trans hname
  obtain hk | hk := s.wakeSpin_strand ws k
  · exact ⟨State.handlerTarget_iff.mpr ⟨x, hfind, hname', by rw [hk]; exact hend, rfl⟩, by rw [hk]; exact hsaved, by rw [hk]; exact hwait⟩
  · exact ⟨State.handlerTarget_iff.mpr ⟨x, hfind, hname', by rw [hk]; exact hending hend, rfl⟩, by rw [hk, hst]; exact hsaved,
      by rw [hk, hst]; exact hwait⟩

theorem State.performEls_launches (wr : Writer) (els : List (Nat × Nat × Nat)) (s : State) : (s.performEls wr els).launches = s.launches := by
  induction els generalizing s with
  | nil => rfl
  | cons e r ih => exact ih _

theorem State.performEls_ctxs (wr : Writer) (els : List (Nat × Nat × Nat)) (s : State) : (s.performEls wr els).ctxs = s.ctxs := by
  induction els generalizing s with
  | nil => rfl
  | cons e r ih => exact ih _

theorem Receives.deviceWrite (h : Receives s d t n k e) (die a : Nat) (bs : List Byte) (scope : Nat) :
    Receives (s.deviceWrite die a bs scope).2 d t n k e := by
  refine Receives.wakeSpin (h.of_eq ?_ ?_ ?_) _
  · exact congrArg (fun c => (storeGet Ctx.reset c (ctxKey d t)).handlers) (State.performEls_ctxs _ _ s.fresh.2)
  · exact State.performEls_launches _ _ s.fresh.2
  · exact State.performEls_strands _ _ s.fresh.2

theorem Receives.engineWrites (h : Receives s d t n k e) (die : Nat) (ps : List (Nat × List Byte)) :
    Receives (s.engineWrites die ps).2 d t n k e := by
  rw [State.engineWrites_state]
  exact List.foldlRecOn ps _ (motive := fun u => Receives u d t n k e) h fun u hu x _ => hu.deviceWrite die x.1 x.2 2

@[simp] theorem State.charge_launches (s : State) (d t cls n : Nat) : (s.charge d t cls n).launches = s.launches :=
  State.charge_keeps (·.launches) (fun _ _ _ => rfl) (fun _ _ _ _ => rfl) s d t cls n

@[simp] theorem State.charge_handlers (s : State) (d t cls n e u : Nat) : ((s.charge d t cls n).ctx e u).handlers = (s.ctx e u).handlers := by
  unfold State.charge
  dsimp only
  split
  · rfl
  · exact State.ctx_modCtx_keeps Ctx.handlers _ _ _ _ _ _ fun _ => rfl

theorem Receives.charge (h : Receives s d t n k e) (die tcid cls c : Nat) : Receives (s.charge die tcid cls c) d t n k e :=
  h.of_eq (State.charge_handlers ..) (State.charge_launches ..) (State.charge_strands ..)

theorem Receives.chargeServed (h : Receives s d t n k e) (die tcid : Nat) (as : List Nat) : Receives (s.chargeServed die tcid as) d t n k e := by
  unfold State.chargeServed
  dsimp only
  split
  · exact h
  · exact (h.charge ..).charge ..

/-- The receiver's flag sets, and memory stays. -/
theorem Receives.receiverFlag (h : Receives s d t n k e) {flag : Nat} (hflag : flag < 64) (wids : List Nat) :
    (s.receiverFlag d t n flag wids).mem = s.mem ∧ ((s.receiverFlag d t n flag wids).strand k).rf flag = true := by
  obtain ⟨htarget, hsaved, hwait⟩ := h
  have hgo : s.receiverFlag d t n flag wids = s.setFlag k flag wids := by simp only [State.receiverFlag, htarget]
  rw [hgo, State.setFlag_of_running hsaved hwait, State.strand_modStrand]
  exact ⟨rfl, Strand.rf_wf _ hflag⟩

end

/-- An arrival in no gang boosts none. -/
theorem State.gangArrive_zero (s : State) (die : Nat) : s.gangArrive die 0 = s := by
  unfold State.gangArrive
  split
  · rfl
  · split
    · rfl
    · exact if_pos (.inl rfl)

/-- A CSEND fragment outside HBM and in no gang is written, and its receiver's flag sets. -/
theorem State.csendTaken_spec {s : State} {f : Frag} {dst : Dest'} {rd k e : Nat} (id m : Nat) (ps : List (Nat × List Byte))
    (hsp : ((s.ctx f.die f.tcid).win f.win).dspace ≠ 3) (hgang : f.gang = 0) (hk : Receives s rd dst.tcid f.nidx k e) (hflag : f.rflag < 64) :
    (s.csendTaken id m rd f dst ps).mem = (s.engineWrites rd ps).2.mem ∧ ((s.csendTaken id m rd f dst ps).strand k).rf f.rflag = true := by
  have hwritten : Receives ((s.fragWrites f dst rd ps).2.modFrag id (fun f => { f with copies := storeSet f.copies m .performed }))
      rd dst.tcid f.nidx k e := by
    rw [State.fragWrites_of_not_hbm s dst rd ps hsp]
    exact ((hk.chargeServed ..).engineWrites rd ps).of_eq rfl rfl rfl
  obtain ⟨hmem, hrf⟩ := hwritten.receiverFlag hflag (s.fragWrites f dst rd ps).1
  simp only [State.csendTaken, hgang, State.gangArrive_zero]
  refine ⟨hmem.trans ?_, hrf⟩
  show (s.fragWrites f dst rd ps).2.mem = _
  rw [State.fragWrites_of_not_hbm s dst rd ps hsp, State.engineWrites_mem, State.engineWrites_mem, State.chargeServed_mem]

/-! ## Groups (R310, R311) -/

/-- The first fragment of a group with contributors to come is kept in it. -/
theorem State.credTaken_first {s : State} {f : Frag} {dst : Dest'} {rd : Nat} (id m op : Nat) (h : s.groupFor rd f dst = none)
    (hn : 0 < f.ncon) :
    ∃ gid g, storeFind (s.credTaken id m rd f dst op).groups gid = some g ∧ g.parts = [(s.domainIdx f.die, f.bytes)] ∧ g.since = s.time ∧
      (s.credTaken id m rd f dst op).mem = s.mem := by
  simp only [State.credTaken, h, State.groupDone, List.length_singleton]
  rw [if_pos (by omega)]
  exact ⟨_, _, storeFind_storeSet_same _ _ _, rfl, rfl, rfl⟩

theorem State.reductionTimeout_expired {s : State} {id : Nat} {g : RGroup} (h : storeFind s.groups id = some g)
    (hlate : g.since + 10000 ≤ s.time) :
    s.reductionTimeout id = ({ s with groups := storeErase s.groups id } : State).modCtx g.die g.tcid
      (fun c => { c with cerr := (c.cerr + g.parts.length) % 2 ^ 32 }) := by
  simp only [State.reductionTimeout, h, if_neg (Nat.not_lt.mpr hlate)]

/-! ## Acknowledgements (R297, R308) -/

/-- An acknowledgement that its link does not drop settles its copy. -/
theorem State.fragmentAck_recorded {s : State} {id m : Nat} {f : Frag} (hf : storeFind s.frags id = some f)
    (hm : storeFind f.copies m = some .performed)
    (hlink : s.isAway ((s.ctx f.die f.tcid).win f.win) m = false ∨ Config.pick s.nfree % 2 = 0) :
    s.fragmentAck id m = (({ s with nfree := s.nfree + 1 } : State).modFrag id (fun f =>
      { f with copies := storeSet f.copies m .acked })).fragOver id := by
  have hkept : ¬(s.isAway ((s.ctx f.die f.tcid).win f.win) m = true ∧ Config.pick s.nfree % 2 = 1) := by
    rintro ⟨haway, hodd⟩
    obtain hhere | heven := hlink
    · simp [hhere] at haway
    · omega
  simp only [State.fragmentAck, hf, hm, if_neg hkept]

/-- With the acknowledgement of its only copy a fragment is settled. -/
theorem State.fragOver_of_only {s : State} {id m : Nat} {f : Frag} (hf : storeFind s.frags id = some f) (hone : f.copies = [(m, .performed)]) :
    (s.modFrag id (fun f => { f with copies := storeSet f.copies m .acked })).fragOver id =
      (s.modFrag id (fun f => { f with copies := storeSet f.copies m .acked })).fragSettled { f with copies := [(m, .acked)] } id := by
  have hfind : storeFind (s.modFrag id (fun f => { f with copies := storeSet f.copies m .acked })).frags id =
      some { f with copies := [(m, .acked)] } := by
    simp [State.modFrag, storeFind_storeMod_same, hf, hone, storeSet]
  simp only [State.fragOver, hfind]
  rfl

/-- A fragment that is settled ends, and its flag sets at a sender that is neither saved nor waiting. -/
theorem State.fragSettled_spec {s : State} {f : Frag} (id : Nat) (hsid : s.hasStrand f.sid = true) (hsaved : (s.strand f.sid).st ≠ .saved)
    (hwait : (s.strand f.sid).st ≠ .waiting) (hflag : f.flag < 64) : let t := s.fragSettled f id
    storeFind t.frags id = none ∧ (t.strand f.sid).rf f.flag = true ∧ t.mem = s.mem ∧ f.eid ∉ (t.strand f.sid).engOps := by
  have hst : ((({ s with frags := storeErase s.frags id } : State).engineDone f.sid f.eid).strand f.sid).st = (s.strand f.sid).st := by
    rw [State.engineDone, State.strand_modStrand]; rfl
  have hgo : s.fragSettled f id = (({ s with frags := storeErase s.frags id } : State).engineDone f.sid f.eid).setFlag f.sid f.flag [] :=
    if_pos hsid
  intro t
  have ht : t = _ := hgo.trans (State.setFlag_of_running (hst ▸ hsaved) (hst ▸ hwait) f.flag [])
  rw [ht, State.strand_modStrand, State.engineDone, State.strand_modStrand]
  refine ⟨storeFind_storeErase_same _ _, Strand.rf_wf _ hflag, rfl, ?_⟩
  show f.eid ∉ (s.strand f.sid).engOps.filter (fun x => x != f.eid)
  simp

end Sys2Proof.Machine
end

section
open Sys2Proof Sys2Proof.Machine

/-- Settles O49: an arrival is the case of `State.fragArrive` that it meets; what is taken, acknowledged and discarded is said by one lemma each. -/
theorem fragmentEvents : Obligations.FragmentEvents := by
  unfold Obligations.FragmentEvents
  refine ⟨fun s id m f dst rd hf hm => ?arrival, fun s id m f dst rd ps k e hsp hgang htarget hsaved hwait hflag =>
      State.csendTaken_spec id m ps hsp hgang ⟨htarget, hsaved, hwait⟩ hflag,
    fun s id m rd f dst op h hn => State.credTaken_first id m op h hn, fun s id m f hf hm hlink => ?ack,
    fun s id g h hlate => exec_next_of_eq rfl (State.reductionTimeout_expired h hlate)⟩
  case arrival =>
    intro w hdst hrd
    have hgo := State.fragmentArrival_eq hf hm hdst hrd
    refine ⟨fun c v h => exec_next_of_eq rfl (hgo.trans (State.fragArrive_fails h)), fun ps h hres => ?here, fun ps h hsp hres => ?berth⟩
    case here =>
      intro us a
      have hhere := hgo.trans (State.fragArrive_here h hres)
      refine ⟨fun hrest => exec_next_of_eq rfl (hhere.trans (if_pos hrest)), fun hall hop => exec_next_of_eq rfl ?_,
        fun op hall hop => exec_next_of_eq rfl ?_⟩
      · rw [hhere.trans (if_neg (Nat.not_lt.mpr hall)), hop, Option.elim_none]
      · rw [hhere.trans (if_neg (Nat.not_lt.mpr hall)), hop, Option.elim_some]
    case berth =>
      exact ⟨fun hop => exec_next_of_eq rfl (hgo.trans (State.fragArrive_waits h hsp hres hop)),
        fun hop => exec_next_of_eq rfl (hgo.trans (State.fragArrive_berths h hsp hres hop))⟩
  case ack =>
    have hack := State.fragmentAck_recorded hf hm hlink
    exact ⟨exec_next_of_eq rfl hack, fun hone hsid hsaved hwait hflag =>
      ⟨_, exec_next_of_eq rfl (hack.trans (State.fragOver_of_only (s := { s with nfree := s.nfree + 1 }) hf hone)),
        State.fragSettled_spec id hsid hsaved hwait hflag⟩⟩
end

section
/-! PROOF. What stops with a context leaves the shares on every die (for O55).

A context that enters ERROR stops its strands and its jobs, and then every die scans its shares. Where no die has a share, that scan does
nothing, if stopping brings none. Of all that stops only five functions change a die (`touchLeaf`, `State.charge`, `State.gangTidy`,
`State.setCrew` and `State.ctxStop`), and none of them its shares (`State.modDie_shares`). Each further function gets one lemma from those of the
functions that it calls: `f_dies` when it leaves the dies alone, `f_shares` when it changes them but for their shares. -/
namespace Sys2Proof.Machine

/-- The shares on each die. -/
def sharesOn (m : Store Die) (d : Nat) : List Share := (storeGet Die.reset m d).shares

/-- A change of a die that leaves its shares leaves those of every die. -/
theorem State.modDie_shares (s : State) (d : Nat) (f : Die → Die) (hf : ∀ x, (f x).shares = x.shares) :
    sharesOn (s.modDie d f).dies = sharesOn s.dies := by
  funext e
  show ((s.modDie d f).die e).shares = (s.die e).shares
  by_cases h : e = d
  · rw [h, State.die_modDie, hf]
  · rw [State.die_modDie_other _ _ _ _ h]

/-! ## Memory and strands -/

theorem State.modStrand_dies (s : State) (k : Nat) (f : Strand → Strand) : (s.modStrand k f).dies = s.dies := rfl
theorem State.modCtx_dies (s : State) (d t : Nat) (f : Ctx → Ctx) : (s.modCtx d t f).dies = s.dies := rfl
theorem State.modWin_dies (s : State) (d t n : Nat) (f : Win → Win) : (s.modWin d t n f).dies = s.dies := rfl
theorem State.modCore_dies (s : State) (c : Nat) (f : CoreSt → CoreSt) : (s.modCore c f).dies = s.dies := rfl
theorem State.scratchWrite_dies (s : State) (cs : List Host.Cell) : (s.scratchWrite cs).dies = s.dies := rfl
theorem State.wakePlain_dies (s : State) (k : Nat) : (s.wakePlain k).dies = s.dies := rfl
theorem State.renew_dies (s : State) (k : Nat) : (s.renew k).dies = s.dies := rfl
theorem State.publish_dies (s : State) (k x : Nat) : (s.publish k x).dies = s.dies := rfl
theorem State.publishWids_dies (s : State) (w : List Nat) (x : Nat) : (s.publishWids w x).dies = s.dies := rfl
theorem State.jam_dies (s : State) (f : Fault) : (s.jam f).dies = s.dies := rfl
theorem State.modJob_dies (s : State) (j : Nat) (f : Job → Job) : (s.modJob j f).dies = s.dies := rfl

theorem State.writeImage_dies (s : State) (k : Nat) : (s.writeImage k).dies = s.dies := by
  unfold State.writeImage
  dsimp only
  split
  · rfl
  · refine (foldl_keeps State.dies _ (fun _ _ => ?_) _ _).trans (foldl_keeps State.dies _ (fun _ _ => ?_) _ _)
    · rfl
    · rfl

theorem State.resave_dies (s : State) (k : Nat) : (s.resave k).dies = s.dies := by grind [State.resave, State.writeImage_dies]

theorem State.dropArea_dies (s : State) (k : Nat) : (s.dropArea k).dies = s.dies := by
  unfold State.dropArea
  cases (s.strand k).spill <;> cases (s.strand k).area <;> rfl

theorem State.performEls_dies (wr : Writer) (els : List (Nat × Nat × Nat)) (s : State) : (s.performEls wr els).dies = s.dies := by
  induction els generalizing s with
  | nil => rfl
  | cons e r ih => exact ih _

theorem State.homeWrite_dies (s : State) (wr : Writer) (els : List (Nat × Nat × Nat)) : (s.homeWrite wr els).dies = s.dies :=
  State.performEls_dies wr els s

theorem State.deviceWrite_dies (s : State) (die a : Nat) (bs : List Byte) (x : Nat) : (s.deviceWrite die a bs x).2.dies = s.dies :=
  State.homeWrite_dies _ _ _

theorem State.flagEvent_dies (s : State) (k n : Nat) (w : List Nat) : (s.flagEvent k n w).dies = s.dies := by
  grind [State.flagEvent, State.resave_dies, State.modStrand_dies, State.wakePlain_dies]

/-! ## Translations, charges and energy -/

theorem touchLeaf_shares (s : State) (die tcid va : Nat) (w : Bool) : sharesOn (touchLeaf s die tcid va w).dies = sharesOn s.dies := by
  unfold touchLeaf
  split
  · rfl
  · dsimp only
    split
    · rfl
    · exact State.modDie_shares _ _ _ fun _ => rfl

theorem touchEls_shares (s : State) (k : Nat) (acc : Acc) (space : Nat) (els : List El) :
    sharesOn (touchEls s k acc space els).dies = sharesOn s.dies := by
  induction els generalizing s with
  | nil => rfl
  | cons e r ih =>
    unfold touchEls
    split
    · rw [ih, touchLeaf_shares]
    · rw [ih, touchLeaf_shares]
    · rfl

theorem touchDest_shares (s : State) (w : Win) (dst : Dest') (acc : Acc) (els : List El) :
    sharesOn (touchDest s w dst acc els).dies = sharesOn s.dies := by
  induction els generalizing s with
  | nil => rfl
  | cons e r ih => grind [touchDest, touchLeaf_shares]

theorem State.charge_shares (s : State) (die tcid cls n : Nat) : sharesOn (s.charge die tcid cls n).dies = sharesOn s.dies := by
  unfold State.charge
  dsimp only
  split
  · rfl
  · rw [State.modCtx_dies]
    exact State.modDie_shares _ _ _ fun _ => rfl

theorem State.chargeHomes_shares (s : State) (die tcid : Nat) (as_ : List Nat) : sharesOn (s.chargeHomes die tcid as_).dies = sharesOn s.dies := by
  grind [State.chargeHomes, State.charge_shares]
theorem State.chargeAway_shares (s : State) (die tcid n : Nat) : sharesOn (s.chargeAway die tcid n).dies = sharesOn s.dies := by
  grind [State.chargeAway, State.charge_shares]
theorem State.chargeSend_shares (s : State) (die tcid w n : Nat) : sharesOn (s.chargeSend die tcid w n).dies = sharesOn s.dies := by
  grind [State.chargeSend, State.charge_shares]

theorem State.sendFault_shares (s : State) (k : Nat) (p : Pending) (pos ser : Nat) :
    sharesOn (s.sendFault k p pos ser).2.dies = sharesOn s.dies := by
  grind [State.sendFault, touchLeaf_shares, State.deviceWrite_dies, State.modCtx_dies, State.flagEvent_dies]
theorem State.toEnergy_shares (s : State) (k : Nat) : sharesOn (s.toEnergy k).dies = sharesOn s.dies := by
  grind [State.toEnergy, State.sendFault_shares, State.modCtx_dies, State.modStrand_dies]
theorem State.wake_shares (s : State) (k : Nat) : sharesOn (s.wake k).dies = sharesOn s.dies := by
  grind [State.wake, State.toEnergy_shares, State.wakePlain_dies]
theorem State.setFlag_shares (s : State) (k n : Nat) (w : List Nat) : sharesOn (s.setFlag k n w).dies = sharesOn s.dies := by
  grind [State.setFlag, State.toEnergy_shares, State.flagEvent_dies]
theorem State.gangTidy_shares (s : State) (die : Nat) : sharesOn (s.gangTidy die).dies = sharesOn s.dies :=
  State.modDie_shares _ _ _ fun _ => rfl

/-! ## Requests -/

theorem State.keepAway_dies (s : State) (k : Nat) (r : Req) (els : List El) (lost : Bool) : (s.keepAway k r els lost).dies = s.dies := rfl

theorem State.atomReturn_dies (s : State) (k : Nat) (r : Req) (v : Vec) : (s.atomReturn k r v).dies = s.dies := by
  grind [State.atomReturn, State.modStrand_dies, State.renew_dies]
theorem State.storeLeave_shares (s : State) (k : Nat) (r : Req) : sharesOn (s.storeLeave k r).dies = sharesOn s.dies := by
  grind [State.storeLeave, State.jam_dies, State.modStrand_dies, State.chargeAway_shares, State.chargeHomes_shares, touchEls_shares]
theorem State.storeHome_shares (s : State) (k : Nat) (r : Req) : sharesOn (s.storeHome k r).dies = sharesOn s.dies := by
  grind [State.storeHome, State.storeLeave_shares, State.homeWrite_dies, State.keepAway_dies, State.modStrand_dies]

theorem rmwEls_dies (wr : Writer) (scope : Nat) (scratch : Bool) (kind : ReqKind) (s : State) (ps : List (List Nat × El)) :
    (rmwEls wr scope scratch kind s ps).2.dies = s.dies := by
  induction ps generalizing s with
  | nil => rfl
  | cons p r ih => grind [rmwEls, State.scratchWrite_dies, State.homeWrite_dies]

theorem State.rmwHome_shares (s : State) (k : Nat) (r : Req) : sharesOn (s.rmwHome k r).dies = sharesOn s.dies := by
  grind [State.rmwHome, State.jam_dies, State.publish_dies, touchEls_shares, rmwEls_dies, State.chargeAway_shares, State.chargeHomes_shares,
    State.modStrand_dies, State.atomReturn_dies]

theorem State.keepMember_dies (s : State) (x : Xact) (m : Nat) (lost : Bool) : (s.keepMember x m lost).dies = s.dies :=
  State.keepMember_keeps State.dies (fun _ _ _ => rfl) s x m lost

theorem State.postXact_dies (s : State) (die tcid win sid rid core : Nat) (kind : ReqKind) (els : List El) (gang : Nat) (hnd : Option Nat)
    (units : Nat) : (s.postXact die tcid win sid rid core kind els gang hnd units).2.dies = s.dies := rfl

theorem State.sendXact_shares (s : State) (k : Nat) (r : Req) : sharesOn (s.sendXact k r).dies = sharesOn s.dies := by
  grind [State.sendXact, State.publish_dies, State.modStrand_dies, State.chargeSend_shares, State.postXact_dies,
    State.keepMember_dies, foldl_keeps State.dies]

theorem State.writeFlt_dies (s : State) (die tcid win : Nat) (c : Cause) (v : Word) : (s.writeFlt die tcid win c v).dies = s.dies := by
  grind [State.writeFlt, State.modWin_dies]
theorem State.partDrop_dies (s : State) (point : Option Nat) (die tcid : Nat) : (s.partDrop point die tcid).dies = s.dies := by
  cases point <;> rfl

theorem State.stopReq_shares (s : State) (k : Nat) (r : Req) : sharesOn (s.stopReq k r).dies = sharesOn s.dies := by
  grind [State.stopReq, State.modStrand_dies, State.sendXact_shares, State.storeHome_shares, State.rmwHome_shares]

/-! ## Copy jobs -/

theorem State.imagePut_dies (s : State) (sid : Option Nat) (off : Nat) (bs : List Byte) : (s.imagePut sid off bs).dies = s.dies := by
  cases sid <;> grind [State.imagePut, State.resave_dies, State.modStrand_dies]
theorem State.engineFill_dies (s : State) (k n id kind : Nat) (v : Word) : (s.engineFill k n id kind v).dies = s.dies := by
  grind [State.engineFill, State.resave_dies, State.modStrand_dies]
theorem State.engineDone_dies (s : State) (k id : Nat) : (s.engineDone k id).dies = s.dies := rfl
theorem State.jobWriteBack_shares (s : State) (j : Job) : sharesOn (s.jobWriteBack j).dies = sharesOn s.dies := by
  grind [State.jobWriteBack, State.scratchWrite_dies, State.imagePut_dies, touchLeaf_shares, State.deviceWrite_dies]
theorem State.jobEnd_shares (s : State) (jid status detail : Nat) : sharesOn (s.jobEnd jid status detail).dies = sharesOn s.dies := by
  grind [State.jobEnd, State.publishWids_dies, State.jobWriteBack_shares, State.setFlag_shares, State.engineDone_dies, State.engineFill_dies,
    foldl_keeps State.dies]
theorem jobTouch_shares (s : State) (j : Job) (acc : Acc) (r : Option Region) (p : Nat) : sharesOn (jobTouch s j acc r p).dies = sharesOn s.dies := by
  cases r <;> grind [jobTouch, touchLeaf_shares, touchDest_shares]
theorem State.jobPost_shares (s : State) (jid : Nat) (j : Job) (p : Nat) (r : Region) {t : State} (e : s.jobPost jid j p r = .ok t) :
    sharesOn t.dies = sharesOn s.dies := by
  grind [State.jobPost, State.chargeSend_shares, State.postXact_dies]
theorem State.jobWrite_shares (s : State) (jid : Nat) (j : Job) (p o v : Nat) {t : State} (e : s.jobWrite jid j p o v = .ok t) :
    sharesOn t.dies = sharesOn s.dies := by
  grind [State.jobWrite, State.jobPost_shares, State.imagePut_dies, jobTouch_shares, State.jam_dies, State.scratchWrite_dies, State.homeWrite_dies]
theorem State.chargeBlockAway_shares (s : State) (j : Job) (p : Nat) : sharesOn (s.chargeBlockAway j p).dies = sharesOn s.dies := by
  grind [State.chargeBlockAway, State.chargeAway_shares]
theorem State.jobStop_shares (s : State) (jid : Nat) (j : Job) (p : Nat) (c : Cause) (v : Word) (r : Option Region) :
    sharesOn (s.jobStop jid j p c v r).dies = sharesOn s.dies := by
  cases r <;> grind [State.jobStop, State.partDrop_dies, State.writeFlt_dies, State.jobEnd_shares]
theorem State.jobHave_shares (s : State) (jid : Nat) (j : Job) (p : Nat) (us : List (Nat × Nat)) :
    sharesOn (s.jobHave jid j p us).dies = sharesOn s.dies := by
  grind [State.jobHave, State.charge_shares, State.chargeBlockAway_shares, State.modJob_dies]
theorem State.jobFetch_shares (s : State) (jid : Nat) (j : Job) (p : Nat) : sharesOn (s.jobFetch jid j p).dies = sharesOn s.dies := by
  grind [State.jobFetch, State.jobHave_shares, jobTouch_shares, State.jobStop_shares, State.modJob_dies]
theorem State.jobStore_shares (s : State) (jid : Nat) (j : Job) (p : Nat) : sharesOn (s.jobStore jid j p).dies = sharesOn s.dies := by
  unfold State.jobStore
  split
  · rfl
  · dsimp only
    split
    · rw [State.jobStop_shares, jobTouch_shares]
    · next u _ _ hwrite =>
      have hw := State.jobWrite_shares _ _ _ _ _ _ hwrite
      split
      · exact hw
      · exact hw
theorem State.finishBlock_shares (jid n : Nat) (s : State) : sharesOn (State.finishBlock jid n s).dies = sharesOn s.dies := by
  induction n generalizing s with
  | zero => rfl
  | succ n ih => grind [State.finishBlock, State.jobFetch_shares, State.jobStore_shares]
theorem State.killJob_shares (s : State) (jid : Nat) : sharesOn (s.killJob jid).dies = sharesOn s.dies := by
  grind [State.killJob, State.finishBlock_shares, State.jobEnd_shares]

/-! ## Strands that stop -/

theorem State.setCrew_shares (s : State) (die tcid c : Nat) (x : Crew) : sharesOn (s.setCrew die tcid c x).dies = sharesOn s.dies :=
  State.modDie_shares _ _ _ fun _ => rfl
theorem State.crewWake_shares (s : State) (x : Crew) : sharesOn (s.crewWake x).dies = sharesOn s.dies := by
  refine foldl_keeps (fun s => sharesOn s.dies) _ (fun s k => ?_) _ _
  grind [State.renew_dies, State.modStrand_dies, State.wake_shares]
theorem State.crewSettle_shares (s : State) (die tcid c n : Nat) : sharesOn (s.crewSettle die tcid c n).dies = sharesOn s.dies := by
  induction n generalizing s with
  | zero => rfl
  | succ n ih => grind [State.crewSettle, State.crewWake_shares, State.setCrew_shares]
theorem State.leaveAll_shares (s : State) (k : Nat) : sharesOn (s.leaveAll k).dies = sharesOn s.dies := by
  refine foldl_keeps (fun s => sharesOn s.dies) _ (fun s e => ?_) _ _
  grind [State.setCrew_shares, State.crewSettle_shares]
theorem State.dropSlot_dies (s : State) (k : Nat) : (s.dropSlot k).dies = s.dies := by
  unfold State.dropSlot
  split
  · rfl
  · rfl
theorem State.freeCore_dies (s : State) (k : Nat) : (s.freeCore k).dies = s.dies := by
  grind [State.freeCore, State.modCore_dies, State.modStrand_dies]
theorem State.dropSteals_dies (s : State) (k : Nat) : (s.dropSteals k).dies = s.dies := rfl
theorem State.removeStrand_shares (s : State) (k : Nat) : sharesOn (s.removeStrand k).dies = sharesOn s.dies := by
  grind [State.removeStrand, State.leaveAll_shares, State.dropSlot_dies, State.dropSteals_dies, State.freeCore_dies, State.dropArea_dies,
    State.gangTidy_shares]
theorem State.giveUp_dies (s : State) (k : Nat) : (s.giveUp k).dies = s.dies := by
  grind [State.giveUp, State.modWin_dies, foldl_keeps State.dies]
theorem State.dropHandlers_dies (s : State) (k : Nat) : (s.dropHandlers k).dies = s.dies := rfl
theorem State.stopStrand_shares (s : State) (k : Nat) : sharesOn (s.stopStrand k).dies = sharesOn s.dies := by
  grind [State.stopStrand, State.killJob_shares, State.giveUp_dies, State.stopReq_shares, State.dropHandlers_dies, State.modCore_dies,
    State.removeStrand_shares, foldl_keeps (fun s => sharesOn s.dies)]

theorem State.ctxStop_shares (s : State) (die tcid : Nat) : sharesOn (s.ctxStop die tcid).dies = sharesOn s.dies := by
  have hstop := foldl_keeps (fun s => sharesOn s.dies) State.stopStrand State.stopStrand_shares (s.ctxStrands die tcid) s
  have hkill (u : State) (l : List (Nat × Job)) := foldl_keeps (fun s => sharesOn s.dies) (fun s (e : Nat × Job) => s.killJob e.1)
    (fun s e => State.killJob_shares s e.1) l u
  rw [State.ctxStop, State.modDie_shares]
  · exact (hkill _ _).trans hstop
  · exact fun _ => rfl

/-! ## A context in error (R322, R385) -/

/-- With no share on any die, no scan admits one. -/
theorem State.scanAll_of_no_shares {s : State} (h : ∀ e < 8, (s.die e).shares = []) : s.scanAll = s := by
  have hloop (d : Nat) (hd : d < 8) (n : Nat) : State.scanLoop d n s = s := by
    cases n with
    | zero => rfl
    | succ n =>
      have hwaits : (s.die d).waiting = [] := by simp [Die.waiting, h d hd]
      simp only [State.scanLoop, hwaits, State.admitFirst]
  have hround (l : List Nat) (hl : ∀ d ∈ l, d < 8) : l.foldl (fun s d => State.scanLoop d ((s.die d).shares.length + 1) s) s = s := by
    induction l with
    | nil => rfl
    | cons d r ih =>
      rw [List.foldl_cons, hloop d (hl d List.mem_cons_self)]
      exact ih fun e he => hl e (List.mem_cons_of_mem _ he)
  simp only [State.scanAll, State.scanRounds, hround _ (fun d hd => List.mem_range.mp hd), Nat.lt_irrefl, if_false]

/-- With no share on any die, a context in error is so after the scan too. -/
theorem State.ctxError_bind {s : State} (h : ∀ e < 8, (s.die e).shares = []) (d t : Nat) : ((s.ctxError d t).ctx d t).bind = .error := by
  have hnone : ∀ e < 8, (((s.ctxStop d t).modCtx d t (fun c => { c with bind := .error })).die e).shares = [] := fun e he =>
    (congrFun (State.ctxStop_shares s d t) e).trans (h e he)
  rw [State.ctxError, State.scanAll_of_no_shares hnone, State.ctx_modCtx]

end Sys2Proof.Machine
end

section
/-! PROOF. Services in RUN (O55).

Every service is `State.service` with its own change, so its answers are said once (`exec_service`). A restore and a CLEARUNC judge their session
in the same way (`Serving.accepted`), and then answer by themselves. What single changes do is one lemma for each case of their functions. -/
namespace Sys2Proof.Machine

/-! ## Commands in a session (R385, R408; log entry 33) -/

section
variable {s : State} {b : Bind}

/-- A command that is served finds its session, and its tenant's context in RUN. -/
theorem Serving.accepted (h : Serving s b) : ∃ x, s.secured b.die b.sess = some x ∧
    ¬(((s.heard b.die b.sess).ctx b.die b.tcid).bind ≠ .run ∨
      (s.heard b.die b.sess).tenantIdx x.requester ≠ some ((s.heard b.die b.sess).ctx b.die b.tcid).tenant) := by
  obtain ⟨x, hx, hrun, htenant⟩ := h
  exact ⟨x, hx, not_or.mpr ⟨not_not_intro hrun, not_not_intro htenant⟩⟩

/-- A service in RUN answers with its status; its change is made with status 0, and with 5, of a key that fails to install. -/
theorem State.service_of_serving (h : Serving s b) (f : State → Nat × Nat × State) : s.service b f =
    (let r := f (s.heard b.die b.sess)
     if r.1 = 0 ∨ r.1 = 5 then r.2.2.answer b r.1 r.2.1 else (s.heard b.die b.sess).answer b r.1 r.2.1) := by
  obtain ⟨x, hx, hgo⟩ := h.accepted
  simp only [State.service, hx, if_neg hgo]

theorem State.service_of_not_run (f : State → Nat × Nat × State) (h : (s.secured b.die b.sess).isSome = true)
    (hrun : (s.ctx b.die b.tcid).bind ≠ .run) : s.service b f = (s.heard b.die b.sess).answer b 1 0 := by
  obtain ⟨x, hx⟩ := Option.isSome_iff_exists.mp h
  have hstop : ((s.heard b.die b.sess).ctx b.die b.tcid).bind ≠ .run := hrun
  simp only [State.service, hx, if_pos (Or.inl hstop : _ ∨ _)]

theorem State.service_of_no_session (f : State → Nat × Nat × State) (h : s.secured b.die b.sess = none) : s.service b f = s := by
  simp only [State.service, h]

/-- The outcomes of an instruction that is a service. -/
theorem exec_service {i : Instr} {f : State → Nat × Nat × State} (hi : exec i s = .next (s.service b f)) :
    let h := s.heard b.die b.sess
    (Serving s b → (f h).1 = 0 ∨ (f h).1 = 5 → exec i s = .next ((f h).2.2.answer b (f h).1 (f h).2.1)) ∧
    (Serving s b → (f h).1 ≠ 0 → (f h).1 ≠ 5 → exec i s = .next (h.answer b (f h).1 (f h).2.1)) ∧
    ((s.secured b.die b.sess).isSome = true → (s.ctx b.die b.tcid).bind ≠ .run → exec i s = .next (h.answer b 1 0)) ∧
    (s.secured b.die b.sess = none → exec i s = .next s) := by
  intro h
  refine ⟨fun hs hok => exec_next_of_eq hi ?_, fun hs h0 h5 => exec_next_of_eq hi ?_,
    fun hsome hrun => exec_next_of_eq hi (State.service_of_not_run f hsome hrun),
    fun hnone => exec_next_of_eq hi (State.service_of_no_session f hnone)⟩
  · exact (State.service_of_serving hs f).trans (if_pos hok)
  · exact (State.service_of_serving hs f).trans (if_neg (not_or.mpr ⟨h0, h5⟩))

end

/-! ## Changes of single services (R405, R406, R408) -/

/-- A QCREATE with status 5 is one whose key has failed to install. -/
theorem State.qcreate_of_failed {s : State} {b : Bind} {q : QReq} (h : (s.qcreate b q).1 = 5) :
    (s.qcreate b q).2.2 = ({ s with nfree := s.nfree + 1 } : State).ctxError b.die b.tcid := by
  revert h
  unfold State.qcreate
  extract_lets _ _ free _ bad
  clear_value free bad
  split
  · exact fun h => absurd h (by simp)
  · split
    · exact fun h => absurd h (by simp)
    · split
      · exact fun h => absurd h (by simp)
      · extract_lets
        split
        · exact fun _ => rfl
        · exact fun h => absurd h (by simp)

theorem State.faultpolSet_valid (b : Bind) {p : Nat} (s : State) (h : p < 4) :
    State.faultpolSet b p s = (0, s.modCtx b.die b.tcid (fun c => { c with faultpol := p })) := by
  simp [State.faultpolSet, State.itemSet, inWord, h]

theorem State.faultpolSet_invalid (b : Bind) {p : Nat} (s : State) (h : 4 ≤ p) : State.faultpolSet b p s = (2, s) := by
  simp [State.faultpolSet, State.itemSet, h]

theorem State.unmapOne_of_none {s : State} {b : Bind} {va level : Nat} (h : tenantLeaf s b va level = none) :
    s.unmapOne b va level = (2, s) := by
  simp only [State.unmapOne, h]

/-- A page that is unmapped is listed no more. -/
theorem State.unmapOne_of_leaf {s : State} {b : Bind} {va level : Nat} {l : Leaf} (h : tenantLeaf s b va level = some l) :
    (s.unmapOne b va level).1 = 0 ∧
      ∀ g ∈ ((s.unmapOne b va level).2.ctx b.die b.tcid).pages, ¬(g.1 = va ∧ g.2.1 = level) := by
  simp only [State.unmapOne, h, State.ctx_modCtx, true_and]
  rintro g hg ⟨hva, hlevel⟩
  have hkept := (List.mem_filter.mp hg).2
  simp [hva, hlevel] at hkept

/-- Among one candidate more than there are used numbers, one is free. -/
theorem exists_free_handle (used : List Nat) (a : Nat) (h : used.length < 65536) :
    ∃ x, ((List.range (used.length + 1)).map (fun i => (a + i) % 65536)).find? (fun h => !used.contains h) = some x ∧ x < 65536 ∧ x ∉ used := by
  have hnodup : ((List.range (used.length + 1)).map (fun i => (a + i) % 65536)).Nodup := by
    refine List.pairwise_map.mpr (List.pairwise_lt_range.imp_of_mem fun {i j} hi hj hij => ?_)
    have hilt := List.mem_range.mp hi
    have hjlt := List.mem_range.mp hj
    omega
  cases hfind : ((List.range (used.length + 1)).map (fun i => (a + i) % 65536)).find? (fun h => !used.contains h) with
  | none =>
    have hsub : (List.range (used.length + 1)).map (fun i => (a + i) % 65536) ⊆ used := fun x hx => by
      simpa using List.find?_eq_none.mp hfind x hx
    have hle := hnodup.length_le_of_subset hsub
    rw [List.length_map, List.length_range] at hle
    omega
  | some x =>
    obtain ⟨i, -, hi⟩ := List.mem_map.mp (List.mem_of_find?_eq_some hfind)
    have hfree := List.find?_some hfind
    exact ⟨x, rfl, by omega, by simpa using hfree⟩

/-- A program that the verifier passes comes under a free handle. -/
theorem State.loadpilot_of_verified {s : State} {b : Bind} {w : List Nat} (h : pilotVerify (w.map (fun x => x % 2 ^ 32)) = none)
    (hroom : (s.die b.die).pilots.length < 65536) :
    ∃ x u, s.loadpilot b w = (0, x, u) ∧ x < 65536 ∧ x ∉ (s.die b.die).pilots.map (fun e => e.1) ∧ storeFind (u.die b.die).pilots x =
      some ⟨w.map (fun x => x % 2 ^ 32), pilotExt (w.map (fun x => x % 2 ^ 32)), b.tcid⟩ ∧ u.mem = s.mem := by
  obtain ⟨x, hfind, hlt, hfree⟩ := exists_free_handle ((s.die b.die).pilots.map (fun e => e.1)) (Config.pick s.nfree % 65536)
    (by rwa [List.length_map])
  have hgo : s.loadpilot b w = (0, x, ({ s with nfree := s.nfree + 1 } : State).modDie b.die (fun d =>
      { d with
        pilots := storeSet d.pilots x ⟨w.map (fun x => x % 2 ^ 32), pilotExt (w.map (fun x => x % 2 ^ 32)), b.tcid⟩
        measure := measureExt d.measure 4 (w.map (fun x => x % 2 ^ 32)) })) := by
    simp only [State.loadpilot, h, hfind]
  refine ⟨x, _, hgo, hlt, hfree, ?_, rfl⟩
  rw [State.die_modDie]
  exact storeFind_storeSet_same _ _ _

theorem State.loadpilot_of_refused {s : State} {b : Bind} {w : List Nat} {r n : Nat}
    (h : pilotVerify (w.map (fun x => x % 2 ^ 32)) = some (r, n)) : s.loadpilot b w = (2, r * 65536 + n, s) := by
  simp only [State.loadpilot, h]

section
variable {s : State} {b : Bind} {h : Nat} {p : Pilot} (hp : storeFind (s.die b.die).pilots h = some p)
include hp

theorem State.pdropHandle_other (ht : p.tcid ≠ b.tcid) : s.pdropHandle b h = (2, 0, s) := by
  simp only [State.pdropHandle, hp, if_pos ht]

/-- A program that a queue names stays. -/
theorem State.pdropHandle_used (ht : p.tcid = b.tcid) (hq : ∃ e ∈ (s.die b.die).queues, e.2.a.prog = h) :
    s.pdropHandle b h = (1, 0, s) := by
  have hany : (s.die b.die).queues.any (fun e => e.2.a.prog == h) = true := by simpa using hq
  simp only [State.pdropHandle, hp, ht, hany, ne_eq, not_true_eq_false, if_false, if_true]

theorem State.pdropHandle_free (ht : p.tcid = b.tcid) (hq : ∀ e ∈ (s.die b.die).queues, e.2.a.prog ≠ h) :
    s.pdropHandle b h = (0, 0, s.modDie b.die (fun d => { d with pilots := storeErase d.pilots h })) := by
  have hany : (s.die b.die).queues.any (fun e => e.2.a.prog == h) = false := by simpa using hq
  simp only [State.pdropHandle, hp, ht, hany, ne_eq, not_true_eq_false, Bool.false_eq_true, if_false]

end

theorem State.windowSet_of_busy {s : State} {b : Bind} {w : WinSet} (h : s.winBusy b.die b.tcid w.n = true) :
    s.windowSet b w = (1, 0, s) := by
  simp only [State.windowSet, h, if_true]

/-! ## Restore (R366, R367, R373, R408) -/

section
variable {s : State} {b : Bind} {n : Nat} (hs : Serving s b) (die : Nat) (rws : List Rewrite)
include hs

theorem State.restoreCommand_unknown (h : (s.heard b.die b.sess).bySerial b.die b.tcid n = none) :
    s.restoreCommand b n die rws = (s.heard b.die b.sess).answer b 2 0 := by
  obtain ⟨x, hx, hgo⟩ := hs.accepted
  simp only [State.restoreCommand, hx, if_neg hgo, h]

/-- The payloads are written first, and the restore's status is the answer. -/
theorem State.restoreCommand_found {k : Nat} (h : (s.heard b.die b.sess).bySerial b.die b.tcid n = some k) :
    s.restoreCommand b n die rws =
      (let r := (((s.heard b.die b.sess).modStrand k (fun t => t.rewrite rws)).resave k).restoreTo k die n
       r.2.answer b r.1 0) := by
  obtain ⟨x, hx, hgo⟩ := hs.accepted
  simp only [State.restoreCommand, hx, if_neg hgo, h]

end

/-! ## QRESET (R407, R408; log entry 28) -/

section
variable {s : State} {d t q n pq : Nat}

theorem State.qresetAt_none (h : 4096 ≤ q ∨ s.bellQueue d t q = none) : s.qresetAt d t q n = some (false, s) := by
  unfold State.qresetAt
  split
  · rfl
  · next hlt => rw [h.resolve_left hlt]

variable (hq : q < 4096) (hpq : s.bellQueue d t q = some pq)
include hq hpq

theorem State.qresetAt_free (hlane : (s.queue d pq).lane = none) :
    s.qresetAt d t q n = some (true, s.modQueue d pq (fun x => x.restart n)) := by
  simp [State.qresetAt, Nat.not_le.mpr hq, hpq, hlane]

/-- A queue that a lane serves is not restarted. -/
theorem State.qresetAt_served (hlane : (s.queue d pq).lane.isSome = true) : s.qresetAt d t q n = none := by
  simp [State.qresetAt, Nat.not_le.mpr hq, hpq, hlane]

end

/-- A session's time is not its die's queues. -/
theorem State.queue_heard (s : State) (die sess pq : Nat) : (s.heard die sess).queue die pq = s.queue die pq := by
  simp only [State.queue, State.heard, State.modSession, State.die_modDie]

/-- A command restarts a queue that no lane serves. -/
theorem State.qreset_free {s : State} {b : Bind} {q pq : Nat} (n : Nat) (hs : Serving s b) (hq : q < 4096)
    (hpq : s.bellQueue b.die b.tcid q = some pq) (hlane : (s.queue b.die pq).lane = none)
    (hheard : (s.heard b.die b.sess).bellQueue b.die b.tcid q = some pq) :
    s.qreset b q n none = ((s.heard b.die b.sess).modQueue b.die pq (fun x => x.restart n)).answer b 0 0 := by
  have hgo := State.qresetAt_free (n := n) hq hheard ((State.queue_heard ..).symm ▸ hlane)
  simp only [State.qreset, State.qresetAt_free hq hpq hlane, reduceCtorEq, if_false, State.service_of_serving hs, hgo, true_or, if_true]

/-- One that a lane serves waits. -/
theorem State.qreset_served {s : State} {b : Bind} {q pq : Nat} (n : Nat) (hq : q < 4096) (hpq : s.bellQueue b.die b.tcid q = some pq)
    (hlane : (s.queue b.die pq).lane.isSome = true) : s.qreset b q n none = s := by
  simp only [State.qreset, State.qresetAt_served hq hpq hlane, if_true]

section
variable {s : State} {k : Nat} (b : Bind) (q n : Nat) (hk : s.hailing k 5 = true)
include hk

theorem State.qreset_hail_none (h : 4096 ≤ ((s.strand k).rs 2).toNat ∨
    s.bellQueue (s.strand k).die (s.strand k).tcid ((s.strand k).rs 2).toNat = none) : s.qreset b q n (some k) = s.hailDone k 1 none := by
  simp [State.qreset, hk, State.qresetAt_none h]

theorem State.qreset_hail_free {pq : Nat} (hq : ((s.strand k).rs 2).toNat < 4096)
    (hpq : s.bellQueue (s.strand k).die (s.strand k).tcid ((s.strand k).rs 2).toNat = some pq)
    (hlane : (s.queue (s.strand k).die pq).lane = none) :
    s.qreset b q n (some k) =
      (s.modQueue (s.strand k).die pq (fun x => x.restart (((s.strand k).rs 3).toNat % 2 ^ 32))).hailDone k 0 none := by
  simp only [State.qreset, hk, Bool.true_eq_false, if_false, State.qresetAt_free hq hpq hlane, if_true]

end

/-! ## CLEARUNC (R294, R407; log entry 36) -/

/-- A command for a window that the context has begins its resynchronisation, or answers that a member has no path. -/
theorem State.clearunc_command {s : State} {b : Bind} {w : Nat} (hs : Serving s b) (hw : w < 16)
    (hwin : (storeFind (s.ctx b.die b.tcid).wins w).isSome = true) :
    s.clearunc b w none =
      (let r := (s.heard b.die b.sess).clearBegin b.die b.tcid w true
       if r.1 then r.2 else (s.heard b.die b.sess).answer b 4 0) := by
  obtain ⟨x, hx, hgo⟩ := hs.accepted
  have hknown : ¬(16 ≤ w ∨ (storeFind ((s.heard b.die b.sess).ctx b.die b.tcid).wins w).isNone = true) := by
    rintro (hge | hnone)
    · omega
    · have hwin' : (storeFind ((s.heard b.die b.sess).ctx b.die b.tcid).wins w).isSome = true := hwin
      rw [Option.isNone_iff_eq_none.mp hnone] at hwin'
      cases hwin'
  simp only [State.clearunc, hx, if_neg hgo, if_neg hknown]

section
variable {s : State} {k : Nat} (b : Bind) (w : Nat) (hk : s.hailing k 4 = true)
include hk

theorem State.clearunc_hail_unknown (h : 16 ≤ ((s.strand k).rs 2).toNat ∨
    (storeFind (s.ctx (s.strand k).die (s.strand k).tcid).wins ((s.strand k).rs 2).toNat).isNone = true) :
    s.clearunc b w (some k) = s.hailDone k 1 none := by
  simp only [State.clearunc, hk, Bool.true_eq_false, if_false, if_pos h]

theorem State.clearunc_hail_begins (hw : ((s.strand k).rs 2).toNat < 16)
    (hwin : (storeFind (s.ctx (s.strand k).die (s.strand k).tcid).wins ((s.strand k).rs 2).toNat).isSome = true)
    (hclear : ((s.ctx (s.strand k).die (s.strand k).tcid).win ((s.strand k).rs 2).toNat).clearing = false) :
    s.clearunc b w (some k) =
      (let r := s.clearBegin (s.strand k).die (s.strand k).tcid ((s.strand k).rs 2).toNat false
       if r.1 then r.2 else s.hailDone k 4 none) := by
  have hknown : ¬(16 ≤ ((s.strand k).rs 2).toNat ∨
      (storeFind (s.ctx (s.strand k).die (s.strand k).tcid).wins ((s.strand k).rs 2).toNat).isNone = true) := by
    rintro (hge | hnone)
    · omega
    · rw [Option.isNone_iff_eq_none.mp hnone] at hwin
      cases hwin
  simp only [State.clearunc, hk, Bool.true_eq_false, if_false, if_neg hknown, hclear, Bool.false_eq_true]

end

end Sys2Proof.Machine
end

section
open Sys2Proof Sys2Proof.Machine

/-- Settles O55: every service is `State.service` with its own change; each change is said by one lemma, and `State.ctxError_bind` says that the
context of a key that fails to install is in ERROR. -/
theorem serviceEvents : Obligations.ServiceEvents := by
  unfold Obligations.ServiceEvents
  refine ⟨fun s b i f hi => exec_service ?services, fun s b q h5 hnone => ?failedKey,
    fun s b p => ⟨State.faultpolSet_valid b s, State.faultpolSet_invalid b s⟩,
    fun s b va level => ⟨State.unmapOne_of_none, fun l => State.unmapOne_of_leaf⟩,
    fun s b w => State.loadpilot_of_verified, fun s b w r n => State.loadpilot_of_refused,
    fun s b h p hp => ⟨State.pdropHandle_other hp, State.pdropHandle_used hp, State.pdropHandle_free hp⟩,
    fun s b w => State.windowSet_of_busy,
    fun s b n die rws hs => ⟨fun h => exec_next_of_eq rfl (State.restoreCommand_unknown hs die rws h),
      fun k h => exec_next_of_eq rfl (State.restoreCommand_found hs die rws h)⟩,
    fun s b q n pq hq hpq => ⟨fun hlane hs hheard => exec_next_of_eq rfl (State.qreset_free n hs hq hpq hlane hheard),
      fun hlane => exec_next_of_eq rfl (State.qreset_served n hq hpq hlane)⟩,
    fun s b q n k hk h => exec_next_of_eq rfl (State.qreset_hail_none b q n hk h),
    fun s b q n k pq hk hq hpq hlane => exec_next_of_eq rfl (State.qreset_hail_free b q n hk hq hpq hlane),
    fun s b w hs hw hwin => exec_next_of_eq rfl (State.clearunc_command hs hw hwin),
    fun s b w k hk => ⟨fun h => exec_next_of_eq rfl (State.clearunc_hail_unknown b w hk h),
      fun hw hwin hclear => exec_next_of_eq rfl (State.clearunc_hail_begins b w hk hw hwin hclear)⟩⟩
  case services =>
    rcases hi with ⟨_, rfl, rfl⟩ | ⟨_, rfl, rfl⟩ | ⟨_, rfl, rfl⟩ | ⟨_, rfl, rfl⟩ | ⟨_, rfl, rfl⟩ | ⟨_, rfl, rfl⟩ | ⟨_, rfl, rfl⟩ |
      ⟨_, rfl, rfl⟩ | ⟨_, rfl, rfl⟩ | ⟨_, rfl, rfl⟩ | ⟨_, rfl, rfl⟩
    all_goals rfl
  case failedKey =>
    rw [State.qcreate_of_failed h5]
    exact State.ctxError_bind (s := { s with nfree := s.nfree + 1 }) hnone b.die b.tcid
end

section
/-! PROOF. The clock of a die and the reference clock (O42).

Each event that is due is one equation of its function; what it leaves of strands, contexts and slices is a read of a store after each entry
that meets a condition has changed (`storeGet_map_if`), or a change of one slice (`State.slices_modSlice`). -/
namespace Sys2Proof.Machine

/-! ## Parts of a store changed where a condition holds -/

/-- A store after each entry that meets a condition is changed: what is listed at a number depends on the entry there alone. -/
theorem storeFind_map_if {α : Type} (p : Nat → α → Prop) [∀ a v, Decidable (p a v)] (f : α → α) (m : Store α) (a : Nat) :
    storeFind (m.map (fun e => if p e.1 e.2 then (e.1, f e.2) else e)) a = (storeFind m a).map (fun v => if p a v then f v else v) := by
  induction m with
  | nil => rfl
  | cons e r ih =>
    have hkey : (if p e.1 e.2 then (e.1, f e.2) else e) = (e.1, if p e.1 e.2 then f e.2 else e.2) := by split <;> rfl
    rw [List.map_cons, hkey]
    by_cases h : a = e.1
    · subst h; simp [storeFind]
    · simp [storeFind, h, ih]

/-- The same for reads with a default: only a listed value is changed. -/
theorem storeGet_map_if {α : Type} (d : α) (p : Nat → α → Prop) [∀ a v, Decidable (p a v)] (f : α → α) (m : Store α) (a : Nat) :
    storeGet d (m.map (fun e => if p e.1 e.2 then (e.1, f e.2) else e)) a =
      if (storeFind m a).isSome ∧ p a (storeGet d m a) then f (storeGet d m a) else storeGet d m a := by
  rw [storeGet, storeFind_map_if, storeGet]
  cases storeFind m a with
  | none => simp
  | some v => simp

/-! ## The admission queue where none is admitted (R322) -/

theorem State.admitFirst_of_none_may (s : State) (d : Nat) {l : List Share} (h : ∀ x ∈ l, s.mayAdmit d x = false) :
    s.admitFirst d l = none := by
  induction l with
  | nil => rfl
  | cons x r ih =>
    simp only [State.admitFirst, h x List.mem_cons_self, Bool.false_eq_true, if_false]
    rw [ih fun y hy => h y (List.mem_cons_of_mem _ hy), ite_self]

/-- A scan admits only a waiting share that its context allows. -/
theorem State.scan_of_none_may {s : State} {d : Nat} (h : ∀ x ∈ (s.die d).waiting, s.mayAdmit d x = false) : s.scan d = s := by
  have hloop : State.scanLoop d ((s.die d).shares.length + 1) s = s := by
    rw [State.scanLoop, State.admitFirst_of_none_may s d h]
  simp only [State.scan, hloop, Nat.lt_irrefl, if_false]

theorem State.scan_of_no_shares {s : State} {d : Nat} (h : (s.die d).shares = []) : s.scan d = s :=
  State.scan_of_none_may (by simp [Die.waiting, h])

/-! ## Die clock cycles (R325, R327, R339) -/

theorem State.tokenGain_due {s : State} {d : Nat} (hcycle : (s.die d).cycle % 128 = 0) (hlast : (s.die d).lastGain ≠ (s.die d).cycle) :
    s.tokenGain d = s.modDie d (fun x => { x with lastGain := x.cycle, tokens := min 4 (x.tokens + 1) }) := if_pos ⟨hcycle, hlast⟩

/-- A gang with its boost one lower. -/
def Gang.decayed (g : Gang) : Gang := { g with boost := g.boost - 1 }

theorem State.boostDecay_due {s : State} {d : Nat} (hcycle : (s.die d).cycle % 256 = 0) (hlast : (s.die d).lastDecay ≠ (s.die d).cycle) :
    s.boostDecay d = (s.modDie d (fun x => { x with lastDecay := (s.die d).cycle, gangs := x.gangs.map Gang.decayed })).gangTidy d :=
  (if_pos ⟨hcycle, hlast⟩).trans (congrArg (State.gangTidy · d) (State.modDie_congr _ _ _ _ rfl))

/-- Tidying keeps some entries of the gang table, and every one that has a boost. -/
theorem State.mem_gangs_gangTidy {s : State} {d : Nat} {g : Gang} (h : g ∈ ((s.gangTidy d).die d).gangs) : g ∈ (s.die d).gangs := by
  rw [State.gangTidy, State.die_modDie] at h
  exact (List.mem_filter.mp h).1

theorem State.mem_gangTidy_of_boost {s : State} {d : Nat} {g : Gang} (h : g ∈ (s.die d).gangs) (hb : g.boost ≠ 0) :
    g ∈ ((s.gangTidy d).die d).gangs := by
  rw [State.gangTidy, State.die_modDie]
  exact List.mem_filter.mpr ⟨h, by simp [hb]⟩

/-! ## Memory slices (R340 to R342) -/

/-- The slices of a die after one of some die has changed. -/
theorem State.slices_modSlice (s : State) (x : Nat × Nat) (f : Slice → Slice) (d n : Nat) :
    ((s.modSlice x f).die d).slices[n]? = if d = x.1 ∧ n = x.2 then ((s.die d).slices[n]?).map f else (s.die d).slices[n]? := by
  by_cases hd : d = x.1
  · subst hd
    rw [State.modSlice, State.die_modDie]
    by_cases hn : n = x.2
    · simp [hn, Function.comp_def]
    · simp [hn, Function.comp_def]
  · rw [if_neg (fun h => hd h.1), State.modSlice, State.die_modDie_other _ _ _ _ hd]

theorem State.modSlice_strands (s : State) (x : Nat × Nat) (f : Slice → Slice) : (s.modSlice x f).strands = s.strands := rfl
theorem State.modSlice_ctxs (s : State) (x : Nat × Nat) (f : Slice → Slice) : (s.modSlice x f).ctxs = s.ctxs := rfl

/-- What the requests of a tenant leave of a slice: its POOL, weights and shrink level. -/
def Slice.settings (x : Slice) : Nat × Store Nat × Nat := (x.pool, x.weight, x.shrink)

theorem State.takeTokens_settings (s : State) (x : Nat × Nat) (tenant k d n : Nat) :
    (((s.takeTokens x tenant k).die d).slices[n]?).map Slice.settings = ((s.die d).slices[n]?).map Slice.settings := by
  rw [State.takeTokens, State.slices_modSlice]
  split
  · rw [Option.map_map]; rfl
  · rfl

/-- A reader of the state that no request for tokens reaches. -/
theorem State.jobDemands_keeps {α : Type} (g : State → α) (hg : ∀ s x t n, g (State.takeTokens s x t n) = g s) (s : State) (d : Nat) :
    g (s.jobDemands d) = g s := by
  refine foldl_keeps g _ (fun s e => foldl_keeps g _ (fun s x => ?_) _ s) _ s
  split
  · rfl
  · exact hg ..

theorem State.jobDemands_of_no_jobs {s : State} (h : s.jobs = []) (d : Nat) : s.jobDemands d = s := by
  simp [State.jobDemands, h]

/-- The die's slices once the requests that wait have been counted as presented (R341). -/
def State.presented (s : State) : State := (List.range 8).foldl (fun s d => s.jobDemands d) s

theorem State.presented_keeps {α : Type} (s : State) (g : State → α) (hg : ∀ s x t n, g (State.takeTokens s x t n) = g s) :
    g s.presented = g s := foldl_keeps g _ (fun s d => s.jobDemands_keeps g hg d) _ s

theorem State.presented_of_no_jobs {s : State} (h : s.jobs = []) : s.presented = s :=
  List.foldlRecOn _ _ (motive := (· = s)) rfl fun u hu d _ => by rw [hu, State.jobDemands_of_no_jobs h d]

/-- Presenting requests and changing a slice leave memory, strands and contexts. -/
theorem State.modSlice_presented_fields (s : State) (x : Nat × Nat) (f : Slice → Slice) : (s.presented.modSlice x f).mem = s.mem ∧
    (s.presented.modSlice x f).strands = s.strands ∧ (s.presented.modSlice x f).ctxs = s.ctxs := by
  rw [State.modSlice_mem, State.modSlice_strands, State.modSlice_ctxs]
  exact ⟨s.presented_keeps (·.mem) fun _ _ _ _ => rfl, s.presented_keeps (·.strands) fun _ _ _ _ => rfl,
    s.presented_keeps (·.ctxs) fun _ _ _ _ => rfl⟩

/-- A new window leaves a slice its settings, and no tenant has presented a request in it (R341). -/
theorem Slice.refill_spec (x : Slice) : x.refill.demand = [] ∧ x.refill.pool = x.pool ∧ x.refill.weight = x.weight ∧
    x.refill.shrink = x.shrink := ⟨rfl, rfl, rfl, rfl⟩

theorem State.sliceWindow_due {s : State} {d n : Nat} {x : Slice} (hx : (s.die d).slices[n]? = some x)
    (hcycle : (s.die d).cycle % 1024 = 0) (hlast : x.lastWindow ≠ (s.die d).cycle) :
    s.sliceWindow d n = s.presented.modSlice (d, n) (fun x => { x.refill with lastWindow := (s.die d).cycle }) := by
  simp only [State.sliceWindow, hx]
  exact if_pos ⟨hcycle, hlast⟩

/-- A block of 65,536 reads of a critical tenant is over (R342). -/
theorem Slice.adjust_spec {x : Slice} {m : Nat} (p : Nat) (hcrit : x.critical.contains m = true) (hreads : 65536 ≤ storeGet 0 x.reads m) :
    (x.adjust m p).bucket = x.bucket ∧ (x.adjust m p).weight = x.weight ∧
      storeGet 0 (x.adjust m p).reads m = storeGet 0 x.reads m - 65536 ∧
      (storeGet 0 x.target m < p → (x.adjust m p).shrink = min 7 (x.shrink + 1)) ∧
      (p ≤ storeGet 0 x.target m → (∀ c ∈ x.missed, c = m) → (x.adjust m p).shrink = x.shrink - 1) := by
  have hgo : ¬(x.critical.contains m = false ∨ storeGet 0 x.reads m < 65536) := by
    rw [hcrit, not_or]
    exact ⟨Bool.noConfusion, Nat.not_lt.mpr hreads⟩
  have hleft := storeGet_storePut_same 0 x.reads m (storeGet 0 x.reads m - 65536)
  have hothers (h : ∀ c ∈ x.missed, c = m) : x.missed.filter (fun t => t != m) = [] :=
    List.filter_eq_nil_iff.mpr fun c hc => by simp [h c hc]
  rw [Slice.adjust, if_neg hgo]
  generalize storeGet 0 x.reads m - 65536 = n at hleft ⊢
  generalize storePut 0 x.reads m n = r at hleft ⊢
  dsimp only
  by_cases hmiss : storeGet 0 x.target m < p
  · rw [if_pos hmiss]
    exact ⟨rfl, rfl, hleft, fun _ => rfl, fun h => absurd hmiss (Nat.not_lt.mpr h)⟩
  · rw [if_neg hmiss]
    refine ⟨?_, ?_, ?_, fun h => absurd h hmiss, fun _ h => by rw [hothers h]; rfl⟩
    · split <;> rfl
    · split <;> rfl
    · split <;> exact hleft

/-! ## The reference clock (R328, R332, R334, R336, R338) -/

/-- A tick: each resident strand of the die has one µs less (R332). -/
theorem State.remtTick_strand {s : State} {d : Nat} (h : (s.die d).remtAt < s.time) (k : Nat) :
    (s.remtTick d).strand k =
      if s.hasStrand k = true ∧ (s.strand k).die = d ∧ (s.strand k).resident = true then { s.strand k with remt := (s.strand k).remt - 1 }
      else s.strand k := by
  rw [State.remtTick, if_neg (Nat.not_le.mpr h)]
  exact storeGet_map_if Strand.reset (fun _ t => t.die = d ∧ t.resident = true) (fun t => { t with remt := t.remt - 1 }) s.strands k

theorem State.remtTick_fields (s : State) (d : Nat) : (s.remtTick d).mem = s.mem ∧ (s.remtTick d).ctxs = s.ctxs := by
  unfold State.remtTick
  split <;> exact ⟨rfl, rfl⟩

/-- The state in which a die scans after a refill: each bound context is refilled, a fairness window has begun,
and strands that have energy again are READY. -/
def State.refilled (s : State) (d : Nat) : State :=
  let s1 := s.modDie d (fun x => { x with refillAt := x.refillAt + 1000 })
  ((({ s1 with ctxs := s1.ctxs.map (fun e =>
    if e.1 / 1024 = d ∧ e.2.bound = true then (e.1, e.2.refilled (s.die d).recovering) else e) } : State).fairWindow d).energyReady d)

theorem State.energyRefill_due {s : State} {d : Nat} (hboot : (s.die d).boot = .inService) (hdue : (s.die d).refillAt + 1000 ≤ s.time) :
    s.energyRefill d = (s.refilled d).scan d :=
  if_neg (by simp only [hboot, ne_eq, not_true_eq_false, false_or]; omega)

theorem State.refilled_die (s : State) (d : Nat) : ((s.refilled d).die d).refillAt = (s.die d).refillAt + 1000 ∧
    ((s.refilled d).die d).bused = [] ∧ ((s.refilled d).die d).shares = (s.die d).shares := by
  simp only [State.refilled, State.energyReady, State.fairWindow]
  simp [State.die, State.modDie]

theorem Ctx.bound_reset : Ctx.reset.bound = false := rfl

/-- A bound context is refilled once. -/
theorem State.refilled_ctx {s : State} {d t : Nat} (ht : t < 1024) (hb : (s.ctx d t).bound = true) :
    (s.refilled d).ctx d t = (s.ctx d t).refilled (s.die d).recovering := by
  have hlisted : (storeFind s.ctxs (ctxKey d t)).isSome := by
    cases hfind : storeFind s.ctxs (ctxKey d t) with
    | some c => rfl
    | none => simp [State.ctx, storeGet, hfind, Ctx.bound_reset] at hb
  have hdie : ctxKey d t / 1024 = d := by unfold ctxKey; omega
  refine (storeGet_map_if Ctx.reset (fun a c => a / 1024 = d ∧ c.bound = true) (Ctx.refilled · (s.die d).recovering) s.ctxs
    (ctxKey d t)).trans ?_
  exact if_pos ⟨hlisted, hdie, hb⟩

/-- A strand in ENERGY whose context has energy after the refill is READY. -/
theorem State.refilled_strand {s : State} {d k : Nat} (hk : s.hasStrand k = true) (hdie : (s.strand k).die = d)
    (hst : (s.strand k).st = .energy) (hestop : ((s.refilled d).ctx d (s.strand k).tcid).estop = false) :
    (s.refilled d).strand k = { s.strand k with st := .ready, readySince := s.time } := by
  refine (storeGet_map_if Strand.reset (fun _ t => t.die = d ∧ t.st = .energy ∧ ((s.refilled d).ctx t.die t.tcid).estop = false)
    (fun t => { t with st := .ready, readySince := s.time }) s.strands k).trans ?_
  exact if_pos ⟨hk, hdie, hst, (congrArg (fun e => ((s.refilled d).ctx e (s.strand k).tcid).estop) hdie).trans hestop⟩

/-- CF stays between a half and two (R336). -/
theorem cfOf_range (e : Int) (n : Nat) : 512 ≤ cfOf e n ∧ cfOf e n ≤ 2048 := by
  unfold cfOf
  dsimp only
  split
  · omega
  · split
    · omega
    · omega

/-- A new charge interval begins (R336). -/
theorem State.reconcile_die {s : State} {d : Nat} (h : (s.die d).lastReconcile + 100 ≤ s.time) :
    (s.reconcile d).die d = { s.die d with
      lastReconcile := s.time, echg := 0
      cf := if (s.die d).echg = 0 then (s.die d).cf else cfOf ((Config.erail d s.nfree : Int) - Config.ebase d s.nfree) (s.die d).echg } := by
  rw [State.reconcile, if_neg (Nat.not_lt.mpr h), State.die_modDie]
  rfl

theorem State.reconcile_fields (s : State) (d : Nat) :
    (s.reconcile d).mem = s.mem ∧ (s.reconcile d).strands = s.strands ∧ (s.reconcile d).ctxs = s.ctxs := by
  unfold State.reconcile
  dsimp only
  split <;> exact ⟨rfl, rfl, rfl⟩

/-- The clock stays between 800 and 1,800 MHz (R338). -/
theorem clockStepOf_range (f p lim : Nat) (th : Bool) : 800 ≤ clockStepOf f p lim th ∧ clockStepOf f p lim th ≤ 1800 :=
  ⟨Nat.le_max_left .., Nat.max_le.mpr ⟨by decide, Nat.min_le_left ..⟩⟩

theorem State.clockStep_recovering {s : State} {d : Nat} (h : (s.die d).recovering = true) : s.clockStep d = s := if_pos (.inr h)

theorem State.clockStep_die {s : State} {d : Nat} (hdue : (s.die d).lastStep + 100 ≤ s.time) (hrec : (s.die d).recovering = false) :
    ∃ p lim, (s.clockStep d).die d = { s.die d with lastStep := s.time, clock := clockStepOf (s.die d).clock p lim (s.die d).thermal } := by
  have hgo : ¬(s.time < (s.die d).lastStep + 100 ∨ (s.die d).recovering = true) := by simp [hrec]; omega
  rw [State.clockStep, if_neg hgo, State.die_modDie]
  exact ⟨_, _, rfl⟩

theorem State.clockStep_fields (s : State) (d : Nat) :
    (s.clockStep d).mem = s.mem ∧ (s.clockStep d).strands = s.strands ∧ (s.clockStep d).ctxs = s.ctxs := by
  unfold State.clockStep
  dsimp only
  split <;> exact ⟨rfl, rfl, rfl⟩

end Sys2Proof.Machine
end

section
open Sys2Proof Sys2Proof.Machine

/-- Settles O42: each event that is due is the equation of its function; the parts it changes are said by one lemma each. -/
theorem clockEvents : Obligations.ClockEvents := by
  unfold Obligations.ClockEvents
  refine ⟨fun s d hcycle hlast => exec_next_of_eq rfl (State.tokenGain_due hcycle hlast), fun s d hcycle hlast => ?boost,
    fun s d n x hx hcycle hlast => ?window, fun s d n m p x hx hcrit hreads => ?shrink, fun s d hdue => ?remt,
    fun s d hboot hdue => ?refill, fun s d hdue => ?charge, fun s d hdue => ?clock⟩
  case boost =>
    refine ⟨_, exec_next_of_eq rfl (State.boostDecay_due hcycle hlast), rfl, rfl, rfl, fun g hg hboost => ?_, fun x hx => ?_⟩
    · refine State.mem_gangTidy_of_boost ?_ (show g.boost - 1 ≠ 0 by omega)
      rw [State.die_modDie]
      exact List.mem_map_of_mem (f := Gang.decayed) hg
    · have hmem := State.mem_gangs_gangTidy hx
      rw [State.die_modDie] at hmem
      obtain ⟨g, hg, rfl⟩ := List.mem_map.mp hmem
      exact ⟨g, hg, rfl⟩
  case window =>
    have hkeep := s.presented_keeps (fun s => ((s.die d).slices[n]?).map Slice.settings) fun s x t k => s.takeTokens_settings x t k d n
    simp only [hx, Option.map_some, Option.map_eq_some_iff] at hkeep
    obtain ⟨z, hz, hset⟩ := hkeep
    obtain ⟨hpool, hweight, hshrink⟩ : z.pool = x.pool ∧ z.weight = x.weight ∧ z.shrink = x.shrink := by
      simpa [Slice.settings] using hset
    obtain ⟨hdemand, hp, hw, hs⟩ := z.refill_spec
    obtain ⟨hmem, hstrands, hctxs⟩ := s.modSlice_presented_fields (d, n) (fun x => { x.refill with lastWindow := (s.die d).cycle })
    refine ⟨_, { z.refill with lastWindow := (s.die d).cycle }, exec_next_of_eq rfl (State.sliceWindow_due hx hcycle hlast), ?_,
      hmem, hstrands, hctxs, rfl, hdemand, hp.trans hpool, hw.trans hweight, hs.trans hshrink, fun hjobs => ?_⟩
    · rw [State.slices_modSlice, if_pos ⟨rfl, rfl⟩, hz, Option.map_some]
    · rw [State.presented_of_no_jobs hjobs, hx, Option.some.injEq] at hz
      rw [hz]
  case shrink =>
    refine ⟨_, x.adjust m p, rfl, ?_, rfl, rfl, Slice.adjust_spec p hcrit hreads⟩
    rw [State.slices_modSlice, if_pos ⟨rfl, rfl⟩, hx, Option.map_some]
  case remt =>
    obtain ⟨hmem, hctxs⟩ := s.remtTick_fields d
    refine ⟨_, rfl, hmem, hctxs, fun k hdie hres hk => ?_, fun k hout => ?_⟩
    · exact (State.remtTick_strand hdue k).trans (if_pos ⟨hk, hdie, hres⟩)
    · refine (State.remtTick_strand hdue k).trans (if_neg fun h => ?_)
      obtain ⟨-, hdie, hres⟩ := h
      simp [hdie, hres] at hout
  case refill =>
    obtain ⟨hat, hbused, hshares⟩ := s.refilled_die d
    refine ⟨s.refilled d, exec_next_of_eq rfl (State.energyRefill_due hboot hdue), rfl, hat, hbused, fun tc htc hb => ?_,
      fun k hk hdie hst hestop => State.refilled_strand hk hdie hst hestop, fun h => State.scan_of_no_shares (hshares.trans h)⟩
    rw [State.refilled_ctx htc hb]
    rfl
  case charge =>
    obtain ⟨hmem, hstrands, hctxs⟩ := s.reconcile_fields d
    refine ⟨_, rfl, ?_, ?_, fun h => ?_, fun h => ?_, hmem, hstrands, hctxs⟩
    · rw [State.reconcile_die hdue]
    · rw [State.reconcile_die hdue]
    · rw [State.reconcile_die hdue]
      exact if_pos h
    · rw [State.reconcile_die hdue]
      simp only [if_neg h]
      exact cfOf_range _ _
  case clock =>
    refine ⟨fun hrec => exec_next_of_eq rfl (State.clockStep_recovering hrec), fun hrec => ?_⟩
    obtain ⟨hmem, hstrands, hctxs⟩ := s.clockStep_fields d
    obtain ⟨p, lim, hdie⟩ := State.clockStep_die hdue hrec
    obtain ⟨hlo, hhi⟩ := clockStepOf_range (s.die d).clock p lim (s.die d).thermal
    exact ⟨_, rfl, by rw [hdie]; exact hlo, by rw [hdie]; exact hhi, by rw [hdie], hmem, hstrands, hctxs⟩
end

section
/-! PROOF. SPIN, switch requests, waiters, publication, steal messages and selection (O15, O43).

A selected strand is said by two functions, as its core begins to issue for it (`Strand.issuingAt`) and as it takes a handler
(`Strand.atHandler`). Handlers that ports hold may follow at that moment: they change a strand that is not waiting in its pending handlers
only (`State.SameButHq`). -/
namespace Sys2Proof.Machine

/-! ## SPIN (R346) -/

/-- A poll in time that finds the condition: the penalty and the poll count end, and the view is renewed (R222, R346). -/
theorem opSpin_run_hit (o : SpinOps) {s : State} {k : Nat} (h : Issues s k) (hc : (opSpin o s).Clear (s.strand k))
    (hover : spinOver s (s.strand k) = false) (htrue : spinTrue s o = true) :
    (opSpin o s).run s = .next ((s.modStrand k (fun t => { t with pen := false, polls := 0 })).renew k) := by
  rw [Op.run_clear _ h hc]
  simp only [opSpin, h.2, State.me_of_issues h, hover, htrue, State.spinHit, h.1, reduceCtorEq, Bool.false_eq_true, if_false, if_true]

/-! ## Switch requests (R331) -/

theorem State.switchRequest_raised {s : State} {c k : Nat} {p : Strand → List Nat → Bool} (hc : s.issuer c = some k)
    (hp : p (s.strand k) (s.readyFrames c) = true) : s.switchRequest c p = s.modStrand k (fun t => { t with stopRq := true }) := by
  simp only [State.switchRequest, hc]
  exact if_pos hp

/-! ## Waiters (R347) -/

theorem State.spinTimeout_due {s : State} {k u : Nat} (hst : (s.strand k).st = .waiting) (hwait : (s.strand k).wait = .spin u)
    (hdue : (s.strand k).waiterSince + 100 ≤ s.time) :
    s.spinTimeout k = s.modStrand k (fun t => { t with st := .ready, readySince := s.time }) := by
  simp only [State.spinTimeout, hst, hwait]
  exact if_pos hdue

/-! ## A PHASE whose waits are over (R222, R232, R233, R291) -/

/-- The completion records of a PHASE are words of windows: no strand and no home order changes. -/
theorem State.writeComp_keeps {α : Type} (g : State → α) (hg : ∀ s d t f, g (State.modCtx s d t f) = g s) (s : State) (k x : Nat) :
    g (s.writeComp k x) = g s := foldl_keeps g _ (fun _ _ => hg ..) _ s

/-- What reaches a core is said by the home orders. -/
theorem State.reaching_congr {s t : State} (h : t.hist = s.hist) (c : Nat) : t.reaching c = s.reaching c := by
  rw [State.reaching, State.reaching, h]

theorem State.phaseDone_hist (s : State) (k x b a : Nat) : (s.phaseDone k x b a).hist = (s.publish k x).hist :=
  (s.publish k x).writeComp_keeps (·.hist) (fun _ _ _ _ => rfl) k x

/-- The strand of a PHASE whose waits are over: its view is renewed after the publication, and the PHASE's causes are due. -/
theorem State.phaseDone_strand (s : State) (k x b a : Nat) :
    ((s.phaseDone k x b a).strand k).st = (s.strand k).st ∧ ((s.phaseDone k x b a).strand k).parked = (s.strand k).parked ∧
      ((s.phaseDone k x b a).strand k).view = viewAdd (s.strand k).view ((s.publish k x).reaching (s.strand k).core) ∧
      ((s.phaseDone k x b a).strand k).causes = (s.strand k).causes ++ phaseCauses s k x a := by
  have hstrand : ((s.publish k x).writeComp k x).strand k = s.strand k :=
    State.strand_congr ((s.publish k x).writeComp_keeps (·.strands) (fun _ _ _ _ => rfl) k x) k
  have hreach := State.reaching_congr ((s.publish k x).writeComp_keeps (·.hist) (fun _ _ _ _ => rfl) k x) (s.strand k).core
  rw [State.phaseDone, State.strand_modStrand, State.renew, State.strand_modStrand, hstrand, hreach]
  exact ⟨rfl, rfl, rfl, rfl⟩

/-- A waiting strand that did not park is READY when it wakes (R324). -/
theorem State.wake_of_not_parked {s : State} {k : Nat} (hst : (s.strand k).st = .waiting) (hpark : (s.strand k).parked = false) :
    s.wake k = s.modStrand k (fun t => { t with st := .ready, readySince := s.time }) := by
  have hplain : s.wakePlain k = s.modStrand k (fun t => { t with st := .ready, readySince := s.time }) :=
    State.modStrand_congr _ _ _ _ (by simp [hst, hpark])
  rw [State.wake, hplain]
  refine if_neg fun h => ?_
  simp at h

theorem State.phaseComplete_ready {s : State} {k x b a : Nat} (hst : (s.strand k).st = .waiting) (hwait : (s.strand k).wait = .phase x b a)
    (hready : phaseReady s k x b = true) (hpark : (s.strand k).parked = false) :
    s.phaseComplete k = (s.phaseDone k x b a).modStrand k
      (fun t => { t with wait := .none, st := .ready, readySince := (s.phaseDone k x b a).time }) := by
  obtain ⟨hst', hpark', -, -⟩ := s.phaseDone_strand k x b a
  simp only [State.phaseComplete, hwait, hready, if_true]
  rw [State.wake_of_not_parked, State.modStrand_modStrand]
  · rfl
  · rw [State.strand_modStrand]; exact hst'.trans hst
  · rw [State.strand_modStrand]; exact hpark'.trans hpark

/-! ## Steal messages (R43, R352) -/

section
variable {s : State} {id : Nat} {m : Steal} (hm : storeFind s.steals id = some m)
include hm

/-- A request that comes back: there is nothing left to steal. -/
theorem State.stealRequest_back (hgrant : m.grant = none) (h : m.dst = m.from_) : s.stealRequest id =
    (({ s with steals := storeErase s.steals id } : State).modStrand m.from_
      (fun t => { t with range := { t.range with exhausted := true, outstanding := false } })).resave m.from_ := by
  simp only [State.stealRequest, hm, hgrant]
  exact if_pos h

theorem State.stealRequest_kept (hgrant : m.grant = none) (h : m.dst ≠ m.from_) (hpass : passesOn (s.strand m.dst) = false) :
    s.stealRequest id = (({ s with steals := storeErase s.steals id } : State).modStrand m.dst
      (fun t => { t with range := { t.range with slot := some m.from_ } })).resave m.dst := by
  simp only [State.stealRequest, hm, hgrant]
  rw [if_neg h]
  exact if_neg (Bool.not_eq_true _ ▸ hpass)

theorem State.stealRequest_passed (hgrant : m.grant = none) (h : m.dst ≠ m.from_) (hpass : passesOn (s.strand m.dst) = true) :
    s.stealRequest id = ({ s with steals := storeErase s.steals id } : State).sendMsg ⟨m.from_, s.ringSucc m.dst, none⟩ := by
  simp only [State.stealRequest, hm, hgrant]
  rw [if_neg h]
  exact if_pos hpass

theorem State.stealGrant_taken {a b : Nat} (hgrant : m.grant = some (a, b)) (hk : s.hasStrand m.dst = true) :
    s.stealGrant id = (({ s with steals := storeErase s.steals id } : State).modStrand m.dst
      (fun t => { t with range := { t.range with next := a, limit := b, outstanding := false } })).resave m.dst := by
  simp only [State.stealGrant, hm, hgrant]
  exact if_pos hk

end

/-! ## Selection (R37, R330) -/

/-- An idle core selects the frame of R330, if there is one. -/
theorem State.strandSelect_idle {s : State} {c : Nat} (hfrozen : (s.core c).frozen = false) (hidle : (s.core c).issuing = none) :
    s.strandSelect c = (s.choose c).elim s (s.selectFrame c) := by
  simp only [State.strandSelect, hidle, State.select, hfrozen, Bool.false_eq_true, Option.isSome_none, or_self, if_false]
  cases s.choose c <;> rfl

/-- The one READY frame of a core is the frame of R330, whether it is starved or not. -/
theorem State.choose_only {s : State} {c f k : Nat} (hframes : (s.core c).frames = [(f, k)]) (hst : (s.strand k).st = .ready) :
    s.choose c = some (f, k) := by
  by_cases hstarved : (s.strand k).readySince + 90 ≤ s.time
  · have h : s.starved c = some (f, k) := by simp [State.starved, hframes, hst, hstarved]
    rw [State.choose, h]
  · have h : s.starved c = none := by simp [State.starved, hframes, hstarved]
    have he : s.eligible c = [(f, k)] := by simp [State.eligible, hframes, hst]
    simp only [State.choose, h, he]
    rfl

/-- A strand as its core begins to issue for it. -/
def Strand.issuingAt (t : Strand) (now : Nat) : Strand :=
  { t with st := .issuing, parked := false, tested := false, polls := 0, selectedAt := now, selectedIcyc := t.icyc }

/-- A core that issues for a strand of one of its frames. -/
def State.issueFor (s : State) (c f k : Nat) : State :=
  ((s.modCore c (fun x => { x with lastFrame := f, bank := 0, skipRun := false })).modCore c (fun x => { x with issuing := some k })).modStrand k
    (Strand.issuingAt · s.time)

theorem State.issueFor_core (s : State) (c f k : Nat) :
    ((s.issueFor c f k).core c).issuing = some k ∧ ((s.issueFor c f k).core c).lastFrame = f := by
  simp [State.issueFor]

@[simp] theorem State.issueFor_strand (s : State) (c f k : Nat) : (s.issueFor c f k).strand k = (s.strand k).issuingAt s.time := by
  simp [State.issueFor]

section
variable {s : State} {c f k : Nat} (hst : (s.strand k).st = .ready) (hdrain : (s.strand k).drain = none) (hcauses : (s.strand k).causes = [])
include hst hdrain hcauses

/-- With no wait, no cause and no handler, the strand goes on. -/
theorem State.selectFrame_goesOn (hq : (s.strand k).hq = []) (hwait : (s.strand k).wait = .none) :
    s.selectFrame c (f, k) = s.issueFor c f k := by
  simp only [State.selectFrame, hst, hdrain, hcauses, hq, hwait, reduceCtorEq, if_false, Option.isSome_none, Bool.false_eq_true,
    List.isEmpty_nil, Bool.not_true, Bool.false_and]
  rfl

/-- A handler that is due is taken before the strand's own bundle, once no empty cycle is owed (R37). -/
theorem State.selectFrame_handler {h : HArr} {r : List HArr} (hq : (s.strand k).hq = h :: r) (hsave : (s.strand k).hsave = none)
    (hres : (s.strand k).residue = 0) : s.selectFrame c (f, k) = (s.issueFor c f k).takeHandler k := by
  simp only [State.selectFrame, hst, hdrain, hcauses, hq, hsave, hres, reduceCtorEq, if_false, Option.isSome_none, Option.isNone_none,
    Bool.false_eq_true, List.isEmpty_nil, List.isEmpty_cons, Bool.not_true, Bool.not_false, Bool.and_self, if_true]
  rfl

end

/-! ## Handlers that ports hold (R35, R36) -/

/-- A state in which strand k has the same values but for its pending handlers, and the cores have the same. -/
def State.SameButHq (s t : State) (k : Nat) : Prop := t.cores = s.cores ∧ ∃ q, t.strand k = { s.strand k with hq := q }

theorem State.SameButHq.refl (s : State) (k : Nat) : s.SameButHq s k := ⟨rfl, (s.strand k).hq, rfl⟩

theorem State.SameButHq.trans {s t u : State} {k : Nat} (h : s.SameButHq t k) (h' : t.SameButHq u k) : s.SameButHq u k := by
  obtain ⟨hcores, q, hk⟩ := h
  obtain ⟨hcores', q', hk'⟩ := h'
  exact ⟨hcores'.trans hcores, q', by rw [hk', hk]⟩

/-- A handler queued at some strand is pending there; a strand that is not waiting changes no further. -/
theorem State.queueHandler_sameButHq {s : State} {k : Nat} (h : (s.strand k).st ≠ .waiting) (j e : Nat) (w : List WKey) :
    s.SameButHq (s.queueHandler j e w) k := by
  refine ⟨rfl, ?_⟩
  by_cases hj : k = j
  · subst hj
    exact ⟨(s.strand k).hq ++ [⟨e, w⟩], by rw [State.queueHandler, State.strand_modStrand, if_neg h]⟩
  · exact ⟨(s.strand k).hq, by rw [State.queueHandler, State.strand_modStrand_other _ _ _ _ hj]⟩

theorem State.handlerArrive_sameButHq {s t : State} {k : Nat} (h : (s.strand k).st ≠ .waiting) {d tc n : Nat} {w : List WKey}
    (e : s.handlerArrive d tc n w = some t) : s.SameButHq t k := by
  unfold State.handlerArrive at e
  split at e
  · obtain rfl := Option.some.inj e
    exact State.SameButHq.refl s k
  · split at e
    · cases e
    · obtain rfl := Option.some.inj e
      exact State.queueHandler_sameButHq h ..

/-- The handlers that ports hold reach a strand that is not waiting as pending ones only. -/
theorem State.portRetry_sameButHq {s : State} {k : Nat} (h : (s.strand k).st ≠ .waiting) : s.SameButHq s.portRetry k := by
  refine List.foldlRecOn s.portHeld _ (motive := s.SameButHq (k := k)) (State.SameButHq.refl s k) fun u hu x _ => ?_
  obtain ⟨-, q, hk⟩ := id hu
  split
  · next t ht => exact hu.trans (State.handlerArrive_sameButHq (by rw [hk]; exact h) ht)
  · exact hu

/-- A strand as it takes its first pending handler: the entry bundle is due after the two empty cycles of a transfer, and what the handler
interrupts is saved (R37, R168). -/
def Strand.atHandler (t : Strand) (h : HArr) (r : List HArr) : Strand :=
  { t with
    hsave := some ⟨t.pos, t.ldepth, t.preg, t.floor, t.held, t.wait, []⟩
    hq := r, wait := .none, pos := h.entry, bres := 2, next := .known, floor := t.ldepth, hndDue := false, view := viewAdd t.view h.wids }

theorem State.takeHandler_of_cons {s : State} {k : Nat} {h : HArr} {r : List HArr} (hq : (s.strand k).hq = h :: r) :
    s.takeHandler k = (s.modStrand k (Strand.atHandler · h r)).portRetry :=
  congrArg State.portRetry (State.modStrand_congr _ _ _ _ (by simp only [hq]; rfl))

theorem State.takeHandler_spec {s : State} {k : Nat} {h : HArr} {r : List HArr} (hq : (s.strand k).hq = h :: r)
    (hst : (s.strand k).st ≠ .waiting) :
    (s.takeHandler k).cores = s.cores ∧ ∃ q, (s.takeHandler k).strand k = { (s.strand k).atHandler h r with hq := q } := by
  rw [State.takeHandler_of_cons hq]
  obtain ⟨hcores, q, hk⟩ := State.portRetry_sameButHq (k := k) (s := s.modStrand k (Strand.atHandler · h r))
    (by rw [State.strand_modStrand]; exact hst)
  exact ⟨hcores, q, by rw [hk, State.strand_modStrand]⟩

end Sys2Proof.Machine
end

section
open Sys2Proof Sys2Proof.Machine

/-- Settles O15: a SPIN that is clear to issue polls once, and in time the poll that finds its condition ends the attempt (`opSpin_run_hit`). -/
theorem spinCompletes : Obligations.SpinCompletes := by
  unfold Obligations.SpinCompletes
  exact fun o s k h hc hover htrue => opSpin_run_hit o h hc hover htrue

/-- Settles O43: each event in its case is one equation; a PHASE's strand is said by `State.phaseDone_strand`, a selected one by
`State.issueFor_strand` and `State.takeHandler_spec`. -/
theorem strandEvents : Obligations.StrandEvents := by
  unfold Obligations.StrandEvents
  refine ⟨fun s c k hc => ⟨fun hdue hready => ?quantum, fun hstarved => ?starvation, fun hdue hprio => ?priority⟩,
    fun s k u hst hwait hdue => exec_next_of_eq rfl (State.spinTimeout_due hst hwait hdue), fun s k x b a hst hwait hready hpark => ?phase,
    fun s id m hm => ?steal, fun s c f k hfrozen hidle => ?select⟩
  case quantum => exact exec_next_of_eq rfl (State.switchRequest_raised hc (by simpa using ⟨hdue, hready⟩))
  case starvation => exact exec_next_of_eq rfl (State.switchRequest_raised hc (by simpa using hstarved))
  case priority => exact exec_next_of_eq rfl (State.switchRequest_raised hc (by simpa using ⟨hdue, hprio⟩))
  case phase =>
    obtain ⟨-, -, hview, hcauses⟩ := s.phaseDone_strand k x b a
    refine ⟨_, exec_next_of_eq rfl (State.phaseComplete_ready hst hwait hready hpark), ?_, ?_, s.phaseDone_mem k x b a,
      s.phaseDone_hist k x b a, ?_, ?_⟩
    · rw [State.strand_modStrand]
    · rw [State.strand_modStrand]
    · rw [State.strand_modStrand]; exact hview
    · rw [State.strand_modStrand]; exact hcauses
  case steal =>
    exact ⟨fun hgrant h => exec_next_of_eq rfl (State.stealRequest_back hm hgrant h),
      fun hgrant h hpass => exec_next_of_eq rfl (State.stealRequest_kept hm hgrant h hpass),
      fun hgrant h hpass => exec_next_of_eq rfl (State.stealRequest_passed hm hgrant h hpass),
      fun a b hgrant hk => exec_next_of_eq rfl (State.stealGrant_taken hm hgrant hk)⟩
  case select =>
    have hidle' := State.strandSelect_idle hfrozen hidle
    refine ⟨fun hnone => exec_next_of_eq rfl (by rw [hidle', hnone]; rfl), State.choose_only, fun hf hst hdrain hcauses => ?_⟩
    rw [hf] at hidle'
    obtain ⟨hissuing, hlast⟩ := s.issueFor_core c f k
    refine ⟨fun hq hwait => ?goesOn, fun h r hq hsave hres => ?handler⟩
    case goesOn =>
      exact ⟨_, exec_next_of_eq rfl (hidle'.trans (State.selectFrame_goesOn hst hdrain hcauses hq hwait)), hissuing, hlast, rfl,
        s.issueFor_strand c f k⟩
    case handler =>
      have hk := s.issueFor_strand c f k
      obtain ⟨hcores, q, htaken⟩ := State.takeHandler_spec (s := s.issueFor c f k) (k := k) (h := h) (r := r) (by rw [hk]; exact hq)
        (by rw [hk]; exact FState.noConfusion)
      rw [hk] at htaken
      exact ⟨_, exec_next_of_eq rfl (hidle'.trans (State.selectFrame_handler hst hdrain hcauses hq hsave hres)),
        by rw [State.core, hcores]; exact hissuing, congrArg Strand.st htaken, congrArg Strand.pos htaken, congrArg Strand.bres htaken,
        congrArg Strand.floor htaken, congrArg Strand.hsave htaken⟩
end

section
/-! PROOF. Shares, rows, release, retirement and pre-emption (O46).

A strand that retires leaves its crews, its steal messages and its core. On the way to its core nothing moves any strand from its frame or
takes one from the list (`State.KeepsFrames`): each function of that part gets one lemma, `f_keepsFrames`, from those that it calls. -/
namespace Sys2Proof.Machine

/-! ## Shares that arrive and reserve (R320, R322) -/

theorem State.shareArrival_due {s : State} {d lid : Nat} (h : (s.die d).shares.any (fun h => h.lid == lid && h.st == .arriving) = true) :
    s.shareArrival d lid = (s.modDie d (fun x => { x with
      shares := x.shares.filter (fun h => h.lid != lid) ++ (x.shares.filter (fun h => h.lid == lid)).map (fun h => { h with
        st := .queued, since := s.time
        seen := s.hist.flatMap (fun e => e.2.ws.filterMap (fun w => w.pub.map (fun x => ((w.wid, e.1), x, w.core)))) }) })).scan d := if_pos h

theorem State.shareReserve_due {s : State} {d lid : Nat}
    (h : (s.die d).shares.any (fun h => h.lid == lid && h.st == .queued && decide (h.since + 100 ≤ s.time)) = true) :
    s.shareReserve d lid = (s.modShare d lid (fun h => { h with st := .reserving, nextCheck := s.time })).scan d := if_pos h

/-! ## Rows (R28, R45, R366) -/

/-- Loading rows changes the rows of its core alone. -/
theorem State.loadRows_eq {s u : State} {c tc im : Nat} (h : s.loadRows c tc im = some u) : ∃ f, u = s.modCore c f := by
  unfold State.loadRows at h
  dsimp only at h
  split at h
  · cases h
  · exact ⟨_, (Option.some.inj h).symm⟩

theorem State.rowLoadComplete_loaded {s u : State} {k : Nat} (hst : (s.strand k).st = .filling) (hplace : (s.strand k).place.isSome = true)
    (hload : s.loadRows (s.strand k).core (s.strand k).tcid (s.strand k).image = some u) : ∃ f g,
    s.rowLoadComplete k =
      if (s.strand k).saveKind.isSome then ((s.modCore (s.strand k).core f).modDie (s.strand k).die g).proceed k
      else ((s.modCore (s.strand k).core f).modDie (s.strand k).die g).modStrand k (fun t => { t with st := .held }) := by
  obtain ⟨f, rfl⟩ := State.loadRows_eq hload
  have hgo : ¬((s.strand k).st ≠ .filling ∨ (s.strand k).place = none) := by
    rw [hst, not_or]
    exact ⟨fun h => h rfl, fun h => by simp [h] at hplace⟩
  refine ⟨f, fun x => x.gangAlloc (s.strand k).gang (s.ctx (s.strand k).die (s.strand k).tcid).tenant, ?_⟩
  rw [State.rowLoadComplete]
  simp only [if_neg hgo, hload]
  rfl

/-- A strand whose refused accesses are made again waits for none of them any more. -/
theorem State.replay_strand (s : State) (k : Nat) : ∃ rs, (s.replay k).strand k = { s.strand k with reqs := rs } := by
  have hwins (l : List (Nat × Nat × Nat)) (u : State) :
      (l.foldl (fun s w => s.modWin w.1 w.2.1 w.2.2 (fun w => { w with refusing := none })) u).strands = u.strands :=
    foldl_keeps State.strands _ (fun _ _ => by rfl) l u
  refine ⟨(s.strand k).reqs.map (fun r => { r with held := false, replay := r.replay || r.held, flt := none }), ?_⟩
  rw [State.replay, State.strand_modStrand]
  rw [State.strand_congr (hwins _ _)]
  rfl

theorem State.replay_time (s : State) (k : Nat) : (s.replay k).time = s.time := foldl_keeps State.time _ (fun _ _ => by rfl) _ _

/-- A restored strand that neither was retiring nor parked is READY (R366). -/
theorem State.proceed_spec {s : State} {k : Nat} (hretiring : (s.strand k).wasRetiring = false) (hpark : (s.strand k).parked = false) :
    ((s.proceed k).strand k).st = .ready ∧ ((s.proceed k).strand k).saveKind = none ∧ ((s.proceed k).strand k).readySince = s.time ∧
      (s.proceed k).mem = s.mem := by
  obtain ⟨rs, hk⟩ := s.replay_strand k
  have hready : s.proceed k = (s.replay k).modStrand k (fun t => { t with
      saveKind := none, osCause := none, wasRetiring := false, runCount := 0, resumed := true, st := .ready, readySince := s.time }) := by
    simp only [State.proceed, hretiring, Bool.false_eq_true, if_false, State.toReady, State.strand_modStrand, hk, hpark, Bool.false_and,
      State.modStrand_modStrand]
    rw [← s.replay_time k]
    rfl
  rw [hready, State.strand_modStrand]
  exact ⟨rfl, rfl, rfl, s.replay_mem k⟩

/-! ## Several strands changed alike -/

section
variable {α : Type} {F : State → Strand → Strand} (hF : ∀ s k g, F (State.modStrand s k g) = F s) (hidem : ∀ s t, F s (F s t) = F s t)
include hF hidem

/-- Changing strands one after another by a change that is the same throughout, and that made twice is made once. -/
theorem State.strand_foldl_modStrand (key : α → Nat) (l : List α) (s : State) (j : Nat) :
    (l.foldl (fun s y => s.modStrand (key y) (F s)) s).strand j = if j ∈ l.map key then F s (s.strand j) else s.strand j := by
  induction l generalizing s with
  | nil => simp
  | cons y r ih =>
    rw [List.foldl_cons, ih, hF]
    by_cases hj : j = key y
    · subst hj
      simp only [State.strand_modStrand, hidem, ite_self, List.map_cons, List.mem_cons_self, if_true]
    · simp only [State.strand_modStrand_other _ _ _ _ hj, List.map_cons, List.mem_cons, hj, false_or]

theorem State.strand_foldl_modStrand_mem (key : α → Nat) {l : List α} (s : State) {x : α} (hx : x ∈ l) :
    (l.foldl (fun s y => s.modStrand (key y) (F s)) s).strand (key x) = F s (s.strand (key x)) := by
  rw [State.strand_foldl_modStrand hF hidem, if_pos (List.mem_map_of_mem hx)]

end

/-! ## Release (R29, R86, R222) -/

/-- A strand as the release of its share makes it READY. -/
def Strand.releasedAt (t : Strand) (h : Share) (data : List WKey) (now : Nat) : Strand :=
  { t with st := .ready, readySince := now, runCount := 0, view := releaseView h data t.core }

section
variable {s : State} {d lid : Nat} {h : Share}
  (hshare : (s.die d).shares.find? (fun h => h.lid == lid && h.st == .admitted) = some h) (hsome : s.launchStrands lid d ≠ [])
  (hheld : ∀ x ∈ s.launchStrands lid d, (s.strand x.2).st = .held) (hloaded : ∀ e ∈ (s.launch lid).toLoad, e ∈ (s.launch lid).loaded)
  (hhbm : (s.launch lid).hbmLoaded = true)
include hshare hsome hheld hloaded hhbm

theorem State.release_due : s.release d lid =
      (((s.launchStrands lid d).map (·.2)).foldl (fun u k =>
        u.modStrand k (Strand.releasedAt · h (u.keysOf (s.launch lid).dataWids) u.time)) s).modShare d lid
        (fun x => { x with st := .released }) := by
  have hgo : ((s.launchStrands lid d).map (fun x => x.2)).isEmpty = false ∧
      ((s.launchStrands lid d).map (fun x => x.2)).all (fun k => (s.strand k).st == .held) = true ∧
      (s.launch lid).toLoad.all (fun e => (s.launch lid).loaded.contains e) = true ∧ (s.launch lid).hbmLoaded = true := by
    refine ⟨?_, ?_, ?_, hhbm⟩
    · simpa using hsome
    · simpa using fun j x hx => hheld (j, x) hx
    · simpa using hloaded
  simp only [State.release, hshare]
  exact if_pos hgo

/-- Release makes every strand of the share READY with the view of R222, and leaves memory. -/
theorem State.release_spec : (s.release d lid).mem = s.mem ∧ ∀ x ∈ s.launchStrands lid d,
      (s.release d lid).strand x.2 = (s.strand x.2).releasedAt h (s.keysOf (s.launch lid).dataWids) s.time := by
  rw [State.release_due hshare hsome hheld hloaded hhbm]
  rw [List.foldl_map]
  refine ⟨foldl_keeps State.mem _ (fun _ _ => by rfl) _ s, fun x hx => ?_⟩
  exact State.strand_foldl_modStrand_mem (F := fun u t => t.releasedAt h (u.keysOf (s.launch lid).dataWids) u.time)
    (fun _ _ _ => rfl) (fun _ _ => rfl) (·.2) s hx

end

/-! ## What a strand that stops leaves of the frames of all strands (R39, R44) -/

/-- Between two states no strand has gone, and every strand has kept its frame and its core. -/
def State.KeepsFrames (s t : State) : Prop :=
  ∀ k, (s.hasStrand k = true → t.hasStrand k = true) ∧ (t.strand k).place = (s.strand k).place ∧ (t.strand k).home = (s.strand k).home

theorem State.KeepsFrames.of_strands {s t : State} (h : t.strands = s.strands) : s.KeepsFrames t := fun k =>
  ⟨fun hk => by rw [State.hasStrand, h]; exact hk, by rw [State.strand_congr h], by rw [State.strand_congr h]⟩

theorem State.KeepsFrames.trans {s t u : State} (h : s.KeepsFrames t) (h' : t.KeepsFrames u) : s.KeepsFrames u := fun k => by
  obtain ⟨hlisted, hplace, hhome⟩ := h k
  obtain ⟨hlisted', hplace', hhome'⟩ := h' k
  exact ⟨fun hk => hlisted' (hlisted hk), hplace'.trans hplace, hhome'.trans hhome⟩

theorem State.KeepsFrames.core {s t : State} (h : s.KeepsFrames t) (k : Nat) : (t.strand k).core = (s.strand k).core := by
  obtain ⟨-, hplace, hhome⟩ := h k
  rw [Strand.core, Strand.core, hplace, hhome]

theorem State.KeepsFrames.foldl {α : Type} {f : State → α → State} (hf : ∀ (s : State) a, s.KeepsFrames (f s a)) (l : List α) (s : State) :
    s.KeepsFrames (l.foldl f s) :=
  List.foldlRecOn l f (motive := s.KeepsFrames) (.of_strands (by rfl)) fun u hu a _ => hu.trans (hf u a)

theorem State.hasStrand_modStrand {s : State} {j : Nat} (h : s.hasStrand j = true) (k : Nat) (f : Strand → Strand) :
    (s.modStrand k f).hasStrand j = true := by
  by_cases hj : j = k
  · subst hj; simp [State.hasStrand, State.modStrand, State.setStrand]
  · rw [State.hasStrand, State.modStrand, State.setStrand, storeFind_storeSet_other _ _ _ _ hj]; exact h

theorem State.hasStrand_modCore (s : State) (c : Nat) (g : CoreSt → CoreSt) (j : Nat) : (s.modCore c g).hasStrand j = s.hasStrand j := rfl

theorem State.modStrand_keepsFrames (s : State) (k : Nat) {f : Strand → Strand}
    (hf : (f (s.strand k)).place = (s.strand k).place ∧ (f (s.strand k)).home = (s.strand k).home) : s.KeepsFrames (s.modStrand k f) := by
  intro j
  refine ⟨fun h => State.hasStrand_modStrand h k f, ?_⟩
  by_cases hj : j = k
  · subst hj; rw [State.strand_modStrand]; exact hf
  · rw [State.strand_modStrand_other _ _ _ _ hj]; exact ⟨rfl, rfl⟩

/-- Every strand changed but for its frame and core. -/
theorem State.mapStrands_keepsFrames {s t : State} {f : Strand → Strand} (h : t.strands = s.strands.map (fun e => (e.1, f e.2)))
    (hf : ∀ x, (f x).place = x.place ∧ (f x).home = x.home) : s.KeepsFrames t := fun k => by
  have hfind : storeFind t.strands k = (storeFind s.strands k).map f := by rw [h, storeFind_map_values]
  simp only [State.hasStrand, State.strand, storeGet, hfind]
  cases storeFind s.strands k with
  | none => exact ⟨id, rfl, rfl⟩
  | some x => exact ⟨id, hf x⟩

theorem State.wakeSpin_keepsFrames (s : State) (ws : List (Nat × Nat)) : s.KeepsFrames (s.wakeSpin ws) := by
  refine State.mapStrands_keepsFrames (f := fun x => if x.spinsOn _ then x.endSpin s.time else x) (by rfl) fun x => ?_
  split
  · unfold Strand.endSpin
    split <;> exact ⟨rfl, rfl⟩
  · exact ⟨rfl, rfl⟩

theorem State.homeWrite_keepsFrames (s : State) (wr : Writer) (els : List (Nat × Nat × Nat)) : s.KeepsFrames (s.homeWrite wr els) := by
  refine .trans ?_ (State.wakeSpin_keepsFrames _ _)
  exact .of_strands (State.performEls_strands wr els s)

theorem State.deviceWrite_keepsFrames (s : State) (die a : Nat) (bs : List Byte) (x : Nat) : s.KeepsFrames (s.deviceWrite die a bs x).2 := by
  refine .trans ?_ (State.homeWrite_keepsFrames _ _ _)
  exact .of_strands rfl

theorem touchLeaf_strands (s : State) (die tcid va : Nat) (w : Bool) : (touchLeaf s die tcid va w).strands = s.strands := by
  unfold touchLeaf
  split
  · rfl
  · dsimp only
    split <;> rfl

theorem State.writeImage_strands (s : State) (k : Nat) : (s.writeImage k).strands = s.strands := by
  unfold State.writeImage
  dsimp only
  split
  · rfl
  · refine (foldl_keeps State.strands _ (fun _ _ => ?_) _ _).trans (foldl_keeps State.strands _ (fun _ _ => ?_) _ _)
    · rfl
    · rfl

theorem State.resave_keepsFrames (s : State) (k : Nat) : s.KeepsFrames (s.resave k) := by
  refine .of_strands ?_
  unfold State.resave
  split
  · exact s.writeImage_strands k
  · rfl

theorem State.wakePlain_keepsFrames (s : State) (k : Nat) : s.KeepsFrames (s.wakePlain k) :=
  s.modStrand_keepsFrames k (by split <;> exact ⟨rfl, rfl⟩)

theorem State.flagEvent_keepsFrames (s : State) (k n : Nat) (w : List Nat) : s.KeepsFrames (s.flagEvent k n w) := by
  unfold State.flagEvent
  have hset : s.KeepsFrames (s.modStrand k (fun t => { t.wf n true with view := viewAdd t.view (s.keysOf w) })) :=
    s.modStrand_keepsFrames k ⟨rfl, rfl⟩
  refine .trans ?_ (State.resave_keepsFrames _ _)
  dsimp only
  split
  · split
    · exact hset.trans (State.wakePlain_keepsFrames _ _)
    · exact hset
  · exact hset

theorem State.sendFault_keepsFrames (s : State) (k : Nat) (p : Pending) (pos ser : Nat) : s.KeepsFrames (s.sendFault k p pos ser).2 := by
  unfold State.sendFault
  split
  · exact .of_strands (by rfl)
  · next f flag a _ =>
    dsimp only
    have htouch : s.KeepsFrames (touchLeaf s (s.strand k).die (s.strand k).tcid ((s.ctx (s.strand k).die (s.strand k).tcid).deleg.va) true) :=
      .of_strands (touchLeaf_strands ..)
    generalize touchLeaf s _ _ _ _ = s1 at htouch ⊢
    generalize faultRecord _ _ _ _ _ _ = bs
    have hwritten := htouch.trans (s1.deviceWrite_keepsFrames (s.strand k).die a bs 2)
    generalize s1.deviceWrite (s.strand k).die a bs 2 = r at hwritten ⊢
    have hflag (d t : Nat) (g : Ctx → Ctx) (w : List Nat) : s.KeepsFrames ((r.2.modCtx d t g).flagEvent f flag w) :=
      (hwritten.trans (.of_strands (by rfl))).trans (State.flagEvent_keepsFrames _ _ _ _)
    split
    · exact (hflag _ _ _ _).trans (.of_strands (by rfl))
    · exact hflag _ _ _ _

theorem State.toEnergy_keepsFrames (s : State) (k : Nat) : s.KeepsFrames (s.toEnergy k) := by
  have hst : s.KeepsFrames (s.modStrand k (fun t => { t with st := .energy })) := s.modStrand_keepsFrames k ⟨rfl, rfl⟩
  unfold State.toEnergy
  dsimp only
  split
  · exact hst
  · exact (hst.trans (.of_strands (by rfl))).trans (State.sendFault_keepsFrames _ _ _ _ _)

theorem State.wake_keepsFrames (s : State) (k : Nat) : s.KeepsFrames (s.wake k) := by
  unfold State.wake
  dsimp only
  split
  · exact (s.wakePlain_keepsFrames k).trans (State.toEnergy_keepsFrames _ _)
  · exact s.wakePlain_keepsFrames k

theorem State.crewWake_keepsFrames (s : State) (x : Crew) : s.KeepsFrames (s.crewWake x) := by
  refine State.KeepsFrames.foldl (fun s k => ?_) _ s
  have hdone : s.KeepsFrames ((s.renew k).modStrand k (fun t => { t with crewDone := true })) :=
    (s.modStrand_keepsFrames k ⟨rfl, rfl⟩).trans (State.modStrand_keepsFrames _ k ⟨rfl, rfl⟩)
  split
  · dsimp only
    split
    · exact hdone.trans (State.wake_keepsFrames _ _)
    · exact hdone
  · exact .of_strands (by rfl)

theorem State.crewSettle_keepsFrames (s : State) (die tcid c n : Nat) : s.KeepsFrames (s.crewSettle die tcid c n) := by
  induction n generalizing s with
  | zero => exact .of_strands (by rfl)
  | succ n ih =>
    unfold State.crewSettle
    dsimp only
    split
    · exact ((s.crewWake_keepsFrames _).trans (.of_strands (by rfl))).trans (ih _)
    · exact .of_strands (by rfl)

theorem State.leaveAll_keepsFrames (s : State) (k : Nat) : s.KeepsFrames (s.leaveAll k) :=
  State.KeepsFrames.foldl (fun _ _ => .trans (.of_strands (by rfl)) (State.crewSettle_keepsFrames _ _ _ _ _)) _ s

theorem State.dropSlot_keepsFrames (s : State) (k : Nat) : s.KeepsFrames (s.dropSlot k) := by
  unfold State.dropSlot
  split
  · exact .of_strands (by rfl)
  · have hslot := s.modStrand_keepsFrames k (f := fun t => { t with range := { t.range with slot := none } }) ⟨rfl, rfl⟩
    exact hslot.trans (.of_strands (by rfl))

theorem State.dropSteals_keepsFrames (s : State) (k : Nat) : s.KeepsFrames (s.dropSteals k) := by
  refine State.mapStrands_keepsFrames
    (f := fun t => if t.range.slot = some k then { t with range := { t.range with slot := none } } else t) ?_ fun x => ?_
  · exact List.map_congr_left fun e _ => by split <;> rfl
  · split <;> exact ⟨rfl, rfl⟩

/-! ## Retirement (R44) -/

/-- A strand's core is left with no frame of it, and every strand is still listed. -/
theorem State.freeCore_spec (s : State) (k : Nat) : (∀ f ∈ ((s.freeCore k).core (s.strand k).core).frames, f.2 ≠ k) ∧
    ∀ j, s.hasStrand j = true → (s.freeCore k).hasStrand j = true := by
  have hleft : ∀ f ∈ (s.core (s.strand k).core).frames.filter (fun f => f.2 != k), f.2 ≠ k := fun f hf => by
    simpa using (List.mem_filter.mp hf).2
  unfold State.freeCore
  dsimp only
  split
  · rw [State.core_modStrand, State.core_modCore]
    exact ⟨hleft, fun j hj => State.hasStrand_modStrand (s := s.modCore _ _) hj k _⟩
  · rw [State.core_modCore, State.core_modStrand, State.core_modCore]
    refine ⟨hleft, fun j hj => ?_⟩
    rw [State.hasStrand_modCore]
    exact State.hasStrand_modStrand (s := s.modCore _ _) hj k _

theorem State.dropArea_fields (s : State) (k : Nat) : (s.dropArea k).cores = s.cores ∧ (s.dropArea k).strands = s.strands := by
  unfold State.dropArea
  cases (s.strand k).spill <;> cases (s.strand k).area <;> exact ⟨rfl, rfl⟩

/-- Every core changed but for its frames. -/
theorem State.frames_of_mapCores {s t : State} {f : CoreSt → CoreSt} (h : t.cores = s.cores.map (fun e => (e.1, f e.2)))
    (hf : ∀ x, (f x).frames = x.frames) (c : Nat) : (t.core c).frames = (s.core c).frames := by
  rw [State.core, State.core, storeGet, storeGet, h, storeFind_map_values]
  cases storeFind s.cores c with
  | none => rfl
  | some x => exact hf x

/-- A strand that exists no more has left its frame, and no other strand has gone with it. -/
theorem State.removeStrand_spec (s : State) (k : Nat) : (s.removeStrand k).hasStrand k = false ∧
    (∀ j, j ≠ k → s.hasStrand j = true → (s.removeStrand k).hasStrand j = true) ∧
    ∀ f ∈ ((s.removeStrand k).core (s.strand k).core).frames, f.2 ≠ k := by
  have hleft : s.KeepsFrames (((s.leaveAll k).dropSlot k).dropSteals k) :=
    ((s.leaveAll_keepsFrames k).trans (State.dropSlot_keepsFrames _ k)).trans (State.dropSteals_keepsFrames _ k)
  have hcore := hleft.core k
  generalize hu : ((s.leaveAll k).dropSlot k).dropSteals k = u at hleft hcore
  obtain ⟨hframes, hstay⟩ := u.freeCore_spec k
  obtain ⟨hcores, hstrands⟩ := (u.freeCore k).dropArea_fields k
  have hlisted : ∀ j, (s.removeStrand k).hasStrand j = (storeFind (storeErase (u.freeCore k).strands k) j).isSome := fun j => by
    rw [← hstrands, State.removeStrand, hu]; rfl
  refine ⟨?_, fun j hj h => ?_, ?_⟩
  · rw [hlisted, storeFind_storeErase_same]; rfl
  · rw [hlisted, storeFind_storeErase_other _ _ _ hj]
    exact hstay j ((hleft j).1 h)
  · have hkept : ((s.removeStrand k).core (s.strand k).core).frames = ((u.freeCore k).core (u.strand k).core).frames := by
      refine (State.frames_of_mapCores (s := (u.freeCore k).dropArea k) (f := fun x => { x with
        ceq := x.ceq.filter (fun e => e.sid != k), tmq := x.tmq.filter (fun m => m.sid != k) }) ?_ (fun _ => rfl) _).trans ?_
      · rw [State.removeStrand, hu]; rfl
      · rw [State.core, hcores, hcore]; rfl
    rw [hkept]
    exact hframes

theorem State.retire_ready {s : State} {k : Nat} (hst : (s.strand k).st = .retiring) (hcauses : (s.strand k).causes = [])
    (hmay : mayRetire s k = true) : s.retire k = ((s.removeStrand k).shareDone (s.strand k).die (s.strand k).lid).scanAll := by
  have hphased : (s.strand k).phased = true := by
    simp only [mayRetire, Bool.and_eq_true] at hmay
    obtain ⟨⟨⟨⟨⟨hphased, -⟩, -⟩, -⟩, -⟩, -⟩ := hmay
    exact hphased
  have hphase : s.endPhase k = s := if_neg fun h => by simp [hphased] at h
  rw [State.retire, if_neg (not_not_intro hst)]
  simp only [hphase, hcauses, List.isEmpty_nil, reduceCtorEq, if_false]
  exact if_pos hmay

/-! ## Pre-emption (R333) -/

section
variable {s : State} {d : Nat} {n : Share} (hn : (s.die d).waiting.find? (fun h => h.st == .reserving) = some n) (hdue : n.nextCheck ≤ s.time)
include hn hdue

/-- A check that is due chooses among the victims, and the next one comes 100 µs later. -/
theorem State.preemptCheck_due :
    let u := s.modShare d n.lid (fun h => { h with nextCheck := s.time + 100 })
    s.preemptCheck d = (u.enough d n (u.victims d n)).elim u (fun vs => (vs.foldl (fun s v => s.preempt d v) u).scanAll) := by
  intro u
  simp only [State.preemptCheck, hn, if_neg (Nat.not_lt.mpr hdue)]
  show (match u.enough d n (u.victims d n) with | none => u | some vs => _) = _
  cases u.enough d n (u.victims d n) <;> rfl

end

/-- A victim that ends soon is left alone. -/
theorem State.preempt_ending {s : State} {d : Nat} {v : Share} (h : s.shareRemt v.lid d ≤ 100) : s.preempt d v = s := if_pos h

/-- The strands of a victim that its launch lets checkpoint are asked to stop for it. -/
theorem State.preempt_ckpt {s : State} {d : Nat} {v : Share} (h : 100 < s.shareRemt v.lid d) (hckpt : (s.launch v.lid).ckpt = true) :
    ∀ x ∈ s.launchStrands v.lid d, (s.preempt d v).strand x.2 = { s.strand x.2 with stopRq := true, ckptRq := true } := by
  intro x hx
  rw [State.preempt, if_neg (Nat.not_le.mpr h), if_pos hckpt]
  exact State.strand_foldl_modStrand_mem (F := fun _ t => { t with stopRq := true, ckptRq := true }) (fun _ _ _ => rfl) (fun _ _ => rfl)
    (·.2) s hx

theorem State.preempt_kill {s : State} {d : Nat} {v : Share} (h : 100 < s.shareRemt v.lid d) (hckpt : (s.launch v.lid).ckpt = false)
    (hkill : (s.launch v.lid).kill = true) : s.preempt d v = s.endLaunch v.lid 0x50 0 := by
  rw [State.preempt, if_neg (Nat.not_le.mpr h), hckpt, if_neg Bool.false_ne_true, if_pos hkill]

end Sys2Proof.Machine
end

section
open Sys2Proof Sys2Proof.Machine

/-- Settles O46: each event that is due is the equation of its function; what it leaves of the strands is said by one lemma each. -/
theorem launchEvents : Obligations.LaunchEvents := by
  unfold Obligations.LaunchEvents
  refine ⟨fun s d lid => ⟨fun h => exec_next_of_eq rfl (State.shareArrival_due h), fun h => exec_next_of_eq rfl (State.shareReserve_due h),
      State.scan_of_none_may⟩, fun s k u hst hplace hload => ?rows, fun s d lid h hshare hsome hheld hloaded hhbm => ?release,
    fun s k hst hcauses hmay => ⟨exec_next_of_eq rfl (State.retire_ready hst hcauses hmay), s.removeStrand_spec k⟩,
    fun s d n hn hdue => ?preempt⟩
  case rows =>
    obtain ⟨f, g, hgo⟩ := State.rowLoadComplete_loaded hst hplace hload
    refine ⟨fun hnew => ?_, fun hsaved hretiring hpark => ?_⟩
    · refine ⟨_, exec_next_of_eq rfl (hgo.trans (if_neg (by simp [hnew]))), ?_, rfl⟩
      rw [State.strand_modStrand]; rfl
    · refine ⟨_, exec_next_of_eq rfl (hgo.trans (if_pos hsaved)), ?_⟩
      exact State.proceed_spec (s := (s.modCore (s.strand k).core f).modDie (s.strand k).die g) hretiring hpark
  case release => exact ⟨_, rfl, State.release_spec hshare hsome hheld hloaded hhbm⟩
  case preempt =>
    intro u
    have hgo := State.preemptCheck_due hn hdue
    exact ⟨fun hnone => exec_next_of_eq rfl (hgo.trans (congrArg (Option.elim · u _) hnone)),
      fun vs hvs => exec_next_of_eq rfl (hgo.trans (congrArg (Option.elim · u _) hvs)), fun v h => State.preempt_ending h,
      fun v h => ⟨fun hckpt => State.preempt_ckpt h hckpt, fun hckpt hkill => State.preempt_kill h hckpt hkill⟩⟩
end

section
/-! PROOF. Taking a trap: the frame of the strand, and the fault record (O56).

A fault record is a list of little-endian fields (`recordFields`), so that a number read at the offset of a field is the field
(`State.read_field`). What the flag of the fault strand changes is said once (`State.flagEvent_spec`). -/
namespace Sys2Proof.Machine

/-! ## The frame of a trapped strand (R355, R359) -/

/-- A strand as a trap leaves it whose cause the device OS holds. -/
def Strand.trapped (t : Strand) (p : Pending) (emul : Bool) (ser : Nat) : Strand :=
  { t with
    cause := BitVec.ofNat 8 p.cause.code, fval := p.fval, tbun := p.tbun, tslot := p.tslot, st := .saving, saveKind := some .trap
    serial := ser, wasRetiring := false, osCause := some p, osEmul := emul }

/-- A cause that may not be delegated is held for the device OS. -/
theorem State.deliver_held {p : Pending} {emul : Bool} (hdel : p.cause.delegable emul = false) (s : State) (k : Nat) :
    s.deliver k p emul = s.modStrand k (fun t => { t with osCause := some p, osEmul := emul }) := by
  simp only [State.deliver, hdel, Bool.false_eq_true, if_false]

theorem State.modStrand_modCore (s : State) (c k : Nat) (g : CoreSt → CoreSt) (f : Strand → Strand) :
    (s.modCore c g).modStrand k f = (s.modStrand k f).modCore c g := rfl

/-- A trap that may not be delegated changes its strand, its context's save serial and its core alone. -/
theorem State.takeTrap_held {s : State} {k : Nat} {p : Pending} {emul : Bool} (hend : (s.strand k).ending = false)
    (hdel : p.cause.delegable emul = false) :
    s.takeTrap k p emul =
      ((s.modCtx (s.strand k).die (s.strand k).tcid (fun c =>
          { c with serial := (s.ctx (s.strand k).die (s.strand k).tcid).serial + 1 })).modStrand k
        (Strand.trapped · p emul ((s.ctx (s.strand k).die (s.strand k).tcid).serial + 1))).modCore (s.strand k).core
        (fun c => { c with frozen := true, issuing := if c.issuing = some k then none else c.issuing }) := by
  have hretiring : ((s.strand k).st == .retiring) = false := by
    simp only [Strand.ending, Bool.or_eq_false_iff] at hend
    obtain ⟨⟨⟨hretiring, -⟩, -⟩, -⟩ := hend
    exact hretiring
  simp only [State.takeTrap, hend, State.deliver_held hdel, Bool.false_eq_true, if_false]
  rw [State.modStrand_modCore, State.modStrand_modStrand]
  exact congrArg (State.modCore · _ _) (State.modStrand_congr _ _ _ _ (by rw [State.strand_modCtx, hretiring]; rfl))

/-! ## Reading the fields of a record -/

/-- Bytes in the middle of those written read back. -/
theorem State.bytes_of_written {s : State} {m : List Host.Cell} {a : Nat} {l x r : List Byte} (h : s.mem = writeBytes m a (l ++ x ++ r)) :
    s.bytes (a + l.length) x.length = x := by
  rw [State.bytes_eq_map]
  refine List.ext_getElem (by simp) fun i _ hi => ?_
  have hin : a ≤ a + l.length + i ∧ a + l.length + i < a + (l ++ x ++ r).length := by simp; omega
  have hoff : a + l.length + i - a = l.length + i := by omega
  simp only [List.getElem_map, List.getElem_range, State.byte, h, byte_writeBytes, hin, and_self, if_true, hoff]
  rw [List.append_assoc, List.getD_append_right _ _ _ _ (Nat.le_add_right ..), Nat.add_sub_cancel_left, List.getD_append _ _ _ _ hi,
    List.getD_eq_getElem]

/-- Bytes outside those written read as before. -/
theorem State.byte_of_outside {s u : State} {a b : Nat} {bs : List Byte} (h : s.mem = writeBytes u.mem a bs)
    (hb : b < a ∨ a + bs.length ≤ b) : s.byte b = u.byte b := by
  have hout : ¬(a ≤ b ∧ b < a + bs.length) := by omega
  simp only [State.byte, h, byte_writeBytes, hout, if_false]

theorem State.read_one (s : State) (a : Nat) : s.read a 1 = (s.byte a).toNat := by simp [State.read, State.bytes, leNat]

/-- The bytes of fields, each a width and a number. -/
def fieldBytes (fs : List (Nat × Nat)) : List Byte := fs.flatMap (fun f => leBytes f.1 f.2)

theorem fieldBytes_length (fs : List (Nat × Nat)) : (fieldBytes fs).length = (fs.map (·.1)).sum := by
  simp [fieldBytes, List.length_flatMap, leBytes_length]

/-- A field of written fields reads as its number, at the offset that the fields before it take. -/
theorem State.read_field {s : State} {m : List Host.Cell} {a : Nat} {fs : List (Nat × Nat)} {ws : List Nat}
    (h : s.mem = writeBytes m a (fieldBytes fs)) (hws : fs.map (·.1) = ws) {n v : Nat} (i off : Nat) (hi : fs[i]? = some (n, v))
    (hoff : (ws.take i).sum = off) : s.read (a + off) n = v % 256 ^ n := by
  have hsplit : fieldBytes fs = fieldBytes (fs.take i) ++ leBytes n v ++ fieldBytes (fs.drop (i + 1)) := by
    obtain ⟨hlt, hget⟩ := List.getElem?_eq_some_iff.mp hi
    have hfs : fs = fs.take i ++ (n, v) :: fs.drop (i + 1) := by
      rw [← hget, List.getElem_cons_drop, List.take_append_drop]
    conv_lhs => rw [hfs]
    simp [fieldBytes]
  have hbytes := State.bytes_of_written (h.trans (congrArg _ hsplit))
  rw [fieldBytes_length, List.map_take, hws, hoff, leBytes_length] at hbytes
  rw [State.read, hbytes, leNat_leBytes]

/-- The fields of a fault record (R357). -/
def recordFields (t : Strand) (c : Ctx) (lnum : Nat) (p : Pending) (pos serial : Nat) : List (Nat × Nat) :=
  [(1, p.cause.code), (1, p.tslot), (2, t.num), (4, lnum), (8, p.fval.toNat),
   (8, (if p.cause = .energyStop then t.parkStat else seqstat t c p.tbun).toNat)] ++ (List.range 6).map (fun k => (8, (t.lstk k).toNat)) ++
  [(4, t.ldone), (4, t.lbase), (2, t.lres), (2, pos), (2, p.tbun), (2, t.die), (8, serial), (32, 0)]

theorem faultRecord_eq (t : Strand) (c : Ctx) (lnum : Nat) (p : Pending) (pos serial : Nat) :
    faultRecord t c lnum p pos serial = fieldBytes (recordFields t c lnum p pos serial) := by
  simp [faultRecord, fieldBytes, recordFields, List.flatMap_map]

theorem recordFields_widths (t : Strand) (c : Ctx) (lnum : Nat) (p : Pending) (pos serial : Nat) :
    (recordFields t c lnum p pos serial).map (·.1) = [1, 1, 2, 4, 8, 8, 8, 8, 8, 8, 8, 8, 4, 4, 2, 2, 2, 2, 8, 32] := rfl

theorem recordFields_size (t : Strand) (c : Ctx) (lnum : Nat) (p : Pending) (pos serial : Nat) :
    (fieldBytes (recordFields t c lnum p pos serial)).length = 128 := by
  rw [fieldBytes_length, recordFields_widths]; rfl

/-! ## The flag of the fault strand (R344, R356) -/

theorem State.writeImage_ctxs (s : State) (k : Nat) : (s.writeImage k).ctxs = s.ctxs := by
  unfold State.writeImage
  dsimp only
  split
  · rfl
  · exact (foldl_keeps State.ctxs _ (fun _ _ => by rfl) _ _).trans (foldl_keeps State.ctxs _ (fun _ _ => by rfl) _ _)

theorem State.resave_ctxs (s : State) (k : Nat) : (s.resave k).ctxs = s.ctxs := by
  unfold State.resave
  split
  · exact s.writeImage_ctxs k
  · rfl

/-- What a flag event leaves: no context changes, the flag is set, and memory only where the strand is saved. -/
theorem State.flagEvent_spec (s : State) (k : Nat) {n : Nat} (hn : n < 64) (wids : List Nat) :
    (s.flagEvent k n wids).ctxs = s.ctxs ∧ ((s.flagEvent k n wids).strand k).rf n = true ∧
      ((s.strand k).st ≠ .saved → (s.flagEvent k n wids).mem = s.mem) := by
  obtain ⟨f, hevent, hflags, hst⟩ : ∃ f : Strand → Strand, s.flagEvent k n wids = (s.modStrand k f).resave k ∧
      (f (s.strand k)).flags = ((s.strand k).wf n true).flags ∧ ((f (s.strand k)).st = .saved → (s.strand k).st = .saved) := by
    unfold State.flagEvent
    dsimp only
    split
    · split
      · rw [State.wakePlain, State.modStrand_modStrand]
        refine ⟨_, rfl, ?_, ?_⟩
        · split <;> rfl
        · split
          · dsimp only; split <;> exact FState.noConfusion
          · exact id
      · exact ⟨_, rfl, rfl, id⟩
    · exact ⟨_, rfl, rfl, id⟩
  rw [hevent]
  refine ⟨State.resave_ctxs _ k, ?_, fun h => ?_⟩
  · rw [State.resave_strand, State.strand_modStrand, Strand.rf, hflags]
    exact Strand.rf_wf (s.strand k) hn
  · rw [State.resave_of_not_saved (by rw [State.strand_modStrand]; exact mt hst h)]
    rfl

/-! ## Delivery (R356, R357) -/

theorem touchLeaf_ctxs (s : State) (die tcid va : Nat) (w : Bool) : (touchLeaf s die tcid va w).ctxs = s.ctxs := by
  unfold touchLeaf
  split
  · rfl
  · dsimp only
    split <;> rfl

theorem Strand.endSpin_st (t : Strand) (now : Nat) : (t.endSpin now).st = .saved → t.st = .saved := by
  unfold Strand.endSpin
  split
  · exact FState.noConfusion
  · exact id

/-- A write of the device changes no context, and brings no strand to be saved. -/
theorem State.deviceWrite_keeps (s : State) (die a : Nat) (bs : List Byte) (x : Nat) :
    (s.deviceWrite die a bs x).2.ctxs = s.ctxs ∧ ∀ k, (s.strand k).st ≠ .saved → ((s.deviceWrite die a bs x).2.strand k).st ≠ .saved := by
  refine ⟨State.performEls_ctxs _ _ s.fresh.2, fun k h => ?_⟩
  generalize hw : s.deviceWrite die a bs x = r
  obtain ⟨ws, u, hr, hu⟩ : ∃ ws u, r.2 = State.wakeSpin u ws ∧ u.strands = s.strands := by
    rw [← hw]; exact ⟨_, _, rfl, State.performEls_strands _ _ s.fresh.2⟩
  rw [hr]
  rw [← State.strand_congr hu k] at h
  obtain hk | hk := u.wakeSpin_strand ws k
  · rwa [hk]
  · rw [hk]; exact mt (Strand.endSpin_st _ _) h

/-- A record that the ring can take: it stands in its slot unless the fault strand is itself saved, the next slot is named, and the flag is
set. -/
theorem State.sendFault_spec {s : State} {k f flag a : Nat} {p : Pending} (hslot : s.faultSlot k p.cause.code = some (f, flag, a))
    (hflag : flag < 64) (pos serial : Nat) :
    let t := s.strand k
    let u := touchLeaf s t.die t.tcid (s.ctx t.die t.tcid).deleg.va true
    let r := s.sendFault k p pos serial
    r.1 = true ∧
      ((s.strand f).st ≠ .saved → ∃ c lnum, r.2.mem = writeBytes u.mem a (fieldBytes (recordFields t c lnum p pos serial))) ∧
      (r.2.ctx t.die t.tcid).deleg.frnext = ((s.ctx t.die t.tcid).deleg.frnext + 1) % 256 ∧ (r.2.strand f).rf flag = true := by
  intro t u r
  have hctxs : u.ctxs = s.ctxs := touchLeaf_ctxs ..
  have hstrands : u.strands = s.strands := touchLeaf_strands ..
  simp only [r, State.sendFault, hslot, faultRecord_eq]
  generalize hbs : fieldBytes (recordFields t (u.ctx t.die t.tcid) (u.launch t.lid).lnum p pos serial) = bs
  obtain ⟨hwctxs, hsaved⟩ := u.deviceWrite_keeps t.die a bs 2
  have hmem := u.deviceWrite_mem t.die a bs 2
  generalize u.deviceWrite t.die a bs 2 = w at hwctxs hsaved hmem ⊢
  generalize hv : w.2.modCtx t.die t.tcid (fun c => { c with deleg := { c.deleg with frnext := (c.deleg.frnext + 1) % 256 } }) = v
  obtain ⟨hctxs', hflag', hmem'⟩ := v.flagEvent_spec f hflag [w.1]
  have hnext : ((v.flagEvent f flag [w.1]).ctx t.die t.tcid).deleg.frnext = ((s.ctx t.die t.tcid).deleg.frnext + 1) % 256 := by
    have hctx : w.2.ctx t.die t.tcid = s.ctx t.die t.tcid := by rw [State.ctx, State.ctx, hwctxs, hctxs]
    rw [State.ctx, hctxs', ← hv]
    exact congrArg (fun c : Ctx => c.deleg.frnext) (State.ctx_modCtx ..) |>.trans (by rw [hctx])
  have hrecord (h : (s.strand f).st ≠ .saved) : (v.flagEvent f flag [w.1]).mem = writeBytes u.mem a bs := by
    rw [hmem', ← hv]
    · exact hmem
    · rw [← hv, State.strand_modCtx]
      exact hsaved f (by rwa [State.strand_congr hstrands])
  refine ⟨trivial, fun h => ⟨u.ctx t.die t.tcid, (u.launch t.lid).lnum, ?_⟩, ?_, ?_⟩
  · rw [hbs, ← hrecord h]
    split <;> rfl
  · rw [← hnext]
    split
    · rw [State.ctx_modCtx]
    · rfl
  · rw [← hflag']
    split <;> rfl

/-- A cause whose record the ring can take is delivered there. -/
theorem State.deliver_delegated {s : State} {k : Nat} {p : Pending} {emul : Bool} (hdel : p.cause.delegable emul = true)
    (hsent : (s.sendFault k p (s.strand k).pos (s.strand k).serial).1 = true) :
    s.deliver k p emul = (s.sendFault k p (s.strand k).pos (s.strand k).serial).2 := by
  simp only [State.deliver, hdel, if_true, hsent]

end Sys2Proof.Machine
end

section
open Sys2Proof Sys2Proof.Machine

/-- Settles O56: a cause that is held leaves what `State.takeTrap_held` names, and one that is delegated the record of `State.sendFault_spec`,
whose fields are those of `recordFields`. -/
theorem trapEntry : Obligations.TrapEntry := by
  unfold Obligations.TrapEntry
  refine ⟨fun s k p emul hend hdel => ?held, fun s u k p emul f flag a hu hdel hslot hflag => ?delegated⟩
  case held =>
    rw [State.takeTrap_held hend hdel]
    refine ⟨?_, ?_, ?_, ?_, rfl, fun j hj => ?_⟩
    · rw [State.strand_modCore, State.strand_modStrand]; rfl
    · rw [State.ctx_modCore, State.ctx_modStrand, State.ctx_modCtx]
    · rw [State.core_modCore]
    · rw [State.core_modCore]
      dsimp only
      split
      · exact nofun
      · assumption
    · rw [State.strand_modCore, State.strand_modStrand_other _ _ _ _ hj]; rfl
  case delegated =>
    subst hu
    obtain ⟨hsent, hrecord, hnext, hset⟩ := State.sendFault_spec hslot hflag (s.strand k).pos (s.strand k).serial
    rw [State.deliver_delegated hdel hsent]
    refine ⟨fun h => ?_, hnext, hset⟩
    obtain ⟨c, lnum, hmem⟩ := hrecord h
    have hread := @State.read_field _ _ _ _ _ hmem (recordFields_widths ..)
    refine ⟨?_, hread 1 1 rfl rfl, ?_, hread 15 82 rfl rfl, hread 16 84 rfl rfl, hread 18 88 rfl rfl, fun b hb => ?_⟩
    · refine BitVec.eq_of_toNat_eq ?_
      rw [← State.read_one, BitVec.toNat_ofNat]
      exact hread 0 0 rfl rfl
    · exact (hread 4 8 rfl rfl).trans (Nat.mod_eq_of_lt p.fval.isLt)
    · exact State.byte_of_outside hmem (by rw [recordFields_size]; exact hb)
end

section
/-! PROOF. Saves, restores, services on a saved strand, the regions of a context that leave and come back, and invalidation (O47).

Regions are copied one after another into an area, or back from it. One copy (`State.carry`) is said by three lemmas; an eviction
(`State.regionsOut`) and a return (`State.regionsBack`) by induction on the regions, from these: the area lies below every region, and of
one context no two regions overlap (`State.ctxRegions_apart`). -/
namespace Sys2Proof.Machine

/-! ## Bytes set to zero and cells copied -/

/-- A store read at a number that a filter of the numbers keeps. -/
theorem storeFind_filter_key {α : Type} (p : Nat → Bool) (m : Store α) (b : Nat) :
    storeFind (m.filter (fun e => p e.1)) b = if p b then storeFind m b else none := by
  induction m with
  | nil => simp [storeFind]
  | cons e r ih =>
    obtain ⟨k, v⟩ := e
    by_cases hb : b = k
    · subst hb
      by_cases hp : p b
      · simp [storeFind, hp]
      · simpa [storeFind, hp] using ih
    · by_cases hp : p k
      · simp [storeFind, hp, hb, ih]
      · simp [storeFind, hp, hb, ih]

theorem State.byte_zeroRange (s : State) (a n b : Nat) : (s.zeroRange a n).byte b = if a ≤ b ∧ b < a + n then 0 else s.byte b := by
  have hkept := storeFind_filter_key (fun x => decide (x + 1 ≤ a) || decide (a + n ≤ x)) s.mem b
  simp only [State.byte, storeGet, State.zeroRange, hkept, Bool.or_eq_true, decide_eq_true_eq]
  by_cases h : a ≤ b ∧ b < a + n
  · rw [if_neg (by omega), if_pos h]; rfl
  · rw [if_pos (by omega), if_neg h]

theorem storeFind_mem {α : Type} {m : Store α} {k : Nat} {v : α} (h : storeFind m k = some v) : (k, v) ∈ m := by
  induction m with
  | nil => cases h
  | cons e r ih =>
    obtain ⟨j, w⟩ := e
    by_cases hk : k = j
    · subst hk
      simp only [storeFind, if_true, Option.some.injEq] at h
      exact h ▸ List.mem_cons_self
    · rw [storeFind, if_neg hk] at h
      exact List.mem_cons_of_mem _ (ih h)

theorem storeSortedFrom_le {α : Type} {m : Store α} {lo : Nat} (h : storeSortedFrom lo m = true) {e : Nat × α} (he : e ∈ m) : lo ≤ e.1 := by
  induction m generalizing lo with
  | nil => cases he
  | cons x r ih =>
    simp only [storeSortedFrom, Bool.and_eq_true, decide_eq_true_eq] at h
    obtain ⟨hlo, hr⟩ := h
    rcases List.mem_cons.mp he with rfl | he
    · exact hlo
    · exact Nat.le_trans (Nat.le_succ_of_le hlo) (ih hr he)

/-- A sorted store lists one value at a number. -/
theorem storeFind_of_mem {α : Type} {m : Store α} {lo : Nat} (h : storeSortedFrom lo m = true) {k : Nat} {v : α} (hm : (k, v) ∈ m) :
    storeFind m k = some v := by
  induction m generalizing lo with
  | nil => cases hm
  | cons e r ih =>
    obtain ⟨j, w⟩ := e
    simp only [storeSortedFrom, Bool.and_eq_true, decide_eq_true_eq] at h
    obtain ⟨-, hr⟩ := h
    rcases List.mem_cons.mp hm with heq | hm
    · obtain ⟨rfl, rfl⟩ := Prod.mk.inj heq
      simp [storeFind]
    · have hlt : j + 1 ≤ k := storeSortedFrom_le hr hm
      rw [storeFind, if_neg (by omega)]
      exact ih hr hm

/-- A byte to which no cell is written stays. -/
theorem byte_cells_other (cs m : List Host.Cell) (b : Nat) (h : ∀ c ∈ cs, c.1 ≠ b) :
    storeGet emptyByte (cs.foldl (fun m c => setMem m c.1 c.2) m) b = storeGet emptyByte m b := by
  induction cs generalizing m with
  | nil => rfl
  | cons c r ih =>
    rw [List.foldl_cons, ih _ fun x hx => h x (List.mem_cons_of_mem _ hx), byte_setMem, if_neg (h c List.mem_cons_self).symm]

/-- A byte to which one value is written, perhaps several times, has it. -/
theorem byte_cells_of_mem {cs : List Host.Cell} {b : Nat} {v : Byte} (hmem : (b, v) ∈ cs) (hone : ∀ w, (b, w) ∈ cs → w = v)
    (m : List Host.Cell) : storeGet emptyByte (cs.foldl (fun m c => setMem m c.1 c.2) m) b = v := by
  induction cs generalizing m with
  | nil => cases hmem
  | cons c r ih =>
    rw [List.foldl_cons]
    by_cases hr : (b, v) ∈ r
    · exact ih hr (fun w hw => hone w (List.mem_cons_of_mem _ hw)) _
    · obtain rfl : (b, v) = c := by simpa [hr] using hmem
      rw [byte_cells_other _ _ _ fun x hx hb => ?_, byte_setMem, if_pos rfl]
      obtain ⟨y, w⟩ := x
      obtain rfl : y = b := hb
      exact hr (hone w (List.mem_cons_of_mem _ hx) ▸ hx)

/-! ## One copy -/

/-- Bytes copied to a place, whatever stood there. -/
def State.carry (s : State) (a b n : Nat) : State := (s.zeroRange b n).copyCells (a, n) b

theorem State.carry_memWf {s : State} (h : memWf s.mem = true) (a b n : Nat) : memWf (s.carry a b n).mem = true :=
  State.copyCells_memWf _ _ _ (s.zeroRange_memWf _ _ h)

theorem State.mem_cellsIn {s : State} {r : Nat × Nat} {c : Host.Cell} :
    c ∈ s.cellsIn r ↔ c.1 < r.2 ∧ (r.1 + c.1, c.2) ∈ s.mem := by
  obtain ⟨i, v⟩ := c
  simp only [State.cellsIn, List.mem_map, List.mem_filter, Bool.and_eq_true, decide_eq_true_eq, Prod.mk.injEq, Prod.exists]
  constructor
  · rintro ⟨k, w, ⟨hmem, hlo, hhi⟩, rfl, rfl⟩
    exact ⟨by omega, by rwa [Nat.add_sub_cancel' hlo]⟩
  · rintro ⟨hlt, hmem⟩
    exact ⟨r.1 + i, v, ⟨hmem, by omega, by omega⟩, by omega, rfl⟩

/-- A copy changes no byte outside its destination. -/
theorem State.byte_carry_other {s : State} {a b n x : Nat} (h : x < b ∨ b + n ≤ x) : (s.carry a b n).byte x = s.byte x := by
  have hzero : (s.zeroRange b n).byte x = s.byte x := by rw [State.byte_zeroRange, if_neg (by omega)]
  rw [← hzero]
  refine byte_cells_other _ _ _ fun c hc => ?_
  obtain ⟨y, hy, rfl⟩ := List.mem_map.mp hc
  obtain ⟨hlt, -⟩ := State.mem_cellsIn.mp hy
  dsimp only at hlt ⊢
  omega

/-- The bytes copied stand at the destination, if it does not meet their place. -/
theorem State.byte_carry {s : State} (hwf : memWf s.mem = true) {a b n i : Nat} (hi : i < n) (hapart : a + n ≤ b ∨ b + n ≤ a) :
    (s.carry a b n).byte (b + i) = s.byte (a + i) := by
  have hsource : s.byte (a + i) = (s.zeroRange b n).byte (a + i) := by rw [State.byte_zeroRange, if_neg (by omega)]
  have hdest : (s.zeroRange b n).byte (b + i) = 0 := by rw [State.byte_zeroRange, if_pos (by omega)]
  have hwf' := s.zeroRange_memWf b n hwf
  rw [hsource]
  unfold State.carry
  generalize s.zeroRange b n = u at hdest hwf' ⊢
  have hsorted : storeSortedFrom 0 u.mem = true := (Bool.and_eq_true_iff.mp hwf').1
  have hcell (v : Byte) : (b + i, v) ∈ (u.cellsIn (a, n)).map (fun x => (b + x.1, x.2)) ↔ storeFind u.mem (a + i) = some v := by
    simp only [List.mem_map, Prod.mk.injEq]
    constructor
    · rintro ⟨x, hx, heq, rfl⟩
      obtain ⟨-, hmem⟩ := State.mem_cellsIn.mp hx
      obtain rfl : x.1 = i := by omega
      exact storeFind_of_mem hsorted hmem
    · intro h
      exact ⟨(i, v), State.mem_cellsIn.mpr ⟨hi, storeFind_mem h⟩, rfl, rfl⟩
  cases hfind : storeFind u.mem (a + i) with
  | some v =>
    have hone (w : Byte) (hw : (b + i, w) ∈ (u.cellsIn (a, n)).map (fun x => (b + x.1, x.2))) : w = v :=
      Option.some.inj (((hcell w).mp hw).symm.trans hfind)
    have hread : u.byte (a + i) = v := by rw [State.byte, storeGet, hfind]; rfl
    rw [hread]
    exact byte_cells_of_mem ((hcell v).mpr hfind) hone _
  | none =>
    have hread : u.byte (a + i) = 0 := by rw [State.byte, storeGet, hfind]; rfl
    rw [hread, ← hdest]
    refine byte_cells_other _ _ _ fun c hc hb => ?_
    obtain ⟨x, v⟩ := c
    obtain rfl : x = b + i := hb
    exact absurd ((hcell v).mp hc) (by simp [hfind])

/-! ## Regions into an area and back -/

/-- The bytes that regions take. -/
def regionsSize (rs : List (Nat × Nat)) : Nat := (rs.map (·.2)).sum

@[simp] theorem regionsSize_cons (r : Nat × Nat) (l : List (Nat × Nat)) : regionsSize (r :: l) = r.2 + regionsSize l := by simp [regionsSize]

/-- Regions copied into an area, one after another. -/
def State.regionsOut (s : State) (rs : List (Nat × Nat)) (a : Nat) : State :=
  (evictPlaces rs a).foldl (fun s p => s.carry p.1.1 p.2 p.1.2) s

/-- And back, with the area left reading zero. -/
def State.regionsBack (s : State) (rs : List (Nat × Nat)) (a : Nat) : State :=
  (evictPlaces rs a).foldl (fun s p => (s.carry p.2 p.1.1 p.1.2).zeroRange p.2 p.1.2) s

theorem evictPlaces_within {rs : List (Nat × Nat)} {a : Nat} {p : (Nat × Nat) × Nat} (h : p ∈ evictPlaces rs a) :
    p.1 ∈ rs ∧ a ≤ p.2 ∧ p.2 + p.1.2 ≤ a + regionsSize rs := by
  induction rs generalizing a with
  | nil => cases h
  | cons r l ih =>
    rw [regionsSize_cons]
    rcases List.mem_cons.mp h with rfl | h
    · exact ⟨List.mem_cons_self, Nat.le_refl _, by dsimp only; omega⟩
    · obtain ⟨hmem, hlo, hhi⟩ := ih h
      exact ⟨List.mem_cons_of_mem _ hmem, by omega, by omega⟩

/-- An area below some regions is, after the first one's part, below the others. -/
theorem area_below_tail {r : Nat × Nat} {l : List (Nat × Nat)} {a : Nat} (h : ∀ q ∈ r :: l, a + regionsSize (r :: l) ≤ q.1) :
    ∀ q ∈ l, a + r.2 + regionsSize l ≤ q.1 := fun q hq => by
  have := h q (List.mem_cons_of_mem _ hq)
  rw [regionsSize_cons] at this
  omega

section
variable {rs : List (Nat × Nat)} {a : Nat}

theorem State.byte_regionsOut_other {s : State} {x : Nat} (h : x < a ∨ a + regionsSize rs ≤ x) : (s.regionsOut rs a).byte x = s.byte x := by
  refine List.foldlRecOn (evictPlaces rs a) _ (motive := fun u : State => u.byte x = s.byte x) rfl fun u hu p hp => ?_
  obtain ⟨-, hlo, hhi⟩ := evictPlaces_within hp
  rw [State.byte_carry_other (by omega), hu]

/-- Each region stands at its place in the area. -/
theorem State.byte_regionsOut {s : State} (hwf : memWf s.mem = true) (hbelow : ∀ r ∈ rs, a + regionsSize rs ≤ r.1) :
    ∀ p ∈ evictPlaces rs a, ∀ i < p.1.2, (s.regionsOut rs a).byte (p.2 + i) = s.byte (p.1.1 + i) := by
  induction rs generalizing a s with
  | nil => exact nofun
  | cons r l ih =>
    have hr := hbelow r List.mem_cons_self
    have hlow := area_below_tail hbelow
    rw [regionsSize_cons] at hr
    intro p hp i hi
    rw [State.regionsOut, evictPlaces, List.foldl_cons]
    rcases List.mem_cons.mp hp with rfl | hp
    · dsimp only at hi ⊢
      refine (State.byte_regionsOut_other (by omega)).trans ?_
      exact State.byte_carry hwf hi (by omega)
    · obtain ⟨hmem, -, -⟩ := evictPlaces_within hp
      have hq := hlow _ hmem
      refine (ih (State.carry_memWf hwf ..) hlow p hp i hi).trans ?_
      exact State.byte_carry_other (by dsimp only; omega)

theorem State.byte_regionsBack_other {s : State} {x : Nat} (harea : x < a ∨ a + regionsSize rs ≤ x) (hout : ∀ r ∈ rs, x < r.1 ∨ r.1 + r.2 ≤ x) :
    (s.regionsBack rs a).byte x = s.byte x := by
  refine List.foldlRecOn (evictPlaces rs a) _ (motive := fun u : State => u.byte x = s.byte x) rfl fun u hu p hp => ?_
  obtain ⟨hmem, hlo, hhi⟩ := evictPlaces_within hp
  rw [State.byte_zeroRange, if_neg (by omega), State.byte_carry_other (hout _ hmem), hu]

/-- Each region has the bytes of its place in the area. -/
theorem State.byte_regionsBack {s : State} (hwf : memWf s.mem = true) (hbelow : ∀ r ∈ rs, a + regionsSize rs ≤ r.1)
    (hapart : rs.Pairwise (fun r q => r.1 + r.2 ≤ q.1)) :
    ∀ p ∈ evictPlaces rs a, ∀ i < p.1.2, (s.regionsBack rs a).byte (p.1.1 + i) = s.byte (p.2 + i) := by
  induction rs generalizing a s with
  | nil => exact nofun
  | cons r l ih =>
    have hr := hbelow r List.mem_cons_self
    have hlow := area_below_tail hbelow
    rw [regionsSize_cons] at hr
    obtain ⟨hfirst, hrest⟩ := List.pairwise_cons.mp hapart
    intro p hp i hi
    rw [State.regionsBack, evictPlaces, List.foldl_cons]
    rcases List.mem_cons.mp hp with rfl | hp
    · dsimp only at hi ⊢
      refine (State.byte_regionsBack_other (by omega) fun q hq => ?_).trans ?_
      · have := hfirst q hq
        omega
      · rw [State.byte_zeroRange, if_neg (by omega)]
        exact State.byte_carry hwf hi (by omega)
    · obtain ⟨hmem, hlo, hhi⟩ := evictPlaces_within hp
      refine (ih (State.zeroRange_memWf _ _ _ (State.carry_memWf hwf ..)) hlow hrest p hp i hi).trans ?_
      rw [State.byte_zeroRange, if_neg (by dsimp only; omega)]
      exact State.byte_carry_other (by dsimp only; omega)

end

/-! ## The regions of a context (R114) -/

theorem State.byte_zeroRegions (s : State) (d tc x : Nat) :
    (s.zeroRegions d tc).byte x = if ∃ r ∈ s.ctxRegions d tc, r.1 ≤ x ∧ x < r.1 + r.2 then 0 else s.byte x := by
  unfold State.zeroRegions
  generalize s.ctxRegions d tc = rs
  induction rs generalizing s with
  | nil => simp
  | cons r l ih =>
    rw [List.foldl_cons, ih, State.byte_zeroRange]
    simp only [List.exists_mem_cons_iff]
    by_cases hr : r.1 ≤ x ∧ x < r.1 + r.2
    · simp only [hr, and_self, if_true, ite_self, true_or]
    · simp only [hr, if_false, false_or]

theorem State.ctxRegions_congr {s t : State} (h : t.ctxs = s.ctxs) (d tc : Nat) : t.ctxRegions d tc = s.ctxRegions d tc := by
  rw [State.ctxRegions, State.ctxRegions, State.ctx, State.ctx, h]

theorem State.ctxRegions_size (s : State) (d tc : Nat) : regionsSize (s.ctxRegions d tc) = 4 * (s.ctx d tc).csize + (s.ctx d tc).dsize := by
  simp only [regionsSize, State.ctxRegions, List.map_append, List.map_map, List.sum_append, Function.comp_def]
  rw [List.map_const', List.sum_replicate]
  simp

/-- Regions lie above all HBM. -/
theorem State.ctxRegions_above {s : State} {d tc : Nat} : ∀ r ∈ s.ctxRegions d tc, 2 ^ 50 ≤ r.1 := by
  intro r hr
  simp only [State.ctxRegions, List.mem_append, List.mem_map, List.mem_singleton] at hr
  rcases hr with ⟨cl, -, rfl⟩ | rfl
  · simp only [Ctx.regionBase, if_true, clusterAddr]; omega
  · have hdie : (s.ctx d tc).regionBase d 2 0 = dieAddr d (s.ctx d tc).dbase := rfl
    simp only [hdie, dieAddr]; omega

/-! ## Eviction (R287) -/

/-- Where no arrival has begun, none is finished. -/
theorem State.finishXacts_of_none {s : State} (h : ∀ e ∈ s.xacts, e.2.todo = []) : s.finishXacts = s :=
  List.foldlRecOn s.xacts _ (motive := fun u => u = s) rfl fun u hu e he => by rw [h e he]; exact hu

/-- Bytes that the device OS takes are set to zero; of the rest only its die changes. -/
theorem State.allocOs_spec {s : State} {d n : Nat} {x : Nat × State} (h : s.allocOs d n = some x) :
    (x.2.ctxs = s.ctxs ∧ x.2.xacts = s.xacts ∧ x.2.cores = s.cores ∧ x.2.strands = s.strands) ∧
      ∀ b, b < hbmAddr d x.1 ∨ hbmAddr d x.1 + n ≤ b → x.2.byte b = s.byte b := by
  unfold State.allocOs at h
  dsimp only at h
  split at h
  · obtain rfl := Option.some.inj h
    refine ⟨⟨rfl, rfl, rfl, rfl⟩, fun b hout => ?_⟩
    dsimp only at hout ⊢
    rw [State.byte_zeroRange, if_neg (by omega)]
    rfl
  · cases h

/-- The area for the regions of a context: at most its own bytes are set to zero as the device OS takes it. -/
theorem State.evictArea_spec {s u : State} {d tc a : Nat} (h : s.evictArea d tc = some (a, u)) :
    u.ctxs = s.ctxs ∧ u.xacts = s.xacts ∧ ∀ x, x < a ∨ a + max 65536 (4 * (s.ctx d tc).csize + (s.ctx d tc).dsize) ≤ x → u.byte x = s.byte x := by
  generalize hz : max 65536 (4 * (s.ctx d tc).csize + (s.ctx d tc).dsize) = z
  simp only [State.evictArea, hz] at h
  split at h
  · obtain ⟨rfl, rfl⟩ := Prod.mk.inj (Option.some.inj h)
    exact ⟨rfl, rfl, fun _ _ => rfl⟩
  · obtain ⟨x, hx, heq⟩ := Option.map_eq_some_iff.mp h
    obtain ⟨rfl, rfl⟩ := Prod.mk.inj heq
    obtain ⟨⟨hctxs, hxacts, -, -⟩, hkept⟩ := State.allocOs_spec hx
    exact ⟨hctxs, hxacts, hkept⟩

/-- A context whose regions have gone to an area. -/
def State.regionsGone (s : State) (d tc : Nat) (rs : List (Nat × Nat)) (a : Nat) : State :=
  ((s.regionsOut rs a).zeroRegions d tc).modCtx d tc (fun c => { c with resident := false, evictAt := some a })

theorem State.regionsGone_ctx (s : State) (d tc : Nat) (rs : List (Nat × Nat)) (a : Nat) :
    ((s.regionsGone d tc rs a).ctx d tc).resident = false ∧ ((s.regionsGone d tc rs a).ctx d tc).evictAt = some a := by
  rw [State.regionsGone, State.ctx_modCtx]
  exact ⟨rfl, rfl⟩

theorem State.regionsGone_byte (s : State) (d tc : Nat) (rs : List (Nat × Nat)) (a x : Nat) :
    (s.regionsGone d tc rs a).byte x = ((s.regionsOut rs a).zeroRegions d tc).byte x := by
  rw [State.regionsGone, State.byte, State.byte, State.modCtx_mem]

/-- A context of which no strand is on a core is evicted when another wants room, once an area is found. -/
theorem State.evict_due {s u : State} {d tc a : Nat} (hbound : (s.ctx d tc).bound = true) (hres : (s.ctx d tc).resident = true)
    (hroom : s.wantsRoom d tc = true) (hoff : ∀ k ∈ s.ctxStrands d tc, (s.strand k).st.onCore = false)
    (hnone : ∀ e ∈ s.xacts, e.2.todo = []) (harea : s.evictArea d tc = some (a, u)) :
    s.evict d tc = u.regionsGone d tc (s.ctxRegions d tc) a := by
  obtain ⟨hctxs, hxacts, -⟩ := State.evictArea_spec harea
  have hfinish : u.finishXacts = u := State.finishXacts_of_none (by rwa [hxacts])
  have hon : ¬ (s.ctxStrands d tc).any (fun k => (s.strand k).st.onCore) = true := by simpa using hoff
  have hgo : ¬((s.ctx d tc).bound = false ∨ (s.ctx d tc).resident = false ∨ s.wantsRoom d tc = false ∨
      (s.ctxStrands d tc).any (fun k => (s.strand k).st.onCore) = true) := by simp [hbound, hres, hroom, hon]
  simp only [State.evict, if_neg hgo, harea, hfinish, State.ctxRegions_congr hctxs]
  rfl

theorem State.carry_ctxs (s : State) (a b n : Nat) : (s.carry a b n).ctxs = s.ctxs := rfl

/-- The regions of an evicted context read zero, and stand in its area. -/
theorem State.evicted_byte {s u : State} {d tc a : Nat} (harea : s.evictArea d tc = some (a, u))
    (hfit : a + max 65536 (4 * (s.ctx d tc).csize + (s.ctx d tc).dsize) ≤ 2 ^ 50) :
    let t := u.regionsGone d tc (s.ctxRegions d tc) a
    (∀ b, (∃ r ∈ s.ctxRegions d tc, r.1 ≤ b ∧ b < r.1 + r.2) → t.byte b = 0) ∧
      (∀ b, (∀ r ∈ s.ctxRegions d tc, b < r.1 ∨ r.1 + r.2 ≤ b) →
        b < a ∨ a + max 65536 (4 * (s.ctx d tc).csize + (s.ctx d tc).dsize) ≤ b → t.byte b = s.byte b) ∧
      (memWf s.mem = true → ∀ p ∈ evictPlaces (s.ctxRegions d tc) a, ∀ i < p.1.2, t.byte (p.2 + i) = s.byte (p.1.1 + i)) := by
  obtain ⟨hctxs, -, hkept⟩ := State.evictArea_spec harea
  have hsize := s.ctxRegions_size d tc
  have habove := State.ctxRegions_above (s := s) (d := d) (tc := tc)
  have hregions : (u.regionsOut (s.ctxRegions d tc) a).ctxRegions d tc = s.ctxRegions d tc :=
    State.ctxRegions_congr ((foldl_keeps State.ctxs _ (fun _ _ => State.carry_ctxs ..) _ u).trans hctxs) d tc
  simp only [State.regionsGone_byte, State.byte_zeroRegions, hregions]
  refine ⟨fun b hb => if_pos hb, fun b hb hout => ?_, fun hwf p hp i hi => ?_⟩
  · rw [if_neg, State.byte_regionsOut_other (by omega), hkept b hout]
    rintro ⟨r, hr, hin⟩
    have := hb r hr
    omega
  · obtain ⟨hmem, hlo, hhi⟩ := evictPlaces_within hp
    have hp1 := habove _ hmem
    rw [if_neg, State.byte_regionsOut (s.evictArea_memWf d tc hwf harea) (fun r hr => ?_) p hp i hi, hkept _ (by omega)]
    · have := habove r hr
      omega
    · rintro ⟨r, hr, hin⟩
      have := habove r hr
      omega

/-! ## Residency restored (R287, R289) -/

theorem fitAt_le {used : List (Nat × Nat)} {size limit b : Nat} (h : fitAt used size limit = some b) : b + size ≤ limit := by
  obtain ⟨n, hn, rfl⟩ := Option.map_eq_some_iff.mp h
  have := List.find?_some hn
  simp only [Bool.and_eq_true, decide_eq_true_eq] at this
  exact this.1

/-- Regions that a context is given: four bases within the cluster scratches, and one within the die's. -/
theorem State.allocRegions_spec {s u : State} {d tc csize dsize : Nat} (h : s.allocRegions d tc csize dsize = some u) :
    ∃ b0 b1 b2 b3 e, u = s.modCtx d tc (fun x => { x with csize := csize, dsize := dsize, cbase := [b0, b1, b2, b3], dbase := e }) ∧
      b0 + csize ≤ 2 ^ 23 ∧ b1 + csize ≤ 2 ^ 23 ∧ b2 + csize ≤ 2 ^ 23 ∧ b3 + csize ≤ 2 ^ 23 := by
  simp only [State.allocRegions] at h
  split at h
  · next b0 b1 b2 b3 e h0 h1 h2 h3 _ =>
    exact ⟨b0, b1, b2, b3, e, (Option.some.inj h).symm, fitAt_le h0, fitAt_le h1, fitAt_le h2, fitAt_le h3⟩
  · cases h

/-- They do not overlap. -/
theorem State.ctxRegions_apart {s : State} {d tc b0 b1 b2 b3 : Nat} (hbases : (s.ctx d tc).cbase = [b0, b1, b2, b3])
    (h0 : b0 + (s.ctx d tc).csize ≤ 2 ^ 23) (h1 : b1 + (s.ctx d tc).csize ≤ 2 ^ 23) (h2 : b2 + (s.ctx d tc).csize ≤ 2 ^ 23)
    (h3 : b3 + (s.ctx d tc).csize ≤ 2 ^ 23) : (s.ctxRegions d tc).Pairwise (fun r q => r.1 + r.2 ≤ q.1) := by
  have hlist : s.ctxRegions d tc = [(clusterAddr (d * 4 + 0) b0, (s.ctx d tc).csize), (clusterAddr (d * 4 + 1) b1, (s.ctx d tc).csize),
      (clusterAddr (d * 4 + 2) b2, (s.ctx d tc).csize), (clusterAddr (d * 4 + 3) b3, (s.ctx d tc).csize),
      (dieAddr d (s.ctx d tc).dbase, (s.ctx d tc).dsize)] := by
    simp [State.ctxRegions, Ctx.regionBase, hbases, List.range_succ]
  rw [hlist]
  simp only [List.pairwise_cons, List.mem_cons, List.not_mem_nil, or_false, forall_eq_or_imp, forall_eq, clusterAddr, dieAddr,
    List.Pairwise.nil, and_true, false_imp_iff, implies_true]
  omega

/-- An empty berth delivers nothing. -/
theorem State.berthDeliver_of_empty {s : State} {d tc : Nat} (h : (s.ctx d tc).bused = 0) (n : Nat) : State.berthDeliver d tc n s = ([], s) := by
  cases n with
  | zero => rw [State.berthDeliver]
  | succ n => rw [State.berthDeliver, if_pos h]

theorem State.berthRelease_of_none {s : State} {d tc : Nat} (h : (s.ctx d tc).berthQ = []) :
    s.berthRelease d tc = s.modCtx d tc (fun c => { c with berthQ := [] }) := by
  simp only [State.berthRelease, h, List.foldl_nil]

/-- The regions' contents come back from the area, if they were evicted. -/
def State.contentsBack (s : State) (d tc : Nat) : Option Nat → State
  | none => s
  | some a => s.regionsBack (s.ctxRegions d tc) a

theorem State.regionsBack_keeps (s : State) (rs : List (Nat × Nat)) (a : Nat) :
    (s.regionsBack rs a).ctxs = s.ctxs ∧ (s.regionsBack rs a).dies = s.dies := by
  unfold State.regionsBack
  exact ⟨foldl_keeps State.ctxs _ (fun _ _ => by rfl) _ s, foldl_keeps State.dies _ (fun _ _ => by rfl) _ s⟩

theorem State.contentsBack_keeps (s : State) (d tc : Nat) (at_ : Option Nat) :
    (s.contentsBack d tc at_).ctxs = s.ctxs ∧ (s.contentsBack d tc at_).dies = s.dies := by
  cases at_ with
  | none => exact ⟨rfl, rfl⟩
  | some a => exact s.regionsBack_keeps _ a

theorem State.foldl_modStrand_keeps (l : List Nat) (f : Strand → Strand) (s : State) :
    (l.foldl (fun s k => s.modStrand k f) s).ctxs = s.ctxs ∧ (l.foldl (fun s k => s.modStrand k f) s).mem = s.mem ∧
      (l.foldl (fun s k => s.modStrand k f) s).dies = s.dies :=
  ⟨foldl_keeps State.ctxs _ (fun _ _ => by rfl) l s, foldl_keeps State.mem _ (fun _ _ => by rfl) l s,
    foldl_keeps State.dies _ (fun _ _ => by rfl) l s⟩

section
variable {s u : State} {d tc : Nat}
  (halloc : (s.modCtx d tc (fun c => { c with resident := true })).allocRegions d tc (s.ctx d tc).csize (s.ctx d tc).dsize = some u)
include halloc

/-- A context whose regions find room is resident, with regions of the same sizes that do not overlap. -/
theorem State.regionsGiven : ∃ bs e, u.ctx d tc = { s.ctx d tc with resident := true, cbase := bs, dbase := e } ∧ u.dies = s.dies ∧
    u.mem = s.mem ∧ (u.ctxRegions d tc).Pairwise (fun r q => r.1 + r.2 ≤ q.1) := by
  obtain ⟨b0, b1, b2, b3, e, hu, h0, h1, h2, h3⟩ := State.allocRegions_spec halloc
  have hctx : u.ctx d tc = { s.ctx d tc with resident := true, cbase := [b0, b1, b2, b3], dbase := e } := by
    rw [hu, State.ctx_modCtx, State.ctx_modCtx]
  have hsize : (u.ctx d tc).csize = (s.ctx d tc).csize := by rw [hctx]
  rw [← hsize] at h0 h1 h2 h3
  exact ⟨_, e, hctx, by rw [hu]; rfl, by rw [hu]; rfl, State.ctxRegions_apart (by rw [hctx]) h0 h1 h2 h3⟩

/-- With an empty berth, a context whose regions find room has them with their contents, and is resident. -/
theorem State.bringIn_of_empty (hbused : (s.ctx d tc).bused = 0) (hport : (s.ctx d tc).berthQ = []) :
    ∃ t, s.bringIn d tc = some t ∧ (t.ctx d tc).resident = true ∧ t.mem = (u.contentsBack d tc (s.ctx d tc).evictAt).mem ∧ t.dies = s.dies := by
  obtain ⟨bs, e, hctx, hdies, -, -⟩ := State.regionsGiven halloc
  obtain ⟨hwctxs, hwdies⟩ := u.contentsBack_keeps d tc (s.ctx d tc).evictAt
  generalize hw : u.contentsBack d tc (s.ctx d tc).evictAt = w at hwctxs hwdies
  obtain ⟨hvctxs, hvmem, hvdies⟩ := State.foldl_modStrand_keeps (w.ctxStrands d tc) (fun t => { t with view := viewAdd t.view [] }) w
  generalize hv : (w.ctxStrands d tc).foldl _ w = v at hvctxs hvmem hvdies
  have hwctx : w.ctx d tc = u.ctx d tc := by rw [State.ctx, State.ctx, hwctxs]
  have hvctx : v.ctx d tc = u.ctx d tc := by rw [← hwctx, State.ctx, State.ctx, hvctxs]
  have hdeliver := State.berthDeliver_of_empty (s := w) (d := d) (tc := tc) (by rw [hwctx, hctx]; exact hbused) 4096
  have hrelease := State.berthRelease_of_none (s := v) (d := d) (tc := tc) (by rw [hvctx, hctx]; exact hport)
  refine ⟨v.berthRelease d tc, ?_, ?_, ?_, ?_⟩
  · simp only [State.bringIn, halloc, Option.map_some]
    cases hat : (s.ctx d tc).evictAt with
    | none =>
      have hw' : u = w := by rw [← hw, hat]; rfl
      simp only [hw', hdeliver, hv]
    | some a =>
      have hw' : (evictPlaces (u.ctxRegions d tc) a).foldl
          (fun s p => ((s.zeroRange p.1.1 p.1.2).copyCells (p.2, p.1.2) p.1.1).zeroRange p.2 p.1.2) u = w := by rw [← hw, hat]; rfl
      simp only [hw', hdeliver, hv]
  · rw [hrelease, State.ctx_modCtx, hvctx, hctx]
  · rw [hrelease, State.modCtx_mem, hvmem]
  · rw [hrelease, State.modCtx_dies, hvdies, hwdies, hdies]

/-- What has come back stands as it stood in the area. -/
theorem State.contentsBack_byte {a : Nat} (hfit : a + 4 * (s.ctx d tc).csize + (s.ctx d tc).dsize ≤ 2 ^ 50) (hwf : memWf s.mem = true) :
    ∀ p ∈ evictPlaces (u.ctxRegions d tc) a, ∀ i < p.1.2, (u.contentsBack d tc (some a)).byte (p.1.1 + i) = s.byte (p.2 + i) := by
  obtain ⟨bs, e, hctx, -, hmem, hapart⟩ := State.regionsGiven halloc
  have hsize := u.ctxRegions_size d tc
  simp only [hctx] at hsize
  intro p hp i hi
  refine (State.byte_regionsBack (s := u) (by rwa [hmem]) (fun r hr => ?_) hapart p hp i hi).trans ?_
  · have := State.ctxRegions_above r hr
    omega
  · rw [State.byte, State.byte, hmem]

end

theorem execResidencyRestore_away {s t : State} {d tc : Nat} (hbound : (s.ctx d tc).bound = true) (hres : (s.ctx d tc).resident = false)
    (hin : s.bringIn d tc = some t) (hshares : (t.die d).shares = []) : exec (.residencyRestore d tc) s = .next t := by
  have hback : s.bringBack d tc = t := by
    simp only [State.bringBack, hin]
    exact State.scan_of_no_shares hshares
  show execResidencyRestore d tc s = _
  simp only [execResidencyRestore, hbound, hres, and_self, if_true, hback]

/-! ## The save (R359, R361, R363) -/

theorem State.freeCore_place (s : State) (k : Nat) : ((s.freeCore k).strand k).place = none := by
  unfold State.freeCore
  dsimp only
  split
  · rw [State.strand_modStrand]
  · rw [State.strand_modCore, State.strand_modStrand]

/-- A strand that leaves its frame is saved, and its core has no frame of it. -/
theorem State.leaveFrame_spec (s : State) (k : Nat) : ((s.leaveFrame k).strand k).st = .saved ∧ ((s.leaveFrame k).strand k).place = none ∧
    ∀ f ∈ ((s.leaveFrame k).core (s.strand k).core).frames, f.2 ≠ k := by
  unfold State.leaveFrame
  dsimp only
  split
  · obtain ⟨hframes, -⟩ := s.freeCore_spec k
    rw [State.strand_modStrand]
    exact ⟨rfl, s.freeCore_place k, hframes⟩
  · rw [State.strand_modStrand, State.core_modStrand, State.core_modCore]
    exact ⟨rfl, rfl, fun f hf => by simpa using (List.mem_filter.mp hf).2⟩

/-- An area for a strand changes neither its frame nor its state, and no core. -/
theorem State.assignArea_spec (s : State) (k : Nat) : ((s.assignArea k).strand k).st = (s.strand k).st ∧
    ((s.assignArea k).strand k).place = (s.strand k).place ∧ (s.assignArea k).cores = s.cores := by
  unfold State.assignArea
  extract_lets t here
  split
  · exact ⟨rfl, rfl, rfl⟩
  · split
    · next x hx =>
      obtain ⟨⟨-, -, hcores, hstrands⟩, -⟩ := State.allocOs_spec hx
      rw [State.strand_modStrand, State.strand_congr hstrands]
      exact ⟨rfl, rfl, hcores⟩
    · rw [State.strand_modStrand]
      exact ⟨rfl, rfl, rfl⟩

theorem State.writeImage_cores (s : State) (k : Nat) : (s.writeImage k).cores = s.cores := by
  unfold State.writeImage
  dsimp only
  split
  · rfl
  · exact (foldl_keeps State.cores _ (fun _ _ => by rfl) _ _).trans (foldl_keeps State.cores _ (fun _ _ => by rfl) _ _)

/-- Once its image is written, a strand is saved and out of its frame. -/
theorem State.saved_spec (s : State) (k : Nat) :
    let u := ((s.leaveFrame k).assignArea k).writeImage k
    (u.strand k).st = .saved ∧ (u.strand k).place = none ∧ ∀ f ∈ (u.core (s.strand k).core).frames, f.2 ≠ k := by
  intro u
  obtain ⟨hst, hplace, hframes⟩ := s.leaveFrame_spec k
  obtain ⟨hst', hplace', hcores⟩ := (s.leaveFrame k).assignArea_spec k
  have hcore : u.core (s.strand k).core = (s.leaveFrame k).core (s.strand k).core := by
    rw [State.core, State.core, State.writeImage_cores, hcores]
  rw [State.writeImage_strand, hst', hplace', hcore]
  exact ⟨hst, hplace, hframes⟩

theorem State.saveComplete_of_maySave {s : State} {k : Nat} (h : maySave s k = true) :
    let u := ((((s.landReds k).takeFills k).leaveFrame k).assignArea k).writeImage k
    let v := u.gangTidy (u.strand k).die
    s.saveComplete k = (if (u.strand k).saveKind = some .checkpoint then v.shareBack (u.strand k).die (u.strand k).lid else v.osAct k).scanAll := by
  rw [State.saveComplete, if_neg (by rw [h]; exact Bool.noConfusion)]

theorem State.osAct_of_no_cause {s : State} {k : Nat} (h : (s.strand k).osCause = none) : s.osAct k = s := by
  simp only [State.osAct, h]

/-! ## Restores (R366, R371, R372) -/

theorem State.restore_due {s : State} {k : Nat} (hst : (s.strand k).st = .saved)
    (hdue : (s.strand k).due = true ∨ (s.strand k).saveKind = some .checkpoint) (hup : (s.die (s.strand k).die).recovering = false)
    (d ser : Nat) : s.restore k d ser = (s.restoreTo k d ser).2 := if_pos ⟨hst, hdue, hup⟩

section
variable {s u : State} {k tc ser : Nat} (hhome : (s.strand k).home.isSome = true) (hgroup : (s.strand k).cgrp = 0)
  (hctx : s.restoreCtx k (s.strand k).die = some tc) (hcore : (s.strand k).core ∈ coresOf (s.strand k).die none)
  (hregions : s.withRegions (s.strand k).die tc = some u)
  (hfits : (u.modStrand k (fun t => { t with die := (s.strand k).die, tcid := tc })).coreFits (s.strand k).core k = true)
include hhome hgroup hctx hcore hregions hfits

/-- A restore on the strand's own die comes to the strand's own core, if the image is intact. -/
theorem State.restoreTo_own : s.restoreTo k (s.strand k).die ser =
    if imageGood s k ser = false then (0x64, (s.loseStrand k).scanAll)
    else
      let t := ({ u with nfree := u.nfree + 1 } : State).restoreAt k (s.strand k).die tc (s.strand k).core
      (0, if (s.ctx (s.strand k).die tc).resident then t else t.scan (s.strand k).die) := by
  have hmem : (s.strand k).core ∈ (coresOf (s.strand k).die none).filter
      (fun c => (u.modStrand k (fun t => { t with die := (s.strand k).die, tcid := tc })).coreFits c k) :=
    List.mem_filter.mpr ⟨hcore, hfits⟩
  have hmove : ((s.strand k).die != (s.strand k).die) = false := bne_self_eq_false _
  have hnone : s.groupCluster k (s.strand k).die = none := if_pos hgroup
  simp only [State.restoreTo, hmove, Bool.false_and, Bool.false_eq_true, if_false, hctx, Option.bind_some, hregions, Option.map_some, hnone]
  generalize (coresOf (s.strand k).die none).filter _ = fits at hmem ⊢
  cases fits with
  | nil => cases hmem
  | cons c r =>
    have hown : ((s.strand k).home.isSome && (c :: r).contains (s.strand k).core) = true := by
      rw [hhome, Bool.true_and]; exact List.contains_iff_mem.mpr hmem
    simp only [hown, if_true]

end

theorem State.shareHere_strands (s : State) (d l : Nat) : (s.shareHere d l).strands = s.strands := by
  unfold State.shareHere
  split
  · rfl
  · split <;> rfl

/-- A strand that takes a frame of a core is there, FILLING. -/
theorem State.placeAt_strand (s : State) (k c : Nat) : ((s.placeAt k c).strand k).st = .filling ∧ ((s.placeAt k c).strand k).core = c := by
  have hframe : ((List.range 4).find? (fun f => (storeFind (s.core c).frames f).isNone)).getD 0 < 4 := by
    cases h : (List.range 4).find? (fun f => (storeFind (s.core c).frames f).isNone) with
    | none => exact Nat.zero_lt_succ 3
    | some f => exact List.mem_range.mp (List.mem_of_find?_eq_some h)
  rw [State.placeAt]
  rw [State.strand_modStrand]
  refine ⟨rfl, ?_⟩
  dsimp only [Strand.core]
  omega

/-- A strand put back onto the core that keeps its region changes no memory. -/
theorem State.restoreAt_own {s : State} {k c : Nat} (hhome : (s.strand k).home.isSome = true) (hcore : (s.strand k).core = c) (tc : Nat) :
    let t := s.restoreAt k (s.strand k).die tc c
    (t.strand k).st = .filling ∧ (t.strand k).core = c ∧ (t.strand k).due = false ∧ t.mem = s.mem := by
  intro t
  obtain ⟨hst, hat⟩ := s.placeAt_strand k c
  have ht : t = ((s.placeAt k c).modStrand k (fun t => { t with runCount := 0, due := false })).shareHere (s.strand k).die (s.strand k).lid := by
    have hown : ((s.strand k).home.isSome && (s.strand k).core == c) = true := by rw [hhome, hcore, beq_self_eq_true]; rfl
    simp only [t, State.restoreAt, hown, if_true]
  rw [ht, State.strand_congr (State.shareHere_strands ..), State.strand_modStrand]
  exact ⟨hst, hat, rfl, State.shareHere_mem ..⟩

/-! ## Services (R407) -/

/-- A strand whose service is done is due to be restored. -/
def Strand.served (t : Strand) : Strand := { t with osCause := none, osEmul := false, due := true }

@[simp] theorem Strand.served_rs (t : Strand) (n : Nat) : t.served.rs n = t.rs n := rfl

/-- A caller takes the status of its service, and is due to be restored. -/
theorem State.hailDone_strand {s : State} {c : Nat} (h : s.hasStrand c = true) (status : Nat) (s2 : Option Nat) :
    (s.hailDone c status s2).strand c =
      (s2.elim ((s.strand c).ws 1 (BitVec.ofNat 64 status)) (fun v => ((s.strand c).ws 1 (BitVec.ofNat 64 status)).ws 2 (BitVec.ofNat 64 v))).served := by
  rw [State.hailDone, if_neg (by rw [h]; exact Bool.noConfusion), State.osServed, State.resave_strand, State.strand_modStrand,
    State.strand_modStrand]
  cases s2 <;> rfl

section
variable {s : State} {c : Nat}

theorem State.resumeService_of_none (hcall : s.hailing c 1 = true) (hnone : s.hailTarget c = none) :
    s.resumeService c = s.hailDone c 1 none := by
  simp only [State.resumeService, hcall, hnone, Bool.true_eq_false, if_false]

theorem State.redirectService_of_none (hcall : s.hailing c 2 = true) (hnone : s.hailTarget c = none) :
    s.redirectService c = s.hailDone c 1 none := by
  simp only [State.redirectService, hcall, hnone, Bool.true_eq_false, if_false]

theorem State.endService_of_none (hcall : s.hailing c 3 = true) (hnone : s.hailTarget c = none) : s.endService c = s.hailDone c 1 none := by
  simp only [State.endService, hcall, hnone, Bool.true_eq_false, if_false]

variable {k : Nat} (htarget : s.hailTarget c = some k)
include htarget

theorem State.resumeService_of_target (hcall : s.hailing c 1 = true) : s.resumeService c =
    (s.restoreTo k (s.strand k).die (s.strand k).serial).2.hailRestored c (s.restoreTo k (s.strand k).die (s.strand k).serial).1 := by
  simp only [State.resumeService, hcall, htarget, Bool.true_eq_false, if_false]

theorem State.redirectService_of_target (hcall : s.hailing c 2 = true) : s.redirectService c =
    let r := s.restoreTo k (s.strand k).die (s.strand k).serial
    (if r.1 = 0 then r.2.modStrand k (fun t => t.redirected (((s.strand c).rs 3).toNat % 65536)) else r.2).hailRestored c r.1 := by
  simp only [State.redirectService, hcall, htarget, Bool.true_eq_false, if_false]

theorem State.endService_of_target (hcall : s.hailing c 3 = true) : s.endService c =
    ((((s.modLaunch (s.strand k).lid (fun l => { l with ended := l.ended + 1 })).stopStrand k).shareDone (s.strand k).die
      (s.strand k).lid).hailDone c 0 none).scanAll := by
  simp only [State.endService, hcall, htarget, Bool.true_eq_false, if_false]

end

/-! ## Invalidation (R132) -/

/-- Where no store has left its core, none is finished. -/
theorem State.finishStores_of_none {s : State} (h : ∀ e ∈ s.strands, ∀ r ∈ e.2.reqs, r.left = false) (d tc va n : Nat) (all : Bool) :
    s.finishStores d tc va n all = s := by
  refine List.foldlRecOn (s.strands.filter _) _ (motive := fun u => u = s) rfl fun u hu e he => ?_
  have hnone : e.2.reqs.filter (leftIn (s.ctx d tc) va n all) = [] := by
    refine List.filter_eq_nil_iff.mpr fun r hr => ?_
    simp [leftIn, h e (List.mem_of_mem_filter he) r hr]
  subst hu
  rw [hnone]
  rfl

end Sys2Proof.Machine
end

section
open Sys2Proof Sys2Proof.Machine

/-- Settles O47: each event that is due is the equation of its function. What a save leaves of the frame is `State.saved_spec`, where a restore
comes to `State.restoreTo_own`, and the bytes of regions that leave and come back are `State.evicted_byte` and `State.contentsBack_byte`. -/
theorem saveEvents : Obligations.SaveEvents := by
  unfold Obligations.SaveEvents
  refine ⟨fun s c => rfl, fun s k hmay => ?save, fun s k => State.osAct_of_no_cause, fun s k d ser hst hdue hup => ?restore,
    fun s k tc ser u => ?own, fun s c k htarget => ?serve, fun s c hnone => ?nobody,
    fun s c hc => ?status, fun s d tc a u z hz hbound hres hroom hoff hnone harea hfit => ?evict,
    fun s d tc u hbound hres hbused hport hshares halloc => ?back, fun s d tc va n all => ⟨rfl, fun hleft hbegun => ?idle⟩⟩
  case save =>
    exact ⟨exec_next_of_eq rfl (State.saveComplete_of_maySave hmay), State.saved_spec ((s.landReds k).takeFills k) k⟩
  case restore => exact exec_next_of_eq rfl (State.restore_due hst hdue hup d ser)
  case own =>
    intro d c hhome hgroup hctx hcore hregions hfits
    have hto := State.restoreTo_own (ser := ser) hhome hgroup hctx hcore hregions hfits
    refine ⟨fun hbad => by rw [hto, if_pos hbad], fun hgood hres => ?_, fun hgood hres => ?_⟩
    · rw [hto, hgood, hres]
      rfl
    · have hu : u = s := by
        rw [State.withRegions, if_pos hres] at hregions
        exact (Option.some.inj hregions).symm
      subst hu
      rw [hto, hgood, hres]
      exact ⟨rfl, State.restoreAt_own (s := { u with nfree := u.nfree + 1 }) hhome rfl tc⟩
  case serve =>
    exact ⟨fun h => exec_next_of_eq rfl (State.resumeService_of_target htarget h),
      fun h => exec_next_of_eq rfl (State.redirectService_of_target htarget h),
      fun h => exec_next_of_eq rfl (State.endService_of_target htarget h)⟩
  case nobody =>
    exact ⟨fun h => exec_next_of_eq rfl (State.resumeService_of_none h hnone),
      fun h => exec_next_of_eq rfl (State.redirectService_of_none h hnone), fun h => exec_next_of_eq rfl (State.endService_of_none h hnone)⟩
  case status =>
    refine ⟨fun t ht => ?_, fun e t he ht => ?_⟩
    · rw [State.hailRestored, if_pos rfl, State.hailDone_strand hc] at ht
      rw [ht, Strand.served_rs]
      exact ⟨Strand.rs_ws _ 1 1 0, rfl, rfl⟩
    · rw [State.hailRestored, if_neg he, State.hailDone_strand hc] at ht
      rw [ht, Strand.served_rs, Strand.served_rs]
      exact ⟨by simp [Strand.rs_ws], by simp [Strand.rs_ws], rfl, rfl⟩
  case evict =>
    subst hz
    obtain ⟨hzero, hkept, hcopied⟩ := State.evicted_byte harea hfit
    obtain ⟨haway, hat⟩ := u.regionsGone_ctx d tc (s.ctxRegions d tc) a
    exact ⟨_, exec_next_of_eq rfl (State.evict_due hbound hres hroom hoff hnone harea), haway, hat, hzero, hkept, hcopied⟩
  case back =>
    obtain ⟨t, hin, hthere, hmem, hdies⟩ := State.bringIn_of_empty halloc hbused hport
    refine ⟨t, execResidencyRestore_away hbound hres hin (by rw [State.die, hdies]; exact hshares), hthere, fun hat => ?_,
      fun a hat hfit hwf p hp i hi => ?_⟩
    · obtain ⟨-, -, -, -, hkept, -⟩ := State.regionsGiven halloc
      rw [hmem, hat, State.contentsBack, hkept]
    · rw [hat] at hmem
      rw [State.byte, hmem]
      exact State.contentsBack_byte halloc hfit hwf p hp i hi
  case idle =>
    rw [State.finishStores_of_none hleft]
    exact State.finishXacts_of_none hbegun
end

section
/-! PROOF. The pilot engine: what an instruction does to the lane that it runs on (O35 to O39). -/
namespace Sys2Proof.Machine

/-! ## One instruction (R400, R403) -/

/-- On a lane that runs a program an instruction makes its change, which may be named by anything that it comes to on that lane. -/
theorem State.pilotOp_run {s : State} (h : s.lane.stage = .run) {f g : Lane → Lane} (hfg : f s.lane = g s.lane) :
    s.pilotOp f = .next (s.modLane g) := by
  rw [State.pilotOp, if_pos h, s.modLane_congr f g hfg]

theorem State.pilotOp_idle {s : State} (h : s.lane.stage ≠ .run) (f : Lane → Lane) : s.pilotOp f = .next s := by
  rw [State.pilotOp, if_neg h]

/-- Every pilot instruction is a change of the lane. -/
theorem exec_pilotOp {i : Instr} (h : isPilot i = true) (s : State) : ∃ f, exec i s = s.pilotOp f := by
  cases i with
  | pilotAdd _ | pilotSub _ | pilotAnd _ | pilotOr _ | pilotXor _ | pilotMul _ | pilotShl _ | pilotShr _ | pilotAddi _ | pilotAndi _
  | pilotOri _ | pilotLi _ | ldm _ | stm _ | beq _ | bne _ | bltu _ | bgeu _ | loop _ | emitLaunch _ | emitCopy _ | emitBell _ | drop _ =>
    exact ⟨_, rfl⟩
  | _ => exact absurd h Bool.false_ne_true

/-! ## Where execution goes on (R403) -/

/-- In no loop, execution goes on at the next instruction. -/
theorem Lane.seqNext_of_no_loops {l : Lane} (h : l.loops = []) : l.seqNext = { l with pc := l.pc + 1 } := by
  simp only [Lane.seqNext, h, pilotNext]

theorem Lane.seqNext_w {l : Lane} (h : l.loops = []) (n : Nat) (v : Word) :
    (l.w n v).seqNext = { l with b := storePut 0 l.b n v, pc := l.pc + 1 } :=
  Lane.seqNext_of_no_loops h

theorem Lane.jump_of_no_loops {l : Lane} (h : l.loops = []) (t : Nat) : l.jump t = { l with pc := t } := by
  simp only [Lane.jump, h, List.dropWhile_nil]

/-- At the end of a body that has more passes to make, the next pass begins. -/
theorem Lane.seqNext_back {l : Lane} {a n : Nat} {r : List (Nat × Nat × Nat)} (h : l.loops = (a, l.pc, n) :: r) (hn : 1 < n) :
    l.seqNext = { l with pc := a, loops := (a, l.pc, n - 1) :: r } := by
  simp [Lane.seqNext, h, pilotNext, hn]

/-- At the end of the last pass of the only loop, execution goes on behind the body, in no loop. -/
theorem Lane.seqNext_last {l : Lane} {a : Nat} (h : l.loops = [(a, l.pc, 1)]) : l.seqNext = { l with pc := l.pc + 1, loops := [] } := by
  simp [Lane.seqNext, h, pilotNext]

section
variable {s : State} (hrun : s.lane.stage = .run) (hloops : s.lane.loops = [])
include hrun hloops

theorem pilotAlu_run (f : Word → Word → Word) (o : PR) :
    pilotAlu f o s = .next (s.modLane (fun l => { l with b := storePut 0 l.b o.d (f (l.r o.a) (l.r o.b)), pc := l.pc + 1 })) :=
  State.pilotOp_run hrun (Lane.seqNext_w hloops _ _)

theorem pilotImm_run (f : Word → Word) (d a : Nat) :
    pilotImm f d a s = .next (s.modLane (fun l => { l with b := storePut 0 l.b d (f (l.r a)), pc := l.pc + 1 })) :=
  State.pilotOp_run hrun (Lane.seqNext_w hloops _ _)

theorem pilotIf_run (p : Word → Word → Bool) (o : PB) :
    pilotIf p o s = .next (s.modLane (fun l => { l with pc := if p (l.r o.a) (l.r o.b) then l.pc + o.off else l.pc + 1 })) := by
  refine State.pilotOp_run hrun ?_
  simp only [Lane.jump_of_no_loops hloops, Lane.seqNext_of_no_loops hloops]
  split <;> rfl

theorem execLoop_run (o : PL) : execLoop o s = .next (s.modLane (fun l =>
    if o.len = 0 then { l with pc := l.pc + 1 } else { l with pc := l.pc + 1, loops := [(l.pc + 1, l.pc + o.len, o.n + 1)] })) := by
  refine State.pilotOp_run hrun ?_
  simp only [Lane.seqNext_of_no_loops hloops, hloops]

theorem execLdm_run (o : PM) : execLdm o s = .next (s.modLane (fun l => { l with
    b := storePut 0 l.b o.d (BitVec.ofNat 64 (leNat (((l.space o.sp).drop (s.lane.offset o)).take (2 ^ o.w)))), pc := l.pc + 1 })) :=
  State.pilotOp_run hrun (Lane.seqNext_w hloops _ _)

theorem execStm_scratch {o : PM} (hsp : o.sp = 2) : execStm o s = .next (s.modLane (fun l => { l with
    scr := l.scr.take (s.lane.offset o) ++ leBytes (2 ^ o.w) (l.r o.d).toNat ++ l.scr.drop (s.lane.offset o + 2 ^ o.w), pc := l.pc + 1 })) := by
  refine State.pilotOp_run hrun ?_
  simp only [hsp, bytesPut, leBytes_length]
  exact Lane.seqNext_of_no_loops hloops

theorem execStm_qws {o : PM} (hsp : o.sp = 3) : execStm o s = .next (s.modLane (fun l => { l with
    qws := l.qws.take (s.lane.offset o) ++ leBytes (2 ^ o.w) (l.r o.d).toNat ++ l.qws.drop (s.lane.offset o + 2 ^ o.w), pc := l.pc + 1 })) := by
  refine State.pilotOp_run hrun ?_
  simp only [hsp, bytesPut, leBytes_length]
  exact Lane.seqNext_of_no_loops hloops

end

/-! ## Operands (R401) -/

/-- An immediate taken to 20 bits and one read as a field of 20 bits are one number. -/
theorem pilotZext_eq (imm : Nat) : pilotZext imm = (BitVec.ofNat 20 imm).setWidth 64 := by
  apply BitVec.eq_of_toNat_eq
  simp only [pilotZext, BitVec.toNat_ofNat, BitVec.toNat_setWidth]

/-- An index rounded down to a multiple of a width lies a width before the end of what the width divides. -/
theorem div_mul_add_le {i d n : Nat} (hd : d ∣ n) (hi : i < n) : i / d * d + d ≤ n := by
  obtain ⟨q, rfl⟩ := hd
  have : i / d < q := Nat.div_lt_of_lt_mul hi
  calc i / d * d + d = (i / d + 1) * d := (Nat.succ_mul _ _).symm
    _ ≤ q * d := Nat.mul_le_mul_right d this
    _ = d * q := Nat.mul_comm _ _

/-- The spaces have the sizes that R401 gives: whole multiples of 64 bytes. -/
theorem Lane.space_size {l : Lane}
    (h : l.pkt.length % 64 = 0 ∧ 0 < l.pkt.length ∧ l.qcbv.length = 64 ∧ l.scr.length = 1024 ∧ l.qws.length = 64)
    (sp : Nat) : 64 ∣ (l.space sp).length ∧ 0 < (l.space sp).length := by
  obtain ⟨hpkt, hpos, hqcb, hscr, hqws⟩ := h
  match sp with
  | 0 => exact ⟨Nat.dvd_of_mod_eq_zero hpkt, hpos⟩
  | 1 => simp [Lane.space, hqcb]
  | 2 => simp [Lane.space, hscr]
  | _ + 3 => simp [Lane.space, hqws]

/-- An access of at most 8 bytes lies within its space. -/
theorem Lane.offset_within {l : Lane} {o : PM} (hsize : 64 ∣ (l.space o.sp).length ∧ 0 < (l.space o.sp).length) (hw : o.w ≤ 3) :
    l.offset o + 2 ^ o.w ≤ (l.space o.sp).length :=
  div_mul_add_le ((Nat.pow_dvd_pow 2 (Nat.le_trans hw (by decide : 3 ≤ 6))).trans hsize.1) (Nat.mod_lt _ hsize.2)

end Sys2Proof.Machine
end

section
open Sys2Proof Sys2Proof.Machine

/-- Settles O35: each instruction is its operation, which writes its result to bd and goes on (`pilotAlu_run`, `pilotImm_run`). -/
theorem pilotArithmetic : Obligations.PilotArithmetic := by
  unfold Obligations.PilotArithmetic
  refine fun s hrun hloops => ⟨fun o i f hf => ?registers, fun o i f hf => ?immediate, fun o => ?constant⟩
  case registers =>
    have hop : exec i s = pilotAlu f o s := by
      rcases hf with ⟨rfl, rfl⟩ | ⟨rfl, rfl⟩ | ⟨rfl, rfl⟩ | ⟨rfl, rfl⟩ | ⟨rfl, rfl⟩ | ⟨rfl, rfl⟩ <;> rfl
    exact hop.trans (pilotAlu_run hrun hloops f o)
  case immediate =>
    have hop : exec i s = pilotImm f o.d o.a s := by
      simp only [← pilotZext_eq] at hf
      rcases hf with ⟨rfl, rfl⟩ | ⟨rfl, rfl⟩ | ⟨rfl, rfl⟩ | ⟨rfl, rfl⟩ | ⟨rfl, rfl⟩ <;> rfl
    exact hop.trans (pilotImm_run hrun hloops f o.d o.a)
  case constant => exact pilotImm_run hrun hloops (fun _ => pilotSext o.imm) o.d 0

/-- Settles O36: the effective offset of the statement is `Lane.offset`, which stays a width within the space. -/
theorem pilotMemory : Obligations.PilotMemory := by
  unfold Obligations.PilotMemory
  intro s o hrun hloops hw hsize
  exact ⟨Lane.offset_within (Lane.space_size hsize o.sp) hw, execLdm_run hrun hloops o, execStm_scratch hrun hloops, execStm_qws hrun hloops⟩

/-- Settles O37: each branch is `pilotIf` of its condition. -/
theorem pilotControl : Obligations.PilotControl := by
  unfold Obligations.PilotControl
  refine fun s hrun hloops => ⟨fun o i p hp => ?branches, execLoop_run hrun hloops⟩
  have hop : exec i s = pilotIf p o s := by
    simp only [ne_eq, decide_not, ← beq_eq_decide] at hp
    rcases hp with ⟨rfl, rfl⟩ | ⟨rfl, rfl⟩ | ⟨rfl, rfl⟩ | ⟨rfl, rfl⟩ <;> rfl
  exact hop.trans (pilotIf_run hrun hloops p o)

/-- Settles O38: one pass more, or the way out (`Lane.seqNext_back`, `Lane.seqNext_last`). -/
theorem pilotLoopCount : Obligations.PilotLoopCount := by
  unfold Obligations.PilotLoopCount
  rintro l a e n rfl hl
  refine ⟨fun hn => ?_, ?_⟩
  · rw [Lane.seqNext_back hl (by omega)]
    exact ⟨rfl, rfl⟩
  · rintro rfl
    rw [Lane.seqNext_last hl]
    exact ⟨rfl, rfl⟩

/-- Settles O39: an emit or DROP is a change of the lane, and on a lane that runs no program every change is left out (`State.pilotOp_idle`). -/
theorem pilotEnds : Obligations.PilotEnds := by
  unfold Obligations.PilotEnds
  refine ⟨fun s hrun => ⟨fun a => ⟨State.pilotOp_run hrun rfl, State.pilotOp_run hrun rfl⟩, fun o => State.pilotOp_run hrun rfl,
    fun c => State.pilotOp_run hrun rfl⟩, fun s i hidle hi => ?_⟩
  obtain ⟨f, hf⟩ := exec_pilotOp hi s
  rw [hf, State.pilotOp_idle hidle]
end

section
/-! PROOF. SPDM requests and sessions (O53). -/
namespace Sys2Proof.Machine

/-- A responder that accepts requests hears one in no session over MCTP, or one of a session that lives, whose time starts anew. -/
def State.Hears (s : State) (q : Spdm) (u : State) : Prop :=
  (q.sess = 0 ∧ q.via = .mctp ∧ u = s) ∨
    (q.sess ≠ 0 ∧ (s.session q.resp q.sess).isSome = true ∧ u = s.modSession q.resp q.sess (fun x => { x with last := s.time }))

section
variable {s u : State} {q : Spdm} (hresp : s.responds q.resp = true) (hu : s.Hears q u)
include hresp hu

/-- What is heard is answered in the state in which the session's time has started anew. -/
theorem State.spdm_heard (f : State → State) : s.spdm q f = f u := by
  rw [State.spdm, if_neg (by simp [hresp])]
  obtain ⟨hsess, hvia, rfl⟩ | ⟨hsess, hlives, rfl⟩ := hu
  · rw [if_pos hsess, if_pos hvia]
  · rw [if_neg hsess, if_pos hlives]

/-- A request that its responder hears ends in its answer. -/
theorem exec_spdm {i : Instr} {f : State → State} (hi : exec i s = .next (s.spdm q f)) : exec i s = .next (f u) :=
  exec_next_of_eq hi (State.spdm_heard hresp hu f)

/-- The same of a request that means nothing outside a session. -/
theorem exec_spdm_in_session {i : Instr} {f : State → State} (hi : exec i s = .next (s.spdm q (fun s => if q.sess = 0 then s else f s)))
    (hsess : q.sess ≠ 0) : exec i s = .next (f u) :=
  (exec_spdm hresp hu hi).trans (by rw [if_neg hsess])

end

/-- The contexts that a session releases may be named before any is released. -/
theorem State.sessionEnd_eq (s : State) (d n : Nat) : s.sessionEnd d n =
    ((s.ctxs.filter (fun e => e.1 / 1024 == d && e.2.sess == n && (e.2.bind == .locked || e.2.bind == .attested))).map (fun e => e.1 % 1024)).foldl
      (fun s t => s.ctxRelease d t) (s.modDie d (fun x => { x with sessions := x.sessions.filter (fun y => y.sess != n) })) := by
  rw [List.foldl_map]
  rfl

section
variable {s : State} {d n : Nat} {x : Session} (hx : s.session d n = some x)
include hx

theorem execSessionHeartbeatLapse_silent (h : x.last + 60000000 ≤ s.time) : execSessionHeartbeatLapse d n s = .next (s.sessionEnd d n) := by
  simp only [execSessionHeartbeatLapse, hx, if_pos h]

theorem execSessionHeartbeatLapse_heard (h : s.time < x.last + 60000000) : execSessionHeartbeatLapse d n s = .next s := by
  simp only [execSessionHeartbeatLapse, hx, if_neg (Nat.not_le.mpr h)]

end

end Sys2Proof.Machine
end

section
open Sys2Proof Sys2Proof.Machine

/-- Settles O53: each request is heard (`State.spdm_heard`) and answered. -/
theorem sessionEvents : Obligations.SessionEvents := by
  unfold Obligations.SessionEvents
  refine ⟨fun s u q hresp hu => ⟨fun i k hi => ?free, ?algorithms, fun out hout => ?measurements, fun hroom => ?session, fun hfull => ?full,
    fun hsess => ?inSession⟩,
    fun s d n x hx => ⟨execSessionHeartbeatLapse_silent hx, execSessionHeartbeatLapse_heard hx⟩, State.sessionEnd_eq⟩
  case free =>
    have hanswer : exec i s = .next (s.spdmAnswer k q) := by
      rcases hi with ⟨rfl, rfl⟩ | ⟨rfl, rfl⟩ | ⟨rfl, rfl⟩ | ⟨rfl, rfl⟩ | ⟨rfl, rfl⟩ <;> rfl
    exact exec_spdm hresp hu hanswer
  case algorithms => exact exec_spdm (i := .negotiateAlgorithms q) hresp hu rfl
  case measurements =>
    subst hout
    exact exec_spdm (i := .getMeasurements q) hresp hu rfl
  case session => exact (exec_spdm (i := .keyExchange q) hresp hu rfl).trans (by rw [if_neg (Nat.not_le.mpr hroom)]; rfl)
  case full => exact (exec_spdm (i := .keyExchange q) hresp hu rfl).trans (by rw [if_pos hfull])
  case inSession =>
    exact ⟨exec_spdm_in_session (i := .finish q) hresp hu rfl hsess, exec_spdm_in_session (i := .keyUpdate q) hresp hu rfl hsess,
      exec_spdm_in_session (i := .heartbeat q) hresp hu rfl hsess, exec_spdm_in_session (i := .endSession q) hresp hu rfl hsess⟩
end

section
/-! PROOF. Boot, election, package number and power (O51). -/
namespace Sys2Proof.Machine

/-! ## A pass over dies -/

section
variable {f : State → Nat → State} (hother : ∀ s a e, e ≠ a → (f s a).die e = State.die s e)
include hother

/-- A pass over dies that changes each die alone leaves the dies that it does not visit. -/
theorem State.die_foldl_other {l : List Nat} {e : Nat} (he : e ∉ l) (s : State) : (l.foldl f s).die e = s.die e := by
  induction l generalizing s with
  | nil => rfl
  | cons a r ih =>
    obtain ⟨hea, her⟩ := List.ne_and_not_mem_of_not_mem_cons he
    exact (ih her (f s a)).trans (hother s a e hea)

/-- A die that such a pass visits once is as its own change leaves it, made in a state in which the die, and what no change touches, are as
they were. -/
theorem State.die_foldl_once {β : Type} {g : State → β} (hg : ∀ s a, g (f s a) = g s) {l : List Nat} {d : Nat} (hd : d ∈ l) (hl : l.Nodup)
    (s : State) : ∃ u : State, u.die d = s.die d ∧ g u = g s ∧ (l.foldl f s).die d = (f u d).die d := by
  obtain ⟨l₁, l₂, rfl⟩ := List.append_of_mem hd
  have hl₁ : d ∉ l₁ := fun h => (List.disjoint_of_nodup_append hl) h List.mem_cons_self
  have hl₂ : d ∉ l₂ := (List.nodup_cons.mp hl.of_append_right).1
  refine ⟨l₁.foldl f s, State.die_foldl_other hother hl₁ s, foldl_keeps g f hg l₁ s, ?_⟩
  rw [List.foldl_append, List.foldl_cons, State.die_foldl_other hother hl₂]

end

/-! ## Boot (R381) -/

section
variable {s : State} {d : Nat} (hgood : s.pkg.pwrgood = true) (hoff : (s.die d).boot = .off)
include hgood hoff

theorem State.resetRelease_passes (hpass : Config.bootPasses d s.nfree = true) :
    ∃ ms, s.resetRelease d = ({ s with nfree := s.nfree + 1 } : State).modDie d (fun _ =>
      { Die.reset with boot := if d < 8 then .booting 4 else .inService, bootSince := s.time, measure := ms }) := by
  simp only [State.resetRelease, hgood, hoff, hpass]
  by_cases hd : d < 8
  · simp only [if_pos hd]
    exact ⟨_, rfl⟩
  · simp only [if_neg hd]
    exact ⟨_, rfl⟩

theorem State.resetRelease_fails (hpass : Config.bootPasses d s.nfree = false) :
    s.resetRelease d = (({ s with nfree := s.nfree + 1 } : State).modDie d (fun _ =>
      { Die.reset with boot := .failed 2, bootSince := s.time, measure := Die.reset.measure })).report
        (.bootFailure d 2 (Config.bootReason d s.nfree)) := by
  simp only [State.resetRelease, hgood, hoff, hpass]
  rfl

end

theorem State.resetRelease_idle {s : State} {d : Nat} (h : s.pkg.pwrgood = false ∨ (s.die d).boot ≠ .off) : s.resetRelease d = s :=
  if_pos h

section
variable {s : State} {d n : Nat} (hboot : (s.die d).boot = .booting n ∨ (s.die d).boot = .failed n)
include hboot

theorem State.bootTimeout_early (h : s.time < (s.die d).bootSince + 20000000) : s.bootTimeout d = s := by
  rcases hboot with hb | hb <;> simp only [State.bootTimeout, hb, if_pos h]

theorem State.bootTimeout_due (h : (s.die d).bootSince + 20000000 ≤ s.time) :
    s.bootTimeout d = (s.modDie d (fun x => { x with boot := .outOfService })).report (.outOfService d) := by
  rcases hboot with hb | hb <;> simp only [State.bootTimeout, hb, if_neg (Nat.not_lt.mpr h)]

end

/-! ## Election (R382) -/

/-- What a die knows once it has heard of one candidate more. -/
def Die.heardOf (x : Die) (f time : Nat) : Die :=
  { x with candidates := x.candidates ++ [f], firstCand := x.firstCand.orElse (fun _ => some time) }

theorem State.candidacy_heard {s : State} {d f : Nat} (hd : (s.die d).boot = .booting 6)
    (hf : (s.die f).boot = .booting 6 ∨ (s.die f).boot = .inService) (hlead : (s.die d).leader = none) (hnew : f ∉ (s.die d).candidates) :
    s.candidacy d f = s.modDie d (fun x =>
      if (x.heardOf f s.time).candidates.length = 8 then (x.heardOf f s.time).elect else x.heardOf f s.time) := by
  refine if_neg ?_
  rcases hf with hf | hf <;> simp [hd, hf, hlead, hnew, BootSt.atElection]

section
variable {s : State} {d w : Nat} (hboot : (s.die d).boot = .booting 6) (hlead : (s.die d).leader = none) (hfirst : (s.die d).firstCand = some w)
include hfirst

theorem State.electionTimeout_early (h : s.time < w + 500000) : s.electionTimeout d = s := by
  simp only [State.electionTimeout, hfirst]
  exact if_neg fun hdue => Nat.not_le.mpr h hdue.2.2

include hboot hlead

theorem State.electionTimeout_due (h : w + 500000 ≤ s.time) : s.electionTimeout d = s.modDie d Die.elect := by
  simp only [State.electionTimeout, hfirst, hboot, hlead]
  exact if_pos ⟨rfl, trivial, h⟩

end

/-! ## The package number (R274, R382, R384) -/

/-- A compute die that has its leader goes into service at the package number. -/
def State.enter (p : Nat) (s : State) (d : Nat) : State :=
  if (s.die d).boot.atElection && (s.die d).leader.isSome && !(s.die d).void then s.modDie d (fun x => x.enterService d p s.time) else s

section
variable {s : State} {l p n : Nat} (hl : l < 8) (hlead : (s.die l).leader = some l)
  (hboot : (s.die l).boot = .booting 6 ∨ (s.die l).boot = .inService) (hn : s.pkg.number.getD p = n)
include hl hlead hboot hn

theorem State.packageNumber_sent : s.packageNumber p = quayDies.foldl (fun s d => s.quayMeasure d n)
    ((List.range 8).foldl (State.enter n) { s with pkg := { s.pkg with number := some n } }) := by
  subst hn
  have hup : ((s.die l).boot.atElection || s.inService l) = true := by
    rcases hboot with hb | hb <;> simp [State.inService, BootSt.atElection, hb]
  have hsends : (List.range 8).any (fun d => (s.die d).leader == some d && ((s.die d).boot.atElection || s.inService d)) = true :=
    List.any_eq_true.mpr ⟨l, List.mem_range.mpr hl, by simp [hlead, hup]⟩
  exact if_neg (by simp [hsends])

end

theorem State.enter_other (p : Nat) (s : State) (a e : Nat) (h : e ≠ a) : (s.enter p a).die e = s.die e := by
  unfold State.enter
  split
  · exact State.die_modDie_other s a e _ h
  · rfl

theorem State.quayMeasure_other (p : Nat) (s : State) (a e : Nat) (h : e ≠ a) : (s.quayMeasure a p).die e = s.die e :=
  State.die_modDie_other s a e _ h

theorem State.enter_fields (p : Nat) (s : State) (d : Nat) :
    (s.enter p d).pkg = s.pkg ∧ (s.enter p d).mem = s.mem ∧ (s.enter p d).strands = s.strands := by
  unfold State.enter
  split <;> exact ⟨rfl, rfl, rfl⟩

section
variable {n : Nat} {s t : State} (ht : t = quayDies.foldl (fun s d => s.quayMeasure d n) ((List.range 8).foldl (State.enter n) s))
include ht

theorem State.numbered_fields : t.pkg = s.pkg ∧ t.mem = s.mem ∧ t.strands = s.strands := by
  have hkeeps {β : Type} (g : State → β) (henter : ∀ s d, g (State.enter n s d) = g s) (hquay : ∀ s d, g (State.quayMeasure s d n) = g s) :
      g t = g s := by
    rw [ht, foldl_keeps g _ hquay, foldl_keeps g _ henter]
  exact ⟨hkeeps State.pkg (fun s d => (s.enter_fields n d).1) fun _ _ => rfl,
    hkeeps State.mem (fun s d => (s.enter_fields n d).2.1) fun _ _ => rfl,
    hkeeps State.strands (fun s d => (s.enter_fields n d).2.2) fun _ _ => rfl⟩

/-- A compute die with its leader is in service under its domain index. -/
theorem State.numbered_compute {d : Nat} (hd : d < 8) (hboot : (s.die d).boot = .booting 6) (hlead : (s.die d).leader.isSome = true)
    (hvoid : (s.die d).void = false) : (t.die d).boot = .inService ∧ (t.die d).domain = some (8 * n + d) := by
  obtain ⟨u, hu, -, hdie⟩ := State.die_foldl_once (State.enter_other n) (g := State.mem) (fun s d => (s.enter_fields n d).2.1)
    (List.mem_range.mpr hd) List.nodup_range s
  have hquay : d ∉ quayDies := by simp [quayDies]; omega
  have hin : ((s.die d).boot.atElection && (s.die d).leader.isSome && !(s.die d).void) = true := by rw [hboot, hlead, hvoid]; rfl
  rw [ht, State.die_foldl_other (State.quayMeasure_other n) hquay, hdie, State.enter, hu, if_pos hin, State.die_modDie]
  exact ⟨rfl, rfl⟩

/-- A quay die in service has its link configuration and its identity measured. -/
theorem State.numbered_quay {q : Nat} (hq : q ∈ quayDies) (hboot : (s.die q).boot = .inService) (hvoid : (s.die q).void = false) :
    (t.die q).measure = ((s.die q).measure.set 5 [s.pkg.ports.map (fun x => if x = .extended then 1 else 0)]).set 6
      [[16, Config.serialNo q, q, n]] := by
  obtain ⟨u, hu, hpkg, hdie⟩ := State.die_foldl_once (State.quayMeasure_other n) (g := State.pkg) (fun _ _ => rfl) hq (by decide)
    ((List.range 8).foldl (State.enter n) s)
  have hcompute : q ∉ List.range 8 := by simp [quayDies] at hq ⊢; omega
  rw [State.die_foldl_other (State.enter_other n) hcompute] at hu
  rw [foldl_keeps State.pkg _ (fun s d => (s.enter_fields n d).1)] at hpkg
  rw [ht, hdie, State.quayMeasure, State.die_modDie, hu, hpkg, if_pos ⟨hboot, hvoid⟩]

end

end Sys2Proof.Machine
end

section
open Sys2Proof Sys2Proof.Machine

/-- Settles O51. What the package number leaves of a compute die is `State.numbered_compute`, and of a quay die `State.numbered_quay`. -/
theorem bootEvents : Obligations.BootEvents := by
  unfold Obligations.BootEvents
  refine ⟨fun s d hgood hoff => ?release, fun s d h => exec_next_of_eq rfl (State.resetRelease_idle h), fun s d n hboot => ?timeout,
    fun s d f hd hf hlead hnew => ?candidacy, fun s d w hboot hlead hfirst => ?election, fun s l p hl hlead hboot => ?number,
    fun s => ⟨fun hgood => ?powered, fun hoff => ?up, _, rfl, rfl⟩, fun s w => ⟨fun hlo hhi => ?limit, fun hout => ?noLimit⟩⟩
  case release =>
    cases hpass : Config.bootPasses d s.nfree with
    | true =>
      obtain ⟨ms, hms⟩ := State.resetRelease_passes hgood hoff hpass
      refine ⟨_, exec_next_of_eq rfl hms, rfl, rfl, fun e he => State.die_modDie_other _ _ _ _ he, by rw [State.die_modDie],
        fun _ => ⟨rfl, by rw [State.die_modDie]⟩, nofun⟩
    | false =>
      refine ⟨_, exec_next_of_eq rfl (State.resetRelease_fails hgood hoff hpass), rfl, rfl,
        fun e he => (State.die_report _ _ _).trans (State.die_modDie_other _ _ _ _ he), by rw [State.die_report, State.die_modDie], nofun,
        fun _ => ⟨by rw [State.die_report, State.die_modDie], rfl⟩⟩
  case timeout =>
    exact ⟨fun h => exec_next_of_eq rfl (State.bootTimeout_early hboot h), fun h => exec_next_of_eq rfl (State.bootTimeout_due hboot h)⟩
  case candidacy =>
    refine ⟨_, exec_next_of_eq rfl (State.candidacy_heard hd hf hlead hnew), ?_⟩
    have hlen : ((s.die d).heardOf f s.time).candidates.length = (s.die d).candidates.length + 1 := List.length_append
    rw [State.die_modDie]
    by_cases h8 : (s.die d).candidates.length = 7
    · rw [if_pos (by rw [hlen, h8])]
      exact ⟨rfl, rfl, fun hfirst => by simp [Die.elect, Die.heardOf, hfirst], fun h => absurd h8 h, fun _ => rfl⟩
    · rw [if_neg (by omega)]
      exact ⟨rfl, rfl, fun hfirst => by simp [Die.heardOf, hfirst], fun _ => hlead, fun h => absurd h h8⟩
  case election =>
    exact ⟨fun h => exec_next_of_eq rfl (State.electionTimeout_early hfirst h),
      fun h => exec_next_of_eq rfl (State.electionTimeout_due hboot hlead hfirst h)⟩
  case number =>
    obtain ⟨hpkg, hmem, hstrands⟩ := State.numbered_fields (State.packageNumber_sent hl hlead hboot (p := p) rfl)
    refine ⟨s.packageNumber p, rfl, by rw [hpkg], hmem, hstrands, fun d hd => ?_, fun q hq => ?_⟩
    · exact State.numbered_compute (State.packageNumber_sent hl hlead hboot rfl) hd
    · exact State.numbered_quay (State.packageNumber_sent hl hlead hboot rfl) hq
  case powered => exact exec_next_of_eq rfl (if_pos hgood)
  case up =>
    exact ⟨_, exec_next_of_eq rfl (if_neg (by simp [hoff])), rfl, rfl, rfl, rfl, rfl, rfl⟩
  case limit => exact exec_next_of_eq rfl (if_pos ⟨hlo, hhi⟩)
  case noLimit => exact exec_next_of_eq rfl (if_neg (by omega))
end

section
/-! PROOF. The package: temperature, rails, scrubbing, reports, image load and retired pages (O52). -/
namespace Sys2Proof.Machine

/-! ## Temperature (R416) -/

section
variable {s : State} {d c : Nat}

theorem State.thermalAt_starts (hc : 105 ≤ c) (h : (s.die d).thermal = false) :
    s.thermalAt d c = (s.modDie d (fun x => { x with thermal := true })).report (.thermal d c) := if_pos ⟨hc, h⟩

theorem State.thermalAt_ends (hc : c < 100) (h : (s.die d).thermal = true) :
    s.thermalAt d c = s.modDie d (fun x => { x with thermal := false }) := by
  rw [State.thermalAt, if_neg (by omega), if_pos ⟨hc, h⟩]

theorem State.thermalAt_stays (h : (c < 105 ∧ (s.die d).thermal = false) ∨ (100 ≤ c ∧ (s.die d).thermal = true)) : s.thermalAt d c = s := by
  obtain ⟨hc, ht⟩ | ⟨hc, ht⟩ := h
  · rw [State.thermalAt, if_neg (by omega), if_neg (by simp [ht])]
  · rw [State.thermalAt, if_neg (by simp [ht]), if_neg (by omega)]

theorem State.tripOn_trips (hc : 115 ≤ c) (h : s.pkg.thermtrip = false) : s.tripOn d c =
    ({ s with pkg := { s.pkg with thermtrip := true, tripAt := s.time } } : State).report (.thermal d c) := if_pos ⟨hc, h⟩

theorem State.tripOn_stays (h : c < 115 ∨ s.pkg.thermtrip = true) : s.tripOn d c = s := by
  refine if_neg fun ⟨hc, ht⟩ => ?_
  rcases h with h | h
  · omega
  · exact absurd (ht.symm.trans h) Bool.false_ne_true

end

/-! ## Rails (R414) -/

/-- The dies of a rail are void, and no other has become so. -/
theorem State.void_foldl (l : List Nat) (s : State) (d : Nat) :
    ((l.foldl (fun s d => s.modDie d (fun x => { x with void := true })) s).die d).void = ((s.die d).void || l.contains d) := by
  induction l generalizing s with
  | nil => simp
  | cons a r ih =>
    rw [List.foldl_cons, ih, List.contains_cons]
    by_cases h : d = a
    · subst h; simp
    · rw [State.die_modDie_other _ _ _ _ h, beq_false_of_ne h, Bool.false_or]

theorem State.void_foldl_fields (l : List Nat) (s : State) :
    (l.foldl (fun s d => s.modDie d (fun x => { x with void := true })) s).mem = s.mem ∧
    (l.foldl (fun s d => s.modDie d (fun x => { x with void := true })) s).strands = s.strands ∧
    (l.foldl (fun s d => s.modDie d (fun x => { x with void := true })) s).pkg = s.pkg := by
  induction l generalizing s with
  | nil => exact ⟨rfl, rfl, rfl⟩
  | cons a r ih => exact ih _

/-! ## Scrubbing (R419 to R421) -/

theorem storeOf_sram {a : Nat} (h : 2 ^ 53 ≤ a) : storeOf a = 4 := by
  rw [storeOf, if_neg (by omega), if_neg (by omega), if_neg (by omega), if_neg (by omega)]

theorem storeOf_not_sram {a : Nat} (h : a < 2 ^ 53) : storeOf a ≠ 4 := by
  unfold storeOf
  split_ifs <;> omega

section
variable {s : State} {b : Nat}

theorem execPatrolScrub_clean : execPatrolScrub b .clean s = .next s := by simp [execPatrolScrub]

variable (hin : inPackage (eccAddr b) = true)
include hin

theorem execPatrolScrub_corrected : execPatrolScrub b .corrected s = .next (s.countCorrected (storeOf (eccAddr b))) := by
  simp [execPatrolScrub, hin]

theorem execPatrolScrub_uncorrectable {u : State}
    (hu : u = ({ s with poisoned := if s.poisoned.contains b then s.poisoned else s.poisoned ++ [b] } : State).report
      (.uncorrectable (storeOf (eccAddr b)) (homeDie (eccAddr b)) (eccAddr b))) : execPatrolScrub b .uncorrectable s =
    .next (if storeOf (eccAddr b) = 4 then u.recover (homeDie (eccAddr b)) else u) := by
  subst hu
  simp only [execPatrolScrub, hin]
  rfl

end

/-! ## Reports (R421) -/

theorem State.telemetryTick_early {s : State} (h : s.pkg.pwrgood = false ∨ s.time < s.pkg.teleAt + 100000) : s.telemetryTick = s := if_pos h

theorem State.telemetryTick_due {s : State} (hgood : s.pkg.pwrgood = true) (h : s.pkg.teleAt + 100000 ≤ s.time) :
    s.telemetryTick = ({ s with pkg := { s.pkg with teleAt := s.time } } : State).telemetry :=
  if_neg fun h' => h'.elim (by simp [hgood]) (Nat.not_lt.mpr h)

/-! ## Image load (R45, R178, R389) -/

theorem State.imageLoad_passes {s : State} {d tc : Nat} {i : Image} {bs : List Bundle}
    (hbs : bs = imageBundles i.words (i.words.length + 1) 0) (hbound : (s.ctx d tc).bound = true) (hrows : imageRows i ≤ 64)
    (hfeat : imageFeatures i bs &&& i.features = imageFeatures i bs) (hpaths : pathsOk bs = true) :
    s.imageLoad d tc i = s.modCtx d tc (fun c => { c with images := storeSet c.images i.id i }) := by
  subst hbs
  exact if_neg (by simp [hbound, hfeat, hpaths, hrows])

theorem State.imageLoad_fails {s : State} {d tc : Nat} {i : Image} {bs : List Bundle} (hbs : bs = imageBundles i.words (i.words.length + 1) 0)
    (h : (s.ctx d tc).bound = false ∨ 64 < imageRows i ∨ imageFeatures i bs &&& i.features ≠ imageFeatures i bs ∨ pathsOk bs = false) :
    s.imageLoad d tc i = s := by
  subst hbs
  exact if_pos h

/-! ## The bytes of a page that moves (R374) -/

/-- A copy of a page leaves memory as a copy of its bytes does, where the two places do not meet. -/
theorem State.copyPage_carry {s : State} {a b n : Nat} (hapart : a + n ≤ b ∨ b + n ≤ a) : (s.copyPage a b n).mem = (s.carry a b n).mem := by
  have hcells : (s.mem.filter (fun c => decide (a ≤ c.1) && decide (c.1 < a + n))).map (fun c => (c.1 - a + b, c.2)) =
      ((s.zeroRange b n).cellsIn (a, n)).map (fun x => (b + x.1, x.2)) := by
    simp only [State.cellsIn, State.zeroRange, List.map_map, List.filter_filter]
    have hkept : s.mem.filter (fun c => decide (a ≤ c.1) && decide (c.1 < a + n)) =
        s.mem.filter (fun c => decide (a ≤ c.1) && decide (c.1 < a + n) && (decide (c.1 + 1 ≤ b) || decide (b + n ≤ c.1))) := by
      refine List.filter_congr fun c _ => ?_
      rw [Bool.eq_iff_iff]
      simp only [Bool.and_eq_true, Bool.or_eq_true, decide_eq_true_eq]
      omega
    rw [hkept]
    refine List.map_congr_left fun c _ => ?_
    simp only [Function.comp_apply, Nat.add_comm]
  exact congrArg (fun cs => ((s.zeroRange b n).pokeCells cs).mem) hcells

theorem State.byte_copyPage {s : State} (hwf : memWf s.mem = true) {a b n i : Nat} (hi : i < n) (hapart : a + n ≤ b ∨ b + n ≤ a) :
    (s.copyPage a b n).byte (b + i) = s.byte (a + i) := by
  rw [State.byte, State.copyPage_carry hapart]
  exact State.byte_carry hwf hi hapart

theorem State.byte_copyPage_other {s : State} {a b n x : Nat} (hapart : a + n ≤ b ∨ b + n ≤ a) (hx : x < b ∨ b + n ≤ x) :
    (s.copyPage a b n).byte x = s.byte x := by
  rw [State.byte, State.copyPage_carry hapart]
  exact State.byte_carry_other hx

/-- A value of a store whose every entry is changed by what stands at its number. -/
theorem storeFind_map_entries {α : Type} (F : Nat × α → α) (m : Store α) (k : Nat) :
    storeFind (m.map (fun e => (e.1, F e))) k = (storeFind m k).map (fun v => F (k, v)) := by
  induction m with
  | nil => rfl
  | cons e r ih =>
    by_cases h : k = e.1
    · subst h; simp [storeFind]
    · simp [storeFind, h, ih]

/-- A copy of a page changes nothing of a strand but what it has seen of the page. -/
theorem State.strand_copyPage (s : State) (a b n k : Nat) : ∃ w h, (s.copyPage a b n).strand k = { s.strand k with view := w, hq := h } := by
  obtain ⟨F, hF, hview⟩ : ∃ F : Nat × Strand → Strand, (s.copyPage a b n).strands = s.strands.map (fun e => (e.1, F e)) ∧
      ∀ e, ∃ w h, F e = { e.2 with view := w, hq := h } := by
    refine ⟨_, rfl, fun e => ⟨_, _, rfl⟩⟩
  rw [State.strand, storeGet, hF, storeFind_map_entries, State.strand, storeGet]
  cases storeFind s.strands k with
  | none => exact ⟨_, _, rfl⟩
  | some t => exact hview (k, t)

/-! ## A retired page of a tenant (R374) -/

theorem State.retirePage_moves {s : State} {d src dst : Nat} {u : LeafUse} {r : Nat × Nat}
    (hu : (s.leafUses (s.domainIdx d)).find? (fun u => u.meets src 1) = some u) (hr : r = s.moveRange (s.domainIdx d) u.pa u.size)
    (hdst : dst % r.2 = 0) (hos : dst + r.2 ≤ osBase) (hapart : dst + r.2 ≤ r.1 ∨ r.1 + r.2 ≤ dst)
    (hfree : ∀ x ∈ s.ctxs, ∀ q ∈ x.2.pages, meetsPage s (s.domainIdx d) dst r.2 q x = false) :
    s.retirePage d src dst = ((((s.quiet (s.domainIdx d) r.1 r.2).copyPage (hbmAddr d r.1) (hbmAddr d dst) r.2).zeroRange
      (hbmAddr d r.1) r.2).moveUses (s.domainIdx d) r.1 r.2 d dst) := by
  have hnone : ¬ (s.ctxs.any (fun x => x.2.pages.any (fun q => meetsPage s (s.domainIdx d) dst r.2 q x)) = true) := by
    simp only [List.any_eq_true, not_exists, not_and]
    exact fun x hx q hq => by simp [hfree x hx q hq]
  simp only [State.retirePage, hu, ← hr]
  refine if_neg fun h => ?_
  rcases h with h | h | h | h
  · exact h hdst
  · omega
  · simp only [Bool.and_eq_true, decide_eq_true_eq] at h
    omega
  · exact hnone h

/-! ### What an invalidation leaves of the pages of contexts (R132) -/

/-- The pages of a context. -/
def State.pagesOf (d t : Nat) (s : State) : List (Nat × Nat × Nat × Nat) := (s.ctx d t).pages

section
variable (d t : Nat)

theorem State.pagesOf_of_ctxs {s u : State} (h : u.ctxs = s.ctxs) : u.pagesOf d t = s.pagesOf d t := by
  rw [State.pagesOf, State.pagesOf, State.ctx, State.ctx, h]

theorem State.charge_pagesOf (s : State) (e c cls n : Nat) : (s.charge e c cls n).pagesOf d t = s.pagesOf d t := by
  unfold State.charge
  dsimp only
  split
  · rfl
  · exact State.ctx_modCtx_keeps Ctx.pages _ _ _ _ _ _ fun _ => rfl

theorem touchEls_ctxs (s : State) (k : Nat) (acc : Acc) (space : Nat) (els : List El) : (touchEls s k acc space els).ctxs = s.ctxs := by
  induction els generalizing s with
  | nil => rfl
  | cons e r ih =>
    unfold touchEls
    split
    · rw [ih, touchLeaf_ctxs]
    · rw [ih, touchLeaf_ctxs]
    · rfl

theorem State.storeLeave_pagesOf (s : State) (k : Nat) (r : Req) : (s.storeLeave k r).pagesOf d t = s.pagesOf d t := by
  unfold State.storeLeave
  dsimp only
  split
  · rfl
  · calc
      _ = (touchEls s k .store r.space r.els).pagesOf d t := by
        rw [State.pagesOf, State.ctx_modStrand]
        change State.pagesOf d t _ = _
        simp only [State.chargeAway, State.chargeHomes, State.charge_pagesOf]
      _ = s.pagesOf d t := State.pagesOf_of_ctxs d t (touchEls_ctxs ..)

theorem State.homeWrite_pagesOf (s : State) (wr : Writer) (els : List (Nat × Nat × Nat)) : (s.homeWrite wr els).pagesOf d t = s.pagesOf d t :=
  State.pagesOf_of_ctxs d t (State.performEls_ctxs wr els s)

theorem State.storeHome_pagesOf (s : State) (k : Nat) (r : Req) : (s.storeHome k r).pagesOf d t = s.pagesOf d t := by
  have hleft : (if r.left then s else s.storeLeave k r).pagesOf d t = s.pagesOf d t := by
    split
    · rfl
    · exact s.storeLeave_pagesOf d t k r
  exact (State.homeWrite_pagesOf d t _ _ _).trans hleft

theorem State.finishXacts_pagesOf (s : State) : s.finishXacts.pagesOf d t = s.pagesOf d t := by
  refine foldl_keeps (State.pagesOf d t) _ (fun s e => foldl_keeps (State.pagesOf d t) _ (fun s m => ?_) _ _) _ _
  split
  · rfl
  · exact State.homeWrite_pagesOf d t s _ _

theorem State.finishStores_pagesOf (s : State) (e c va n : Nat) (all : Bool) : (s.finishStores e c va n all).pagesOf d t = s.pagesOf d t := by
  refine foldl_keeps (State.pagesOf d t) _ (fun s x => ?_) _ _
  exact foldl_keeps (State.pagesOf d t) _ (fun s r => s.storeHome_pagesOf d t x.1 r) _ _

theorem State.invalidate_pagesOf (s : State) (e c va n : Nat) (all : Bool) : (s.invalidate e c va n all).pagesOf d t = s.pagesOf d t := by
  calc
    _ = (s.finishStores e c va n all).finishXacts.pagesOf d t := rfl
    _ = (s.finishStores e c va n all).pagesOf d t := State.finishXacts_pagesOf d t _
    _ = s.pagesOf d t := State.finishStores_pagesOf d t s e c va n all

theorem State.poke_ctxs (s : State) (a n v : Nat) : (s.poke a n v).ctxs = s.ctxs := rfl

theorem State.moveLeaf_pagesOf (s : State) (u : LeafUse) (aper pa home : Nat) : (s.moveLeaf u aper pa home).pagesOf d t = s.pagesOf d t := by
  unfold State.moveLeaf
  split
  · rfl
  · exact (State.invalidate_pagesOf ..).trans (State.pagesOf_of_ctxs d t (State.poke_ctxs ..))

end

theorem State.moveUses_pages {s : State} {home pa n d dst key : Nat} {c : Ctx} (hc : storeFind s.ctxs key = some c) :
    ((s.moveUses home pa n d dst).ctx (key / 1024) (key % 1024)).pages = c.pages.map (fun g =>
      if meetsPage s home pa n g (key, c) then (g.1, g.2.1, s.domainIdx d, dst + (g.2.2.2 - pa)) else g) := by
  have hkey : ctxKey (key / 1024) (key % 1024) = key := by rw [ctxKey]; omega
  have hmoved : (s.moveUses home pa n d dst).pagesOf (key / 1024) (key % 1024) =
      State.pagesOf (key / 1024) (key % 1024) { s with ctxs := s.ctxs.map (fun e => (e.1, { e.2 with pages := e.2.pages.map (fun g =>
        if meetsPage s home pa n g e then (g.1, g.2.1, s.domainIdx d, dst + (g.2.2.2 - pa)) else g) })) } :=
    foldl_keeps (State.pagesOf _ _) _ (fun s u => s.moveLeaf_pagesOf _ _ u _ _ _) _ _
  have hentry := storeFind_map_entries (fun e => { e.2 with pages := e.2.pages.map (fun g =>
    if meetsPage s home pa n g e then (g.1, g.2.1, s.domainIdx d, dst + (g.2.2.2 - pa)) else g) }) s.ctxs key
  rw [State.pagesOf] at hmoved
  rw [hmoved, State.pagesOf, State.ctx, hkey, storeGet]
  rw [hentry, hc]
  rfl

/-! ### A leaf that names a new place (R129) -/

theorem fld_lt (w lo len : Nat) : fld w lo len < 2 ^ len := Nat.mod_lt _ (Nat.two_pow_pos len)

/-- The 128 bits of an entry from its lowest bits, APER, the bits below PA, PA's page, the bits below HOME, HOME and the rest (R129). -/
def pteBits (x0 aper x1 page x2 home x3 : Nat) : Nat :=
  x0 + 64 * aper + 256 * x1 + 4096 * page + 2 ^ 46 * x2 + 2 ^ 82 * home + 2 ^ 92 * x3

/-- Every number is such an entry. -/
theorem eq_pteBits (b : Nat) : ∃ x0 x1 x2 x3, b = pteBits x0 (fld b 6 2) x1 (fld b 12 34) x2 (fld b 82 10) x3 ∧
    x0 < 64 ∧ x1 < 16 ∧ x2 < 2 ^ 36 := by
  refine ⟨b % 64, b / 256 % 16, b / 2 ^ 46 % 2 ^ 36, b / 2 ^ 92, ?_, by omega, by omega, by omega⟩
  simp only [fld, pteBits]
  omega

section
variable {x0 aper x1 page x2 home x3 : Nat} (h0 : x0 < 64) (haper : aper < 4) (h1 : x1 < 16) (hpage : page < 2 ^ 34) (h2 : x2 < 2 ^ 36)
  (hhome : home < 1024)
include h0 haper h1 hpage h2 hhome

theorem Pte.ofNat_pteBits : Pte.ofNat (pteBits x0 aper x1 page x2 home x3) =
    ⟨flg x0 0, flg x0 1, flg x0 2, flg x0 3, flg x0 5, aper, flg x1 1, flg x1 2, flg x1 3, page * 4096, fld x2 18 10, fld x2 28 8, home,
      flg x0 4 || flg x1 0 || fld x2 0 18 != 0 || fld x3 0 36 != 0⟩ := by
  have hlow (i : Nat) (hi : i < 6) : fld (pteBits x0 aper x1 page x2 home x3) i 1 = fld x0 i 1 := by
    simp only [fld, pteBits]
    interval_cases i <;> omega
  have hmid (i : Nat) (hi : i < 4) : fld (pteBits x0 aper x1 page x2 home x3) (8 + i) 1 = fld x1 i 1 := by
    simp only [fld, pteBits]
    interval_cases i <;> omega
  have hwide : fld (pteBits x0 aper x1 page x2 home x3) 6 2 = aper ∧ fld (pteBits x0 aper x1 page x2 home x3) 12 34 = page ∧
      fld (pteBits x0 aper x1 page x2 home x3) 46 18 = fld x2 0 18 ∧ fld (pteBits x0 aper x1 page x2 home x3) 64 10 = fld x2 18 10 ∧
      fld (pteBits x0 aper x1 page x2 home x3) 74 8 = fld x2 28 8 ∧ fld (pteBits x0 aper x1 page x2 home x3) 82 10 = home ∧
      fld (pteBits x0 aper x1 page x2 home x3) 92 36 = fld x3 0 36 := by
    simp only [fld, pteBits]
    omega
  obtain ⟨hfaper, hfpage, hfres, hfkey, hfpart, hfhome, hftop⟩ := hwide
  simp only [Pte.ofNat, flg, hfaper, hfpage, hfres, hfkey, hfpart, hfhome, hftop, hlow 0 (by decide), hlow 1 (by decide), hlow 2 (by decide),
    hlow 3 (by decide), hlow 4 (by decide), hlow 5 (by decide), hmid 0 (by decide), hmid 1 (by decide), hmid 2 (by decide), hmid 3 (by decide)]

end

/-- The page of a leaf and its home are what they are made to be, and every other field stays (R129). -/
theorem pte_leafMoved (b : Nat) {aper pa home : Nat} (haper : aper < 4) (hpa : pa % 4096 = 0) (hpa' : pa < 2 ^ 46) (hhome : home < 1024) :
    Pte.ofNat (leafMoved b aper pa home) = { Pte.ofNat b with aper := aper, pa := pa, home := home } := by
  obtain ⟨x0, x1, x2, x3, hb, h0, h1, h2⟩ := eq_pteBits b
  have hmoved : leafMoved b aper pa home = pteBits x0 aper x1 (pa / 4096) x2 home x3 := by
    rw [pteBits] at hb
    rw [leafMoved, pteBits]
    omega
  have hold : Pte.ofNat b = Pte.ofNat (pteBits x0 (fld b 6 2) x1 (fld b 12 34) x2 (fld b 82 10) x3) := congrArg Pte.ofNat hb
  rw [hmoved, hold, Pte.ofNat_pteBits h0 haper h1 (by omega) h2 hhome, Nat.div_mul_cancel (Nat.dvd_of_mod_eq_zero hpa),
    Pte.ofNat_pteBits h0 (fld_lt b 6 2) h1 (fld_lt b 12 34) h2 (fld_lt b 82 10)]

/-! ## A save area that moves (R371, R374) -/

section
variable {s : State} {d src dst k : Nat} {y : Strand} (hk : s.strands.find? (fun e => e.2.area == some (hbmAddr d src)) = some (k, y))
  (halign : dst % areaSize = 0) (hfree : osBase + (s.die d).nalloc ≤ dst) (hfit : dst + areaSize ≤ hbmBytes)
include hk halign hfree hfit

theorem State.retireArea_moves : s.retireArea d src dst =
    (((s.copyPage (hbmAddr d src) (hbmAddr d dst) areaSize).zeroRange (hbmAddr d src) areaSize).modStrand k (fun t =>
      { t with area := some (hbmAddr d dst) })).modDie d (fun x => { x with nalloc := dst + areaSize - osBase }) := by
  simp only [State.retireArea, hk]
  exact if_neg (by omega)

theorem State.retireArea_strand : ∃ w h,
    (s.retireArea d src dst).strand k = { s.strand k with area := some (hbmAddr d dst), view := w, hq := h } := by
  obtain ⟨w, h, hcopied⟩ := s.strand_copyPage (hbmAddr d src) (hbmAddr d dst) areaSize k
  refine ⟨w, h, ?_⟩
  rw [State.retireArea_moves hk halign hfree hfit, State.strand_modDie, State.strand_modStrand]
  change { (s.copyPage (hbmAddr d src) (hbmAddr d dst) areaSize).strand k with area := some (hbmAddr d dst) } = _
  rw [hcopied]

/-- The bytes of the area stand at its new place. -/
theorem State.retireArea_byte (hwf : memWf s.mem = true) (hup : src + areaSize ≤ dst) {i : Nat} (hi : i < areaSize) :
    (s.retireArea d src dst).byte (hbmAddr d dst + i) = s.byte (hbmAddr d src + i) := by
  have hapart : hbmAddr d src + areaSize ≤ hbmAddr d dst := by
    rw [hbmAddr, hbmAddr, Nat.add_assoc]
    exact Nat.add_le_add_left hup _
  rw [State.retireArea_moves hk halign hfree hfit]
  calc
    _ = ((s.copyPage (hbmAddr d src) (hbmAddr d dst) areaSize).zeroRange (hbmAddr d src) areaSize).byte (hbmAddr d dst + i) := rfl
    _ = (s.copyPage (hbmAddr d src) (hbmAddr d dst) areaSize).byte (hbmAddr d dst + i) := by
      rw [State.byte_zeroRange, if_neg (by omega)]
    _ = s.byte (hbmAddr d src + i) := State.byte_copyPage hwf hi (.inl hapart)

end

theorem State.retirePage_of_unused {s : State} {d src : Nat} (h : (s.leafUses (s.domainIdx d)).find? (fun u => u.meets src 1) = none)
    (dst : Nat) : s.retirePage d src dst = s.retireArea d src dst := by
  simp only [State.retirePage, h]

end Sys2Proof.Machine
end

section
open Sys2Proof Sys2Proof.Machine

/-- Settles O52. The bytes of a page that moves are `State.byte_copyPage`, its page records `State.moveUses_pages`, its leaves
`pte_leafMoved`, and a save area `State.retireArea_strand`. -/
theorem packageEvents : Obligations.PackageEvents := by
  unfold Obligations.PackageEvents
  refine ⟨fun s d c => ?thermal, fun s r => ?rail, fun s b hin => ?scrub, fun s n => ⟨rfl, ?count⟩, fun s r hr => ?telemetry, fun s => rfl,
    fun s d tc i bs hbs => ?image, fun s d src dst u r hu hr hdst hos hapart hfree => ?page, fun s a dst n hwf hapart => ?bytes,
    fun s home pa n d dst key c => State.moveUses_pages, fun b aper pa home => pte_leafMoved b,
    fun s d src dst k y hnone hk halign hfree hfit => ?area⟩
  case thermal =>
    exact ⟨rfl, fun h => exec_next_of_eq rfl (if_pos h), fun h => exec_next_of_eq rfl (if_neg (Nat.not_le.mpr h)),
      State.thermalAt_starts, State.thermalAt_ends, fun hc ht => State.thermalAt_stays (.inl ⟨hc, ht⟩),
      fun hc ht => State.thermalAt_stays (.inr ⟨hc, ht⟩), State.tripOn_trips, State.tripOn_stays⟩
  case rail =>
    obtain ⟨hmem, hstrands, hpkg⟩ := State.void_foldl_fields (railDies r) s
    exact ⟨_, rfl, hmem, hstrands, hpkg, fun d _ => State.void_foldl (railDies r) s d⟩
  case scrub =>
    refine ⟨execPatrolScrub_clean, execPatrolScrub_corrected hin, fun u hu => ⟨fun h => ?_, fun h => ?_⟩⟩
    · exact (execPatrolScrub_uncorrectable hin hu).trans (by rw [if_neg (storeOf_not_sram h)])
    · exact (execPatrolScrub_uncorrectable hin hu).trans (by rw [if_pos (storeOf_sram h)])
  case count => exact storeGet_storePut_same _ _ _ _
  case telemetry =>
    subst hr
    exact ⟨⟨_, rfl, rfl, rfl, rfl⟩, fun h => exec_next_of_eq rfl (State.telemetryTick_early h),
      fun hgood h => ⟨_, exec_next_of_eq rfl (State.telemetryTick_due hgood h), rfl, rfl, rfl⟩⟩
  case image =>
    exact ⟨fun hbound hrows hfeat hpaths => exec_next_of_eq rfl (State.imageLoad_passes hbs hbound hrows hfeat hpaths),
      fun h => exec_next_of_eq rfl (State.imageLoad_fails hbs h)⟩
  case page => exact exec_next_of_eq rfl (State.retirePage_moves hu hr hdst hos hapart hfree)
  case bytes => exact ⟨fun i hi => State.byte_copyPage hwf hi hapart, fun x hx => State.byte_copyPage_other hapart hx⟩
  case area =>
    exact ⟨_, exec_next_of_eq rfl (State.retirePage_of_unused hnone dst), State.retireArea_strand hk halign hfree hfit,
      fun hwf _ hup i hi => State.retireArea_byte hk halign hfree hfit hwf hup hi⟩
end

section
/-! PROOF. Bells, pilot entries, watchdogs and recovery (O50). -/
namespace Sys2Proof.Machine

/-! ## Bells that arrive (R395, R397, R399, R411) -/

section
variable {s : State} {m : BellMsg}

theorem State.bellTake_dropped (h : m.wellSized = false ∨ (s.ctx m.die m.tcid).bind ≠ .run) :
    s.bellTake m = s.modDie m.die (fun d => { d with bellDrops := (d.bellDrops + 1) % 2 ^ 32 }) := if_pos h

section
variable {u : State} (hsize : m.wellSized = true) (hrun : (s.ctx m.die m.tcid).bind = .run)
  (hu : u = s.touchTenant m.die m.tcid ((s.ctx m.die m.tcid).sqva + 4 * m.sqid) 4)
include hsize hrun hu

theorem State.bellTake_unknown (hq : u.bellQueue m.die m.tcid m.sqid = none) :
    s.bellTake m = u.modDie m.die (fun d => { d with bellDrops := (d.bellDrops + 1) % 2 ^ 32 }) := by
  rw [State.bellTake, if_neg (by simp [hsize, hrun])]
  simp only [← hu, hq]

theorem State.bellTake_no_copy {pq : Nat} (hq : u.bellQueue m.die m.tcid m.sqid = some pq) (hc : (u.queue m.die pq).active = none) :
    s.bellTake m = u.queueBad m.die pq := by
  rw [State.bellTake, if_neg (by simp [hsize, hrun])]
  simp only [← hu, hq, hc]

theorem State.bellTake_active {pq : Nat} {fl : Bool} {c : Qcb} (hq : u.bellQueue m.die m.tcid m.sqid = some pq)
    (hc : (u.queue m.die pq).active = some (fl, c)) : s.bellTake m = if c.state = 1 then u.bellJudge m pq c
      else u.modQueue m.die pq (fun q => q.update (fun c => { c with rejected := (c.rejected + 1) % 2 ^ 32 })) := by
  rw [State.bellTake, if_neg (by simp [hsize, hrun])]
  simp only [← hu, hq, hc]

end

/-- A bell that is judged in this package is held by the port of a die that recovers, and else taken. -/
theorem State.bellArrive_here (hhere : m.dev = true → ∀ e ∈ s.bells, e.2.msg = m → e.2.away = false) (hwait : s.bellWaiting m = true) :
    s.bellArrive m = if (s.die m.die).recovering then s.modDie m.die (fun d => { d with bellHeld := d.bellHeld ++ [m] })
      else (s.bellTake m).bellDone m := by
  have hnone : (if m.dev then s.bells.find? (fun e => e.2.msg == m && e.2.away) else none) = none := by
    split
    · next hdev => exact List.find?_eq_none.mpr fun e he => by simpa using hhere hdev e he
    · rfl
  simp only [State.bellArrive, hnone, hwait]
  rfl

theorem State.bellArrive_away {e : Nat × BellFly} (hdev : m.dev = true) (he : s.bells.find? (fun e => e.2.msg == m && e.2.away) = some e) :
    s.bellArrive m = s.bellAway e.1 e.2 := by
  simp only [State.bellArrive, if_pos hdev, he]

end

/-! ## The judgement of a bell (R396, R397) -/

/-- The tag of a bell is its message's, and its sequence number lies after that of its queue. -/
def State.BellGood (s : State) (m : BellMsg) (pq : Nat) (c : Qcb) : Prop :=
  m.tag = bellTag (s.ctx m.die m.tcid).suite (s.queue m.die pq).key (bellMsgBytes m) ∧
    1 ≤ (m.seq + 2 ^ 32 - c.seq) % 2 ^ 32 ∧ (m.seq + 2 ^ 32 - c.seq) % 2 ^ 32 < 2 ^ 31

section
variable {s : State} {m : BellMsg} {pq : Nat} {c : Qcb}

theorem State.bellJudge_bad (hdev : m.dev = false) (hbad : ¬ s.BellGood m pq c) : s.bellJudge m pq c =
    s.modQueue m.die pq (fun q => q.update (fun c => { c with rejected := (c.rejected + 1) % 2 ^ 32 })) := by
  unfold State.bellJudge
  dsimp only
  by_cases htag : m.tag = bellTag (s.ctx m.die m.tcid).suite (s.queue m.die pq).key (bellMsgBytes m)
  · have hseq : (m.seq + 2 ^ 32 - c.seq) % 2 ^ 32 = 0 ∨ 2 ^ 31 - 1 < (m.seq + 2 ^ 32 - c.seq) % 2 ^ 32 := by
      by_contra h
      exact hbad ⟨htag, by omega, by omega⟩
    rw [if_neg fun h => h.2 htag, if_pos]
    exact ⟨hdev, hseq⟩
  · rw [if_pos ⟨hdev, htag⟩]

/-- A bell of the device, or a good one, is judged by its TAIL. -/
theorem State.bellJudge_good (h : m.dev = true ∨ s.BellGood m pq c) : s.bellJudge m pq c =
    if 2 ^ c.log2n < (m.tail + 2 ^ 32 - c.head) % 2 ^ 32 then
      s.queueError m.die pq 2 (fun q => q.update (fun x => { x with state := 2, seq := if m.dev then (c.seq + 1) % 2 ^ 32 else m.seq }))
    else if (m.tail + 2 ^ 32 - c.head) % 2 ^ 32 < (c.tail + 2 ^ 32 - c.head) % 2 ^ 32 then
      s.modQueue m.die pq (fun q => q.update (fun c => { c with rejected := (c.rejected + 1) % 2 ^ 32 }))
    else s.modQueue m.die pq (fun q => q.update (fun x =>
      { x with tail := m.tail, seq := if m.dev then (c.seq + 1) % 2 ^ 32 else m.seq, accepted := (x.accepted + 1) % 2 ^ 32 })) := by
  unfold State.bellJudge
  dsimp only
  rw [if_neg, if_neg]
  · rintro ⟨hdev, hseq⟩
    obtain h | ⟨-, hlo, hhi⟩ := h
    · exact absurd (hdev.symm.trans h) Bool.false_ne_true
    · omega
  · rintro ⟨hdev, htag⟩
    obtain h | ⟨h, -⟩ := h
    · exact absurd (hdev.symm.trans h) Bool.false_ne_true
    · exact htag h

end

/-! ## Entries (R394, R400) -/

theorem State.pilotEntry_takes {s : State} {d l q : Nat} {r : List Nat} (hl : l < 16) (hboot : (s.die d).boot = .inService)
    (hrec : (s.die d).recovering = false) (hidle : (storeGet Lane.reset (s.die d).lanes l).stage = .idle) (hq : s.servable d = q :: r) :
    ∃ p ∈ q :: r, s.pilotEntry d l = ({ s with nfree := s.nfree + 1 } : State).takeEntry d l p := by
  have hpick : Config.pick s.nfree % (r.length + 1) < (q :: r).length := Nat.mod_lt _ (Nat.succ_pos _)
  refine ⟨(q :: r).getD (Config.pick s.nfree % (r.length + 1)) q, ?_, ?_⟩
  · rw [List.getD_eq_getElem _ _ hpick]
    exact List.getElem_mem hpick
  · rw [State.pilotEntry, if_neg (by simp [hboot, hrec, hidle, hl])]
    simp only [hq]

section
variable {s : State} {d q : Nat}

theorem State.takeEntry_no_copy (hc : (s.queue d q).active = none) (l : Nat) : s.takeEntry d l q = s.queueBad d q := by
  simp only [State.takeEntry, hc]

section
variable {fl : Bool} {c : Qcb} (hc : (s.queue d q).active = some (fl, c))
include hc

/-- A handle that names no program, or a program of another context, is an unknown one. -/
theorem State.takeEntry_unknown (hp : (storeFind (s.die d).pilots c.prog).filter (fun p => q == 0 || p.tcid == c.tcid) = none) (l : Nat) :
    s.takeEntry d l q = s.queueError d q 5 (fun q => q.update (fun c => { c with state := 5 })) := by
  simp only [State.takeEntry, hc, hp]

variable {p : Pilot} (hp : (storeFind (s.die d).pilots c.prog).filter (fun p => q == 0 || p.tcid == c.tcid) = some p)
include hp

theorem State.takeEntry_unread
    (hread : s.readEntry d c.tcid (c.ringva + c.head % 2 ^ c.log2n * (64 * 2 ^ c.esz)) (64 * 2 ^ c.esz) = none) (l : Nat) :
    s.takeEntry d l q = s.queueError d q 3 (fun q => q.update (fun c => { c with state := 3 })) := by
  simp only [State.takeEntry, hc, hp, hread]

/-- The lane as it begins an entry (R400). -/
def entryLane (q : Nat) (p : Pilot) (c : Qcb) (pkt scratch : List Byte) : Lane :=
  ⟨.run, q, p.words, 0, storePut 0 [] 7 (BitVec.ofNat 64 c.head), [], pkt, c.bytes.take 64, scratch, c.bytes.drop 64, .none⟩

theorem State.takeEntry_begins {u : State} {pkt : List Byte}
    (hread : s.readEntry d c.tcid (c.ringva + c.head % 2 ^ c.log2n * (64 * 2 ^ c.esz)) (64 * 2 ^ c.esz) = some pkt)
    (hu : u = s.touchTenant d c.tcid (c.ringva + c.head % 2 ^ c.log2n * (64 * 2 ^ c.esz)) (64 * 2 ^ c.esz)) (l : Nat) :
    s.takeEntry d l q = ({ u with nfree := u.nfree + 64 * 2 ^ c.esz } : State).modDie d (fun x =>
      { x with lanes := storeSet x.lanes l (entryLane q p c pkt (u.queue d q).scratch),
               queues := storeMod x.queues q (fun q => { q with lane := some l }) }) := by
  simp only [State.takeEntry, hc, hp, hread, ← hu]
  rfl

end
end

/-- A change of a die that leaves its queues leaves every queue. -/
theorem State.queue_modDie_keeps {f : Die → Die} (hf : ∀ x, (f x).queues = x.queues) (s : State) (e d q : Nat) :
    (s.modDie e f).queue d q = s.queue d q := by
  by_cases h : d = e
  · subst h
    rw [State.queue, State.die_modDie, hf]
    rfl
  · rw [State.queue, State.die_modDie_other _ _ _ _ h]
    rfl

theorem touchLeaf_queue (s : State) (e tcid va : Nat) (w : Bool) (d q : Nat) : (touchLeaf s e tcid va w).queue d q = s.queue d q := by
  unfold touchLeaf
  split
  · rfl
  · dsimp only
    split
    · rfl
    · refine (State.queue_modDie_keeps (fun _ => ?_) _ _ _ _).trans ?_
      · rfl
      · rfl

/-- The translations that a read of a tenant's memory uses leave every queue. -/
theorem State.touchTenant_queue (s : State) (e tcid va n d q : Nat) : (s.touchTenant e tcid va n).queue d q = s.queue d q := by
  refine foldl_keeps (fun s => State.queue s d q) _ (fun s u => ?_) _ s
  split
  · exact touchLeaf_queue ..
  · rfl

/-- At the beginning b7 is HEAD and every other register is zero. -/
theorem entryLane_r (q : Nat) (p : Pilot) (c : Qcb) (pkt scratch : List Byte) :
    (entryLane q p c pkt scratch).r 7 = BitVec.ofNat 64 c.head ∧ ∀ n < 7, (entryLane q p c pkt scratch).r n = 0 :=
  ⟨storeGet_storePut_same _ _ _ _, fun _ hn => storeGet_storePut_other _ _ _ _ _ (Nat.ne_of_lt hn)⟩

/-! ## Watchdogs and recovery (R409 to R411) -/

section
variable {s : State} {d : Nat}

theorem State.watchdogRestart_works (hup : s.inService d = true) (hrec : (s.die d).recovering = false) :
    s.watchdogRestart d = s.modDie d (fun x => { x with watchdogAt := s.time }) := by
  simp [State.watchdogRestart, hup, hrec]

theorem State.watchdogRestart_recovers (hup : s.inService d = true) (hrec : (s.die d).recovering = true) : s.watchdogRestart d = s.reboot d := by
  simp [State.watchdogRestart, hup, hrec]

theorem State.reboot_stuck (hbad : (s.die d).bootBad = true) : s.reboot d = { s with nfree := s.nfree + 2 } := if_pos hbad

theorem State.reboot_passes (hbad : (s.die d).bootBad = false) (h2 : Config.bootPasses d s.nfree = true)
    (h5 : Config.bootPasses d (s.nfree + 1) = true) : s.reboot d = ({ s with nfree := s.nfree + 2 } : State).recovered d := by
  simp [State.reboot, hbad, h2, h5]

/-- A check of the boot that fails leaves the die in boot failure, and reports it. -/
theorem State.reboot_fails (hbad : (s.die d).bootBad = false)
    (h : Config.bootPasses d s.nfree = false ∨ Config.bootPasses d (s.nfree + 1) = false) :
    ∃ r, s.reboot d = (({ s with nfree := s.nfree + 2 } : State).modDie d (fun x => { x with bootBad := true })).report r := by
  cases h2 : Config.bootPasses d s.nfree with
  | false => exact ⟨_, by simp only [State.reboot, State.die_nfree, hbad, h2]; rfl⟩
  | true =>
    have h5 : Config.bootPasses d (s.nfree + 1) = false := h.resolve_left (by simp [h2])
    exact ⟨_, by simp only [State.reboot, State.die_nfree, hbad, h2, h5]; rfl⟩

/-- The end of a recovery of a die with no context, nothing lost, nothing held and no share. -/
theorem State.recovered_idle (hctx : s.boundOn d = []) (hlost : (s.die d).lostEmits = []) (hheld : (s.die d).bellHeld = [])
    (hshares : (s.die d).shares = []) : s.recovered d = s.modDie d (fun x =>
      { x with recovering := false, lostEmits := [], watchdogAt := s.time, harts := hartsUp, bellHeld := [] }) := by
  have hrelease (u : State) (hu : (u.die d).bellHeld = []) : u.bellRelease d = u.modDie d (fun x => { x with bellHeld := [] }) := by
    rw [State.bellRelease, hu]
    rfl
  simp only [State.recovered, hctx, hlost, List.foldl_nil]
  rw [hrelease _ (by rw [State.die_modDie]; exact hheld), State.modDie_modDie]
  exact State.scan_of_no_shares (by rw [State.die_modDie]; exact hshares)

theorem State.recover_not (h : s.inService d = false ∨ (s.die d).recovering = true ∨ s.watched d = false) : s.recover d = s := if_pos h

/-- Recovery begins on a die whose lanes are idle and that has no session. -/
theorem State.recover_idle (hup : s.inService d = true) (hrec : (s.die d).recovering = false) (hwatch : s.watched d = true)
    (hlanes : (s.die d).lanes = []) (hsess : (s.die d).sessions = []) : s.recover d = s.modDie d (fun x =>
      { x with recovering := true, recoverAt := s.time, bootBad := false, harts := Die.reset.harts }) := by
  have hstop : s.lanesStop d = (s, []) := by rw [State.lanesStop, hlanes]; rfl
  rw [State.recover, if_neg (by simp [hup, hrec, hwatch])]
  simp only [hstop, hsess, List.map_nil, List.foldl_nil, List.append_nil]

theorem execWatchdogExpiry_due (h : (s.die d).watchdogAt + 25000 ≤ s.time) : execWatchdogExpiry d s = .next (s.recover d) := by
  rw [execWatchdogExpiry, if_pos h]

theorem execWatchdogExpiry_early (h : s.time < (s.die d).watchdogAt + 25000) : execWatchdogExpiry d s = .next s := by
  rw [execWatchdogExpiry, if_neg (Nat.not_le.mpr h)]

end

/-! ## A die that goes out of service (R412) -/

/-- The dies whose leader has gone take another; nothing else of a die changes. -/
theorem State.die_leaders {α : Type} (g : Die → α) (hg : ∀ x l, g { x with leader := l } = g x) (s : State) (d : Nat) (lead : Option Nat)
    (e : Nat) : g (State.die { s with dies := s.dies.map (fun e => if e.2.leader = some d then (e.1, { e.2 with leader := lead }) else e) } e) =
      g (s.die e) := by
  rw [State.die, storeGet_map_if Die.reset (fun _ x => x.leader = some d) (fun x => { x with leader := lead })]
  split
  · exact hg _ _
  · rfl

/-- A die with no context and no strand goes out of service; with no share waiting on any die, nothing is admitted for it. -/
theorem State.dieOut_idle {s : State} {d : Nat} (hctx : s.boundOn d = []) (hstrands : ∀ e ∈ s.strands, e.2.die ≠ d)
    (hshares : ∀ x < 8, (s.die x).shares = []) : ((s.dieOut d).die d).boot = .outOfService ∧ ((s.dieOut d).die d).recovering = false ∧
    (s.dieOut d).mem = s.mem ∧ (s.dieOut d).strands = s.strands := by
  have hnone : s.strands.filter (fun e => e.2.die == d) = [] := List.filter_eq_nil_iff.mpr fun e he => by simpa using hstrands e he
  simp only [State.dieOut, hctx, hnone, List.map_nil, List.eraseDups_nil, List.foldl_nil]
  generalize hout : s.modDie d (fun x => { x with boot := .outOfService, recovering := false, bootBad := false, lostEmits := [] }) = v
  have hv : (v.die d).boot = .outOfService ∧ (v.die d).recovering = false := by rw [← hout, State.die_modDie]; exact ⟨rfl, rfl⟩
  rw [State.scanAll_of_no_shares]
  · subst hout
    exact ⟨(State.die_leaders Die.boot (fun _ _ => rfl) _ _ _ _).trans hv.1,
      (State.die_leaders Die.recovering (fun _ _ => rfl) _ _ _ _).trans hv.2, rfl, rfl⟩
  · intro e he
    refine (State.die_leaders Die.shares (fun _ _ => rfl) _ _ _ _).trans ?_
    rw [← hout]
    by_cases h : e = d
    · subst h
      rw [State.die_modDie]
      exact hshares e he
    · rw [State.die_modDie_other _ _ _ _ h]
      exact hshares e he

end Sys2Proof.Machine
end

section
open Sys2Proof Sys2Proof.Machine

/-- Settles O50. What a bell comes to is `State.bellArrive_here` with `State.bellTake_active` and `State.bellJudge_good`; an entry begins by
`State.takeEntry_begins`; the end of a recovery and of a die's service are `State.recovered_idle` and `State.dieOut_idle`. -/
theorem queueEvents : Obligations.QueueEvents := by
  unfold Obligations.QueueEvents
  refine ⟨fun s m hhere hwait => ⟨fun hrec => ?held, fun hrec => ?taken⟩, fun s m pq c => ⟨State.bellJudge_bad, fun h => ?judged⟩,
    fun s m e hdev he => exec_next_of_eq rfl (State.bellArrive_away hdev he), fun s d l q r hl hboot hrec hidle hq => ?lane,
    fun s d l q => ⟨fun hc => State.takeEntry_no_copy hc l, fun fl c hc => ?entry⟩, fun s d hup => ?restart,
    fun s d => ⟨fun hbad => ?stuck, fun hbad => ⟨State.reboot_passes hbad, fun h => ?fails⟩⟩,
    fun s d hctx hlost hheld hshares => ?recovered, fun s d => ?recover, fun s d hrec => ⟨fun h => ?early, fun h => ⟨?due, ?out⟩⟩⟩
  case held => exact exec_next_of_eq rfl ((State.bellArrive_here hhere hwait).trans (if_pos hrec))
  case taken =>
    refine ⟨exec_next_of_eq rfl ((State.bellArrive_here hhere hwait).trans (if_neg (by simp [hrec]))), fun h => State.bellTake_dropped (.inl h),
      fun h => State.bellTake_dropped (.inr h), fun hsize hrun => ⟨State.bellTake_unknown hsize hrun rfl, fun pq hq =>
        ⟨State.bellTake_no_copy hsize hrun rfl hq, fun fl c hc => ⟨fun hst => ?_, fun hst => ?_⟩⟩⟩⟩
    · rw [State.bellTake_active hsize hrun rfl hq hc, if_neg hst]
    · rw [State.bellTake_active hsize hrun rfl hq hc, if_pos hst]
  case judged =>
    refine ⟨fun h1 => ?_, fun h1 h2 => ?_, fun h1 h2 => ?_⟩
    · rw [State.bellJudge_good h, if_pos h1]
    · rw [State.bellJudge_good h, if_neg (Nat.not_lt.mpr h1), if_pos h2]
    · rw [State.bellJudge_good h, if_neg (Nat.not_lt.mpr h1), if_neg (Nat.not_lt.mpr h2)]
  case lane =>
    obtain ⟨p, hp, htakes⟩ := State.pilotEntry_takes hl hboot hrec hidle hq
    exact ⟨p, hp, exec_next_of_eq rfl htakes⟩
  case entry =>
    refine ⟨fun hp => State.takeEntry_unknown hc (by rw [hp]; rfl) l, fun p hp => ⟨fun hq ht => ?_, fun ht => ?_⟩⟩
    · exact State.takeEntry_unknown hc (by simp [hp, hq, ht]) l
    · have hown : (storeFind (s.die d).pilots c.prog).filter (fun p => q == 0 || p.tcid == c.tcid) = some p := by
        rcases ht with ht | ht <;> simp [hp, ht]
      refine ⟨fun hread => State.takeEntry_unread hc hown hread l, fun pkt hread => ⟨entryLane q p c pkt (s.queue d q).scratch, ?_⟩⟩
      obtain ⟨h7, h0⟩ := entryLane_r q p c pkt (s.queue d q).scratch
      rw [State.takeEntry_begins hc hown hread rfl, State.die_modDie, State.touchTenant_queue]
      exact ⟨storeGet_storeSet_same _ _ _ _, rfl, rfl, rfl, rfl, rfl, rfl, h7, h0, rfl⟩
  case restart =>
    exact ⟨fun hrec => exec_next_of_eq rfl (State.watchdogRestart_works hup hrec),
      fun hrec => exec_next_of_eq rfl (State.watchdogRestart_recovers hup hrec)⟩
  case stuck =>
    rw [State.reboot_stuck hbad]
    exact ⟨rfl, rfl⟩
  case fails =>
    obtain ⟨r, hr⟩ := State.reboot_fails hbad h
    rw [hr, State.die_report, State.die_modDie]
    exact ⟨rfl, rfl, rfl, rfl⟩
  case recovered =>
    rw [State.recovered_idle hctx hlost hheld hshares, State.die_modDie]
    exact ⟨rfl, rfl, rfl, rfl⟩
  case recover => exact ⟨rfl, execWatchdogExpiry_due, execWatchdogExpiry_early, State.recover_not, State.recover_idle⟩
  case early => exact exec_next_of_eq rfl (if_neg fun hdue => Nat.not_le.mpr h hdue.2)
  case due => exact exec_next_of_eq rfl (if_pos ⟨hrec, h⟩)
  case out => exact State.dieOut_idle
end

section
/-! PROOF. Decoding gives back what was encoded (O59).

An encoding is a list of fields with their widths, packed into a word. `fld_pack_low` and `fld_pack_high` read such a word field by field; with them
each kind of operands has one lemma, `X.reads`: its reader gives the operands back, and the opcode stands where the decoder looks for it. The
slot's row for that opcode is then the one that reads the operation (`reads_row`), and the decoder's check that encoding gives the same bits
is met. -/
namespace Sys2Proof

/-! ## Words from fields (R8) -/

/-- A part of the lowest field. -/
@[simp] theorem fld_pack_low (r : List (Nat × Nat)) {len v lo n : Nat} (h : lo + n ≤ len) : fld (pack ((len, v) :: r)) lo n = fld v lo n := by
  obtain ⟨m, rfl⟩ := Nat.exists_eq_add_of_le h
  have hsplit : v + 2 ^ (lo + n + m) * pack r = v + 2 ^ lo * (2 ^ n * (2 ^ m * pack r)) := by simp only [Nat.pow_add, Nat.mul_assoc]
  rw [pack, hsplit, fld, Nat.add_mul_div_left _ _ (Nat.two_pow_pos lo), Nat.add_mul_mod_self_left, ← fld]

/-- Bits above the lowest field. -/
@[simp] theorem fld_pack_high (r : List (Nat × Nat)) {len v lo n : Nat} (hv : v < 2 ^ len) (h : len ≤ lo) :
    fld (pack ((len, v) :: r)) lo n = fld (pack r) (lo - len) n := by
  obtain ⟨m, rfl⟩ := Nat.exists_eq_add_of_le h
  rw [pack, fld, Nat.pow_add, ← Nat.div_div_eq_div_mul, Nat.add_mul_div_left _ _ (Nat.two_pow_pos len), Nat.div_eq_of_lt hv,
    Nat.zero_add, Nat.add_sub_cancel_left, ← fld]

/-- A value that fits its field is all of it. -/
@[simp] theorem fld_of_lt {v n : Nat} (h : v < 2 ^ n) : fld v 0 n = v := by
  rw [fld, Nat.pow_zero, Nat.div_one, Nat.mod_eq_of_lt h]

@[simp] theorem flg_pack_low (r : List (Nat × Nat)) {len v lo : Nat} (h : lo + 1 ≤ len) : flg (pack ((len, v) :: r)) lo = flg v lo := by
  rw [flg, fld_pack_low r h, ← flg]

@[simp] theorem flg_pack_high (r : List (Nat × Nat)) {len v lo : Nat} (hv : v < 2 ^ len) (h : len ≤ lo) :
    flg (pack ((len, v) :: r)) lo = flg (pack r) (lo - len) := by
  rw [flg, fld_pack_high r hv h, ← flg]

@[simp] theorem flg_toNat (b : Bool) : flg b.toNat 0 = b := by cases b <;> rfl

/-- Fields that fit make a word of their widths together. -/
theorem pack_lt {l : List (Nat × Nat)} (h : ∀ f ∈ l, f.2 < 2 ^ f.1) : pack l < 2 ^ (l.map Prod.fst).sum := by
  induction l with
  | nil => exact Nat.one_pos
  | cons f r ih =>
    obtain ⟨hf, hr⟩ := List.forall_mem_cons.mp h
    have hmul : 2 ^ f.1 * (pack r + 1) ≤ 2 ^ f.1 * 2 ^ (r.map Prod.fst).sum := Nat.mul_le_mul_left _ (ih hr)
    rw [List.map_cons, List.sum_cons, Nat.pow_add, pack]
    rw [Nat.mul_add] at hmul
    omega

@[simp] theorem ite_eq_b (f : VFile) : (if f = .b then VFile.b else .a) = f := by cases f <;> rfl

@[simp] theorem flg_zero : flg 0 0 = false := rfl
@[simp] theorem flg_one : flg 1 0 = true := rfl

/-- A bit is set as its field of one bit says. -/
theorem flg_of_fld {w lo : Nat} {b : Bool} (h : fld w lo 1 = b.toNat) : flg w lo = b := by
  rw [flg, h]
  cases b <;> rfl

/-! ## Parts of fields -/

@[simp] theorem Coord.num_lt {c : Coord} (h : c.v < 64) : c.num < 128 := by
  have hi := Bool.toNat_le c.i
  simp only [Coord.num]
  omega

@[simp] theorem Coord.fld_num {c : Coord} (h : c.v < 64) : fld c.num 0 6 = c.v := by
  simp only [fld, Coord.num]
  omega

@[simp] theorem Coord.flg_num {c : Coord} (h : c.v < 64) : flg c.num 6 = c.i := by
  have hi := Bool.toNat_le c.i
  apply flg_of_fld
  simp only [fld, Coord.num]
  omega

@[simp] theorem xH_lt {h : Bool} {n : Nat} (hn : n < 16) : xH h n < 128 := by
  have hh := Bool.toNat_le h
  simp only [xH]
  omega

@[simp] theorem fld_xH {h : Bool} {n : Nat} (hn : n < 16) : fld (xH h n) 2 4 = n := by
  simp only [fld, xH]
  omega

@[simp] theorem flg_xH {h : Bool} {n : Nat} (hn : n < 16) : flg (xH h n) 6 = h := by
  have hh := Bool.toNat_le h
  apply flg_of_fld
  simp only [fld, xH]
  omega

theorem hlNum_lt {hl : Option Nat} (h : latchWf hl = true) : hlNum hl < 32 := by
  cases hl with
  | none => decide
  | some n => simp [latchWf] at h; simp only [hlNum]; omega

theorem hl_of_hlNum {hl : Option Nat} (h : latchWf hl = true) : (if flg (hlNum hl) 0 then some (fld (hlNum hl) 1 4) else none) = hl := by
  cases hl with
  | none => rfl
  | some n =>
    simp [latchWf] at h
    have hrt : flg (hlNum (some n)) 0 = true := flg_of_fld (by simp only [fld, hlNum, Bool.toNat_true]; omega)
    have hn : fld (hlNum (some n)) 1 4 = n := by simp only [fld, hlNum]; omega
    rw [if_pos hrt, hn]

@[simp] theorem tyFloatArith_lt {t : Nat} (h : tyFloatArith t = true) : t < 16 := by simp [tyFloatArith] at h; omega
@[simp] theorem tyInt_lt {t : Nat} (h : tyInt t = true) : t < 16 := by simp [tyInt] at h; omega
@[simp] theorem tyAny_lt {t : Nat} (h : tyAny t = true) : t < 16 := by simp [tyAny] at h; omega

/-! ## Operands read from their encodings -/

/-- A word of 64 bits that has an opcode and reads as some operands. -/
abbrev Reads {α : Type} (opc : Nat) (get : Nat → α) (w : Nat) (o : α) : Prop := w < 2 ^ 64 ∧ fld w 56 8 = opc ∧ get w = o

section
variable {opc : Nat} (hopc : opc < 256)
include hopc
/-! ### The S slot -/

theorem RRR.reads {o : RRR} (h : o.wf = true) : Reads opc RRR.get (RRR.enc opc o) o := by
  simp [RRR.wf, Guard.wf] at h
  refine ⟨pack_lt (by simp [Bool.toNat_le, *]), ?_, ?_⟩
  all_goals simp [RRR.get, RRR.enc, encSR, enc64, guard64, Bool.toNat_le, *]

theorem RRI.reads {o : RRI} (h : o.wf = true) : Reads opc RRI.get (RRI.enc opc o) o := by
  simp [RRI.wf, Guard.wf] at h
  refine ⟨pack_lt (by simp [Bool.toNat_le, *]), ?_, ?_⟩
  all_goals simp [RRI.get, RRI.enc, encSR, enc64, guard64, Bool.toNat_le, *]

theorem RRS.reads {o : RRS} (h : o.wf (2 ^ 32) = true) : Reads opc RRS.get (RRS.enc opc o) o := by
  obtain ⟨g, sd, sa, b⟩ := o
  cases b
  all_goals
    simp [RRS.wf, Guard.wf, Src.wf] at h
    refine ⟨pack_lt (by simp [Bool.toNat_le, *]), ?_, ?_⟩
    all_goals simp [RRS.get, RRS.enc, encSR, enc64, guard64, Bool.toNat_le, srcSR, *]

theorem RRS.readsShift {o : RRS} (h : o.wf 64 = true) : Reads opc RRS.getShift (RRS.enc opc o) o := by
  obtain ⟨g, sd, sa, r | v⟩ := o
  · simp [RRS.wf, Guard.wf, Src.wf] at h
    refine ⟨pack_lt (by simp [Bool.toNat_le, *]), ?_, ?_⟩
    all_goals simp [RRS.getShift, RRS.enc, encSR, enc64, guard64, Bool.toNat_le, *]
  · simp [RRS.wf, Guard.wf, Src.wf] at h
    have hv : v < 4294967296 := by omega
    refine ⟨pack_lt (by simp [Bool.toNat_le, *]), ?_, ?_⟩
    all_goals simp [RRS.getShift, RRS.enc, encSR, enc64, guard64, Bool.toNat_le, *]

theorem RR.reads {o : RR} (h : o.wf = true) : Reads opc RR.get (RR.enc opc o) o := by
  simp [RR.wf, Guard.wf] at h
  refine ⟨pack_lt (by simp [Bool.toNat_le, *]), ?_, ?_⟩
  all_goals simp [RR.get, RR.enc, encSR, enc64, guard64, Bool.toNat_le, *]

theorem SelOps.reads {o : SelOps} (h : o.wf = true) : Reads opc SelOps.get (SelOps.enc opc o) o := by
  simp [SelOps.wf, Guard.wf] at h
  have hk : o.k < 4294967296 := by omega
  refine ⟨pack_lt (by simp [Bool.toNat_le, *]), ?_, ?_⟩
  all_goals simp [SelOps.get, SelOps.enc, encSR, enc64, guard64, Bool.toNat_le, *]

theorem RI.reads {o : RI} (h : o.wf = true) : Reads opc RI.get (RI.enc opc o) o := by
  simp [RI.wf, Guard.wf] at h
  refine ⟨pack_lt (by simp [Bool.toNat_le, *]), ?_, ?_⟩
  all_goals simp [RI.get, RI.enc, encSR, enc64, guard64, Bool.toNat_le, *]

theorem CmpOps.reads {o : CmpOps} (h : o.wf = true) : Reads opc CmpOps.get (CmpOps.enc opc o) o := by
  simp [CmpOps.wf, Guard.wf] at h
  refine ⟨pack_lt (by simp [Bool.toNat_le, *]), ?_, ?_⟩
  all_goals simp [CmpOps.get, CmpOps.enc, encSC, enc64, guard64, Bool.toNat_le, *]

theorem CmpIOps.reads {o : CmpIOps} (h : o.wf = true) : Reads opc CmpIOps.get (CmpIOps.enc opc o) o := by
  simp [CmpIOps.wf, Guard.wf] at h
  refine ⟨pack_lt (by simp [Bool.toNat_le, *]), ?_, ?_⟩
  all_goals simp [CmpIOps.get, CmpIOps.enc, encSC, enc64, guard64, Bool.toNat_le, *]

theorem PPP.reads {o : PPP} (h : o.wf = true) : Reads opc PPP.get (PPP.enc opc o) o := by
  simp [PPP.wf, Guard.wf] at h
  refine ⟨pack_lt (by simp [Bool.toNat_le, *]), ?_, ?_⟩
  all_goals simp [PPP.get, PPP.enc, encSQ, enc64, guard64, Bool.toNat_le, *]

theorem PP.reads {o : PP} (h : o.wf = true) : Reads opc PP.get (PP.enc opc o) o := by
  simp [PP.wf, Guard.wf] at h
  refine ⟨pack_lt (by simp [Bool.toNat_le, *]), ?_, ?_⟩
  all_goals simp [PP.get, PP.enc, encSQ, enc64, guard64, Bool.toNat_le, *]

theorem BrOps.reads {o : BrOps} (h : o.wf = true) : Reads opc BrOps.get (BrOps.enc opc o) o := by
  simp [BrOps.wf, Guard.wf] at h
  refine ⟨pack_lt (by simp [Bool.toNat_le, *]), ?_, ?_⟩
  all_goals simp [BrOps.get, BrOps.enc, encSR, enc64, guard64, Bool.toNat_le, *]

theorem BriOps.reads {o : BriOps} (h : o.wf = true) : Reads opc BriOps.get (BriOps.enc opc o) o := by
  simp [BriOps.wf, Guard.wf] at h
  refine ⟨pack_lt (by simp [Bool.toNat_le, *]), ?_, ?_⟩
  all_goals simp [BriOps.get, BriOps.enc, encSR, enc64, guard64, Bool.toNat_le, *]

theorem Guard.readsS {g : Guard} (h : g.wf = true) : Reads opc guard64 (Guard.encS opc g) g := by
  simp [Guard.wf] at h
  refine ⟨pack_lt (by simp [Bool.toNat_le, *]), ?_, ?_⟩
  all_goals simp [Guard.encS, encSR, enc64, guard64, Bool.toNat_le, *]

theorem CsrrOps.reads {o : CsrrOps} (h : o.wf = true) : Reads opc CsrrOps.get (CsrrOps.enc opc o) o := by
  simp [CsrrOps.wf, Guard.wf] at h
  have hcsr : o.csr < 4294967296 := by omega
  refine ⟨pack_lt (by simp [Bool.toNat_le, *]), ?_, ?_⟩
  all_goals simp [CsrrOps.get, CsrrOps.enc, encSR, enc64, guard64, Bool.toNat_le, *]

theorem CsrwOps.reads {o : CsrwOps} (h : o.wf = true) : Reads opc CsrwOps.get (CsrwOps.enc opc o) o := by
  simp [CsrwOps.wf, Guard.wf] at h
  have hcsr : o.csr < 4294967296 := by omega
  refine ⟨pack_lt (by simp [Bool.toNat_le, *]), ?_, ?_⟩
  all_goals simp [CsrwOps.get, CsrwOps.enc, encSR, enc64, guard64, Bool.toNat_le, *]

theorem CodeOps.reads {o : CodeOps} (h : o.wf = true) : Reads opc CodeOps.get (CodeOps.enc opc o) o := by
  simp [CodeOps.wf, Guard.wf] at h
  have hcode : o.code < 4294967296 := by omega
  refine ⟨pack_lt (by simp [Bool.toNat_le, *]), ?_, ?_⟩
  all_goals simp [CodeOps.get, CodeOps.enc, encSR, enc64, guard64, Bool.toNat_le, *]

theorem LaywOps.reads {o : LaywOps} (h : o.wf = true) : Reads opc LaywOps.get (LaywOps.enc opc o) o := by
  simp [LaywOps.wf, Guard.wf] at h
  have himm : o.n + 64 * o.k < 4294967296 := by omega
  have hn : fld (o.n + 64 * o.k) 0 6 = o.n := by simp only [fld]; omega
  have hk : fld (o.n + 64 * o.k) 6 2 = o.k := by simp only [fld]; omega
  refine ⟨pack_lt (by simp [Bool.toNat_le, *]), ?_, ?_⟩
  all_goals simp [LaywOps.get, LaywOps.enc, encSR, enc64, guard64, Bool.toNat_le, *]

theorem LayrOps.reads {o : LayrOps} (h : o.wf = true) : Reads opc LayrOps.get (LayrOps.enc opc o) o := by
  simp [LayrOps.wf, Guard.wf] at h
  have himm : o.n + 64 * o.k < 4294967296 := by omega
  have hn : fld (o.n + 64 * o.k) 0 6 = o.n := by simp only [fld]; omega
  have hk : fld (o.n + 64 * o.k) 6 2 = o.k := by simp only [fld]; omega
  refine ⟨pack_lt (by simp [Bool.toNat_le, *]), ?_, ?_⟩
  all_goals simp [LayrOps.get, LayrOps.enc, encSR, enc64, guard64, Bool.toNat_le, *]

theorem MovhOps.reads {o : MovhOps} (h : o.wf = true) : Reads opc MovhOps.get (MovhOps.enc opc o) o := by
  simp [MovhOps.wf, Guard.wf] at h
  have hbit := Bool.toNat_le o.keep
  have himm : o.h + 16 * o.w + 256 * o.keep.toNat < 4294967296 := by omega
  have hh : fld (o.h + 16 * o.w + 256 * o.keep.toNat) 0 4 = o.h := by simp only [fld]; omega
  have hw : fld (o.h + 16 * o.w + 256 * o.keep.toNat) 4 4 = o.w := by simp only [fld]; omega
  have hkeep : flg (o.h + 16 * o.w + 256 * o.keep.toNat) 8 = o.keep := flg_of_fld (by simp only [fld]; omega)
  refine ⟨pack_lt (by simp [Bool.toNat_le, *]), ?_, ?_⟩
  all_goals simp [MovhOps.get, MovhOps.enc, encSR, enc64, guard64, Bool.toNat_le, *]

/-! ### The vector slots -/

theorem V3R.reads {o : V3R} (h : o.wf = true) : Reads opc (V3R.get o.f) (V3R.enc opc o) o := by
  simp [V3R.wf, Guard.wf] at h
  refine ⟨pack_lt (by simp [Bool.toNat_le, *]), ?_, ?_⟩
  all_goals simp [V3R.get, V3R.enc, encV3, enc64, guard64, Bool.toNat_le, *]

theorem V4R.reads {o : V4R} (h : o.wf = true) : Reads opc (V4R.get o.f) (V4R.enc opc o) o := by
  simp [V4R.wf, Guard.wf] at h
  refine ⟨pack_lt (by simp [Bool.toNat_le, *]), ?_, ?_⟩
  all_goals simp [V4R.get, V4R.enc, encV3, enc64, guard64, Bool.toNat_le, *]

theorem V2R.reads {o : V2R} (h : o.wf = true) : Reads opc (V2R.get o.f) (V2R.enc opc o) o := by
  simp [V2R.wf, Guard.wf] at h
  refine ⟨pack_lt (by simp [Bool.toNat_le, *]), ?_, ?_⟩
  all_goals simp [V2R.get, V2R.enc, encV3, enc64, guard64, Bool.toNat_le, *]

theorem V3O.reads {o : V3O} (h : o.wf = true) : Reads opc (V3O.get o.f) (V3O.enc opc o) o := by
  simp [V3O.wf, Guard.wf] at h
  refine ⟨pack_lt (by simp [Bool.toNat_le, *]), ?_, ?_⟩
  all_goals simp [V3O.get, V3O.enc, encV3, enc64, guard64, Bool.toNat_le, *]

theorem V3L.reads {o : V3L} (h : o.wf = true) : Reads opc (V3L.get o.f) (V3L.enc opc o) o := by
  simp [V3L.wf, Guard.wf] at h
  refine ⟨pack_lt (by simp [Bool.toNat_le, *]), ?_, ?_⟩
  all_goals simp [V3L.get, V3L.enc, encV3, enc64, guard64, Bool.toNat_le, *]

theorem VQOps.reads {o : VQOps} (h : o.wf = true) : Reads opc (VQOps.get o.f) (VQOps.enc opc o) o := by
  simp [VQOps.wf, Guard.wf] at h
  refine ⟨pack_lt (by simp [Bool.toNat_le, *]), ?_, ?_⟩
  all_goals simp [VQOps.get, VQOps.enc, encV3, enc64, guard64, Bool.toNat_le, *]

theorem VScaleOps.reads {o : VScaleOps} (h : o.wf = true) : Reads opc (VScaleOps.get o.f) (VScaleOps.enc opc o) o := by
  simp [VScaleOps.wf, Guard.wf] at h
  refine ⟨pack_lt (by simp [Bool.toNat_le, *]), ?_, ?_⟩
  all_goals simp [VScaleOps.get, VScaleOps.enc, encV3, enc64, guard64, Bool.toNat_le, *]

theorem V2L.reads {o : V2L} (h : o.wf = true) : Reads opc (V2L.get o.f) (V2L.enc opc o) o := by
  simp [V2L.wf, Guard.wf] at h
  refine ⟨pack_lt (by simp [Bool.toNat_le, *]), ?_, ?_⟩
  all_goals simp [V2L.get, V2L.enc, encV3, enc64, guard64, Bool.toNat_le, *]

theorem VSelOps.reads {o : VSelOps} (h : o.wf = true) : Reads opc (VSelOps.get o.f) (VSelOps.enc opc o) o := by
  simp [VSelOps.wf, Guard.wf] at h
  have hsel : o.sel < 16 := by omega
  refine ⟨pack_lt (by simp [Bool.toNat_le, *]), ?_, ?_⟩
  all_goals simp [VSelOps.get, VSelOps.enc, encV3, enc64, guard64, Bool.toNat_le, *]

theorem V3T.reads {o : V3T} {ok : Nat → Bool} (h : o.wf ok = true) : Reads opc (V3T.get o.f) (V3T.enc opc o) o := by
  simp [V3T.wf, Guard.wf] at h
  refine ⟨pack_lt (by simp [Bool.toNat_le, *]), ?_, ?_⟩
  all_goals simp [V3T.get, V3T.enc, encV3, enc64, guard64, Bool.toNat_le, *]

theorem V2T.reads {o : V2T} {ok : Nat → Bool} (h : o.wf ok = true) : Reads opc (V2T.get o.f) (V2T.enc opc o) o := by
  simp [V2T.wf, Guard.wf] at h
  refine ⟨pack_lt (by simp [Bool.toNat_le, *]), ?_, ?_⟩
  all_goals simp [V2T.get, V2T.enc, encV3, enc64, guard64, Bool.toNat_le, *]

theorem VCvtOps.reads {o : VCvtOps} {okd oks : Nat → Bool} (h : o.wf okd oks = true) : Reads opc (VCvtOps.get o.f) (VCvtOps.enc opc o) o := by
  simp [VCvtOps.wf, Guard.wf] at h
  refine ⟨pack_lt (by simp [Bool.toNat_le, *]), ?_, ?_⟩
  all_goals simp [VCvtOps.get, VCvtOps.enc, encV3, enc64, guard64, Bool.toNat_le, *]

theorem VCmpOps.reads {o : VCmpOps} (h : o.wf = true) : Reads opc (VCmpOps.get o.f) (VCmpOps.enc opc o) o := by
  simp [VCmpOps.wf, Guard.wf] at h
  have hmd : o.md < 512 := by omega
  have hcond : o.cond < 16 := by omega
  have hty : o.ty < 16 := h.2.elim (fun h => tyFloatArith_lt h.1) (fun h => tyInt_lt h.1)
  refine ⟨pack_lt (by simp [Bool.toNat_le, *]), ?_, ?_⟩
  all_goals simp [VCmpOps.get, VCmpOps.enc, encV3, enc64, guard64, Bool.toNat_le, *]

theorem VSS.reads {o : VSS} {ok : Nat → Bool} (h : o.wf ok = true) : Reads opc (VSS.get o.f) (VSS.enc opc o) o := by
  obtain ⟨f, g, vd, vs1, b, msel, ty⟩ := o
  cases b
  all_goals
    simp [VSS.wf, Guard.wf, Src.wf] at h
    refine ⟨pack_lt (by simp [Bool.toNat_le, *]), ?_, ?_⟩
    all_goals simp [VSS.get, VSS.enc, encVS, enc64, guard64, Bool.toNat_le, srcVS, *]

theorem VBcastOps.reads {o : VBcastOps} (h : o.wf = true) : Reads opc (VBcastOps.get o.f) (VBcastOps.enc opc o) o := by
  obtain ⟨f, g, vd, b, msel, ty⟩ := o
  cases b
  all_goals
    simp [VBcastOps.wf, Guard.wf, Src.wf] at h
    refine ⟨pack_lt (by simp [Bool.toNat_le, *]), ?_, ?_⟩
    all_goals simp [VBcastOps.get, VBcastOps.enc, encVS, enc64, guard64, Bool.toNat_le, srcVS, *]

theorem VLaneOps.reads {o : VLaneOps} (h : o.wf = true) : Reads opc (VLaneOps.get o.f) (VLaneOps.enc opc o) o := by
  obtain ⟨f, g, sd, vs1, b, ty⟩ := o
  cases b
  all_goals
    simp [VLaneOps.wf, Guard.wf, Src.wf] at h
    have hsd : sd < 512 := by omega
    refine ⟨pack_lt (by simp [Bool.toNat_le, *]), ?_, ?_⟩
    all_goals simp [VLaneOps.get, VLaneOps.enc, encVS, enc64, guard64, Bool.toNat_le, srcVS, *]

theorem MMM.reads {o : MMM} (h : o.wf = true) : Reads opc (MMM.get o.f) (MMM.enc opc o) o := by
  simp [MMM.wf, Guard.wf] at h
  refine ⟨pack_lt (by simp [Bool.toNat_le, *]), ?_, ?_⟩
  all_goals simp [MMM.get, MMM.enc, encVM, enc64, guard64, Bool.toNat_le, *]

theorem MM.reads {o : MM} (h : o.wf = true) : Reads opc (MM.get o.f) (MM.enc opc o) o := by
  simp [MM.wf, Guard.wf] at h
  refine ⟨pack_lt (by simp [Bool.toNat_le, *]), ?_, ?_⟩
  all_goals simp [MM.get, MM.enc, encVM, enc64, guard64, Bool.toNat_le, *]

theorem MPopOps.reads {o : MPopOps} (h : o.wf = true) : Reads opc (MPopOps.get o.f) (MPopOps.enc opc o) o := by
  simp [MPopOps.wf, Guard.wf] at h
  refine ⟨pack_lt (by simp [Bool.toNat_le, *]), ?_, ?_⟩
  all_goals simp [MPopOps.get, MPopOps.enc, encVM, enc64, guard64, Bool.toNat_le, *]

theorem VMovhOps.reads {o : VMovhOps} (h : o.wf = true) : Reads opc (VMovhOps.get o.f) (VMovhOps.enc opc o) o := by
  simp [VMovhOps.wf, Guard.wf] at h
  have hbit := Bool.toNat_le o.keep
  have himm : o.h + 16 * o.keep.toNat < 2048 := by omega
  have hh : fld (o.h + 16 * o.keep.toNat) 0 4 = o.h := by simp only [fld]; omega
  have hkeep : flg (o.h + 16 * o.keep.toNat) 4 = o.keep := flg_of_fld (by simp only [fld]; omega)
  refine ⟨pack_lt (by simp [Bool.toNat_le, *]), ?_, ?_⟩
  all_goals simp [VMovhOps.get, VMovhOps.enc, encVS, enc64, guard64, Bool.toNat_le, *]

/-! ### The matrix slot -/

theorem MparOps.reads {o : MparOps} (h : o.wf = true) : Reads opc MparOps.get (MparOps.enc opc o) o := by
  simp [MparOps.wf, Guard.wf] at h
  refine ⟨pack_lt (by simp [Bool.toNat_le, *]), ?_, ?_⟩
  all_goals simp [MparOps.get, MparOps.enc, encMX, enc64, guard64, Bool.toNat_le, *]

theorem MtOps.reads {o : MtOps} (h : o.wf = true) : Reads opc MtOps.get (MtOps.enc opc o) o := by
  simp [MtOps.wf, Guard.wf] at h
  refine ⟨pack_lt (by simp [Bool.toNat_le, *]), ?_, ?_⟩
  all_goals simp [MtOps.get, MtOps.enc, encMX, enc64, guard64, Bool.toNat_le, *]

theorem MfmtOps.reads {o : MfmtOps} (h : o.wf = true) : Reads opc MfmtOps.get (MfmtOps.enc opc o) o := by
  simp [MfmtOps.wf, Guard.wf] at h
  have hk : o.k < 65536 := by omega
  refine ⟨pack_lt (by simp [Bool.toNat_le, *]), ?_, ?_⟩
  all_goals simp [MfmtOps.get, MfmtOps.enc, encMX, enc64, guard64, Bool.toNat_le, *]

theorem MstatOps.reads {o : MstatOps} (h : o.wf = true) : Reads opc MstatOps.get (MstatOps.enc opc o) o := by
  simp [MstatOps.wf, Guard.wf] at h
  have hsel : o.sel < 65536 := by omega
  refine ⟨pack_lt (by simp [Bool.toNat_le, *]), ?_, ?_⟩
  all_goals simp [MstatOps.get, MstatOps.enc, encMX, enc64, guard64, Bool.toNat_le, *]

theorem MldsOps.reads {o : MldsOps} (h : o.wf = true) : Reads opc MldsOps.get (MldsOps.enc opc o) o := by
  simp [MldsOps.wf, Guard.wf] at h
  have himm : o.plane + 2 * o.row < 65536 := by omega
  have hplane : fld (o.plane + 2 * o.row) 0 1 = o.plane := by simp only [fld]; omega
  have hrow : fld (o.plane + 2 * o.row) 1 7 = o.row := by simp only [fld]; omega
  refine ⟨pack_lt (by simp [Bool.toNat_le, *]), ?_, ?_⟩
  all_goals simp [MldsOps.get, MldsOps.enc, encMX, enc64, guard64, Bool.toNat_le, flAt, *]

theorem MplaneOps.reads {o : MplaneOps} (h : o.wf = true) : Reads opc MplaneOps.get (MplaneOps.enc opc o) o := by
  simp [MplaneOps.wf, Guard.wf] at h
  have himm : o.plane + 2 * o.le + 128 * o.tile < 65536 := by omega
  have hplane : fld (o.plane + 2 * o.le + 128 * o.tile) 0 1 = o.plane := by simp only [fld]; omega
  have hle : fld (o.plane + 2 * o.le + 128 * o.tile) 1 6 = o.le := by simp only [fld]; omega
  have htile : fld (o.plane + 2 * o.le + 128 * o.tile) 7 9 = o.tile := by simp only [fld]; omega
  refine ⟨pack_lt (by simp [Bool.toNat_le, *]), ?_, ?_⟩
  all_goals simp [MplaneOps.get, MplaneOps.enc, encMX, enc64, guard64, Bool.toNat_le, *]

theorem MrwOps.reads {o : MrwOps} (h : o.wf = true) : Reads opc MrwOps.get (MrwOps.enc opc o) o := by
  simp [MrwOps.wf, Guard.wf] at h
  have hbit := Bool.toNat_le o.raw
  have himm : o.row + 128 * o.seg + 2048 * o.raw.toNat < 65536 := by omega
  have hrow : fld (o.row + 128 * o.seg + 2048 * o.raw.toNat) 0 7 = o.row := by simp only [fld]; omega
  have hseg : fld (o.row + 128 * o.seg + 2048 * o.raw.toNat) 7 4 = o.seg := by simp only [fld]; omega
  have hraw : flg (o.row + 128 * o.seg + 2048 * o.raw.toNat) 11 = o.raw := flg_of_fld (by simp only [fld]; omega)
  refine ⟨pack_lt (by simp [Bool.toNat_le, *]), ?_, ?_⟩
  all_goals simp [MrwOps.get, MrwOps.enc, encMX, enc64, guard64, Bool.toNat_le, flAt, *]

/-! ### The memory slots -/

theorem LdvOps.reads {o : LdvOps} (h : o.wf = true) : Reads opc LdvOps.get (LdvOps.enc opc o) o := by
  simp [LdvOps.wf, Guard.wf, Coord.wf] at h
  refine ⟨pack_lt (by simp [Bool.toNat_le, *]), ?_, ?_⟩
  all_goals simp [LdvOps.get, LdvOps.enc, encM, enc64, guard64, Bool.toNat_le, flAt, coordAt, *]

theorem LdvgOps.reads {o : LdvgOps} (h : o.wf = true) : Reads opc LdvgOps.get (LdvgOps.enc opc o) o := by
  simp [LdvgOps.wf, Guard.wf, Coord.wf] at h
  refine ⟨pack_lt (by simp [Bool.toNat_le, *]), ?_, ?_⟩
  all_goals simp [LdvgOps.get, LdvgOps.enc, encM, enc64, guard64, Bool.toNat_le, flAt, coordAt, *]

theorem StvOps.reads {o : StvOps} (h : o.wf = true) : Reads opc StvOps.get (StvOps.enc opc o) o := by
  simp [StvOps.wf, Guard.wf, Coord.wf] at h
  refine ⟨pack_lt (by simp [Bool.toNat_le, *]), ?_, ?_⟩
  all_goals simp [StvOps.get, StvOps.enc, encM, enc64, guard64, Bool.toNat_le, flAt, coordAt, *]

theorem StvmOps.reads {o : StvmOps} (h : o.wf = true) : Reads opc StvmOps.get (StvmOps.enc opc o) o := by
  simp [StvmOps.wf, Guard.wf, Coord.wf] at h
  have hmsel : o.msel < 128 := by omega
  refine ⟨pack_lt (by simp [Bool.toNat_le, *]), ?_, ?_⟩
  all_goals simp [StvmOps.get, StvmOps.enc, encM, enc64, guard64, Bool.toNat_le, flAt, coordAt, *]

theorem StvOps.readsRed {o : StvOps} (h : o.wf = true) (hh : o.h = false) (hidx : o.hidx = 0) :
    Reads opc StvOps.getRed (StvOps.enc opc o) o := by
  obtain ⟨hlt, hop, hget⟩ := StvOps.reads hopc h
  refine ⟨hlt, hop, ?_⟩
  calc StvOps.getRed (StvOps.enc opc o)
    _ = { StvOps.get (StvOps.enc opc o) with h := false, hidx := 0 } := rfl
    _ = o := by rw [hget, ← hh, ← hidx]

/-- A register number of `len` bits in field D (R60). -/
theorem LdOps.reads {o : LdOps} {len : Nat} (hlen : len ≤ 9) (h : o.wf (2 ^ len) = true) : Reads opc (LdOps.get len) (LdOps.enc opc o) o := by
  simp [LdOps.wf, Guard.wf, Coord.wf] at h
  have hd : o.d < 512 := by
    have hpow : 2 ^ len ≤ 2 ^ 9 := Nat.pow_le_pow_right (by decide) hlen
    omega
  refine ⟨pack_lt (by simp [Bool.toNat_le, *]), ?_, ?_⟩
  all_goals simp [LdOps.get, LdOps.enc, encM, enc64, guard64, Bool.toNat_le, coordAt, *]

/-- A register number of `len` bits in field D (R60). -/
theorem StOps.reads {o : StOps} {len : Nat} (hlen : len ≤ 9) (h : o.wf (2 ^ len) = true) : Reads opc (StOps.get len) (StOps.enc opc o) o := by
  simp [StOps.wf, Guard.wf, Coord.wf] at h
  have hd : o.d < 512 := by
    have hpow : 2 ^ len ≤ 2 ^ 9 := Nat.pow_le_pow_right (by decide) hlen
    omega
  refine ⟨pack_lt (by simp [Bool.toNat_le, *]), ?_, ?_⟩
  all_goals simp [StOps.get, StOps.enc, encM, enc64, guard64, Bool.toNat_le, coordAt, *]

theorem TmovOps.reads {o : TmovOps} (h : o.wf = true) : Reads opc TmovOps.get (TmovOps.enc opc o) o := by
  simp [TmovOps.wf, Guard.wf, Coord.wf] at h
  have hsrc : o.src < 512 := by omega
  have hfg : 2 * o.fg < 128 := by omega
  have hfg' : fld (2 * o.fg) 1 6 = o.fg := by simp only [fld]; omega
  refine ⟨pack_lt (by simp [Bool.toNat_le, *]), ?_, ?_⟩
  all_goals simp [TmovOps.get, TmovOps.enc, encM, enc64, guard64, Bool.toNat_le, coordAt, *]

theorem AtomOps.reads {o : AtomOps} {cas : Bool} (h : o.wf cas = true) : Reads opc (AtomOps.get cas) (AtomOps.enc opc o) o := by
  have hhl : latchWf o.hl = true := by simp [AtomOps.wf] at h; simp [h]
  have hfits := hlNum_lt hhl
  have hsc : o.sc < 64 ∧ (if cas then o.sc else 0) = o.sc := by
    cases cas with
    | false => simp [AtomOps.wf] at h; simp [h]
    | true => simp [AtomOps.wf] at h; simp [h]
  simp [AtomOps.wf, Guard.wf, Coord.wf] at h
  have hscope : o.scope < 8 := by omega
  have hd : o.d < 512 := by omega
  refine ⟨pack_lt (by simp [Bool.toNat_le, *]), ?_, ?_⟩
  all_goals simp [AtomOps.get, AtomOps.enc, encM, enc64, guard64, Bool.toNat_le, coordAt, hl_of_hlNum, *]

/-! ### The CE slot -/

theorem CjobOps.reads {o : CjobOps} (h : o.wf = true) : Reads opc CjobOps.get (CjobOps.enc opc o) o := by
  simp [CjobOps.wf, Guard.wf] at h
  refine ⟨pack_lt (by simp [Bool.toNat_le, *]), ?_, ?_⟩
  all_goals simp [CjobOps.get, CjobOps.enc, encCE, enc64, guard64, Bool.toNat_le, *]

theorem ChOps.reads {o : ChOps} (h : o.wf = true) : Reads opc ChOps.get (ChOps.enc opc o) o := by
  simp [ChOps.wf, Guard.wf] at h
  refine ⟨pack_lt (by simp [Bool.toNat_le, *]), ?_, ?_⟩
  all_goals simp [ChOps.get, ChOps.enc, encCE, enc64, guard64, Bool.toNat_le, *]

theorem CkillOps.reads {o : CkillOps} (h : o.wf = true) : Reads opc CkillOps.get (CkillOps.enc opc o) o := by
  simp [CkillOps.wf, Guard.wf] at h
  refine ⟨pack_lt (by simp [Bool.toNat_le, *]), ?_, ?_⟩
  all_goals simp [CkillOps.get, CkillOps.enc, encCE, enc64, guard64, Bool.toNat_le, *]

theorem CbellOps.reads {o : CbellOps} (h : o.wf = true) : Reads opc CbellOps.get (CbellOps.enc opc o) o := by
  simp [CbellOps.wf, Guard.wf] at h
  have hbit := Bool.toNat_le o.loc
  have hwin : (if o.loc = true then 0 else o.win) = o.win := by cases hl : o.loc <;> simp_all
  have himm : o.sqid + 4096 * o.win + 524288 * o.loc.toNat < 1048576 := by omega
  have hsqid : fld (o.sqid + 4096 * o.win + 524288 * o.loc.toNat) 0 12 = o.sqid := by simp only [fld]; omega
  have hwin' : fld (o.sqid + 4096 * o.win + 524288 * o.loc.toNat) 12 4 = o.win := by simp only [fld]; omega
  have hloc : flg (o.sqid + 4096 * o.win + 524288 * o.loc.toNat) 19 = o.loc := flg_of_fld (by simp only [fld]; omega)
  refine ⟨pack_lt (by simp [Bool.toNat_le, *]), ?_, ?_⟩
  all_goals simp [CbellOps.get, CbellOps.enc, encCE, enc64, guard64, Bool.toNat_le, *]

theorem CfragOps.reads {o : CfragOps} (h : o.wf true = true) : Reads opc CfragOps.get (CfragOps.enc opc o) o := by
  simp [CfragOps.wf, Guard.wf] at h
  have hop : o.op < 8 := by omega
  have himm : o.len + 4096 * o.tag < 1048576 := by omega
  have hlen : fld (o.len + 4096 * o.tag) 0 12 = o.len := by simp only [fld]; omega
  have htag : fld (o.len + 4096 * o.tag) 12 8 = o.tag := by simp only [fld]; omega
  refine ⟨pack_lt (by simp [Bool.toNat_le, *]), ?_, ?_⟩
  all_goals simp [CfragOps.get, CfragOps.enc, encCE, enc64, guard64, Bool.toNat_le, *]

/-- CSEND has the other two fields zero (R303). -/
theorem CfragOps.readsSend {o : CfragOps} (h : o.wf false = true) : Reads opc CfragOps.getSend (CfragOps.enc opc o) o := by
  obtain ⟨g, sa, sb, le, fg, op, tag, len⟩ := o
  simp [CfragOps.wf, Guard.wf] at h
  obtain ⟨h, rfl, rfl⟩ := h
  have hlen : len < 1048576 := by omega
  refine ⟨pack_lt (by simp [Bool.toNat_le, *]), ?_, ?_⟩
  all_goals simp [CfragOps.getSend, CfragOps.enc, encCE, enc64, guard64, Bool.toNat_le, *]

end

/-- The routine index is read apart from the operands (R259). -/
theorem McallOps.reads {o : McallOps} {rtn : Nat} (hrtn : rtn < 256) (h : o.wf = true) :
    Reads 1 McallOps.get (McallOps.enc rtn o) o ∧ fld (McallOps.enc rtn o) 43 8 = rtn := by
  simp [McallOps.wf, Guard.wf] at h
  refine ⟨⟨pack_lt (by simp [Bool.toNat_le, *]), ?_, ?_⟩, ?_⟩
  all_goals simp [McallOps.get, McallOps.enc, encMX, enc64, guard64, Bool.toNat_le, *]

/-! ### The SY slot -/

/-- The same of a word of 32 bits. -/
abbrev ReadsSy {α : Type} (opc : Nat) (get : Nat → α) (w : Nat) (o : α) : Prop := w < 2 ^ 32 ∧ fld w 26 6 = opc ∧ get w = o

section
variable {opc : Nat} (hopc : opc < 64)
include hopc

theorem LsetOps.reads {o : LsetOps} (h : o.wf = true) : ReadsSy opc LsetOps.get (LsetOps.enc opc o) o := by
  obtain ⟨g, f, e, depth, cnt⟩ := o
  cases cnt
  all_goals
    simp [LsetOps.wf, Guard.wf, Src.wf] at h
    refine ⟨pack_lt (by simp [Bool.toNat_le, *]), ?_, ?_⟩
    all_goals simp [LsetOps.get, LsetOps.enc, enc32, guard32, Bool.toNat_le, *]

theorem NumOps.reads {o : NumOps} {len lim : Nat} (hlim : lim ≤ 2 ^ len) (hlen : len ≤ 21) (h : o.wf lim = true) :
    ReadsSy opc (NumOps.get len) (NumOps.enc opc o) o := by
  simp [NumOps.wf, Guard.wf] at h
  have hn : o.n < 2097152 := by
    have hpow : 2 ^ len ≤ 2 ^ 21 := Nat.pow_le_pow_right (by decide) hlen
    omega
  have hfld : fld o.n 0 len = o.n := fld_of_lt (by omega)
  refine ⟨pack_lt (by simp [Bool.toNat_le, *]), ?_, ?_⟩
  all_goals simp [NumOps.get, NumOps.enc, enc32, guard32, Bool.toNat_le, *]

theorem Guard.readsSy {g : Guard} (h : g.wf = true) : ReadsSy opc guard32 (Guard.encY opc g) g := by
  simp [Guard.wf] at h
  refine ⟨pack_lt (by simp [Bool.toNat_le, *]), ?_, ?_⟩
  all_goals simp [Guard.encY, enc32, guard32, Bool.toNat_le, *]

theorem WaitfOps.reads {o : WaitfOps} (h : o.wf = true) : ReadsSy opc WaitfOps.get (WaitfOps.enc opc o) o := by
  simp [WaitfOps.wf, Guard.wf] at h
  refine ⟨pack_lt (by simp [Bool.toNat_le, *]), ?_, ?_⟩
  all_goals simp [WaitfOps.get, WaitfOps.enc, enc32, guard32, Bool.toNat_le, *]

theorem SpinOps.reads {o : SpinOps} (h : o.wf = true) : ReadsSy opc SpinOps.get (SpinOps.enc opc o) o := by
  simp [SpinOps.wf, Guard.wf] at h
  have hcond : o.cond < 8 := by omega
  refine ⟨pack_lt (by simp [Bool.toNat_le, *]), ?_, ?_⟩
  all_goals simp [SpinOps.get, SpinOps.enc, enc32, guard32, Bool.toNat_le, *]

theorem TakeOps.reads {o : TakeOps} (h : o.wf = true) : ReadsSy opc TakeOps.get (TakeOps.enc opc o) o := by
  simp [TakeOps.wf, Guard.wf] at h
  refine ⟨pack_lt (by simp [Bool.toNat_le, *]), ?_, ?_⟩
  all_goals simp [TakeOps.get, TakeOps.enc, enc32, guard32, Bool.toNat_le, *]

end

/-! ## A syllable read in its slot -/

/-- A syllable's length in bits (R53). -/
def Slot.width : Slot → Nat
  | .sy => 32
  | _ => 64

theorem VFile.slot_width (f : VFile) : f.slot.width = 64 := by cases f <;> rfl
theorem readSyllable_slot (f : VFile) (w : Nat) : readSyllable f.slot w = readV f w := by cases f <;> rfl

section
variable {α : Type} {opc : Nat} {get : Nat → α} {w : Nat} {o : α} {sl : Slot} {c : α → Instr}

/-- The row of its opcode reads an operation from its encoding. -/
theorem reads_row (hr : Reads opc get w o) (hsl : sl.width = 64)
    (hrow : ∀ w, fld w 56 8 = opc → readSyllable sl w = some (c (get w))) : w < 2 ^ sl.width ∧ readSyllable sl w = some (c o) := by
  obtain ⟨hlt, hop, hget⟩ := hr
  rw [hrow w hop, hget, hsl]
  exact ⟨hlt, rfl⟩

/-- The same in the SY slot. -/
theorem readsSy_row (hr : ReadsSy opc get w o) (hrow : ∀ w, fld w 26 6 = opc → readSyllable .sy w = some (c (get w))) :
    w < 2 ^ Slot.sy.width ∧ readSyllable .sy w = some (c o) := by
  obtain ⟨hlt, hop, hget⟩ := hr
  rw [hrow w hop, hget]
  exact ⟨hlt, rfl⟩

end

/-- The row of its routine index reads an MCALL (R259). -/
theorem mcall_row {rtn : Nat} {o : McallOps} {c : McallOps → Instr} (hrtn : rtn < 256) (hw : o.wf = true)
    (hrow : ∀ w, fld w 56 8 = 1 → fld w 43 8 = rtn → readSyllable .mx w = some (c (McallOps.get w))) :
    McallOps.enc rtn o < 2 ^ Slot.mx.width ∧ readSyllable .mx (McallOps.enc rtn o) = some (c o) := by
  obtain ⟨⟨hlt, hop, hget⟩, hidx⟩ := McallOps.reads hrtn hw
  rw [hrow _ hop hidx, hget]
  exact ⟨hlt, rfl⟩

/-- The encoding of a well-formed operation fits its syllable, and its slot reads the operation from it. -/
theorem read_encodeSyllable {i : Instr} {sl : Slot} (hs : slotOf i = some sl) (hw : i.wf = true) :
    encodeSyllable i < 2 ^ sl.width ∧ readSyllable sl (encodeSyllable i) = some i := by
  cases i
  all_goals cases hs
  case add o | sub o | mulh o | mulhu o | div o | divu o | rem o | remu o =>
    exact reads_row (RRR.reads (by decide) hw) rfl fun w h => by rw [readSyllable, readS, h]; rfl
  case addi o =>
    exact reads_row (RRI.reads (by decide) hw) rfl fun w h => by rw [readSyllable, readS, h]; rfl
  case mul o | and o | or o | xor o | andn o | min o | max o | minu o | maxu o =>
    exact reads_row (RRS.reads (by decide) hw) rfl fun w h => by rw [readSyllable, readS, h]; rfl
  case shl o | shr o | sar o | rotl o =>
    exact reads_row (RRS.readsShift (by decide) hw) rfl fun w h => by rw [readSyllable, readS, h]; rfl
  case clz o | popc o =>
    exact reads_row (RR.reads (by decide) hw) rfl fun w h => by rw [readSyllable, readS, h]; rfl
  case sel o =>
    exact reads_row (SelOps.reads (by decide) hw) rfl fun w h => by rw [readSyllable, readS, h]; rfl
  case li o | lih o =>
    exact reads_row (RI.reads (by decide) hw) rfl fun w h => by rw [readSyllable, readS, h]; rfl
  case cmp o =>
    exact reads_row (CmpOps.reads (by decide) hw) rfl fun w h => by rw [readSyllable, readS, h]; rfl
  case cmpi o =>
    exact reads_row (CmpIOps.reads (by decide) hw) rfl fun w h => by rw [readSyllable, readS, h]; rfl
  case pand o | por o | pxor o =>
    exact reads_row (PPP.reads (by decide) hw) rfl fun w h => by rw [readSyllable, readS, h]; rfl
  case pnot o =>
    exact reads_row (PP.reads (by decide) hw) rfl fun w h => by rw [readSyllable, readS, h]; rfl
  case br o | call o =>
    exact reads_row (BrOps.reads (by decide) hw) rfl fun w h => by rw [readSyllable, readS, h]; rfl
  case bri o | calli o =>
    exact reads_row (BriOps.reads (by decide) hw) rfl fun w h => by rw [readSyllable, readS, h]; rfl
  case ret o =>
    exact reads_row (Guard.readsS (by decide) hw) rfl fun w h => by rw [readSyllable, readS, h]; rfl
  case csrr o =>
    exact reads_row (CsrrOps.reads (by decide) hw) rfl fun w h => by rw [readSyllable, readS, h]; rfl
  case csrw o | csrs o | csrc o =>
    exact reads_row (CsrwOps.reads (by decide) hw) rfl fun w h => by rw [readSyllable, readS, h]; rfl
  case trap o | hail o =>
    exact reads_row (CodeOps.reads (by decide) hw) rfl fun w h => by rw [readSyllable, readS, h]; rfl
  case layw o =>
    exact reads_row (LaywOps.reads (by decide) hw) rfl fun w h => by rw [readSyllable, readS, h]; rfl
  case layr o =>
    exact reads_row (LayrOps.reads (by decide) hw) rfl fun w h => by rw [readSyllable, readS, h]; rfl
  case movh o =>
    exact reads_row (MovhOps.reads (by decide) hw) rfl fun w h => by rw [readSyllable, readS, h]; rfl
  case vadd o | vsub o | vmul o =>
    exact reads_row (V3R.reads (by decide) hw) o.f.slot_width fun w h => by rw [readSyllable_slot, readV, h]; rfl
  case vfma o | vfms o | vfnma o =>
    exact reads_row (V4R.reads (by decide) hw) o.f.slot_width fun w h => by rw [readSyllable_slot, readV, h]; rfl
  case vmin o | vmax o | vcpys o | vexpmax o | vimulh o | vimin o | vimax o =>
    exact reads_row (V3T.reads (by decide) hw) o.f.slot_width fun w h => by rw [readSyllable_slot, readV, h]; rfl
  case vperm o | vshuf o =>
    exact reads_row (V3T.reads (ok := fun t => tyAny t && t != 5) (by decide) hw) o.f.slot_width fun w h => by rw [readSyllable_slot, readV, h]; rfl
  case vabs o | vneg o | viabs o =>
    exact reads_row (V2T.reads (by decide) hw) o.f.slot_width fun w h => by rw [readSyllable_slot, readV, h]; rfl
  case vrsum o | vrmax o | vrmin o =>
    exact reads_row (V2T.reads (ok := fun t => tyFloatArith t || tyInt t) (by decide) hw) o.f.slot_width fun w h => by
      rw [readSyllable_slot, readV, h]; rfl
  case vrcp o | vrsq o | vsqrt o | vexp2 o | vlog2 o =>
    exact reads_row (V2R.reads (by decide) hw) o.f.slot_width fun w h => by rw [readSyllable_slot, readV, h]; rfl
  case vcmp o =>
    exact reads_row (VCmpOps.reads (by decide) hw) o.f.slot_width fun w h => by rw [readSyllable_slot, readV, h]; rfl
  case viadd o | visub o | vimul o =>
    exact reads_row (V3O.reads (by decide) hw) o.f.slot_width fun w h => by rw [readSyllable_slot, readV, h]; rfl
  case vand o | vor o | vxor o | vandn o =>
    exact reads_row (V3L.reads (by decide) hw) o.f.slot_width fun w h => by rw [readSyllable_slot, readV, h]; rfl
  case vshl o | vshr o | vsar o | vslide o =>
    exact reads_row (VSS.reads (by decide) hw) o.f.slot_width fun w h => by rw [readSyllable_slot, readV, h]; rfl
  case vcvt o | vcvti o | vcvtf o =>
    exact reads_row (VCvtOps.reads (by decide) hw) o.f.slot_width fun w h => by rw [readSyllable_slot, readV, h]; rfl
  case vqfp4 o | vdqfp4 o =>
    exact reads_row (VQOps.reads (by decide) hw) o.f.slot_width fun w h => by rw [readSyllable_slot, readV, h]; rfl
  case vscale o =>
    exact reads_row (VScaleOps.reads (by decide) hw) o.f.slot_width fun w h => by rw [readSyllable_slot, readV, h]; rfl
  case vmov o | vxfer o =>
    exact reads_row (V2L.reads (by decide) hw) o.f.slot_width fun w h => by rw [readSyllable_slot, readV, h]; rfl
  case vbcast o =>
    exact reads_row (VBcastOps.reads (by decide) hw) o.f.slot_width fun w h => by rw [readSyllable_slot, readV, h]; rfl
  case vsel o =>
    exact reads_row (VSelOps.reads (by decide) hw) o.f.slot_width fun w h => by rw [readSyllable_slot, readV, h]; rfl
  case vmovh o =>
    exact reads_row (VMovhOps.reads (by decide) hw) o.f.slot_width fun w h => by rw [readSyllable_slot, readV, h]; rfl
  case vlane o =>
    exact reads_row (VLaneOps.reads (by decide) hw) o.f.slot_width fun w h => by rw [readSyllable_slot, readV, h]; rfl
  case mand o | mor o | mxor o =>
    exact reads_row (MMM.reads (by decide) hw) o.f.slot_width fun w h => by rw [readSyllable_slot, readV, h]; rfl
  case mnot o =>
    exact reads_row (MM.reads (by decide) hw) o.f.slot_width fun w h => by rw [readSyllable_slot, readV, h]; rfl
  case mpop o =>
    exact reads_row (MPopOps.reads (by decide) hw) o.f.slot_width fun w h => by rw [readSyllable_slot, readV, h]; rfl
  case mcallMma o | mcallMmat o | mcallMmab o | mcallSplit o | mcallSlmma o | mcallFold o | mcallTrans o | mcallMcopy o =>
    refine mcall_row (by decide) hw (fun w h hr => ?_)
    rw [readSyllable, readMX, h]
    simp only [hr]
  case mpar o =>
    exact reads_row (MparOps.reads (by decide) hw) rfl fun w h => by rw [readSyllable, readMX, h]; rfl
  case mlds o =>
    exact reads_row (MldsOps.reads (by decide) hw) rfl fun w h => by rw [readSyllable, readMX, h]; rfl
  case mplane o =>
    exact reads_row (MplaneOps.reads (by decide) hw) rfl fun w h => by rw [readSyllable, readMX, h]; rfl
  case mrd o | mwr o =>
    exact reads_row (MrwOps.reads (by decide) hw) rfl fun w h => by rw [readSyllable, readMX, h]; rfl
  case mclr o | mnorm o =>
    exact reads_row (MtOps.reads (by decide) hw) rfl fun w h => by rw [readSyllable, readMX, h]; rfl
  case mfmt o =>
    exact reads_row (MfmtOps.reads (by decide) hw) rfl fun w h => by rw [readSyllable, readMX, h]; rfl
  case mstat o =>
    exact reads_row (MstatOps.reads (by decide) hw) rfl fun w h => by rw [readSyllable, readMX, h]; rfl
  case lds o =>
    exact reads_row (LdOps.reads (len := 6) (by decide) (by decide) hw) rfl fun w h => by rw [readSyllable, readLD, h]; rfl
  case ldh o =>
    exact reads_row (LdOps.reads (len := 4) (by decide) (by decide) hw) rfl fun w h => by rw [readSyllable, readLD, h]; rfl
  case ldv o =>
    exact reads_row (LdvOps.reads (by decide) hw) rfl fun w h => by rw [readSyllable, readLD, h]; rfl
  case ldvg o =>
    exact reads_row (LdvgOps.reads (by decide) hw) rfl fun w h => by rw [readSyllable, readLD, h]; rfl
  case tmov o =>
    exact reads_row (TmovOps.reads (by decide) hw) rfl fun w h => by rw [readSyllable, readLD, h]; rfl
  case sts o =>
    exact reads_row (StOps.reads (len := 6) (by decide) (by decide) hw) rfl fun w h => by rw [readSyllable, readST, h]; rfl
  case stvh o =>
    exact reads_row (StOps.reads (len := 4) (by decide) (by decide) hw) rfl fun w h => by rw [readSyllable, readST, h]; rfl
  case stv o | stvs o =>
    exact reads_row (StvOps.reads (by decide) hw) rfl fun w h => by rw [readSyllable, readST, h]; rfl
  case stvm o =>
    exact reads_row (StvmOps.reads (by decide) hw) rfl fun w h => by rw [readSyllable, readST, h]; rfl
  case aadd o | aaddf o | amin o | amax o | aand o | aor o | axor o | aswp o | acas o =>
    exact reads_row (AtomOps.reads (by decide) hw) rfl fun w h => by rw [readSyllable, readST, h]; rfl
  case cjob o =>
    exact reads_row (CjobOps.reads (by decide) hw) rfl fun w h => by rw [readSyllable, readCE, h]; rfl
  case cwait o | cpoll o =>
    exact reads_row (ChOps.reads (by decide) hw) rfl fun w h => by rw [readSyllable, readCE, h]; rfl
  case ckill o =>
    exact reads_row (CkillOps.reads (by decide) hw) rfl fun w h => by rw [readSyllable, readCE, h]; rfl
  case csend o =>
    exact reads_row (CfragOps.readsSend (by decide) hw) rfl fun w h => by rw [readSyllable, readCE, h]; rfl
  case cred o =>
    exact reads_row (CfragOps.reads (by decide) hw) rfl fun w h => by rw [readSyllable, readCE, h]; rfl
  case cbell o =>
    exact reads_row (CbellOps.reads (by decide) hw) rfl fun w h => by rw [readSyllable, readCE, h]; rfl
  case lset o =>
    exact readsSy_row (LsetOps.reads (by decide) hw) fun w h => by rw [readSyllable, readSY, h]; rfl
  case endStrand o | fence o | yield o | hret o =>
    exact readsSy_row (Guard.readsSy (by decide) hw) fun w h => by rw [readSyllable, readSY, h]; rfl
  case phase o =>
    exact readsSy_row (NumOps.reads (len := 3) (by decide) (by decide) (by decide) hw) fun w h => by rw [readSyllable, readSY, h]; rfl
  case setf o | clrf o =>
    exact readsSy_row (NumOps.reads (len := 6) (by decide) (by decide) (by decide) hw) fun w h => by rw [readSyllable, readSY, h]; rfl
  case join o | leave o | cbar o =>
    exact readsSy_row (NumOps.reads (len := 8) (by decide) (by decide) (by decide) hw) fun w h => by rw [readSyllable, readSY, h]; rfl
  case waitf o =>
    exact readsSy_row (WaitfOps.reads (by decide) hw) fun w h => by rw [readSyllable, readSY, h]; rfl
  case spin o =>
    exact readsSy_row (SpinOps.reads (by decide) hw) fun w h => by rw [readSyllable, readSY, h]; rfl
  case take o =>
    exact readsSy_row (TakeOps.reads (by decide) hw) fun w h => by rw [readSyllable, readSY, h]; rfl
  case vred o =>
    simp [Instr.wf] at hw
    refine reads_row (StvOps.readsRed (by decide) hw.1.1 hw.1.2 hw.2) rfl (fun w h => ?_)
    rw [readSyllable, readST, h]
    rfl
  case lbrk o =>
    simp [Instr.wf] at hw
    refine readsSy_row (NumOps.reads (len := 3) (by decide) (by decide) (by decide) hw.1) (fun w h => ?_)
    rw [readSyllable, readSY, h]
    rfl

theorem decodeSyllable_encodeSyllable {i : Instr} {sl : Slot} (hs : slotOf i = some sl) (hw : i.wf = true) :
    decodeSyllable sl (encodeSyllable i) = .ok i := by
  simp only [decodeSyllable, (read_encodeSyllable hs hw).2, fin, if_pos, hw]

/-! ## Bundles of one operation, and empty bundles (R47 to R49) -/

/-- What an instruction that is not the empty bundle is encoded to, by its slot. -/
theorem encode_eq {i : Instr} (h : ∀ o, i ≠ .emptyBundle o) : encode i = match slotOf i with
    | some .sy => [Header.enc ⟨1, 0, 1, false, false⟩, encodeSyllable i]
    | some sl => [Header.enc ⟨2 ^ sl.bit, 0, 2, false, false⟩, fld (encodeSyllable i) 0 32, fld (encodeSyllable i) 32 32]
    | none => if isPilot i then [encodePilot i] else [] := by
  cases i
  case emptyBundle o => exact (h o rfl).elim
  case vadd o | vsub o | vmul o | vfma o | vfms o | vfnma o | vmin o | vmax o | vcpys o | vexpmax o | vimulh o | vimin o | vimax o | vperm o |
      vshuf o | vabs o | vneg o | viabs o | vrsum o | vrmax o | vrmin o | vrcp o | vrsq o | vsqrt o | vexp2 o | vlog2 o | vcmp o | viadd o |
      visub o | vimul o | vand o | vor o | vxor o | vandn o | vshl o | vshr o | vsar o | vslide o | vcvt o | vcvti o | vcvtf o | vqfp4 o |
      vdqfp4 o | vscale o | vmov o | vxfer o | vbcast o | vsel o | vmovh o | vlane o | mand o | mor o | mxor o | mnot o | mpop o =>
    rcases o with ⟨_ | _⟩
    all_goals rfl
  all_goals rfl

theorem encode_sy {i : Instr} (hs : slotOf i = some .sy) : encode i = [Header.enc ⟨1, 0, 1, false, false⟩, encodeSyllable i] := by
  rw [encode_eq (by rintro o rfl; cases hs), hs]

theorem encode_of_slot {i : Instr} {sl : Slot} (hs : slotOf i = some sl) (hsy : sl ≠ .sy) :
    encode i = [Header.enc ⟨2 ^ sl.bit, 0, 2, false, false⟩, fld (encodeSyllable i) 0 32, fld (encodeSyllable i) 32 32] := by
  rw [encode_eq (by rintro o rfl; cases hs), hs]
  cases sl with
  | sy => exact absurd rfl hsy
  | _ => rfl

theorem Slot.width_of_ne_sy {sl : Slot} (hsy : sl ≠ .sy) : sl.width = 64 := by
  cases sl with
  | sy => exact absurd rfl hsy
  | _ => rfl

theorem takeSyls_wide {sl : Slot} (hsy : sl ≠ .sy) {w : Nat} (hw : w < 2 ^ 64) :
    takeSyls [sl] [fld w 0 32, fld w 32 32] = [⟨sl, w, decodeSyllable sl w⟩] := by
  have hjoin : fld w 0 32 % 2 ^ 32 + 2 ^ 32 * (fld w 32 32 % 2 ^ 32) = w := by simp only [fld]; omega
  cases sl with
  | sy => exact absurd rfl hsy
  | _ => simp only [takeSyls, hjoin]

theorem Header.get_enc {h : Header} (hpres : h.pres < 256) (herun : h.erun < 16) (hwcnt : h.wcnt < 16) :
    Header.enc h < 2 ^ 32 ∧ Header.enc h % 2 ^ 14 = 0 ∧ Header.get (Header.enc h) = h := by
  refine ⟨pack_lt (by simp [Bool.toNat_le, *]), ?_, ?_⟩
  · simp only [Header.enc, pack]
    omega
  · simp [Header.get, Header.enc, Bool.toNat_le, *]

/-- A header before as many words as its present slots take. -/
theorem decodeBundle_enc {h : Header} {ws : List Nat} (hpres : h.pres < 256) (herun : h.erun < 16) (hwcnt : h.wcnt < 16)
    (hwords : h.wcnt = wordsOf (presSlots h.pres)) (hlen : ws.length = h.wcnt) :
    decodeBundle (Header.enc h :: ws) 0 = .ok ⟨0, Header.enc h, h, takeSyls (presSlots h.pres) ws⟩ := by
  obtain ⟨hlt, hzero, hget⟩ := Header.get_enc hpres herun hwcnt
  simp only [decodeBundle, List.drop_zero, Nat.mod_eq_of_lt hlt, hget]
  exact if_neg (by omega)

/-- The header of one operation announces its slot and the words of its syllable. -/
theorem presSlots_bit (sl : Slot) : 2 ^ sl.bit < 256 ∧ presSlots (2 ^ sl.bit) = [sl] := by cases sl <;> decide

/-- A bundle of one 64-bit operation. -/
theorem decodeBundle_wide {sl : Slot} (hsy : sl ≠ .sy) {w : Nat} (hw : w < 2 ^ 64) :
    ∃ hd, decodeBundle [Header.enc ⟨2 ^ sl.bit, 0, 2, false, false⟩, fld w 0 32, fld w 32 32] 0 =
      .ok ⟨0, hd, ⟨2 ^ sl.bit, 0, 2, false, false⟩, [⟨sl, w, decodeSyllable sl w⟩]⟩ := by
  obtain ⟨hpres, hslots⟩ := presSlots_bit sl
  have hwords : wordsOf [sl] = 2 := by simp [wordsOf, hsy]
  rw [decodeBundle_enc hpres (by decide : 0 < 16) (by decide : 2 < 16) (by rw [hslots, hwords]) rfl, hslots, takeSyls_wide hsy hw]
  exact ⟨_, rfl⟩

theorem decodeBundle_sy {w : Nat} (hw : w < 2 ^ 32) : ∃ hd, decodeBundle [Header.enc ⟨1, 0, 1, false, false⟩, w] 0 =
    .ok ⟨0, hd, ⟨1, 0, 1, false, false⟩, [⟨.sy, w, decodeSyllable .sy w⟩]⟩ := by
  have hslots : presSlots 1 = [.sy] := (presSlots_bit .sy).2
  have htake : takeSyls [.sy] [w] = [⟨.sy, w, decodeSyllable .sy w⟩] := by simp only [takeSyls, Nat.mod_eq_of_lt hw]
  rw [decodeBundle_enc (by decide : 1 < 256) (by decide : 0 < 16) (by decide : 1 < 16) (by rw [hslots]; rfl) rfl, hslots, htake]
  exact ⟨_, rfl⟩

/-- The bundle of one operation holds that operation alone. -/
theorem decodeBundle_encode {i : Instr} {sl : Slot} (hs : slotOf i = some sl) (hw : i.wf = true) :
    ∃ b, decodeBundle (encode i) 0 = .ok b ∧ b.syls = [⟨sl, encodeSyllable i, .ok i⟩] := by
  have hlt := (read_encodeSyllable hs hw).1
  rw [← decodeSyllable_encodeSyllable hs hw]
  by_cases hsy : sl = .sy
  · subst hsy
    obtain ⟨hd, hb⟩ := decodeBundle_sy hlt
    exact ⟨_, (congrArg (decodeBundle · 0) (encode_sy hs)).trans hb, rfl⟩
  · rw [Slot.width_of_ne_sy hsy] at hlt
    obtain ⟨hd, hb⟩ := decodeBundle_wide hsy hlt
    exact ⟨_, (congrArg (decodeBundle · 0) (encode_of_slot hs hsy)).trans hb, rfl⟩

theorem decodeBundle_empty {o : EmptyOps} (h : o.wf = true) : ∃ hd, decodeBundle (encode (.emptyBundle o)) 0 =
    .ok ⟨0, hd, ⟨0, o.erun, 0, o.lineEnd, o.park⟩, []⟩ := by
  have herun : o.erun < 16 := of_decide_eq_true h
  have henc : encode (.emptyBundle o) = [Header.enc ⟨0, o.erun, 0, o.lineEnd, o.park⟩] := rfl
  have hslots : presSlots 0 = [] := by decide
  rw [henc, decodeBundle_enc (by decide : 0 < 256) herun (by decide : 0 < 16) (by rw [hslots]; rfl) rfl, hslots]
  exact ⟨_, rfl⟩

/-! ## Pilot instructions (R402, R403) -/

/-- A word that has a pilot opcode and reads as some operands. -/
abbrev ReadsPilot {α : Type} (opc : Nat) (get : Nat → α) (w : Nat) (o : α) : Prop := fld w 26 6 = opc ∧ get w = o

section
variable {opc : Nat} (hopc : opc < 64)
include hopc

theorem PR.reads {o : PR} (h : o.wf = true) : ReadsPilot opc PR.get (PR.enc opc o) o := by
  simp [PR.wf] at h
  constructor
  all_goals simp [PR.get, PR.enc, *]

theorem PI.reads {o : PI} {lim : Nat} (hlim : lim ≤ 2 ^ 20) (h : o.wf lim = true) : ReadsPilot opc PI.get (PI.enc opc o) o := by
  simp [PI.wf] at h
  have himm : o.imm < 1048576 := by omega
  constructor
  all_goals simp [PI.get, PI.enc, *]

theorem PLi.reads {o : PLi} (h : o.wf = true) : ReadsPilot opc PLi.get (PLi.enc opc o) o := by
  simp [PLi.wf] at h
  constructor
  all_goals simp [PLi.get, PLi.enc, *]

theorem PM.reads {o : PM} (h : o.wf = true) : ReadsPilot opc PM.get (PM.enc opc o) o := by
  simp [PM.wf] at h
  constructor
  all_goals simp [PM.get, PM.enc, *]

theorem PB.reads {o : PB} (h : o.wf = true) : ReadsPilot opc PB.get (PB.enc opc o) o := by
  simp [PB.wf] at h
  constructor
  all_goals simp [PB.get, PB.enc, *]

theorem PL.reads {o : PL} (h : o.wf = true) : ReadsPilot opc PL.get (PL.enc opc o) o := by
  simp [PL.wf] at h
  constructor
  all_goals simp [PL.get, PL.enc, *]

end

theorem emitSource_reads {opc a : Nat} (hopc : opc < 64) (ha : a < 8) :
    ReadsPilot opc (fun w => fld w 20 3) (pack [(20, 0), (3, a), (3, 0), (6, opc)]) a := by
  constructor
  all_goals simp [*]

theorem PBell.reads {o : PBell} (h : o.wf = true) :
    ReadsPilot 0x22 (fun w => ⟨fld w 20 3, fld w 17 3, fld w 0 12⟩) (encodePilot (.emitBell o)) o := by
  simp [PBell.wf] at h
  constructor
  all_goals simp [encodePilot, *]

theorem drop_reads {c : Nat} (hc : c < 256) : ReadsPilot 0x23 (fun w => fld w 0 8) (encodePilot (.drop c)) c := by
  constructor
  all_goals simp [encodePilot, *]

/-- The row of its opcode reads a pilot instruction from its encoding. -/
theorem decodePilot_row {α : Type} {opc : Nat} {get : Nat → α} {w : Nat} {o : α} {c : α → Instr} (hr : ReadsPilot opc get w o)
    (hrow : ∀ w, fld w 26 6 = opc → decodePilot w = finP w (c (get w))) (henc : encodePilot (c o) = w) (hw : (c o).wf = true) :
    decodePilot w = some (c o) := by
  obtain ⟨hop, hget⟩ := hr
  rw [hrow w hop, hget, finP, if_pos ⟨henc, hw⟩]

theorem decodePilot_encodePilot {i : Instr} (hp : isPilot i = true) (hw : i.wf = true) : decodePilot (encodePilot i) = some i := by
  cases i
  all_goals cases hp
  case pilotAdd o | pilotSub o | pilotAnd o | pilotOr o | pilotXor o | pilotMul o =>
    exact decodePilot_row (PR.reads (by decide) hw) (fun w h => by simp only [decodePilot, h]) rfl hw
  case pilotShl o | pilotShr o | pilotAddi o | pilotAndi o | pilotOri o =>
    exact decodePilot_row (PI.reads (by decide) (by decide) hw) (fun w h => by simp only [decodePilot, h]) rfl hw
  case pilotLi o => exact decodePilot_row (PLi.reads (by decide) hw) (fun w h => by simp only [decodePilot, h]) rfl hw
  case ldm o | stm o => exact decodePilot_row (PM.reads (by decide) hw) (fun w h => by simp only [decodePilot, h]) rfl hw
  case beq o | bne o | bltu o | bgeu o => exact decodePilot_row (PB.reads (by decide) hw) (fun w h => by simp only [decodePilot, h]) rfl hw
  case loop o => exact decodePilot_row (PL.reads (by decide) hw) (fun w h => by simp only [decodePilot, h]) rfl hw
  case emitLaunch a | emitCopy a =>
    exact decodePilot_row (emitSource_reads (by decide) (of_decide_eq_true hw)) (fun w h => by simp only [decodePilot, h]) rfl hw
  case emitBell o => exact decodePilot_row (PBell.reads hw) (fun w h => by simp only [decodePilot, h]) rfl hw
  case drop c => exact decodePilot_row (drop_reads (of_decide_eq_true hw)) (fun w h => by simp only [decodePilot, h]) rfl hw

end Sys2Proof
end

section
open Sys2Proof Sys2Proof.Machine

/-- Settles O59: the slot, or the row of a pilot opcode, reads an instruction from its encoding (`read_encodeSyllable`,
`decodePilot_encodePilot`), so that the decoder's two checks pass. -/
theorem encodingRoundTrip : Obligations.EncodingRoundTrip := by
  unfold Obligations.EncodingRoundTrip
  refine ⟨fun i sl hs hw => decodeSyllable_encodeSyllable hs hw, fun i hp hw => decodePilot_encodePilot hp hw,
    fun o hw => ?empty, fun i sl hs hw => ?single⟩
  case empty =>
    obtain ⟨hd, hb⟩ := decodeBundle_empty hw
    exact ⟨_, hb, rfl, rfl⟩
  case single =>
    obtain ⟨b, hb, hsyls⟩ := decodeBundle_encode hs hw
    exact ⟨b, hb, by rw [hsyls]; rfl, by rw [hsyls]; rfl⟩
end

section
/-! PROOF. The rest of the S slot's operations, and what a result does once it is on its way (O5, O7, O8). -/
namespace Sys2Proof.Machine

/-! ## Compares and predicate operations (R156, R157) -/

/-- A predicate operation lands any truth value that equals the one it computes. -/
theorem landsPred_of_predOp {i : Instr} {g : Guard} {pd : Nat} {v w : Strand → Bool}
    (hexec : ∀ s, exec i s = (predOp i g pd v).run s) (hv : ∀ t, v t = w t) : LandsPred i g pd w := by
  intro s k hi hg
  rw [hexec s, predOp_run i g pd v hi hg, hv]

/-- The eight conditions of R56, as R56 words them. -/
theorem scalarCond_eq {cc : Nat} (hcc : cc < 8) (a b : Word) : scalarCond cc a b =
    [decide (a = b), decide (a ≠ b), decide (a.toInt < b.toInt), decide (b.toInt ≤ a.toInt), decide (a.toNat < b.toNat),
      decide (b.toNat ≤ a.toNat), decide (a &&& b ≠ 0), decide (a &&& b = 0)].getD cc false := by
  have hne (x y : Word) : (x != y) = decide (x ≠ y) := by rw [bne, beq_eq_decide, decide_not]
  match cc, hcc with
  | 0, _ => exact beq_eq_decide a b
  | 1, _ => exact hne a b
  | 2, _ => exact BitVec.slt_eq_decide
  | 3, _ => exact Bool.eq_iff_iff.mpr (by simp [scalarCond, BitVec.slt_eq_decide])
  | 4, _ => rfl
  | 5, _ => exact Bool.eq_iff_iff.mpr (by simp [scalarCond, BitVec.ult_eq_decide])
  | 6, _ => exact hne _ _
  | 7, _ => exact beq_eq_decide _ _

/-! ## CSR writes that the strand may not make, or that have no field to write (R71, R159) -/

/-- A write of a privileged CSR by a tenant's strand traps before its guard is asked for. -/
theorem opCsrw_run_priv (i : Instr) (op : CsrOp) (o : CsrwOps) {s : State} {k : Nat} (h : Issues s k) (hp : csrPriv o.csr = true)
    (hs : (s.strand k).supervisor = false) : (opCsrw i op o s).run s =
      .next (s.takeTrap k ⟨.privOp, syllableOf i, (s.strand k).bun.addr, 2 ^ Slot.bit .s⟩ false) := by
  refine Op.run_one _ h ⟨.privOp, .s, syllableOf i, false⟩ ?_
  simp [Op.findings, opCsrw, Op.plain, State.me_of_issues h, Machine.cond, hp, hs]

theorem opCsrw_run_readOnly (i : Instr) (op : CsrOp) (o : CsrwOps) {s : State} {k : Nat} (h : Issues s k) (hp : csrPriv o.csr = false)
    (hw : csrRw o.csr = 0) : (opCsrw i op o s).run s = .next s := by
  have hchk : (opCsrw i op o s).chk = [] := by simp [opCsrw, Machine.cond, hp]
  cases hg : (s.strand k).guard o.g with
  | true =>
    rw [Op.run_unchecked _ h hg hchk rfl rfl]
    exact congrArg _ (if_pos hw)
  | false => exact Op.run_false _ h hg (by rw [Op.findings, hchk]; rfl)

/-! ## One result on its way (R79) -/

section
variable {s : State} {k : Nat} {e : InFlight} (he : (s.strand k).inflight = [e]) (hp : e.poison = false)
include he hp

/-- An issue cycle brings the only result one cycle nearer. -/
theorem State.tick_of_single (run : Bool) : s.tick k run = s.modStrand k (fun t =>
    { t with icyc := t.icyc + 1, runCount := if run then t.runCount + 1 else t.runCount, inflight := [{ e with rem := e.rem - 1 }] }) := by
  have hecc : (s.strand k).inflight.filter (fun e => e.poison && e.rem == 6) = [] := by simp [he, hp]
  simp only [State.tick, hecc, List.foldl_nil]
  exact State.modStrand_congr _ _ _ _ (by rw [he]; rfl)

/-- A result with cycles to go changes no register. -/
theorem issueCycle_early (hrem : 2 ≤ e.rem) : ((issueCycle k s).strand k).inflight = [{ e with rem := e.rem - 1 }] ∧
    ∀ r, ((issueCycle k s).strand k).rs r = (s.strand k).rs r := by
  have hnot : (e.rem - 1 == 0) = false := by simp; omega
  have hdue : issueCycle k s = s.modStrand k (fun t => { t with icyc := t.icyc + 1, inflight := [{ e with rem := e.rem - 1 }] }) := by
    rw [issueCycle, State.tick_of_single he hp]
    simp [State.landDue, hnot]
  rw [hdue, State.strand_modStrand]
  exact ⟨rfl, fun _ => rfl⟩

/-- In its last cycle a result for a scalar register is written. -/
theorem issueCycle_due {n : Nat} (hrem : e.rem = 1) (hd : e.dest = .sreg n) (ht : e.trap = none) (r : Nat) :
    ((issueCycle k s).strand k).rs r = if r = 0 then 0 else if r = n then e.data.setWidth 64 else (s.strand k).rs r := by
  have hdue : issueCycle k s = s.modStrand k (fun t =>
      ({ t with icyc := t.icyc + 1, inflight := [] } : Strand).ws n (e.data.setWidth 64)) := by
    rw [issueCycle, State.tick_of_single he hp]
    simp [State.landDue, State.landOne, InFlight.isBand, Strand.landReg, hrem, hd, ht, hp]
  rw [hdue, State.strand_modStrand, Strand.rs_ws]
  rfl

end

/-- The cycles up to the landing of the only result, and its landing. -/
theorem iter_issueCycle {k n l : Nat} {s : State} {e : InFlight} (he : (s.strand k).inflight = [e]) (hp : e.poison = false)
    (hd : e.dest = .sreg n) (ht : e.trap = none) (hrem : e.rem = l + 1) :
    (∀ m ≤ l, ∀ r, ((iter (issueCycle k) m s).strand k).rs r = (s.strand k).rs r) ∧
    ∀ r, ((iter (issueCycle k) (l + 1) s).strand k).rs r = if r = 0 then 0 else if r = n then e.data.setWidth 64 else (s.strand k).rs r := by
  induction l generalizing s e with
  | zero =>
    refine ⟨fun m hm r => ?_, issueCycle_due he hp hrem hd ht⟩
    rw [Nat.le_zero.mp hm]
    rfl
  | succ l ih =>
    obtain ⟨he', hrs⟩ := issueCycle_early he hp (by omega)
    obtain ⟨hearly, hdue⟩ := ih he' hp hd ht (by simp [hrem])
    refine ⟨fun m hm r => ?_, fun r => ?_⟩
    · cases m with
      | zero => rfl
      | succ m => exact (hearly m (Nat.le_of_succ_le_succ hm) r).trans (hrs r)
    · exact (hdue r).trans (by rw [hrs])

end Sys2Proof.Machine
end

section
open Sys2Proof Sys2Proof.Machine

/-- Settles O5: each is a predicate operation; the conditions of a compare are those of R56 (`scalarCond_eq`). -/
theorem comparesAndPredicates : Obligations.ComparesAndPredicates := by
  unfold Obligations.ComparesAndPredicates
  refine ⟨fun o hcc => ?cmp, fun o hcc => ?cmpi, fun o => ?pand, fun o => ?por, fun o => ?pxor, fun o => ?pnot,
    fun _ => ⟨rfl, rfl, rfl⟩, fun _ => rfl⟩
  case cmp => exact landsPred_of_predOp (fun _ => rfl) fun _ => scalarCond_eq hcc _ _
  case cmpi => exact landsPred_of_predOp (fun _ => rfl) fun _ => scalarCond_eq hcc _ _
  all_goals exact landsPred_of_predOp (fun _ => rfl) fun _ => rfl

/-- Settles O7: the check comes before the guard, and a CSR without RW fields has nothing written. -/
theorem csrWritesRefused : Obligations.CsrWritesRefused := by
  unfold Obligations.CsrWritesRefused
  refine fun o s k h => ⟨fun hp hs i hi => ?_, fun hp hw => ?_⟩
  · rcases hi with rfl | rfl | rfl
    all_goals exact opCsrw_run_priv _ _ o h hp hs
  · exact ⟨opCsrw_run_readOnly _ _ o h hp hw, opCsrw_run_readOnly _ _ o h hp hw, opCsrw_run_readOnly _ _ o h hp hw⟩

/-- Settles O8: the result comes one cycle nearer until its last (`iter_issueCycle`, by induction on the cycles to go). -/
theorem scalarResultLands : Obligations.ScalarResultLands := by
  unfold Obligations.ScalarResultLands
  intro s k sd l v sl n hin
  obtain ⟨hearly, hdue⟩ := iter_issueCycle hin rfl rfl rfl rfl
  refine ⟨hearly n, fun r => (hdue r).trans ?_⟩
  have hdata : (v.setWidth 1024).setWidth 64 = v := by simp
  rw [onWay, hdata]
end

section
/-! PROOF. Guards (O18), crews and TAKE (O16), and the handler's return (O17). -/
namespace Sys2Proof.Machine

/-- Whatever it would raise, an operation whose guard is false, and that meets no condition of R51, changes nothing. -/
theorem Op.run_false_of_chk (o : Op) {s : State} {k : Nat} (h : Issues s k) (hchk : o.chk = []) (hg : (s.strand k).guard o.g = false) :
    o.run s = .next s := by
  refine Op.run_false _ h hg ?_
  rw [Op.findings, hchk]
  cases o.dyn with
  | none => rfl
  | some x => simp [hg]

/-! ## Crews (R39, R40, R348 to R350) -/

@[simp] theorem State.crew_setCrew (s : State) (die tcid c : Nat) (x : Crew) : (s.setCrew die tcid c x).crew die tcid c = x := by
  rw [State.crew, State.setCrew, State.die_modDie]
  exact storeGet_storePut_same _ _ _ _

/-- A change of a strand and one of a crew come to the same in either order. -/
theorem State.setCrew_modStrand (s : State) (k die tcid c : Nat) (f : Strand → Strand) (x : Crew) :
    (s.modStrand k f).setCrew die tcid c x = (s.setCrew die tcid c x).modStrand k f := rfl

/-- A crew whose open generation is not full stays as it is. -/
theorem State.crewSettle_of_not_full {s : State} {die tcid c : Nat} (h : (s.crew die tcid c).full = false) (n : Nat) :
    s.crewSettle die tcid c n = s := by
  cases n with
  | zero => rfl
  | succ n => simp [State.crewSettle, h]

/-- While no generation is open, none is full. -/
theorem Crew.full_of_none_arrived {x : Crew} (h : x.arrived = []) : x.full = false := by simp [Crew.full, h]

/-- A generation that lacks a member is not full. -/
theorem Crew.full_of_absent {x : Crew} {m : Nat} (hm : m ∈ x.members) (ha : x.arrived.contains m = false) : x.full = false := by
  have hall : x.members.all (fun k => x.arrived.contains k) = false := List.all_eq_false.mpr ⟨m, hm, by simpa using ha⟩
  simp only [Crew.full, hall, Bool.and_false]

section
variable {s : State} {k c : Nat} (h : Issues s k) (hc : c < (s.ctx (s.strand k).die (s.strand k).tcid).crewq)
include h hc

theorem crewDyn_of_quota (i : Instr) : crewDyn i s c = none := by
  rw [crewDyn, State.me_of_issues h]
  exact if_neg (Nat.not_le.mpr hc)

/-- JOIN and LEAVE, when what they leave of the crew is no full generation. -/
theorem opCrew_run (i : Instr) (g : Guard) (f : Crew → Nat → Crew) (hg : (s.strand k).guard g = true) (hh : (s.strand k).hsave = none)
    (hfull : (f (s.crew (s.strand k).die (s.strand k).tcid c) k).full = false) : (opCrew i ⟨g, c⟩ f s).run s =
      .next (s.setCrew (s.strand k).die (s.strand k).tcid c (f (s.crew (s.strand k).die (s.strand k).tcid c) k)) := by
  have hchk : (opCrew i ⟨g, c⟩ f s).chk = [] := by rw [opCrew, State.me_of_issues h]; exact noHandler_of_none hh
  rw [Op.run_unchecked _ h hg hchk (crewDyn_of_quota h hc i) rfl]
  simp only [opCrew, h.1]
  rw [State.crewSettle_of_not_full (by rw [State.crew_setCrew]; exact hfull)]

/-- The arrival of a member that leaves its generation incomplete: it waits. -/
theorem opCbar_run {m : Nat} (g : Guard) (hg : (s.strand k).guard g = true) (hh : (s.strand k).hsave = none)
    (hk : (s.crew (s.strand k).die (s.strand k).tcid c).members.contains k = true)
    (hj : (s.crew (s.strand k).die (s.strand k).tcid c).joining.contains k = false)
    (hm : m ∈ (s.crew (s.strand k).die (s.strand k).tcid c).members) (hne : m ≠ k)
    (ha : (s.crew (s.strand k).die (s.strand k).tcid c).arrived.contains m = false) :
    (opCbar ⟨g, c⟩ s).run s = .next ((s.setCrew (s.strand k).die (s.strand k).tcid c
      { s.crew (s.strand k).die (s.strand k).tcid c with arrived := (s.crew (s.strand k).die (s.strand k).tcid c).arrived ++ [k] }).modStrand k
        (fun t => { t with crewDone := false, switchTo := some (.wait (.crew c)) })) := by
  have hchk : (opCbar ⟨g, c⟩ s).chk = [] := by rw [opCbar, State.me_of_issues h]; exact noHandler_of_none hh
  have hdyn : (opCbar ⟨g, c⟩ s).dyn = none := by
    simp only [opCbar, cbarDyn, crewDyn_of_quota h hc, h.1, State.me_of_issues h, hk, Bool.true_or, if_true]
  generalize hx : s.crew (s.strand k).die (s.strand k).tcid c = x at *
  have hfull : Crew.full { x with arrived := x.arrived ++ [k] } = false := by
    refine Crew.full_of_absent (m := m) hm ?_
    simpa [hne] using ha
  rw [Op.run_unchecked _ h hg hchk hdyn rfl]
  simp only [opCbar, State.cbarOp, h.1, hx, hj, Bool.false_eq_true, if_false]
  rw [State.crewSettle_of_not_full (by rw [State.crew_setCrew]; exact hfull)]
  rw [State.setCrew_modStrand, State.modStrand_modStrand]
  exact congrArg _ (State.modStrand_congr _ _ _ _ rfl)

end

/-! ## TAKE (R351) -/

/-- A TAKE that leaves something of the range, with no request held. -/
theorem opTake_run (o : TakeOps) {s : State} {k : Nat} (h : Issues s k) (hg : (s.strand k).guard o.g = true)
    (hh : (s.strand k).hsave = none) (heven : o.d % 2 = 0) (hslot : (s.strand k).range.slot = none)
    (hrest : (s.strand k).range.next + o.chunk < (s.strand k).range.limit) : (opTake o s).run s =
      .next (landed (landed (s.modStrand k (fun t => { t with range := { t.range with next := t.range.next + o.chunk } }))
        k (onWay (s.strand k) .sy (.sreg o.d) 2 ((BitVec.ofNat 64 (s.strand k).range.next).setWidth 1024) fullEn none))
        k (onWay (s.strand k) .sy (.sreg (o.d + 1)) 2 ((wordOf [(62, 0), (0, o.chunk)]).setWidth 1024) fullEn none)) := by
  have hchk : (opTake o s).chk = [] := by simp [opTake, State.me_of_issues h, noHandler_of_none hh, Machine.cond, heven]
  have hnext : (s.strand k).range.next < (s.strand k).range.limit := by omega
  have hmin : min o.chunk ((s.strand k).range.limit - (s.strand k).range.next) = o.chunk := by omega
  have hle : decide ((s.strand k).range.limit ≤ (s.strand k).range.next) = false := by simpa using hnext
  have hne : ((s.strand k).range.next + o.chunk == (s.strand k).range.limit) = false := by simp; omega
  have htaken : s.modStrand k (fun t => { t with range := { t.range with
      next := (s.strand k).range.next + o.chunk, limit := (s.strand k).range.limit, slot := none } }) =
      s.modStrand k (fun t => { t with range := { t.range with next := t.range.next + o.chunk } }) :=
    State.modStrand_congr _ _ _ _ (by simp only [← hslot])
  rw [Op.run_unchecked _ h hg hchk rfl rfl]
  simp only [opTake, Op.plain, State.takeOp, h.1, if_pos hnext, hmin, hslot, hle, hne, Option.isSome_none, Bool.and_false, Bool.false_and,
    Bool.or_self, Bool.false_eq_true, if_false]
  have hi := h.modStrand k (fun t => { t with range := { t.range with
    next := (s.strand k).range.next + o.chunk, limit := (s.strand k).range.limit, slot := none } })
  rw [State.landWord_of_issues hi, State.landWord_of_issues (hi.landed k _), htaken]
  simp only [landed_strand, State.strand_modStrand, onWay]

/-! ## The handler's return (R37, R181) -/

/-- A return with no entry left of the handler's calls. -/
theorem opHret_run (g : Guard) {s : State} {k : Nat} {x : HSave} (h : Issues s k) (hg : (s.strand k).guard g = true)
    (hx : (s.strand k).hsave = some x) (hheld : (s.strand k).held ≤ x.shadow) :
    (opHret g s).run s = .next (s.modStrand k Strand.doHret) := by
  have hdyn : (opHret g s).dyn = none := by
    simp only [opHret, hretDyn, State.me_of_issues h, hx, if_neg (Nat.not_lt.mpr hheld)]
  rw [Op.run_unchecked _ h hg rfl hdyn rfl, ← State.onMe_of_issues h]
  rfl

theorem opHret_run_bad (g : Guard) {s : State} {k : Nat} (h : Issues s k) (hg : (s.strand k).guard g = true)
    (hx : (s.strand k).hsave = none) : (opHret g s).run s =
      .next (s.takeTrap k ⟨.illegalOp, syllableOf (.hret g), (s.strand k).bun.addr, 2 ^ Slot.bit .sy⟩ false) := by
  have hdyn : (opHret g s).dyn = some (.illegalOp, syllableOf (.hret g)) := by
    simp only [opHret, hretDyn, State.me_of_issues h, hx]
  exact Op.run_dyn _ h hg rfl hdyn

end Sys2Proof.Machine
end

section
open Sys2Proof Sys2Proof.Machine

/-- Settles O16: each operation passes its checks, and no generation that it leaves is full. -/
theorem crewAndRange : Obligations.CrewAndRange := by
  unfold Obligations.CrewAndRange
  refine ⟨fun o s k h hg hh hc hnone => ⟨fun hm hj => ?join, ?leave⟩, fun o s k m h hg hh hc hk hj hm hne ha => ?cbar,
    fun o s k h hg hh heven _ hslot hrest => opTake_run o h hg hh heven hslot hrest⟩
  case join =>
    have hjoin : (s.crew (s.strand k).die (s.strand k).tcid o.n).join k = { s.crew (s.strand k).die (s.strand k).tcid o.n with
        members := (s.crew (s.strand k).die (s.strand k).tcid o.n).members ++ [k] } := by simp only [Crew.join, hm, hj, hnone]; rfl
    rw [← hjoin]
    exact opCrew_run h hc (.join o) o.g Crew.join hg hh (by rw [hjoin]; exact Crew.full_of_none_arrived hnone)
  case leave =>
    have hleave : (s.crew (s.strand k).die (s.strand k).tcid o.n).leave k = { s.crew (s.strand k).die (s.strand k).tcid o.n with
        members := (s.crew (s.strand k).die (s.strand k).tcid o.n).members.filter (· != k)
        joining := (s.crew (s.strand k).die (s.strand k).tcid o.n).joining.filter (· != k)
        nextArr := (s.crew (s.strand k).die (s.strand k).tcid o.n).nextArr.filter (· != k) } := by simp [Crew.leave, hnone]
    rw [← hleave]
    exact opCrew_run h hc (.leave o) o.g Crew.leave hg hh (by rw [hleave]; exact Crew.full_of_none_arrived hnone)
  case cbar =>
    refine ⟨_, opCbar_run h hc o.g hg hh hk hj hm hne ha, ?_, ?_, rfl, fun r => ?_⟩
    · rw [State.strand_modStrand]
    · exact congrArg Crew.arrived (State.crew_setCrew ..)
    · rw [State.strand_modStrand]
      rfl

/-- Settles O17: what HRET does to its strand is `Strand.doHret`, whose transfer goes to the interrupted position. -/
theorem handlerReturn : Obligations.HandlerReturn := by
  unfold Obligations.HandlerReturn
  refine ⟨fun g s k x h hg hx hheld => ?_, fun g s k h hg hx => opHret_run_bad g h hg hx⟩
  refine (opHret_run g h hg hx hheld).trans (congrArg _ (State.modStrand_congr _ _ _ _ ?_))
  rw [Strand.doHret, hx]
  obtain ⟨pos, depth, preds, floor, shadow, wait, causes⟩ := x
  cases wait <;> rfl

/-- Settles O18: a false guard keeps an operation without conditions from its effect and from its own traps (`Op.run_false_of_chk`). -/
theorem falseGuard : Obligations.FalseGuard := by
  unfold Obligations.FalseGuard
  have hfalse (o : Op) (s : State) (k : Nat) (h : Issues s k) (hchk : o.chk = []) (hg : (s.strand k).guard o.g = false) :
      o.run s = .next s := o.run_false_of_chk h hchk hg
  refine ⟨fun t g => ?guard, fun t => ?never, fun o s k h hg hchk hdyn hstall => o.run_unchecked h hg hchk hdyn hstall, hfalse,
    fun s k h => ⟨fun o hg => ⟨hfalse _ s k h rfl hg, hfalse _ s k h rfl hg⟩, fun o hg hh hw => ?vadd, fun o hg => hfalse _ s k h rfl hg,
      fun o hg hl => ?aadd, fun o hg => ⟨hfalse _ s k h rfl hg, hfalse _ s k h rfl hg⟩, fun o hg hh => ?phase⟩⟩
  case guard => rfl
  case never => rfl
  case vadd =>
    have hchk : vecChk s.me [(o.f, o.vd), (o.f, o.vs1), (o.f, o.vs2)] = [] := by
      rw [State.me_of_issues h]
      exact vecChk_within _ _ hw hh
    exact hfalse _ s k h hchk hg
  case aadd => exact hfalse (opAtomic (.aadd o) .add o s) s k h (by simp [opAtomic, hl]) hg
  case phase =>
    have hchk : noHandler s.me = [] := by
      rw [State.me_of_issues h]
      exact noHandler_of_none hh
    exact hfalse _ s k h hchk hg
end

section
/-! PROOF. Lanes that land (O25) and vector registers beyond the allocation (O26).

A vector is read bit by bit: bit j of lane i is bit i * w + j of the vector. The enables of a lane mask and the mask of enabled bytes are both sums
of one field per index, so one lemma reads their bits. -/
namespace Sys2Proof.Machine

/-! ## The bits of lanes and of byte enables -/

/-- One field of k bits added for each index that p takes: the sum stays below its fields. -/
theorem foldl_fields_lt {k c : Nat} (hc : c < 2 ^ k) (p : Nat → Bool) (m : Nat) :
    (List.range m).foldl (fun x i => if p i then x + c * 2 ^ (k * i) else x) 0 < 2 ^ (k * m) := by
  induction m with
  | zero => simp
  | succ m ih =>
    rw [List.range_succ, List.foldl_append, List.foldl_cons, List.foldl_nil, Nat.mul_succ, Nat.pow_add]
    have hfield : (c + 1) * 2 ^ (k * m) ≤ 2 ^ k * 2 ^ (k * m) := Nat.mul_le_mul_right _ hc
    rw [Nat.mul_comm (2 ^ k)] at hfield
    split
    · rw [Nat.add_mul, Nat.one_mul] at hfield; omega
    · exact lt_of_lt_of_le ih (Nat.le_mul_of_pos_right _ (Nat.two_pow_pos k))

/-- Its bit n is a bit of field n / k. -/
theorem testBit_foldl_fields {k c : Nat} (hc : c < 2 ^ k) (p : Nat → Bool) {m n : Nat} (hn : n < k * m) :
    ((List.range m).foldl (fun x i => if p i then x + c * 2 ^ (k * i) else x) 0).testBit n = (p (n / k) && c.testBit (n % k)) := by
  induction m with
  | zero => omega
  | succ m ih =>
    rw [List.range_succ, List.foldl_append, List.foldl_cons, List.foldl_nil]
    have hlt := foldl_fields_lt hc p m
    generalize (List.range m).foldl (fun x i => if p i then x + c * 2 ^ (k * i) else x) 0 = sum at hlt ih ⊢
    have hlow : (sum + c * 2 ^ (k * m)).testBit n = if n < k * m then sum.testBit n else c.testBit (n - k * m) := by
      rw [Nat.add_comm, Nat.mul_comm]
      exact Nat.testBit_two_pow_mul_add c hlt n
    by_cases hnm : n < k * m
    · rw [← ih hnm]
      split
      · rw [hlow, if_pos hnm]
      · rfl
    · have hdiv : n / k = m := by
        rw [Nat.mul_succ] at hn
        exact Nat.div_eq_of_lt_le (by rw [Nat.mul_comm]; omega) (by rw [Nat.mul_comm, Nat.mul_succ]; omega)
      have hmod : n % k = n - k * m := by rw [Nat.mod_eq_sub_mul_div, hdiv]
      rw [hdiv, hmod]
      split
      next hp => rw [hlow, if_neg hnm, hp, Bool.true_and]
      next hp => rw [Bool.eq_false_iff.mpr hp, Bool.false_and]
                 exact Nat.testBit_lt_two_pow (lt_of_lt_of_le hlt (Nat.pow_le_pow_right (by omega) (by omega)))

theorem getLsbD_byteMask (en : Mask) {n : Nat} (hn : n < 1024) : (byteMask en).getLsbD n = en.getLsbD (n / 8) := by
  have hbit := testBit_foldl_fields (k := 8) (c := 255) (by omega) en.getLsbD (m := 128) hn
  have hones : (255 : Nat).testBit (n % 8) = true := by
    have hlt : n % 8 < 8 := Nat.mod_lt _ (by omega)
    exact (Nat.testBit_two_pow_sub_one 8 (n % 8)).trans (decide_eq_true hlt)
  rw [hones, Bool.and_true] at hbit
  rw [byteMask, BitVec.getLsbD_ofNat, hbit, decide_eq_true hn, Bool.true_and]

theorem getLsbD_laneEn (m : Mask) (w : Nat) {i : Nat} (hi : i < 128) :
    (laneEn m w).getLsbD i = m.getLsbD (i / (if w < 8 then 1 else w / 8)) := by
  have hbit := testBit_foldl_fields (k := 1) (c := 1) (by omega)
    (fun i => m.getLsbD (i / (if w < 8 then 1 else w / 8))) (m := 128) (n := i) (by omega)
  simp only [one_mul, Nat.div_one, Nat.mod_one, Nat.testBit_one_zero, Bool.and_true] at hbit
  rw [laneEn, BitVec.getLsbD_ofNat, hbit, decide_eq_true hi, Bool.true_and]

theorem getLsbD_blend (en : Mask) (new old : Vec) {n : Nat} (hn : n < 1024) :
    (blend en new old).getLsbD n = if en.getLsbD (n / 8) then new.getLsbD n else old.getLsbD n := by
  rw [blend, BitVec.getLsbD_or, BitVec.getLsbD_and, BitVec.getLsbD_and, BitVec.getLsbD_not, getLsbD_byteMask en hn, decide_eq_true hn]
  cases en.getLsbD (n / 8) <;> simp

/-- Bit j of lane i of packed lanes. -/
theorem testBit_packLanes (w : Nat) (l : List Nat) (i : Nat) {j : Nat} (hj : j < w) :
    (packLanes w l).testBit (i * w + j) = (l.getD i 0).testBit j := by
  induction l generalizing i with
  | nil => simp [packLanes]
  | cons x r ih =>
    rw [packLanes, Nat.add_comm, Nat.testBit_two_pow_mul_add _ (Nat.mod_lt _ (Nat.two_pow_pos w))]
    cases i with
    | zero => simp [hj, Nat.testBit_mod_two_pow]
    | succ i =>
      rw [if_neg (by rw [Nat.succ_mul]; omega), show (i + 1) * w + j - w = i * w + j by rw [Nat.succ_mul]; omega, ih]
      rfl

theorem lane_lt {w i j : Nat} (hi : i < 1024 / w) (hj : j < w) : i * w + j < 1024 := by
  have : (i + 1) * w ≤ 1024 := (Nat.mul_le_mul_right w hi).trans (Nat.div_mul_le_self 1024 w)
  rw [Nat.succ_mul] at this
  omega

theorem getD_lanesOf (v : Vec) {w i : Nat} (hi : i < 1024 / w) : (lanesOf v w).getD i 0 = v.toNat / 2 ^ (i * w) % 2 ^ w := by
  simp [lanesOf, List.getD_eq_getElem?_getD, hi]

/-- Bit j of lane i of a vector. -/
theorem testBit_lanesOf (v : Vec) {w i j : Nat} (hi : i < 1024 / w) :
    ((lanesOf v w).getD i 0).testBit j = (decide (j < w) && v.getLsbD (i * w + j)) := by
  rw [getD_lanesOf v hi, Nat.testBit_mod_two_pow, Nat.testBit_div_two_pow, Nat.add_comm]
  rfl

/-- The lanes of a vector made from lanes are those lanes. -/
theorem getLsbD_vecOf (l : List Nat) {w i j : Nat} (hi : i < 1024 / w) (hj : j < w) :
    (vecOf w l).getLsbD (i * w + j) = (l.getD i 0).testBit j := by
  rw [vecOf, BitVec.getLsbD_ofNat, testBit_packLanes w l i hj, decide_eq_true (lane_lt hi hj), Bool.true_and]

/-- The mask bit that governs the byte of a bit of lane i (R58). -/
theorem getLsbD_laneEn_lane (m : Mask) {w i j : Nat} (hw : w ∈ [4, 8, 16, 32, 64]) (hi : i < 1024 / w) (hj : j < w) :
    (laneEn m w).getLsbD ((i * w + j) / 8) = m.getLsbD (if w = 4 then i / 2 else i) := by
  have hlt := lane_lt hi hj
  rw [getLsbD_laneEn m w (by omega)]
  congr 1
  simp only [List.mem_cons, List.not_mem_nil, or_false] at hw
  rcases hw with rfl | rfl | rfl | rfl | rfl <;> simp <;> omega

@[simp] theorem Strand.rv_wv_same (t : Strand) (f : VFile) (n : Nat) (v : Vec) : (t.wv f n v).rv f n = v := by
  cases f <;> simp [Strand.wv, Strand.rv]

/-! ## Traps before issue for one cause -/

/-- Findings that are all the same are one cause. -/
theorem worst_replicate (f : Finding) (n tbun : Nat) :
    worst (List.replicate (n + 1) f) tbun = some (⟨f.cause, f.fval, tbun, 2 ^ f.slot.bit⟩, f.emul) := by
  have hcause : (List.replicate n f).foldl (fun c g => if g.cause.code < c.code then g.cause else c) f.cause = f.cause := by
    induction n with
    | zero => rfl
    | succ n ih => simpa [List.replicate_succ] using ih
  rw [← worst_one f tbun]
  rw [List.replicate_succ, worst, worst, hcause]
  simp [← List.replicate_succ, tslotOf]

/-- An operation that meets one condition, however often, takes its trap. -/
theorem Op.run_same (o : Op) {s : State} {k : Nat} (h : Issues s k) (f : Finding) (hne : o.findings (s.strand k) ≠ [])
    (hf : ∀ g ∈ o.findings (s.strand k), g = f) :
    o.run s = .next (s.takeTrap k ⟨f.cause, f.fval, (s.strand k).bun.addr, 2 ^ f.slot.bit⟩ f.emul) := by
  obtain ⟨n, hn⟩ := Nat.exists_eq_succ_of_ne_zero (mt List.length_eq_zero_iff.mp hne)
  have hrep : o.findings (s.strand k) = List.replicate (n + 1) f := by
    rw [List.eq_replicate_of_mem hf, hn]
  rw [o.run_trap h hne, hrep]
  simp only [State.raise, h.1, State.me_of_issues h, worst_replicate]

theorem mem_vreg {t : Strand} {f : VFile} {n : Nat} {c : Cause} : c ∈ vreg t f n ↔ 32 * t.granules f ≤ n ∧ c = .regRange := by
  rw [vreg, Machine.cond]
  by_cases hn : 32 * t.granules f ≤ n <;> simp [hn]

theorem mem_vecChk {t : Strand} {rs : List (VFile × Nat)} (hh : t.hsave = none) {c : Cause} :
    c ∈ vecChk t rs ↔ (∃ r ∈ rs, 32 * t.granules r.1 ≤ r.2) ∧ c = .regRange := by
  simp only [vecChk, noHandler_of_none hh, List.append_nil, List.mem_flatMap, mem_vreg]
  exact ⟨fun ⟨r, hr, hn, hc⟩ => ⟨⟨r, hr, hn⟩, hc⟩, fun ⟨⟨r, hr, hn⟩, hc⟩ => ⟨r, hr, hn, hc⟩⟩

/-- An operation whose conditions are all REG_RANGE, and that meets one, takes that trap (R52, R77). -/
theorem Op.run_regRange (o : Op) {s : State} {k : Nat} (h : Issues s k) (hdyn : o.dyn = none) (hmem : .regRange ∈ o.chk)
    (hchk : ∀ c ∈ o.chk, c = .regRange) :
    o.run s = .next (s.takeTrap k ⟨.regRange, syllableOf o.i, (s.strand k).bun.addr, 2 ^ o.slot.bit⟩ false) := by
  have hfs : o.findings (s.strand k) = o.chk.map (fun c => ⟨c, o.slot, syllableOf o.i, false⟩) := by
    simp only [Op.findings, hdyn, List.append_nil]
  refine o.run_same h ⟨.regRange, o.slot, syllableOf o.i, false⟩ ?_ fun g hg => ?_
  · rw [hfs]; exact List.ne_nil_of_mem (List.mem_map_of_mem hmem)
  · rw [hfs] at hg
    obtain ⟨c, hc, rfl⟩ := List.mem_map.mp hg
    rw [hchk c hc]

/-- An operation under the conditions of R77 and R187 alone, one of whose registers is beyond the allocation. -/
theorem vecChk_run_regRange {i : Instr} {sl : Slot} {g : Guard} {rs : List (VFile × Nat)} {eff : State → State} {s : State} {k : Nat}
    (h : Issues s k) (hh : (s.strand k).hsave = none) (hr : ∃ r ∈ rs, 32 * (s.strand k).granules r.1 ≤ r.2) :
    ({ Op.plain i sl g eff with chk := vecChk s.me rs } : Op).run s =
      .next (s.takeTrap k ⟨.regRange, syllableOf i, (s.strand k).bun.addr, 2 ^ sl.bit⟩ false) := by
  rw [State.me_of_issues h]
  exact Op.run_regRange _ h rfl ((mem_vecChk hh).mpr ⟨hr, rfl⟩) fun c hc => ((mem_vecChk hh).mp hc).2

/-- VMOVH also checks its latch: one that is full is read, or is beyond the allocation. -/
theorem opVmovh_run_regRange (o : VMovhOps) {s : State} {k : Nat} (h : Issues s k) (hh : (s.strand k).hsave = none)
    (hr : ∃ r ∈ [(o.f, o.vd)], 32 * (s.strand k).granules r.1 ≤ r.2) (hfull : ((s.strand k).rh o.h).full = true) :
    (opVmovh o s).run s = .next (s.takeTrap k ⟨.regRange, syllableOf (.vmovh o), (s.strand k).bun.addr, 2 ^ o.f.slot.bit⟩ false) := by
  have hchk : (opVmovh o s).chk = vecChk (s.strand k) [(o.f, o.vd)] ++ latchChk (s.strand k) o.h := by
    rw [opVmovh, State.me_of_issues h]
  refine Op.run_regRange (opVmovh o s) h ?dyn ?mem fun c hc => ?all
  case dyn => rw [opVmovh, State.me_of_issues h]; exact latchDyn_of_full _ hfull
  case mem => rw [hchk]; exact List.mem_append_left _ ((mem_vecChk hh).mpr ⟨hr, rfl⟩)
  case all =>
    rw [hchk, List.mem_append] at hc
    rcases hc with hc | hc
    · exact ((mem_vecChk hh).mp hc).2
    · have hlatch : (s.strand k).nlatch ≤ o.h ∧ c = .regRange := by simpa [latchChk, hreg, Machine.cond, hfull] using hc
      exact hlatch.2

end Sys2Proof.Machine
end

section
open Sys2Proof Sys2Proof.Machine

/-- Settles O25: bit by bit, a landing takes the bits of the bytes that the lane mask enables, and those of one lane are enabled together. -/
theorem lanesLand : Obligations.LanesLand := by
  unfold Obligations.LanesLand
  intro t u f vd w i ls m hw hi _ hls
  have hland : (t.landReg (lanesTo u f vd 1 w m ls)).rv f vd = blend (laneEn m w) (vecOf w ls) (t.rv f vd) := Strand.rv_wv_same ..
  have hlane : ls.getD i 0 < 2 ^ w := by
    rw [List.getD_eq_getElem?_getD]
    cases hx : ls[i]? with
    | none => exact Nat.two_pow_pos w
    | some x => exact hls x (List.mem_of_getElem? hx)
  rw [hland]
  refine Nat.eq_of_testBit_eq fun j => ?_
  by_cases hj : j < w
  · rw [testBit_lanesOf _ hi, decide_eq_true hj, Bool.true_and, getLsbD_blend _ _ _ (lane_lt hi hj), getLsbD_laneEn_lane m hw hi hj,
      getLsbD_vecOf ls hi hj]
    cases m.getLsbD (if w = 4 then i / 2 else i) with
    | true => rfl
    | false =>
      have hkept : ((lanesOf (t.rv f vd) w).getD i 0).testBit j = (t.rv f vd).getLsbD (i * w + j) := by
        rw [testBit_lanesOf _ hi, decide_eq_true hj, Bool.true_and]
      exact hkept.symm
  · have hpow : 2 ^ w ≤ 2 ^ j := Nat.pow_le_pow_right (by omega) (by omega)
    have hout (v : Vec) : ((lanesOf v w).getD i 0).testBit j = false := by rw [testBit_lanesOf v hi, decide_eq_false hj, Bool.false_and]
    rw [hout]
    cases m.getLsbD (if w = 4 then i / 2 else i) with
    | true => exact (Nat.testBit_lt_two_pow (hlane.trans_le hpow)).symm
    | false => exact (hout _).symm

/-- Settles O26: every operation of the two slots but VMOVH checks its vector registers and nothing else. -/
theorem regRangeTrap : Obligations.RegRangeTrap := by
  unfold Obligations.RegRangeTrap
  intro i f rs s k hrs h hh hr hfull
  cases i
  case vmovh o =>
    obtain ⟨rfl, rfl⟩ := Prod.mk.inj (Option.some.inj hrs)
    exact opVmovh_run_regRange o h hh hr (hfull o rfl)
  all_goals cases hrs
  all_goals exact vecChk_run_regRange h hh hr
end

section
/-! PROOF. Loads and requests (O29, O30), stores to core scratch that land (O31), malformed layout entries (O32) and TMOV (O33).

What an operation does to a strand that other parts of the model also touch (a trap delivered, a copy performed) is said for what the strand has
outstanding: `State.KeepsOutstanding` holds of every write at a home and of every flag event, which may only wake strands. -/
namespace Sys2Proof.Machine

/-! ## Loads of core scratch (R134, R127) -/

/-- A load that is clear to issue reads core scratch, or sends the value that the device OS has kept. -/
theorem opLoad_run {i : Instr} {g : Guard} {chk : List Cause} {m : MemChk} {dest : Dest} {val : State → Vec} {s : State} {k : Nat}
    (h : Issues s k) (hc : (opLoad i g chk m dest val s).Clear (s.strand k)) :
    (s.me.emulated .ld = false → (opLoad i g chk m dest val s).run s =
      .next (landed s k { onWay s.me .ld dest 6 (val s) fullEn none with poison := corePoison s s.me m.els })) ∧
    (s.me.emulated .ld = true → (opLoad i g chk m dest val s).run s = .next (landed s k (onWay s.me .ld dest 6 s.me.emuData fullEn none))) := by
  rw [Op.run_clear _ h hc]
  refine ⟨fun hemu => ?_, fun hemu => ?_⟩
  · simp only [opLoad, hemu, Bool.false_eq_true, if_false, State.pushIn, State.onMe_of_issues h]
    rfl
  · simp only [opLoad, hemu, if_true, State.land_of_issues h]
    rw [State.me_of_issues h]

/-! ## Requests (R135, R142, R143) -/

/-- A request of the issuing strand, and a change of the strand with it. -/
theorem State.addMyReq_onMe_spec {s : State} {k : Nat} (h : Issues s k) (f : Nat → Req) (g : Strand → Strand) :
    ((s.addMyReq f).onMe g).strand k = g { s.strand k with reqs := (s.strand k).reqs ++ [f s.nextId] } ∧
      ((s.addMyReq f).onMe g).mem = s.mem := by
  have hissues : Issues (({ s with nextId := s.nextId + 1 } : State).modStrand k (fun t => { t with reqs := t.reqs ++ [f s.nextId] })) k :=
    ⟨h.1, h.2⟩
  rw [State.addMyReq_spec s k h, State.onMe_of_issues hissues, State.strand_modStrand, State.strand_modStrand]
  exact ⟨rfl, rfl⟩

theorem Strand.rh_bindLatch (t : Strand) (n id : Nat) :
    (t.bindLatch n id).rh n = { t.rh n with full := false, pend := some id, lost := false } := by
  rw [Strand.bindLatch, Strand.rh_wh, if_pos rfl]

/-- The request of an LDH (R135). -/
def ldhReq (t : Strand) (o : LdOps) (id : Nat) : Req :=
  ⟨id, .load, (ldhAcc t o).lay.space, (ldhAcc t o).lay.win, reqEls (t.emulated .ld) ((ldhAcc t o).els.map (fun e => (e, 0))), some o.d, 0, false,
    false, none, .ld, t.bun.addr, 0, none, if t.emulated .ld then t.emuLdh else none, false, false, false, [], none⟩

theorem opLdh_eff (o : LdOps) {s : State} {k : Nat} (h : Issues s k) :
    (opLdh o s).eff s = (s.addMyReq (ldhReq (s.strand k) o)).onMe (fun t => t.bindLatch o.d s.nextId) := by
  rw [← State.me_of_issues h]; rfl

/-- The request of a VRED outside core scratch, or behind an .ACQ (R142, R145). -/
def vredReq (t : Strand) (o : StvOps) (id : Nat) : Req :=
  ⟨id, .vred (t.layOf o.le).ty, (t.layOf o.le).space, (t.layOf o.le).win, reqEls false (vecData (vredAcc t o).els (t.rv o.fl o.d)), none, 0, false,
    false, none, .st, t.bun.addr, 0, none, none, false, false, false, [], none⟩

/-- What a VRED does: its additions are on their way to core scratch, or it makes one request. -/
theorem opVred_eff (o : StvOps) {s : State} {k : Nat} (h : Issues s k) :
    (opVred o s).eff s =
      if ((s.strand k).layOf o.le).space = 0 ∧ acqBefore (s.strand k) s.nextId = false then
        landed s k (onWay (s.strand k) .st (.coreRed ((s.strand k).layOf o.le).ty
          ((vecData (vredAcc (s.strand k) o).els ((s.strand k).rv o.fl o.d)).map (fun e => (e.1.phys, e.2)))) 1 0 fullEn none)
      else (s.addMyReq (vredReq (s.strand k) o)).onMe
        (fun t => if ((s.strand k).layOf o.le).space = 4 then t.useWin ((s.strand k).layOf o.le).win else t) := by
  have hissues := State.pushIn_of_issues h
  rw [← State.me_of_issues h, ← hissues]; rfl

/-- What an atomic changes of its strand besides its requests. -/
def Strand.issueAtomic (t : Strand) (o : AtomOps) (lay : Lay) (id : Nat) : Strand :=
  let t := if o.acq then { t with lastAcq := some id } else t
  let t := if lay.space = 4 then t.useWin lay.win else t
  match o.hl with
  | some h => t.bindLatch h id
  | none => t

theorem Strand.issueAtomic_spec (t : Strand) (o : AtomOps) (lay : Lay) (id : Nat) :
    (t.issueAtomic o lay id).reqs = t.reqs ∧ (t.issueAtomic o lay id).sreg = t.sreg ∧
      (t.issueAtomic o lay id).lastAcq = (if o.acq then some id else t.lastAcq) ∧
      ∀ h, o.hl = some h → (t.issueAtomic o lay id).rh h = { t.rh h with full := false, pend := some id, lost := false } := by
  obtain ⟨u, hu, hreqs, hsreg, hacq, hlatches⟩ : ∃ u : Strand,
      t.issueAtomic o lay id = (match o.hl with | some h => u.bindLatch h id | none => u) ∧ u.reqs = t.reqs ∧ u.sreg = t.sreg ∧
      u.lastAcq = (if o.acq then some id else t.lastAcq) ∧ u.latches = t.latches := by
    refine ⟨_, rfl, ?_⟩
    cases o.acq <;> by_cases hspace : lay.space = 4 <;> simp [hspace, Strand.useWin]
  rw [hu]
  cases o.hl with
  | none => exact ⟨hreqs, hsreg, hacq, nofun⟩
  | some n =>
    refine ⟨hreqs, hsreg, hacq, fun h hh => ?_⟩
    obtain rfl := Option.some.inj hh
    rw [Strand.rh_bindLatch, Strand.rh, Strand.rh, hlatches]

/-! ## Stores (R140, R141) -/

theorem State.strand_addReq (s : State) (k : Nat) (f : Nat → Req) :
    (s.addReq k f).strand k = { s.strand k with reqs := (s.strand k).reqs ++ [f s.nextId] } := State.strand_modStrand ..

/-- A store outside core scratch is one request; one through a window takes its allowance. -/
theorem State.bufferStore_spec (s : State) (k : Nat) (m : MemChk) (es : List Datum) (bytewise h : Bool) (hidx : Nat) :
    let t := s.bufferStore k m es bytewise h hidx
    ∃ q, (t.strand k).reqs = (s.strand k).reqs ++ [q] ∧ q.kind = .store ∧ q.id = s.nextId ∧ q.els = reqEls bytewise es ∧
      q.hnd = (if h then some hidx else none) ∧ t.mem = s.mem ∧ (∀ r, (t.strand k).rs r = (s.strand k).rs r) ∧
      storeGet 0 (t.strand k).allowOut m.lay.win = storeGet 0 (s.strand k).allowOut m.lay.win +
        (if m.lay.space = 4 then winUnits (reqEls bytewise es) else 0) := by
  intro t
  simp only [t, State.bufferStore, State.strand_modStrand, State.strand_addReq]
  refine ⟨⟨s.nextId, .store, m.lay.space, m.lay.win, reqEls bytewise es, none, 0, false, false, if h then some hidx else none, .st,
    (s.strand k).bun.addr, if m.lay.space = 4 then winUnits (reqEls bytewise es) else 0, none, none, false, false, false, [], none⟩,
    ?reqs, rfl, rfl, rfl, rfl, rfl,
    fun r => ?regs, ?allowance⟩
  case reqs => split <;> rfl
  case regs => split <;> rfl
  case allowance =>
    split
    · exact storeGet_storePut_same ..
    · rfl

/-- What a store that is clear to issue does (R127, R140, R141). -/
theorem opStore_eff {i : Instr} {g : Guard} {chk : List Cause} {m : MemChk} {late : Option (Cause × Word)} {wait : Bool}
    {data : Strand → List Datum} {hnd : Bool} {hidx : Nat} {s : State} {k : Nat} (h : Issues s k)
    (hdata : (data s.me).isEmpty = m.els.isEmpty) :
    let t := (opStore i g chk m late wait data hnd hidx s).eff s
    (s.me.emulated .st = true ∨ m.els = [] → t = s) ∧
    (s.me.emulated .st = false → m.els ≠ [] → m.lay.space = 0 →
      t = landed s k (onWay s.me .st (.core (coreCells (data s.me))) 1 0 fullEn none)) ∧
    (s.me.emulated .st = false → m.els ≠ [] → m.lay.space ≠ 0 → t = s.bufferStore k m (data s.me) false hnd hidx) := by
  have hkept (hemu : s.me.emulated .st = false) (hels : m.els ≠ []) :
      (opStore i g chk m late wait data hnd hidx s).eff s =
        if m.lay.space = 0 then s.pushIn ⟨.core (coreCells (data s.me)), 1, 0, fullEn, false, none, .st, s.me.bun.addr⟩
        else s.bufferStore k m (data s.me) false hnd hidx := by
    have hsome : (data s.me).isEmpty = false := hdata.trans (by simpa using hels)
    simp only [opStore, hemu, storeEff, hsome, h.1, Bool.false_eq_true, if_false]
  refine ⟨fun hskip => ?_, fun hemu hels hspace => ?_, fun hemu hels hspace => ?_⟩
  · simp only [opStore]
    obtain hemu | hels := hskip
    · rw [if_pos hemu]
    · have hnone : (data s.me).isEmpty = true := hdata.trans (by rw [hels]; rfl)
      simp only [storeEff, hnone, if_true, ite_self]
  · rw [hkept hemu hels, if_pos hspace]
    exact State.pushIn_of_issues h _
  · rw [hkept hemu hels, if_neg hspace]

/-- STVH has the effect of its store, whatever makes it wait. -/
theorem opStvh_eff (o : StOps) (s : State) :
    (opStvh o s).eff = (opStore (.stvh o) o.g (latchChk s.me o.d) (stvhAcc s.me o) (latchDyn (.stvh o) s.me o.d) (latchStall s.me o.d)
      (fun t => vecData (stvhAcc s.me o).els (t.rh o.d).data) o.h o.hidx s).eff := by
  rw [opStvh]
  split <;> rfl

theorem scalarData_isEmpty (els : List Loc1) (v : Word) : (scalarData els v).isEmpty = els.isEmpty := List.isEmpty_map
theorem vecData_isEmpty (els : List Loc1) (v : Vec) : (vecData els v).isEmpty = els.isEmpty := List.isEmpty_map

/-! ## Core scratch written (R140) -/

/-- A byte after cells are written in order is that of the last cell at its address. -/
theorem byte_pokeCells (s : State) (cs : List Host.Cell) (a : Nat) :
    (s.pokeCells cs).byte a = match cs.reverse.find? (fun c => c.1 == a) with | some c => c.2 | none => s.byte a := by
  rw [State.byte, State.pokeCells]
  induction cs using List.reverseRecOn with
  | nil => rfl
  | append_singleton cs c ih =>
    dsimp only at ih ⊢
    rw [List.foldl_append, List.foldl_cons, List.foldl_nil, byte_setMem, List.reverse_concat, List.find?_cons]
    by_cases hc : c.1 = a
    · rw [if_pos hc.symm, beq_iff_eq.mpr hc]
    · rw [if_neg (Ne.symm hc), beq_eq_false_iff_ne.mpr hc, ih]

/-! ## What a strand has outstanding -/

/-- The requests, results on their way and engine operations of a strand, with its scalar registers. -/
def Strand.outstanding (t : Strand) : List Req × List InFlight × List Nat × Store Word := (t.reqs, t.inflight, t.engOps, t.sreg)

/-- Between two states every strand has kept what it has outstanding. -/
def State.KeepsOutstanding (s t : State) : Prop := ∀ k, (t.strand k).outstanding = (s.strand k).outstanding

theorem State.KeepsOutstanding.of_strands {s t : State} (h : t.strands = s.strands) : s.KeepsOutstanding t := fun k => by
  rw [State.strand_congr h]

theorem State.KeepsOutstanding.trans {s t u : State} (h : s.KeepsOutstanding t) (h' : t.KeepsOutstanding u) : s.KeepsOutstanding u :=
  fun k => (h' k).trans (h k)

theorem State.KeepsOutstanding.foldl {α : Type} {f : State → α → State} (hf : ∀ (s : State) a, s.KeepsOutstanding (f s a)) (l : List α)
    (s : State) : s.KeepsOutstanding (l.foldl f s) :=
  List.foldlRecOn l f (motive := s.KeepsOutstanding) (.of_strands (by rfl)) fun u hu a _ => hu.trans (hf u a)

theorem State.modStrand_keepsOutstanding (s : State) (k : Nat) {f : Strand → Strand}
    (hf : (f (s.strand k)).outstanding = (s.strand k).outstanding) : s.KeepsOutstanding (s.modStrand k f) := by
  intro j
  by_cases hj : j = k
  · subst hj; rw [State.strand_modStrand, hf]
  · rw [State.strand_modStrand_other _ _ _ _ hj]

theorem Strand.endSpin_outstanding (t : Strand) (now : Nat) : (t.endSpin now).outstanding = t.outstanding := by
  unfold Strand.endSpin
  split <;> rfl

theorem State.wakeSpin_keepsOutstanding (s : State) (ws : List (Nat × Nat)) : s.KeepsOutstanding (s.wakeSpin ws) := fun k => by
  obtain hk | hk := s.wakeSpin_strand ws k
  · rw [hk]
  · rw [hk, Strand.endSpin_outstanding]

theorem State.homeWrite_keepsOutstanding (s : State) (wr : Writer) (els : List (Nat × Nat × Nat)) : s.KeepsOutstanding (s.homeWrite wr els) :=
  .trans (.of_strands (State.performEls_strands wr els s)) (State.wakeSpin_keepsOutstanding _ _)

theorem State.scratchWrite_keepsOutstanding (s : State) (cs : List Host.Cell) : s.KeepsOutstanding (s.scratchWrite cs) :=
  .trans (.of_strands (by rfl)) (State.wakeSpin_keepsOutstanding _ _)

theorem State.wakePlain_keepsOutstanding (s : State) (k : Nat) : s.KeepsOutstanding (s.wakePlain k) :=
  s.modStrand_keepsOutstanding k (by split <;> rfl)

theorem State.resave_keepsOutstanding (s : State) (k : Nat) : s.KeepsOutstanding (s.resave k) := fun j => by rw [State.resave_strand]

theorem State.flagEvent_keepsOutstanding (s : State) (k n : Nat) (w : List Nat) : s.KeepsOutstanding (s.flagEvent k n w) := by
  unfold State.flagEvent
  have hset : s.KeepsOutstanding (s.modStrand k (fun t => { t.wf n true with view := viewAdd t.view (s.keysOf w) })) :=
    s.modStrand_keepsOutstanding k rfl
  refine .trans ?_ (State.resave_keepsOutstanding _ _)
  dsimp only
  split
  · split
    · exact hset.trans (State.wakePlain_keepsOutstanding _ _)
    · exact hset
  · exact hset

/-- A fault record sent leaves what every strand has outstanding. -/
theorem State.sendFault_keepsOutstanding (s : State) (k : Nat) (p : Pending) (pos ser : Nat) : s.KeepsOutstanding (s.sendFault k p pos ser).2 := by
  unfold State.sendFault
  split
  · exact .of_strands (by rfl)
  · next f flag a _ =>
    dsimp only
    have htouch : s.KeepsOutstanding (touchLeaf s (s.strand k).die (s.strand k).tcid ((s.ctx (s.strand k).die (s.strand k).tcid).deleg.va) true) :=
      .of_strands (touchLeaf_strands ..)
    generalize touchLeaf s _ _ _ _ = s1 at htouch ⊢
    generalize faultRecord _ _ _ _ _ _ = bs
    have hwrite : s1.KeepsOutstanding (s1.deviceWrite (s.strand k).die a bs 2).2 :=
      .trans (.of_strands (by rfl)) (State.homeWrite_keepsOutstanding s1.fresh.2 _ _)
    generalize s1.deviceWrite (s.strand k).die a bs 2 = r at hwrite ⊢
    have hflag (d t : Nat) (g : Ctx → Ctx) (w : List Nat) : s.KeepsOutstanding ((r.2.modCtx d t g).flagEvent f flag w) :=
      ((htouch.trans hwrite).trans (.of_strands (by rfl))).trans (State.flagEvent_keepsOutstanding _ _ _ _)
    split
    · exact (hflag _ _ _ _).trans (.of_strands (by rfl))
    · exact hflag _ _ _ _

/-- A cause is delivered as a fault record, or held for the device OS. -/
theorem State.deliver_eq_or (s : State) (k : Nat) (p : Pending) (emul : Bool) :
    s.deliver k p emul = (s.sendFault k p (s.strand k).pos (s.strand k).serial).2 ∨
      s.deliver k p emul = s.modStrand k (fun t => { t with osCause := some p, osEmul := emul }) := by
  by_cases hdel : p.cause.delegable emul = true
  · by_cases hsent : (s.sendFault k p (s.strand k).pos (s.strand k).serial).1 = true
    · exact .inl (State.deliver_delegated hdel hsent)
    · exact .inr (by simp only [State.deliver, hdel, if_true, hsent, Bool.false_eq_true, if_false])
  · exact .inr (State.deliver_held (by simpa using hdel) s k)

theorem State.deliver_keepsOutstanding (s : State) (k : Nat) (p : Pending) (emul : Bool) : s.KeepsOutstanding (s.deliver k p emul) := by
  obtain h | h := s.deliver_eq_or k p emul
  · rw [h]; exact s.sendFault_keepsOutstanding k p _ _
  · rw [h]
    refine s.modStrand_keepsOutstanding k ?_
    rfl

/-- A trap leaves what every strand has outstanding. -/
theorem State.takeTrap_keepsOutstanding (s : State) (k : Nat) (p : Pending) (emul : Bool) : s.KeepsOutstanding (s.takeTrap k p emul) := by
  unfold State.takeTrap
  refine .trans ?_ (State.deliver_keepsOutstanding _ k _ emul)
  intro j
  rw [State.strand_modCore]
  refine State.KeepsOutstanding.trans (.of_strands ?_) (State.modStrand_keepsOutstanding _ k ?_) j
  · rfl
  · rfl

/-! ## A trap that is not delegated changes no memory (R356) -/

theorem State.faultSlot_of_not_delegated {s : State} {k code : Nat}
    (h : ∀ r, (s.ctx (s.strand k).die (s.strand k).tcid).deleg.entry = some r → r.dmask.getLsbD code = false) :
    s.faultSlot k code = none := by
  rw [State.faultSlot]
  cases hr : (s.ctx (s.strand k).die (s.strand k).tcid).deleg.entry with
  | none => rfl
  | some r =>
    simp only [h r hr, Bool.false_and, Bool.false_eq_true, if_false]
    split <;> rfl

theorem State.deliver_mem_of_no_slot {s : State} {k : Nat} {p : Pending} {emul : Bool} (h : s.faultSlot k p.cause.code = none) :
    (s.deliver k p emul).mem = s.mem := by
  simp only [State.deliver, State.sendFault, h]
  split
  · split <;> rfl
  · rfl

theorem State.takeTrap_mem_of_not_delegated {s : State} {k : Nat} {p : Pending} {emul : Bool}
    (h : ∀ r, (s.ctx (s.strand k).die (s.strand k).tcid).deleg.entry = some r → r.dmask.getLsbD p.cause.code = false) :
    (s.takeTrap k p emul).mem = s.mem := by
  unfold State.takeTrap
  refine (State.deliver_mem_of_no_slot (State.faultSlot_of_not_delegated fun r hr => ?_)).trans rfl
  simp only [State.strand_modCore, State.strand_modStrand, State.ctx_modCore, State.ctx_modStrand, State.strand_modCtx, State.ctx_modCtx] at hr
  have hcause : (if (s.strand k).ending then { p with tbun := (s.strand k).bun.addr } else p).cause = p.cause := by split <;> rfl
  rw [hcause]
  exact h r hr

/-! ## Malformed layout entries (R121) -/

/-- An access through a malformed entry takes LAYOUT_BOUNDS with reason 6 before any other condition of the operand. -/
theorem accTrap_of_bad {s : State} {sl : Slot} {m : MemChk} (hemu : s.me.emulated sl = false) (hbad : m.lay.bad = true) :
    accTrap s sl m = some (.layoutBounds, layFval (6, 0)) := by
  simp [accTrap, hemu, MemChk.trap, Lay.entryErr, hbad, firstErr]

/-- A store through a malformed entry that meets no condition of R51. -/
theorem opStore_run_bad {i : Instr} {g : Guard} {m : MemChk} {late : Option (Cause × Word)} {wait : Bool}
    {data : Strand → List Datum} {hnd : Bool} {hidx : Nat} {s : State} {k : Nat} (h : Issues s k) (hg : (s.strand k).guard g = true)
    (hemu : (s.strand k).emulated .st = false) (hbad : m.lay.bad = true) :
    (opStore i g [] m late wait data hnd hidx s).run s =
      .next (s.takeTrap k ⟨.layoutBounds, layFval (6, 0), (s.strand k).bun.addr, 2 ^ Slot.bit .st⟩ false) := by
  have hacc := accTrap_of_bad (s := s) (sl := .st) (m := m) (by rw [State.me_of_issues h]; exact hemu) hbad
  have hdyn : (opStore i g [] m late wait data hnd hidx s).dyn = some (.layoutBounds, layFval (6, 0)) := by
    simp only [opStore, hacc]; rfl
  have hemul : (opStore i g [] m late wait data hnd hidx s).emul = false := by simp only [opStore, hacc]; rfl
  rw [Op.run_dyn _ h hg rfl hdyn, hemul]
  rfl

/-- A store of a latch that is full or waits for its fill meets no condition of R51. -/
theorem latchChk_of_full_or_pending {t : Strand} {n : Nat} (hn : n < t.nlatch) (h : (t.rh n).full = true ∨ (t.rh n).pend.isSome = true) :
    latchChk t n = [] := by
  have hbusy : (!(t.rh n).full && (t.rh n).pend.isNone) = false := by
    obtain hfull | hpend := h
    · rw [hfull]; rfl
    · rw [Option.isNone_eq_false_iff.mpr hpend, Bool.and_false]
  simp [latchChk, hreg, Machine.cond, hn, hbusy]

/-- STVH through a malformed entry does not wait for its latch: only an access that the device OS is to make would. -/
theorem opStvh_of_bad {o : StOps} {s : State} (hemu : s.me.emulated .st = false) (hbad : (s.me.layOf o.le).bad = true) :
    opStvh o s = opStore (.stvh o) o.g (latchChk s.me o.d) (stvhAcc s.me o) (latchDyn (.stvh o) s.me o.d) (latchStall s.me o.d)
      (fun t => vecData (stvhAcc s.me o).els (t.rh o.d).data) o.h o.hidx s := by
  have hacc := accTrap_of_bad (m := stvhAcc s.me o) hemu hbad
  rw [opStvh, if_neg]
  simp [opStore, hacc, isMisaligned]

/-! ## TMOV (R137, R138) -/

theorem State.copyBytes_keepsOutstanding (s : State) (wr : Writer) (ms : List (Nat × Nat)) : s.KeepsOutstanding (s.copyBytes wr ms) := by
  unfold State.copyBytes
  dsimp only
  split
  · split
    · exact s.scratchWrite_keepsOutstanding _
    · exact s.homeWrite_keepsOutstanding _ _
  · exact .of_strands (by rfl)

/-- What a copy leaves of the cores: all. -/
theorem State.copyBytes_cores (s : State) (wr : Writer) (ms : List (Nat × Nat)) :
    ((s.copyBytes wr ms).cores, (s.copyBytes wr ms).cur, (s.copyBytes wr ms).mode) = (s.cores, s.cur, s.mode) := by
  unfold State.copyBytes
  dsimp only
  split
  · split
    · rfl
    · have hperform (els : List (Nat × Nat × Nat)) (u : State) :
          ((u.performEls wr els).cores, (u.performEls wr els).cur, (u.performEls wr els).mode) = (u.cores, u.cur, u.mode) := by
        induction els generalizing u with
        | nil => rfl
        | cons e r ih => exact ih _
      exact hperform _ s
  · rfl

theorem State.copyUnits_keepsOutstanding (s : State) (wr : Writer) (us : List (List (Nat × Nat))) :
    s.KeepsOutstanding (s.copyUnits wr us) :=
  .trans (.of_strands (by rfl)) (State.KeepsOutstanding.foldl (fun s ms => s.copyBytes_keepsOutstanding wr ms) _ _)

theorem State.copyUnits_cores (s : State) (wr : Writer) (us : List (List (Nat × Nat))) :
    ((s.copyUnits wr us).cores, (s.copyUnits wr us).cur, (s.copyUnits wr us).mode) = (s.cores, s.cur, s.mode) :=
  foldl_keeps (fun s : State => (s.cores, s.cur, s.mode)) _ (fun s ms => s.copyBytes_cores wr ms) _ _

theorem State.charge_cores (s : State) (die tcid cls n : Nat) :
    ((s.charge die tcid cls n).cores, (s.charge die tcid cls n).cur, (s.charge die tcid cls n).mode) = (s.cores, s.cur, s.mode) := by
  unfold State.charge
  dsimp only
  split <;> rfl

theorem State.chargeMoves_cores (s : State) (t : Strand) (ms : List (Nat × Nat)) :
    ((s.chargeMoves t ms).cores, (s.chargeMoves t ms).cur, (s.chargeMoves t ms).mode) = (s.cores, s.cur, s.mode) := by
  simp only [State.chargeMoves, State.chargeHomes, State.charge_cores]

theorem State.chargeMoves_strands (s : State) (t : Strand) (ms : List (Nat × Nat)) : (s.chargeMoves t ms).strands = s.strands := by
  simp only [State.chargeMoves, State.chargeHomes_strands]

theorem State.self_modCore_tmq (s : State) (c : Nat) (f : CoreSt → List Tmov) :
    (s.modCore c (fun x => { x with tmq := f x })).self = s.self := by
  show ((s.modCore c _).core s.cur).issuing = (s.core s.cur).issuing
  by_cases hc : s.cur = c
  · rw [hc, State.core_modCore]
  · rw [State.core_modCore_other _ _ _ _ hc]

/-- A state whose cores are those of another issues for the same strand. -/
theorem Issues.of_cores {s u : State} {k : Nat} (h : Issues s k) (hu : (u.cores, u.cur, u.mode) = (s.cores, s.cur, s.mode)) : Issues u k := by
  obtain ⟨hcores, hcur, hmode⟩ : u.cores = s.cores ∧ u.cur = s.cur ∧ u.mode = s.mode := by simpa using hu
  exact ⟨by rw [State.self, State.core, hcores, hcur]; exact h.1, hmode.trans h.2⟩

/-- A TMOV that issues copies some of its units and queues the rest. -/
theorem tmovEff_eq (o : TmovOps) {s : State} {k : Nat} (h : Issues s k) :
    ∃ n ms wr us q, q.id = s.nextId ∧ q.sid = k ∧ q.flag = o.fg ∧ q.fence = (s.strand k).fence ∧
      tmovEff o s = ((((({ s.fresh.2 with nfree := n } : State).chargeMoves (s.strand k) ms).copyUnits wr us).modCore (s.strand k).core
        (fun c => { c with tmq := c.tmq ++ [q] })).modStrand k (fun t => { t with engOps := t.engOps ++ [s.nextId] })).landBit
          (.flag o.fg) 1 false .ld := by
  simp only [tmovEff, State.me_of_issues h]
  split
  next j hj =>
    obtain rfl := Option.some.inj (h.1.symm.trans hj)
    exact ⟨_, _, _, _, _, rfl, rfl, rfl, rfl, rfl⟩
  next hnone => exact absurd (h.1.symm.trans hnone) nofun

/-- What it leaves: the queue longer by one, and of its strand one engine operation more and the flag's clear on its way. -/
theorem tmovEff_spec (o : TmovOps) {s : State} {k : Nat} (h : Issues s k) :
    ∃ q, ((tmovEff o s).core (s.strand k).core).tmq = (s.core (s.strand k).core).tmq ++ [q] ∧
      q.id = s.nextId ∧ q.sid = k ∧ q.flag = o.fg ∧ q.fence = (s.strand k).fence ∧
      ∃ e, ((tmovEff o s).strand k).outstanding =
        ((s.strand k).reqs, (s.strand k).inflight ++ [e], (s.strand k).engOps ++ [s.nextId], (s.strand k).sreg) ∧
      e.dest = .flag o.fg ∧ e.data = 0 ∧ e.rem = 1 := by
  obtain ⟨n, ms, wr, us, q, hid, hsid, hflag, hfence, heff⟩ := tmovEff_eq o h
  refine ⟨q, ?_⟩
  rw [heff]
  generalize hu : ({ s.fresh.2 with nfree := n } : State) = u
  have hcores : (u.cores, u.cur, u.mode) = (s.cores, s.cur, s.mode) := by rw [← hu]; rfl
  have hstrands : u.strands = s.strands := by rw [← hu]; rfl
  have hcopied : (((u.chargeMoves (s.strand k) ms).copyUnits wr us).cores, ((u.chargeMoves (s.strand k) ms).copyUnits wr us).cur,
      ((u.chargeMoves (s.strand k) ms).copyUnits wr us).mode) = (s.cores, s.cur, s.mode) :=
    ((State.copyUnits_cores ..).trans (State.chargeMoves_cores ..)).trans hcores
  have hkept : s.KeepsOutstanding ((u.chargeMoves (s.strand k) ms).copyUnits wr us) :=
    .trans (.of_strands ((State.chargeMoves_strands ..).trans hstrands)) (State.copyUnits_keepsOutstanding _ _ _)
  generalize (u.chargeMoves (s.strand k) ms).copyUnits wr us = v at hcopied hkept
  have hv := h.of_cores hcopied
  have hcore : v.core (s.strand k).core = s.core (s.strand k).core := by
    rw [State.core, State.core, (Prod.mk.inj hcopied).1]
  obtain ⟨hreqs, hinflight, hengOps, hsreg⟩ : (v.strand k).reqs = (s.strand k).reqs ∧ (v.strand k).inflight = (s.strand k).inflight ∧
      (v.strand k).engOps = (s.strand k).engOps ∧ (v.strand k).sreg = (s.strand k).sreg := by
    simpa [Strand.outstanding] using hkept k
  generalize hw : (v.modCore (s.strand k).core (fun c => { c with tmq := c.tmq ++ [q] })).modStrand k
      (fun t => { t with engOps := t.engOps ++ [s.nextId] }) = w
  have hissues : Issues w k := by
    rw [← hw]; exact ⟨(State.self_modCore_tmq v _ fun c => c.tmq ++ [q]).trans hv.1, hv.2⟩
  have hqueue : (w.core (s.strand k).core).tmq = (s.core (s.strand k).core).tmq ++ [q] := by
    rw [← hw, State.core_modStrand, State.core_modCore, hcore]
  have hstrand : w.strand k = { v.strand k with engOps := (v.strand k).engOps ++ [s.nextId] } := by
    rw [← hw, State.strand_modStrand, State.strand_modCore]
  rw [State.landBit_of_issues hissues]
  refine ⟨hqueue, hid, hsid, hflag, hfence, onWay (w.strand k) .ld (.flag o.fg) 1 0 fullEn none, ?_, rfl, rfl, rfl⟩
  rw [landed_strand]
  simp only [Strand.outstanding, hstrand, hreqs, hinflight, hengOps, hsreg]
  rfl

theorem Strand.rs_congr {t u : Strand} (h : u.sreg = t.sreg) (r : Nat) : u.rs r = t.rs r := by rw [Strand.rs, Strand.rs, h]

end Sys2Proof.Machine
end

section
open Sys2Proof Sys2Proof.Machine

/-- Settles O29: each of the three loads is `opLoad` of its access. -/
theorem loadsComplete : Obligations.LoadsComplete := by
  unfold Obligations.LoadsComplete
  refine ⟨fun o s k h hc => ?lds, fun o s k h hc => ?ldv, fun o s k h hc => ?ldvg⟩
  all_goals
    rw [← State.me_of_issues h]
    exact opLoad_run h hc

/-- Settles O30: a request joins those of its strand (`State.addMyReq_onMe_spec`); a store is what `opStore_eff` says of its access. -/
theorem requestsMade : Obligations.RequestsMade := by
  unfold Obligations.RequestsMade
  refine ⟨fun o s k h hc => ?ldh, fun o s k i op hi h hc => ?atomic, fun o s k h hc hspace hacq => ?vredCore, fun o s k h hc hout => ?vred,
    fun s k i m data hnd hidx hstore h => ?store⟩
  case ldh =>
    obtain ⟨hstrand, hmem⟩ := State.addMyReq_onMe_spec h (ldhReq (s.strand k) o) (fun t => t.bindLatch o.d s.nextId)
    refine ⟨_, ldhReq (s.strand k) o s.nextId, (Op.run_clear _ h hc).trans (congrArg _ (opLdh_eff o h)), ?_, rfl, rfl, rfl, rfl, ?_, hmem,
      fun r => ?_⟩
    all_goals rw [hstrand]
    case refine_1 | refine_3 => rfl
    exact Strand.rh_bindLatch ..
  case atomic =>
    have hexec : exec i s = (opAtomic i op o s).run s := by
      simp only [List.mem_cons, Prod.mk.injEq, List.not_mem_nil, or_false] at hi
      rcases hi with ⟨rfl, rfl⟩ | ⟨rfl, rfl⟩ | ⟨rfl, rfl⟩ | ⟨rfl, rfl⟩ | ⟨rfl, rfl⟩ | ⟨rfl, rfl⟩ | ⟨rfl, rfl⟩ | ⟨rfl, rfl⟩ |
        ⟨rfl, rfl⟩
      all_goals rfl
    obtain ⟨hstrand, hmem⟩ := State.addMyReq_onMe_spec h (atomReq s.me op o) (Strand.issueAtomic · o (atomAcc s.me op o).lay s.nextId)
    obtain ⟨hreqs, hsreg, hlast, hbind⟩ := Strand.issueAtomic_spec { s.strand k with reqs := (s.strand k).reqs ++ [atomReq s.me op o s.nextId] } o
      (atomAcc s.me op o).lay s.nextId
    refine ⟨_, _, hexec.trans (Op.run_clear _ h hc), (congrArg Strand.reqs hstrand).trans hreqs, ?_, fun n hn => ?_,
      (congrArg Strand.lastAcq hstrand).trans hlast, hmem, fun r => ?_⟩
    · rw [State.me_of_issues h]
    · exact (congrArg (Strand.rh · n) hstrand).trans (hbind n hn)
    · exact (congrArg (Strand.rs · r) hstrand).trans (Strand.rs_congr hsreg r)
  case vredCore => exact (Op.run_clear _ h hc).trans (congrArg _ ((opVred_eff o h).trans (if_pos ⟨hspace, hacq⟩)))
  case vred =>
    have hrequest : ¬(((s.strand k).layOf o.le).space = 0 ∧ acqBefore (s.strand k) s.nextId = false) := by
      rintro ⟨hcore, hacq⟩
      obtain hspace | hacq' := hout
      · exact hspace hcore
      · exact Bool.false_ne_true (hacq.symm.trans hacq')
    obtain ⟨hstrand, hmem⟩ := State.addMyReq_onMe_spec h (vredReq (s.strand k) o)
      (fun t => if ((s.strand k).layOf o.le).space = 4 then t.useWin ((s.strand k).layOf o.le).win else t)
    refine ⟨_, vredReq (s.strand k) o s.nextId, (Op.run_clear _ h hc).trans (congrArg _ ((opVred_eff o h).trans (if_neg hrequest))), ?_, rfl, rfl,
      hmem, fun r => ?_⟩
    all_goals
      rw [hstrand]
      split <;> rfl
  case store =>
    obtain ⟨t, hexec, hskip, hcore, hout⟩ : ∃ t, exec i s = .next t ∧
        ((s.strand k).emulated .st = true ∨ m.els = [] → t = s) ∧
        ((s.strand k).emulated .st = false → m.els ≠ [] → m.lay.space = 0 →
          t = landed s k (onWay (s.strand k) .st (.core (coreCells data)) 1 0 fullEn none)) ∧
        ((s.strand k).emulated .st = false → m.els ≠ [] → m.lay.space ≠ 0 → t = s.bufferStore k m data false hnd hidx) := by
      rcases hstore with ⟨o, rfl, rfl, rfl, rfl, rfl, hc⟩ | ⟨o, rfl, rfl, rfl, rfl, rfl, hc⟩ | ⟨o, rfl, rfl, rfl, rfl, rfl, hc⟩ |
        ⟨o, rfl, rfl, rfl, rfl, rfl, hc⟩ | ⟨o, rfl, rfl, rfl, rfl, rfl, hc⟩
      all_goals
        refine ⟨_, Op.run_clear _ h hc, ?_⟩
        rw [← State.me_of_issues h]
      · rw [opSts]; exact opStore_eff h (scalarData_isEmpty _ _)
      · rw [opStv]; exact opStore_eff h (vecData_isEmpty _ _)
      · rw [opStvs]; exact opStore_eff h (vecData_isEmpty _ _)
      · rw [opStvm]; exact opStore_eff h (vecData_isEmpty _ _)
      · rw [opStvh_eff]; exact opStore_eff h (vecData_isEmpty _ _)
    rw [hexec]
    refine ⟨fun hs => by rw [hskip hs], fun hemu hels hspace => by rw [hcore hemu hels hspace], fun hemu hels hspace => ?_⟩
    obtain ⟨q, hreqs, hkind, hid, hqels, hq, hmem, hregs, hallow⟩ := s.bufferStore_spec k m data false hnd hidx
    exact ⟨_, q, congrArg _ (hout hemu hels hspace), hreqs, hkind, hid, hqels, hq, hmem, hregs, hallow⟩

/-- Settles O31: the bytes are written in order, each at its place in core scratch. -/
theorem coreStoreLands : Obligations.CoreStoreLands := by
  unfold Obligations.CoreStoreLands
  intro s k cells a
  refine (byte_pokeCells s (cells.map fun c => (s.scratchAddr (s.strand k) 0 c.1, c.2)) a).trans ?_
  rw [← List.map_reverse, List.find?_map]
  cases hfind : cells.reverse.find? ((fun c => c.1 == a) ∘ fun c => (s.scratchAddr (s.strand k) 0 c.1, c.2)) with
  | none => rw [Function.comp_def] at hfind; rw [hfind]; rfl
  | some c => rw [Function.comp_def] at hfind; rw [hfind]; rfl

/-- Settles O32: LAYOUT_BOUNDS is the only condition that such a store meets, and a trap leaves what a strand has outstanding. -/
theorem malformedLayoutTraps : Obligations.MalformedLayoutTraps := by
  unfold Obligations.MalformedLayoutTraps
  intro s k i g le h hg hemu hbad hstore t
  have hexec : exec i s = .next t := by
    have hme : s.me = s.strand k := State.me_of_issues h
    have hchk {fl : VFile} {d : Nat} (hw : Within (s.strand k) [(fl, d)]) : vreg s.me fl d = [] := by
      rw [hme]; exact vreg_within _ _ _ (hw (fl, d) List.mem_cons_self)
    rw [← hme] at hbad
    rcases hstore with ⟨o, rfl, rfl, rfl⟩ | ⟨o, rfl | rfl, rfl, rfl, hw⟩ | ⟨o, rfl, rfl, rfl, hw⟩ | ⟨o, rfl, rfl, rfl, hd, hlatch⟩
    · exact opStore_run_bad h hg hemu hbad
    · show (opStv o s).run s = _
      rw [opStv, hchk hw]
      exact opStore_run_bad h hg hemu hbad
    · show (opStvs o s).run s = _
      rw [opStvs, hchk hw]
      exact opStore_run_bad h hg hemu hbad
    · show (opStvm o s).run s = _
      rw [opStvm, hchk hw]
      exact opStore_run_bad h hg hemu hbad
    · show (opStvh o s).run s = _
      rw [opStvh_of_bad (by rw [hme]; exact hemu) hbad, hme, latchChk_of_full_or_pending hd hlatch, ← hme]
      exact opStore_run_bad h hg hemu hbad
  have hkept : (t.strand k).outstanding = (s.strand k).outstanding := s.takeTrap_keepsOutstanding k _ _ k
  obtain ⟨hreqs, hinflight⟩ : (t.strand k).reqs = (s.strand k).reqs ∧ (t.strand k).inflight = (s.strand k).inflight := by
    simp only [Strand.outstanding, Prod.mk.injEq] at hkept
    obtain ⟨hreqs, hinflight, -⟩ := hkept
    exact ⟨hreqs, hinflight⟩
  exact ⟨hexec, hreqs, hinflight, fun hdel => State.takeTrap_mem_of_not_delegated (p := ⟨.layoutBounds, _, _, _⟩) hdel⟩

/-- Settles O33: a TMOV that is clear to issue is `tmovEff`, whose copies leave what a strand has outstanding. -/
theorem tileMoveQueued : Obligations.TileMoveQueued := by
  unfold Obligations.TileMoveQueued
  intro o s k h hc
  obtain ⟨q, hqueue, hid, hsid, hflag, hfence, e, hout, hdest, hdata, hrem⟩ := tmovEff_spec o h
  obtain ⟨-, hinflight, hengOps, hsreg⟩ : _ ∧ ((tmovEff o s).strand k).inflight = (s.strand k).inflight ++ [e] ∧
      ((tmovEff o s).strand k).engOps = (s.strand k).engOps ++ [s.nextId] ∧ ((tmovEff o s).strand k).sreg = (s.strand k).sreg := by
    simpa only [Strand.outstanding, Prod.mk.injEq] using hout
  exact ⟨_, q, Op.run_clear _ h hc, hqueue, hid, hsid, hflag, hfence, hengOps, ⟨e, hinflight, hdest, hdata, hrem⟩,
    fun r => Strand.rs_congr hsreg r⟩
end

section
/-! PROOF. The words that the spec writes out (O58). A word that is the encoding of an operation decodes to it (O59), so each is checked by
encoding. -/
namespace Sys2Proof

theorem decodeSyllable_of_enc {sl : Slot} {w : Nat} (i : Instr) (henc : encodeSyllable i = w) (hs : slotOf i = some sl) (hw : i.wf = true) :
    decodeSyllable sl w = .ok i := henc ▸ decodeSyllable_encodeSyllable hs hw

/-- The bundle of two operations that the spec writes out, at word 27 of its image. -/
theorem decodeBundle_addi_stv {x y : Instr} (hx : decodeSyllable .s 0x0300208100000001 = .ok x)
    (hy : decodeSyllable .st 0x0200081C00302000 = .ok y) :
    decodeBundle (List.replicate 27 0 ++ [0x84048000, 0x00000001, 0x03002081, 0x00302000, 0x0200081C]) 27 =
      .ok ⟨27, 0x84048000, ⟨0x84, 0, 4, true, false⟩, [⟨.s, 0x0300208100000001, .ok x⟩, ⟨.st, 0x0200081C00302000, .ok y⟩]⟩ := by
  have hhdr : Header.get 0x84048000 = ⟨0x84, 0, 4, true, false⟩ := by decide
  have hpres : presSlots 0x84 = [.s, .st] := by decide
  rw [decodeBundle, List.drop_left' (List.length_replicate ..)]
  simp [hhdr, hpres, wordsOf, takeSyls, hx, hy]

end Sys2Proof
end

section
open Sys2Proof Sys2Proof.Machine

/-- Settles O58: each word is an encoding, and the bundle is two of them under its header. -/
theorem decodeWords : Obligations.DecodeWords := by
  unfold Obligations.DecodeWords
  have haddi : decodeSyllable .s 0x0300208100000001 = .ok (.addi ⟨⟨0, false⟩, 1, 1, 1⟩) := decodeSyllable_of_enc _ (by decide) rfl (by decide)
  have hstv : decodeSyllable .st 0x0200081C00302000 =
      .ok (.stv ⟨⟨0, false⟩, 2, .a, 3, ⟨true, 0⟩, ⟨false, 1⟩, ⟨true, 0⟩, ⟨true, 0⟩, false, 0⟩) :=
    decodeSyllable_of_enc _ (by decide) rfl (by decide)
  refine ⟨?cwait, ?phase, ?aadd, hstv, haddi, ?li, _, decodeBundle_addi_stv haddi hstv, rfl, rfl, rfl, rfl⟩
  case cwait | phase | aadd => exact decodeSyllable_of_enc _ (by decide) rfl (by decide)
  case li => exact decodePilot_encodePilot (i := .pilotLi ⟨3, 7⟩) rfl (by decide)
end

section
/-! PROOF. What a step runs (O40): the turn that the agenda names, or a clock cycle of the current core, and in it the issue of a bundle. -/
namespace Sys2Proof.Machine

/-! ## Turns -/

/-- A turn of the agenda other than a power event. -/
theorem step_of_agenda {s : State} {t : Turn} {r : List Turn} (h : s.agenda = t :: r) (hp : powerTurn t { s with agenda := r } = none)
    (hst : s.stuck = none) : step s = ({ s with agenda := r } : State).runTurn exec t := by
  simp only [step, State.turn, h, List.headD_cons, List.tail_cons, hp]
  rw [hst]

/-- With nothing on the agenda the current core has its turn. -/
theorem step_of_empty {s : State} (h : s.agenda = []) (hst : s.stuck = none) : step s = s.runTurn exec (.strand s.cur) := by
  have hs : ({ s with agenda := [] } : State) = s := by rw [← h]
  simp only [step, State.turn, h, List.headD_nil, List.tail_nil, hs, powerTurn]
  rw [hst]

/-- A core of a die with stated behaviour. -/
theorem runTurn_strand {s : State} {c : Nat} (h : (s.die (c / 64)).void = false) :
    s.runTurn exec (.strand c) = (s.coreTurn c).coreCycle exec c := by
  simp only [State.runTurn, State.isVoid, h, Bool.false_eq_true, if_false]

/-- An event at dies with stated behaviour. -/
theorem runTurn_event {s : State} {i : Instr} (hi : isEvent i = true) (hdies : (s.eventDies i).any s.isVoid = false)
    (hsome : ∃ d < 8, (s.die d).void = false) : s.runTurn exec (.event i) = exec i s := by
  have hall : (List.range 8).all s.isVoid = false := by
    obtain ⟨d, hd, hvoid⟩ := hsome
    exact List.all_eq_false.mpr ⟨d, List.mem_range.mpr hd, by rw [State.isVoid, hvoid]; exact Bool.false_ne_true⟩
  simp only [State.runTurn, hi, hdies, hall, Bool.true_eq_false, Bool.or_self, Bool.false_eq_true, if_false]

/-! What an event reaches does not depend on the agenda: the functions that find an access's place, one after another. -/

theorem poisonedWalk_agenda (s : State) (r : List Turn) : poisonedWalk { s with agenda := r } = poisonedWalk s := by rfl
theorem leafOf_agenda (s : State) (r : List Turn) : leafOf { s with agenda := r } = leafOf s := by rfl
theorem partOk_agenda (s : State) (r : List Turn) : partOk { s with agenda := r } = partOk s := by rfl
theorem leafLoc_agenda (s : State) (r : List Turn) : leafLoc { s with agenda := r } = leafLoc s := by rfl
theorem ctx_agenda (s : State) (r : List Turn) : State.ctx { s with agenda := r } = s.ctx := by rfl
theorem blockCheck_agenda (s : State) (r : List Turn) : blockCheck { s with agenda := r } = blockCheck s := by rfl
theorem members_agenda (s : State) (r : List Turn) : State.members { s with agenda := r } = s.members := by rfl
theorem dieOfDomain_agenda (s : State) (r : List Turn) : State.dieOfDomain { s with agenda := r } = s.dieOfDomain := by rfl
theorem dropPoint_agenda (s : State) (r : List Turn) : State.dropPoint { s with agenda := r } = s.dropPoint := by rfl
theorem pathTo_agenda (s : State) (r : List Turn) : State.pathTo { s with agenda := r } = s.pathTo := by rfl
theorem lkeyOk_agenda (s : State) (r : List Turn) : State.lkeyOk { s with agenda := r } = s.lkeyOk := by rfl

theorem accessVa_agenda (s : State) (r : List Turn) : accessVa { s with agenda := r } = accessVa s := by
  funext die tcid gang acc berth needLocal va fva
  simp only [accessVa, poisonedWalk_agenda, leafOf_agenda, partOk_agenda, leafLoc_agenda, ctx_agenda, blockCheck_agenda]

theorem windowByte_agenda (s : State) (r : List Turn) : windowByte { s with agenda := r } = windowByte s := by
  funext die c win word acc dst eoff off
  simp only [windowByte, dieOfDomain_agenda, dropPoint_agenda, pathTo_agenda, lkeyOk_agenda, ctx_agenda, accessVa_agenda, blockCheck_agenda]

theorem windowTarget_agenda (s : State) (r : List Turn) : windowTarget { s with agenda := r } = windowTarget s := by
  funext die c win word acc dst off w
  rw [windowTarget, windowByte_agenda]
  rfl

theorem elemMet_agenda (s : State) (r : List Turn) (k : Nat) : elemMet { s with agenda := r } k = elemMet s k := by
  funext acc space win e
  simp only [elemMet, accessVa_agenda, blockCheck_agenda, windowTarget_agenda, members_agenda]
  rfl

theorem requestDies_agenda (s : State) (r : List Turn) (k rid : Nat) : ({ s with agenda := r } : State).requestDies k rid = s.requestDies k rid := by
  simp only [State.requestDies, placed, elemAddr, elemMet_agenda]
  rfl

theorem eventDies_agenda (s : State) (r : List Turn) (i : Instr) : ({ s with agenda := r } : State).eventDies i = s.eventDies i := by
  cases i
  case storePerform k rid | atomicPerform k rid | latchFill k rid => exact requestDies_agenda s r k rid
  all_goals rfl

/-- A lane that runs a program makes the instruction at its pc (R400). -/
theorem laneTurn_run {s : State} {d l w : Nat} {i : Instr} (hstage : (storeGet Lane.reset (s.die d).lanes l).stage = .run)
    (hw : (storeGet Lane.reset (s.die d).lanes l).prog[(storeGet Lane.reset (s.die d).lanes l).pc]? = some w) (hi : decodePilot w = some i) :
    s.laneTurn exec d l = exec i { s with laneDie := d, laneNum := l } := by
  have hlane : ({ s with laneDie := d, laneNum := l } : State).lane = storeGet Lane.reset (s.die d).lanes l := rfl
  simp only [State.laneTurn, hlane, hstage, hw, Option.bind_some, hi]

/-! ## The clock cycle of a core (R31, R34, R81) -/

/-- A core above the last that had its turn is in the same clock cycle of its die. -/
theorem coreTurn_same {s : State} {c : Nat} (h : ∀ x, (s.die (c / 64)).lastTurn = some x → x < c) :
    s.coreTurn c = s.modDie (c / 64) (fun d => { d with lastTurn := some c }) := by
  rw [State.coreTurn]
  cases hx : (s.die (c / 64)).lastTurn with
  | none => rfl
  | some x =>
    have hlt := h x hx
    simp only [decide_eq_true_eq, Nat.not_le.mpr hlt, if_false]

/-- A core that is not above it begins the next one (log entry 15). -/
theorem coreTurn_next {s : State} {c x : Nat} (h : (s.die (c / 64)).lastTurn = some x) (hx : c ≤ x) :
    s.coreTurn c = (s.dieCycle (c / 64)).modDie (c / 64) (fun d => { d with lastTurn := some c }) := by
  simp only [State.coreTurn, h, hx, decide_true, if_true]

/-- The core that issues for a strand, in its clock cycle. -/
theorem coreCycle_issuing {s : State} {k : Nat} (hfrozen : (s.core s.cur).frozen = false) (hself : s.self = some k) :
    s.coreCycle exec s.cur = ({ s with mode := .whole, found := [], stall := false } : State).strandCycle exec k := by
  have hissuing : (s.core s.cur).issuing = some k := hself
  have hcore : ({ s with cur := s.cur, mode := .whole, found := [], stall := false } : State).core s.cur = s.core s.cur := rfl
  simp only [State.coreCycle, hcore, hfrozen, hissuing, Bool.false_eq_true, if_false]

/-- A strand that owes nothing fetches. -/
theorem strandCycle_fetch {s : State} {k : Nat} (hst : (s.strand k).st ≠ .retiring) (hdrain : (s.strand k).drain = none)
    (hcauses : (s.strand k).causes = []) (hres : (s.strand k).residue = 0) (hhnd : (s.strand k).hndDue = false) :
    s.strandCycle exec k = State.fetchIssue exec k 2 s := by
  simp only [State.strandCycle, if_neg hst, hdrain, hcauses, List.isEmpty_nil, Bool.not_true, Bool.and_false, Bool.false_eq_true, if_false, hres,
    Nat.lt_irrefl, hhnd]

/-- The bundle at the position issues: its stop test has been made, the nullifier does not skip it and the limit is not reached. -/
theorem fetchIssue_issue {s : State} {k fuel : Nat} {b : Bundle} (hdrain : (s.strand k).drain = none)
    (hdec : decodeBundle (s.imageWords (s.strand k)) (s.strand k).pos = .ok b) (hpark : b.hdr.park = false ∨ (s.strand k).tested = true)
    (hskip : canSkip ((s.beginCycle k).strand k) b = false) (hlimit : ((s.beginCycle k).strand k).atLimit = false) :
    State.fetchIssue exec k (fuel + 1) s = (s.beginCycle k).issueBundle exec k b := by
  have htest : (b.hdr.park && !(s.strand k).tested) = false := by
    obtain h | h := hpark
    · rw [h, Bool.false_and]
    · rw [h, Bool.not_true, Bool.and_false]
  simp only [State.fetchIssue, hdec, htest, hdrain, hskip, hlimit, Option.isSome_none, Bool.and_false, Bool.false_eq_true, if_false]

/-- With nothing on the agenda, the current core begins an issue cycle of its strand and issues the bundle at its position. -/
theorem step_issues {s a u : State} {k : Nat} {b : Bundle} (ha : a = s.modDie (s.cur / 64) (fun d => { d with lastTurn := some s.cur }))
    (hu : u = ({ a with mode := .whole, found := [], stall := false } : State).beginCycle k) (hag : s.agenda = []) (hst : s.stuck = none)
    (hvoid : (s.die (s.cur / 64)).void = false) (hlast : ∀ x, (s.die (s.cur / 64)).lastTurn = some x → x < s.cur)
    (hfrozen : (s.core s.cur).frozen = false) (hself : s.self = some k) (hret : (s.strand k).st ≠ .retiring) (hdrain : (s.strand k).drain = none)
    (hcauses : (s.strand k).causes = []) (hres : (s.strand k).residue = 0) (hhnd : (s.strand k).hndDue = false)
    (hdec : decodeBundle (s.imageWords (s.strand k)) (s.strand k).pos = .ok b) (hpark : b.hdr.park = false ∨ (s.strand k).tested = true)
    (hskip : canSkip (u.strand k) b = false) (hlimit : (u.strand k).atLimit = false) : step s = u.issueBundle exec k b := by
  have hcur : a.cur = s.cur := by rw [ha]; rfl
  have hcores : a.cores = s.cores := by rw [ha]; rfl
  have hstrands : a.strands = s.strands := by rw [ha]; rfl
  have hctxs : a.ctxs = s.ctxs := by rw [ha]; rfl
  rw [step_of_empty hag hst, runTurn_strand hvoid, coreTurn_same hlast, ← ha, ← hcur]
  rw [coreCycle_issuing (k := k) (by rw [State.core, hcores, hcur]; exact hfrozen) (by rw [State.self, State.core, hcores, hcur]; exact hself)]
  generalize hv : ({ a with mode := .whole, found := [], stall := false } : State) = v at hu ⊢
  have hstrand : v.strand k = s.strand k := State.strand_congr (by rw [← hv]; exact hstrands) k
  have hwords : v.imageWords (v.strand k) = s.imageWords (s.strand k) := by
    rw [hstrand, State.imageWords, State.imageWords, State.ctx, State.ctx, ← hv]; dsimp only; rw [hctxs]
  rw [← hstrand] at hret hdrain hcauses hres hhnd hpark
  rw [← hwords, ← hstrand] at hdec
  rw [strandCycle_fetch hret hdrain hcauses hres hhnd, hu]
  subst hu
  exact fetchIssue_issue hdrain hdec hpark hskip hlimit

/-! ## Bundles of one operation (R78) -/

/-- The only operation of a bundle is its order of effects. -/
theorem orderOf_one {b : Bundle} {x : Syl} {i : Instr} (hb : b.syls = [x]) (hx : x.op = .ok i) : orderOf b = [i] := by
  have hi : x.instr = some i := by rw [Syl.instr, hx]
  rw [orderOf, hb]
  by_cases hsy : x.slot = .sy
  · simp [hi, hsy]
  · cases ht : isTransfer i <;> simp [hi, hsy, ht]

theorem commitOps_one {s : State} {b : Bundle} {x : Syl} {i : Instr} (hb : b.syls = [x]) (hx : x.op = .ok i) :
    s.commitOps exec b = exec i { s with mode := .whole } := by
  rw [State.commitOps, orderOf_one hb hx]

/-- The tail of a bundle's issue, once its effects are made. -/
def finishBundle (k : Nat) (b : Bundle) (banks : Nat) (r : Host.Outcome State Fault Refusal) : Host.Outcome State Fault Refusal :=
  match r with
  | .next t => .next ((t.modStrand k (fun t => { t with eres := b.hdr.erun })).issued k b banks)
  | .fault f => .fault f
  | .refused x => .refused x

/-- A bundle that meets no condition, does not stall and finds its tokens and banks has its effects. -/
theorem issueBundle_commit {s n : State} {k : Nat} {b : Bundle} (hn : s.nameBundle k b = n) (hfound : (n.checkOps exec b).found = [])
    (hstall : (n.checkOps exec b).stall = false) (hpaid : (n.payTokens k (bundleTokens n k b)).1 = true) (hspin : spinOf (n.strand k) b = none)
    (hbank : bankStalls (bundleDemands (n.strand k) b ++ n.cardDemands k) ≤ (n.core (n.strand k).core).bank) :
    s.issueBundle exec k b = finishBundle k b (bundleDemands (n.strand k) b).eraseDups.length
      ((((n.payTokens k (bundleTokens n k b)).2.countBundle k b).header k 0).commitOps exec b) := by
  subst hn
  simp only [State.issueBundle, hfound, hstall, hpaid, hspin, List.isEmpty_nil, Bool.true_eq_false, Bool.false_and,
    decide_false, Bool.false_eq_true, if_false, Nat.not_lt.mpr hbank]
  rfl

end Sys2Proof.Machine
end

section
open Sys2Proof Sys2Proof.Machine

/-- Settles O40: each clause is a turn, down to `exec` of what it decodes. -/
theorem stepRunsDecoded : Obligations.StepRunsDecoded := by
  unfold Obligations.StepRunsDecoded
  refine ⟨fun s i r hag hi hloss hgood hst hdies hsome => ?event, fun s d l r w i hag hst hvoid hstage hw hi => ?lane,
    ?fetch, fun s x hag hst hvoid hlast hx => ?next, fun s k b x i hb hx hfound hstall hpaid hspin hbank => ?one⟩
  case event =>
    have hp : powerTurn (.event i) { s with agenda := r } = none := by
      unfold powerTurn
      split
      next h => exact absurd (Turn.event.inj h) hloss
      next h => exact absurd (Turn.event.inj h) hgood
      next => rfl
    rw [step_of_agenda hag hp hst]
    exact runTurn_event hi (by rw [eventDies_agenda]; exact hdies) hsome
  case lane =>
    rw [step_of_agenda hag rfl hst]
    refine Eq.trans ?_ (laneTurn_run (s := { s with agenda := r }) hstage hw hi)
    have hvoid' : ({ s with agenda := r } : State).isVoid d = false := hvoid
    simp only [State.runTurn, hvoid', Bool.false_eq_true, if_false]
  case fetch =>
    intro s k b hag hst hvoid hlast hfrozen hself hret hdrain hcauses hres hhnd hdec hpark a u hskip hlimit
    exact step_issues rfl rfl hag hst hvoid hlast hfrozen hself hret hdrain hcauses hres hhnd hdec hpark hskip hlimit
  case next => rw [step_of_empty hag hst, runTurn_strand hvoid, coreTurn_next hlast hx]
  case one =>
    rw [issueBundle_commit rfl hfound hstall hpaid hspin hbank, commitOps_one hb hx]
    rfl
end

section
/-! PROOF. The statement on empty issue cycles fails (O41). A job card that the strand's core holds is read in the strand's next issue cycle, an
empty one too (R304, `State.readCards`); a card in a poisoned row makes a cause due, which the end of the cycle delivers. -/
namespace Sys2Proof.Machine

/-- Strand 0 issues on core 0 and owes two empty issue cycles, with nothing in flight. Its core holds a CJOB whose card, at offset 0 of core
scratch, is still to be read and lies in a poisoned row. -/
def poisonedCardState : State :=
  { State.reset with
    strands := [(0, { Strand.reset with st := .issuing, place := some 0, eres := 2 })]
    cores := [(0, { CoreSt.reset with issuing := some 0, frozen := false, ceq := [⟨0, 0, 0, 0, 0, 0, .job [] 0 0 0 0 0, 0⟩] })]
    poisoned := [eccUnit (coreAddr 0 0)] }

/-- Its empty issue cycle ends in the trap of the card's cause. -/
theorem emptyIssueCycle_poisonedCardState : ((poisonedCardState.emptyIssueCycle 0).strand 0).st = .saving := by decide

end Sys2Proof.Machine
end

section
open Sys2Proof Sys2Proof.Machine

/-- Refutes O41: its clause that an empty issue cycle with nothing in flight changes only the strand's counts fails in `poisonedCardState`,
whose strand begins a save. -/
theorem not_coreEvents : ¬ Obligations.CoreEvents := by
  unfold Obligations.CoreEvents
  rintro ⟨-, hempty, -⟩
  obtain ⟨-, hcounts⟩ := hempty poisonedCardState 0 0 (by decide) (by decide) (by decide) (by decide) (by decide)
  obtain ⟨t, ht, -, hstrand⟩ := hcounts (by decide) (by decide) (by decide) (by decide) (by decide) (by decide) (by decide)
  have hsaving : (t.strand 0).st = .saving := by
    rw [← Host.Outcome.next.inj ht]
    exact emptyIssueCycle_poisonedCardState
  rw [hstrand] at hsaving
  exact absurd hsaving (by decide)
end

section
/-! PROOF. What stops, and what is admitted, keeps the binding of every context (for O54).

A context that enters ERROR stops its strands and its jobs, and then every die scans its shares and admits what it can. Nothing that runs on
the way binds or unbinds a context: the functions that change one keep its binding (`State.modCtx_binds`), and each further function gets one
lemma from those of the functions that it calls. So the scan needs no premise on the shares (`State.scanAll_bind`). -/
namespace Sys2Proof.Machine

/-- The binding that each context's entry holds. -/
def bindsOn (m : Store Ctx) (k : Nat) : Binding := (storeGet Ctx.reset m k).bind

theorem State.modCtx_binds (s : State) (d t : Nat) (f : Ctx → Ctx) (hf : ∀ c, (f c).bind = c.bind) :
    bindsOn (s.modCtx d t f).ctxs = bindsOn s.ctxs := by
  funext k
  by_cases h : k = ctxKey d t
  · subst h
    exact (congrArg Ctx.bind (State.ctx_modCtx s d t f)).trans (hf _)
  · exact congrArg Ctx.bind (storeGet_storeSet_other _ _ _ _ _ h)

theorem State.modWin_binds (s : State) (d t n : Nat) (f : Win → Win) : bindsOn (s.modWin d t n f).ctxs = bindsOn s.ctxs :=
  State.modCtx_binds s d t _ fun _ => rfl
theorem State.modDie_binds (s : State) (d : Nat) (f : Die → Die) : bindsOn (s.modDie d f).ctxs = bindsOn s.ctxs := rfl

/-! ## Memory and strands -/

theorem State.modStrand_binds (s : State) (k : Nat) (f : Strand → Strand) : bindsOn (s.modStrand k f).ctxs = bindsOn s.ctxs := rfl
theorem State.modCore_binds (s : State) (c : Nat) (f : CoreSt → CoreSt) : bindsOn (s.modCore c f).ctxs = bindsOn s.ctxs := rfl
theorem State.scratchWrite_binds (s : State) (cs : List Host.Cell) : bindsOn (s.scratchWrite cs).ctxs = bindsOn s.ctxs := rfl
theorem State.wakePlain_binds (s : State) (k : Nat) : bindsOn (s.wakePlain k).ctxs = bindsOn s.ctxs := rfl
theorem State.renew_binds (s : State) (k : Nat) : bindsOn (s.renew k).ctxs = bindsOn s.ctxs := rfl
theorem State.publish_binds (s : State) (k x : Nat) : bindsOn (s.publish k x).ctxs = bindsOn s.ctxs := rfl
theorem State.publishWids_binds (s : State) (w : List Nat) (x : Nat) : bindsOn (s.publishWids w x).ctxs = bindsOn s.ctxs := rfl
theorem State.jam_binds (s : State) (f : Fault) : bindsOn (s.jam f).ctxs = bindsOn s.ctxs := rfl
theorem State.modJob_binds (s : State) (j : Nat) (f : Job → Job) : bindsOn (s.modJob j f).ctxs = bindsOn s.ctxs := rfl

theorem State.writeImage_binds (s : State) (k : Nat) : bindsOn (s.writeImage k).ctxs = bindsOn s.ctxs := by
  unfold State.writeImage
  dsimp only
  split
  · rfl
  · refine (foldl_keeps (fun s => bindsOn s.ctxs) _ (fun _ _ => ?_) _ _).trans (foldl_keeps (fun s => bindsOn s.ctxs) _ (fun _ _ => ?_) _ _)
    · rfl
    · rfl

theorem State.resave_binds (s : State) (k : Nat) : bindsOn (s.resave k).ctxs = bindsOn s.ctxs := by grind [State.resave, State.writeImage_binds]

theorem State.dropArea_binds (s : State) (k : Nat) : bindsOn (s.dropArea k).ctxs = bindsOn s.ctxs := by
  unfold State.dropArea
  cases (s.strand k).spill <;> cases (s.strand k).area <;> rfl

theorem State.performEls_binds (wr : Writer) (els : List (Nat × Nat × Nat)) (s : State) : bindsOn (s.performEls wr els).ctxs = bindsOn s.ctxs := by
  induction els generalizing s with
  | nil => rfl
  | cons e r ih => exact ih _

theorem State.homeWrite_binds (s : State) (wr : Writer) (els : List (Nat × Nat × Nat)) : bindsOn (s.homeWrite wr els).ctxs = bindsOn s.ctxs :=
  State.performEls_binds wr els s

theorem State.deviceWrite_binds (s : State) (die a : Nat) (bs : List Byte) (x : Nat) : bindsOn (s.deviceWrite die a bs x).2.ctxs = bindsOn s.ctxs :=
  State.homeWrite_binds _ _ _

theorem State.flagEvent_binds (s : State) (k n : Nat) (w : List Nat) : bindsOn (s.flagEvent k n w).ctxs = bindsOn s.ctxs := by
  grind [State.flagEvent, State.resave_binds, State.modStrand_binds, State.wakePlain_binds]

/-! ## Translations, charges and energy -/

theorem touchLeaf_binds (s : State) (die tcid va : Nat) (w : Bool) : bindsOn (touchLeaf s die tcid va w).ctxs = bindsOn s.ctxs := by
  rw [touchLeaf_ctxs]

theorem touchEls_binds (s : State) (k : Nat) (acc : Acc) (space : Nat) (els : List El) :
    bindsOn (touchEls s k acc space els).ctxs = bindsOn s.ctxs := by
  induction els generalizing s with
  | nil => rfl
  | cons e r ih =>
    unfold touchEls
    split
    · rw [ih, touchLeaf_binds]
    · rw [ih, touchLeaf_binds]
    · rfl

theorem touchDest_binds (s : State) (w : Win) (dst : Dest') (acc : Acc) (els : List El) :
    bindsOn (touchDest s w dst acc els).ctxs = bindsOn s.ctxs := by
  induction els generalizing s with
  | nil => rfl
  | cons e r ih => grind [touchDest, touchLeaf_binds]

theorem State.charge_binds (s : State) (die tcid cls n : Nat) : bindsOn (s.charge die tcid cls n).ctxs = bindsOn s.ctxs := by
  unfold State.charge
  dsimp only
  split
  · rfl
  · exact State.modCtx_binds _ _ _ _ fun _ => rfl

theorem State.chargeHomes_binds (s : State) (die tcid : Nat) (as_ : List Nat) : bindsOn (s.chargeHomes die tcid as_).ctxs = bindsOn s.ctxs := by
  grind [State.chargeHomes, State.charge_binds]
theorem State.chargeAway_binds (s : State) (die tcid n : Nat) : bindsOn (s.chargeAway die tcid n).ctxs = bindsOn s.ctxs := by
  grind [State.chargeAway, State.charge_binds]
theorem State.chargeSend_binds (s : State) (die tcid w n : Nat) : bindsOn (s.chargeSend die tcid w n).ctxs = bindsOn s.ctxs := by
  grind [State.chargeSend, State.charge_binds]

theorem State.sendFault_binds (s : State) (k : Nat) (p : Pending) (pos ser : Nat) :
    bindsOn (s.sendFault k p pos ser).2.ctxs = bindsOn s.ctxs := by
  unfold State.sendFault
  split
  · rfl
  · next f flag a _ =>
    have hsent (u : State) (g : Ctx → Ctx) (hg : ∀ c, (g c).bind = c.bind) (bs : List Byte) (w : List Nat) :=
      (State.flagEvent_binds _ f flag w).trans ((State.modCtx_binds (u.deviceWrite (s.strand k).die a bs 2).2 (s.strand k).die
        (s.strand k).tcid g hg).trans (State.deviceWrite_binds u _ _ _ _))
    dsimp only
    split
    · exact (State.modCtx_binds _ _ _ _ (by exact fun _ => rfl)).trans
        ((hsent _ _ (by exact fun _ => rfl) _ _).trans (touchLeaf_binds _ _ _ _ _))
    · exact (hsent _ _ (by exact fun _ => rfl) _ _).trans (touchLeaf_binds _ _ _ _ _)
theorem State.toEnergy_binds (s : State) (k : Nat) : bindsOn (s.toEnergy k).ctxs = bindsOn s.ctxs := by
  unfold State.toEnergy
  dsimp only
  split
  · rfl
  · exact (State.sendFault_binds _ _ _ _ _).trans (State.modCtx_binds _ _ _ _ fun _ => rfl)
theorem State.wake_binds (s : State) (k : Nat) : bindsOn (s.wake k).ctxs = bindsOn s.ctxs := by
  grind [State.wake, State.toEnergy_binds, State.wakePlain_binds]
theorem State.setFlag_binds (s : State) (k n : Nat) (w : List Nat) : bindsOn (s.setFlag k n w).ctxs = bindsOn s.ctxs := by
  grind [State.setFlag, State.toEnergy_binds, State.flagEvent_binds]
theorem State.gangTidy_binds (s : State) (die : Nat) : bindsOn (s.gangTidy die).ctxs = bindsOn s.ctxs :=
  rfl

/-! ## Requests -/

theorem State.keepAway_binds (s : State) (k : Nat) (r : Req) (els : List El) (lost : Bool) :
    bindsOn (s.keepAway k r els lost).ctxs = bindsOn s.ctxs := rfl

theorem State.atomReturn_binds (s : State) (k : Nat) (r : Req) (v : Vec) : bindsOn (s.atomReturn k r v).ctxs = bindsOn s.ctxs := by
  grind [State.atomReturn, State.modStrand_binds, State.renew_binds]
theorem State.storeLeave_binds (s : State) (k : Nat) (r : Req) : bindsOn (s.storeLeave k r).ctxs = bindsOn s.ctxs := by
  grind [State.storeLeave, State.jam_binds, State.modStrand_binds, State.chargeAway_binds, State.chargeHomes_binds, touchEls_binds]
theorem State.storeHome_binds (s : State) (k : Nat) (r : Req) : bindsOn (s.storeHome k r).ctxs = bindsOn s.ctxs := by
  grind [State.storeHome, State.storeLeave_binds, State.homeWrite_binds, State.keepAway_binds, State.modStrand_binds]

theorem rmwEls_binds (wr : Writer) (scope : Nat) (scratch : Bool) (kind : ReqKind) (s : State) (ps : List (List Nat × El)) :
    bindsOn (rmwEls wr scope scratch kind s ps).2.ctxs = bindsOn s.ctxs := by
  induction ps generalizing s with
  | nil => rfl
  | cons p r ih => grind [rmwEls, State.scratchWrite_binds, State.homeWrite_binds]

theorem State.rmwHome_binds (s : State) (k : Nat) (r : Req) : bindsOn (s.rmwHome k r).ctxs = bindsOn s.ctxs := by
  grind [State.rmwHome, State.jam_binds, State.publish_binds, touchEls_binds, rmwEls_binds, State.chargeAway_binds, State.chargeHomes_binds,
    State.modStrand_binds, State.atomReturn_binds]

theorem State.keepMember_binds (s : State) (x : Xact) (m : Nat) (lost : Bool) : bindsOn (s.keepMember x m lost).ctxs = bindsOn s.ctxs :=
  State.keepMember_keeps (fun s => bindsOn s.ctxs) (fun _ _ _ => rfl) s x m lost

theorem State.postXact_binds (s : State) (die tcid win sid rid core : Nat) (kind : ReqKind) (els : List El) (gang : Nat) (hnd : Option Nat)
    (units : Nat) : bindsOn (s.postXact die tcid win sid rid core kind els gang hnd units).2.ctxs = bindsOn s.ctxs :=
  State.modWin_binds _ _ _ _ _

theorem State.sendXact_binds (s : State) (k : Nat) (r : Req) : bindsOn (s.sendXact k r).ctxs = bindsOn s.ctxs := by
  grind [State.sendXact, State.publish_binds, State.modStrand_binds, State.chargeSend_binds, State.postXact_binds,
    State.keepMember_binds, foldl_keeps (fun s => bindsOn s.ctxs)]

theorem State.writeFlt_binds (s : State) (die tcid win : Nat) (c : Cause) (v : Word) :
    bindsOn (s.writeFlt die tcid win c v).ctxs = bindsOn s.ctxs := by
  grind [State.writeFlt, State.modWin_binds]
theorem State.partDrop_binds (s : State) (point : Option Nat) (die tcid : Nat) : bindsOn (s.partDrop point die tcid).ctxs = bindsOn s.ctxs := by
  refine (State.modCtx_binds _ _ _ _ ?_).trans ?_
  · exact fun _ => rfl
  · cases point with
    | none => rfl
    | some p => rfl

theorem State.stopReq_binds (s : State) (k : Nat) (r : Req) : bindsOn (s.stopReq k r).ctxs = bindsOn s.ctxs := by
  grind [State.stopReq, State.modStrand_binds, State.sendXact_binds, State.storeHome_binds, State.rmwHome_binds]

/-! ## Copy jobs -/

theorem State.imagePut_binds (s : State) (sid : Option Nat) (off : Nat) (bs : List Byte) : bindsOn (s.imagePut sid off bs).ctxs = bindsOn s.ctxs := by
  cases sid <;> grind [State.imagePut, State.resave_binds, State.modStrand_binds]
theorem State.engineFill_binds (s : State) (k n id kind : Nat) (v : Word) : bindsOn (s.engineFill k n id kind v).ctxs = bindsOn s.ctxs := by
  grind [State.engineFill, State.resave_binds, State.modStrand_binds]
theorem State.engineDone_binds (s : State) (k id : Nat) : bindsOn (s.engineDone k id).ctxs = bindsOn s.ctxs := rfl
theorem State.jobWriteBack_binds (s : State) (j : Job) : bindsOn (s.jobWriteBack j).ctxs = bindsOn s.ctxs := by
  grind [State.jobWriteBack, State.scratchWrite_binds, State.imagePut_binds, touchLeaf_binds, State.deviceWrite_binds]
theorem State.jobEnd_binds (s : State) (jid status detail : Nat) : bindsOn (s.jobEnd jid status detail).ctxs = bindsOn s.ctxs := by
  grind [State.jobEnd, State.publishWids_binds, State.jobWriteBack_binds, State.setFlag_binds, State.engineDone_binds, State.engineFill_binds,
    foldl_keeps (fun s => bindsOn s.ctxs)]
theorem jobTouch_binds (s : State) (j : Job) (acc : Acc) (r : Option Region) (p : Nat) : bindsOn (jobTouch s j acc r p).ctxs = bindsOn s.ctxs := by
  cases r <;> grind [jobTouch, touchLeaf_binds, touchDest_binds]
theorem State.jobPost_binds (s : State) (jid : Nat) (j : Job) (p : Nat) (r : Region) {t : State} (e : s.jobPost jid j p r = .ok t) :
    bindsOn t.ctxs = bindsOn s.ctxs := by
  grind [State.jobPost, State.chargeSend_binds, State.postXact_binds]
theorem State.jobWrite_binds (s : State) (jid : Nat) (j : Job) (p o v : Nat) {t : State} (e : s.jobWrite jid j p o v = .ok t) :
    bindsOn t.ctxs = bindsOn s.ctxs := by
  grind [State.jobWrite, State.jobPost_binds, State.imagePut_binds, jobTouch_binds, State.jam_binds, State.scratchWrite_binds, State.homeWrite_binds]
theorem State.chargeBlockAway_binds (s : State) (j : Job) (p : Nat) : bindsOn (s.chargeBlockAway j p).ctxs = bindsOn s.ctxs := by
  grind [State.chargeBlockAway, State.chargeAway_binds]
theorem State.jobStop_binds (s : State) (jid : Nat) (j : Job) (p : Nat) (c : Cause) (v : Word) (r : Option Region) :
    bindsOn (s.jobStop jid j p c v r).ctxs = bindsOn s.ctxs := by
  cases r <;> grind [State.jobStop, State.partDrop_binds, State.writeFlt_binds, State.jobEnd_binds]
theorem State.jobHave_binds (s : State) (jid : Nat) (j : Job) (p : Nat) (us : List (Nat × Nat)) :
    bindsOn (s.jobHave jid j p us).ctxs = bindsOn s.ctxs := by
  grind [State.jobHave, State.charge_binds, State.chargeBlockAway_binds, State.modJob_binds]
theorem State.jobFetch_binds (s : State) (jid : Nat) (j : Job) (p : Nat) : bindsOn (s.jobFetch jid j p).ctxs = bindsOn s.ctxs := by
  grind [State.jobFetch, State.jobHave_binds, jobTouch_binds, State.jobStop_binds, State.modJob_binds]
theorem State.jobStore_binds (s : State) (jid : Nat) (j : Job) (p : Nat) : bindsOn (s.jobStore jid j p).ctxs = bindsOn s.ctxs := by
  unfold State.jobStore
  split
  · rfl
  · dsimp only
    split
    · rw [State.jobStop_binds, jobTouch_binds]
    · next u _ _ hwrite =>
      have hw := State.jobWrite_binds _ _ _ _ _ _ hwrite
      split
      · exact hw
      · exact hw
theorem State.finishBlock_binds (jid n : Nat) (s : State) : bindsOn (State.finishBlock jid n s).ctxs = bindsOn s.ctxs := by
  induction n generalizing s with
  | zero => rfl
  | succ n ih => grind [State.finishBlock, State.jobFetch_binds, State.jobStore_binds]
theorem State.killJob_binds (s : State) (jid : Nat) : bindsOn (s.killJob jid).ctxs = bindsOn s.ctxs := by
  grind [State.killJob, State.finishBlock_binds, State.jobEnd_binds]

/-! ## Strands that stop -/

theorem State.setCrew_binds (s : State) (die tcid c : Nat) (x : Crew) : bindsOn (s.setCrew die tcid c x).ctxs = bindsOn s.ctxs := rfl
theorem State.crewWake_binds (s : State) (x : Crew) : bindsOn (s.crewWake x).ctxs = bindsOn s.ctxs := by
  refine foldl_keeps (fun s => bindsOn s.ctxs) _ (fun s k => ?_) _ _
  grind [State.renew_binds, State.modStrand_binds, State.wake_binds]
theorem State.crewSettle_binds (s : State) (die tcid c n : Nat) : bindsOn (s.crewSettle die tcid c n).ctxs = bindsOn s.ctxs := by
  induction n generalizing s with
  | zero => rfl
  | succ n ih => grind [State.crewSettle, State.crewWake_binds, State.setCrew_binds]
theorem State.leaveAll_binds (s : State) (k : Nat) : bindsOn (s.leaveAll k).ctxs = bindsOn s.ctxs := by
  refine foldl_keeps (fun s => bindsOn s.ctxs) _ (fun s e => ?_) _ _
  grind [State.setCrew_binds, State.crewSettle_binds]
theorem State.dropSlot_binds (s : State) (k : Nat) : bindsOn (s.dropSlot k).ctxs = bindsOn s.ctxs := by
  unfold State.dropSlot
  split
  · rfl
  · rfl
theorem State.freeCore_binds (s : State) (k : Nat) : bindsOn (s.freeCore k).ctxs = bindsOn s.ctxs := by
  grind [State.freeCore, State.modCore_binds, State.modStrand_binds]
theorem State.dropSteals_binds (s : State) (k : Nat) : bindsOn (s.dropSteals k).ctxs = bindsOn s.ctxs := rfl
theorem State.removeStrand_binds (s : State) (k : Nat) : bindsOn (s.removeStrand k).ctxs = bindsOn s.ctxs := by
  grind [State.removeStrand, State.leaveAll_binds, State.dropSlot_binds, State.dropSteals_binds, State.freeCore_binds, State.dropArea_binds,
    State.gangTidy_binds]
theorem State.giveUp_binds (s : State) (k : Nat) : bindsOn (s.giveUp k).ctxs = bindsOn s.ctxs := by
  grind [State.giveUp, State.modWin_binds, foldl_keeps (fun s => bindsOn s.ctxs)]
theorem State.dropHandlers_binds (s : State) (k : Nat) : bindsOn (s.dropHandlers k).ctxs = bindsOn s.ctxs :=
  State.modCtx_binds s (s.strand k).die (s.strand k).tcid (fun c => { c with hdrop := (c.hdrop + (s.strand k).hq.length) % 2 ^ 32 }) fun _ => rfl
theorem State.stopStrand_binds (s : State) (k : Nat) : bindsOn (s.stopStrand k).ctxs = bindsOn s.ctxs := by
  grind [State.stopStrand, State.killJob_binds, State.giveUp_binds, State.stopReq_binds, State.dropHandlers_binds, State.modCore_binds,
    State.removeStrand_binds, foldl_keeps (fun s => bindsOn s.ctxs)]

/-! ## Launches that end (R319, R372) -/

theorem State.writeRecord_binds (s : State) (die tcid va status detail : Nat) :
    bindsOn (s.writeRecord die tcid va status detail).ctxs = bindsOn s.ctxs := by
  grind [State.writeRecord, State.deviceWrite_binds, touchLeaf_binds]
theorem State.noticeWrite_binds (s : State) (die tcid kind st qslot num : Nat) :
    bindsOn (s.noticeWrite die tcid kind st qslot num).ctxs = bindsOn s.ctxs := by
  have hlost := State.modCtx_binds s die tcid (fun c => { c with nlost := (c.nlost + 1) % 2 ^ 32 }) fun _ => rfl
  unfold State.noticeWrite
  dsimp only
  split
  · rfl
  · split
    · exact hlost
    · split
      · exact (touchLeaf_binds _ _ _ _ _).trans hlost
      · exact (State.modCtx_binds _ _ _ _ (by exact fun _ => rfl)).trans ((State.deviceWrite_binds _ _ _ _ _).trans (touchLeaf_binds _ _ _ _ _))
theorem State.endLaunch_binds (s : State) (lid status detail : Nat) : bindsOn (s.endLaunch lid status detail).ctxs = bindsOn s.ctxs := by
  grind [State.endLaunch, State.writeRecord_binds, State.stopStrand_binds, State.modDie_binds, foldl_keeps (fun s => bindsOn s.ctxs)]
theorem State.loseStrand_binds (s : State) (k : Nat) : bindsOn (s.loseStrand k).ctxs = bindsOn s.ctxs :=
  (State.noticeWrite_binds _ _ _ _ _ _ _).trans (State.endLaunch_binds _ _ _ _)

/-! ## Shares that are admitted (R322, R323) -/

theorem State.modShare_binds (s : State) (die lid : Nat) (f : Share → Share) : bindsOn (s.modShare die lid f).ctxs = bindsOn s.ctxs := rfl
theorem State.allocOs_binds {s : State} {die n : Nat} {x : Nat × State} (h : s.allocOs die n = some x) : bindsOn x.2.ctxs = bindsOn s.ctxs := by
  unfold State.allocOs at h
  dsimp only at h
  split at h
  · cases h
    rfl
  · cases h
theorem State.assignSpill_binds (s : State) (k : Nat) : bindsOn (s.assignSpill k).ctxs = bindsOn s.ctxs := by
  unfold State.assignSpill
  split
  · next x halloc => exact State.allocOs_binds halloc
  · rfl
theorem State.placeOne_binds {s u : State} {die : Nat} {cl : Option Nat} {k : Nat} (h : s.placeOne die cl k = some u) :
    bindsOn u.ctxs = bindsOn s.ctxs := by
  obtain ⟨c, -, rfl⟩ := Option.map_eq_some_iff.mp h
  rfl
theorem State.placeAll_binds {die : Nat} {ks : List Nat} {asg : List (Nat × Nat)} {s u : State} (h : State.placeAll die ks asg s = some u) :
    bindsOn u.ctxs = bindsOn s.ctxs := by
  induction ks generalizing asg s with
  | nil =>
    cases h
    rfl
  | cons k r ih =>
    have hstep {cl : Option Nat} {asg : List (Nat × Nat)} (h : (s.placeOne die cl k).bind (State.placeAll die r asg) = some u) :
        bindsOn u.ctxs = bindsOn s.ctxs := by
      obtain ⟨v, hv, hr⟩ := Option.bind_eq_some_iff.mp h
      exact (ih hr).trans (State.placeOne_binds hv)
    simp only [State.placeAll] at h
    split at h
    · exact hstep h
    · split at h
      · exact hstep h
      · split at h
        · cases h
        · exact hstep h
theorem State.makeStrands_binds (s : State) (lid : Nat) (l : Launch) (die tcid : Nat) :
    bindsOn (s.makeStrands lid l die tcid).1.ctxs = bindsOn s.ctxs := by
  refine List.foldlRecOn _ _ (motive := fun p : State × List Nat => bindsOn p.1.ctxs = bindsOn s.ctxs) rfl fun p hp x _ => ?_
  dsimp only
  split
  · exact hp
  · dsimp only
    rw [State.assignSpill_binds]
    exact hp
theorem State.loadCore_binds (s : State) (k : Nat) : bindsOn (s.loadCore k).ctxs = bindsOn s.ctxs := by
  unfold State.loadCore
  dsimp only
  split
  · rfl
  · exact foldl_keeps (fun s => bindsOn s.ctxs) _ (by exact fun _ _ => rfl) _ _
theorem State.loadBytes_binds (s : State) (lid die a : Nat) (bs : List Byte) : bindsOn (s.loadBytes lid die a bs).ctxs = bindsOn s.ctxs :=
  State.deviceWrite_binds _ _ _ _ _
theorem State.loadRegions_binds (s : State) (lid die tcid : Nat) (ks : List Nat) :
    bindsOn (s.loadRegions lid die tcid ks).ctxs = bindsOn s.ctxs := by
  refine foldl_keeps (fun s => bindsOn s.ctxs) _ (fun s im => ?_) _ _
  split
  · rfl
  · refine (foldl_keeps (fun s => bindsOn s.ctxs) _ (fun _ _ => State.loadBytes_binds _ _ _ _ _) _ _).trans ?_
    exact foldl_keeps (fun s => bindsOn s.ctxs) _ (fun _ _ =>
      foldl_keeps (fun s => bindsOn s.ctxs) _ (fun _ _ => State.loadBytes_binds _ _ _ _ _) _ _) _ _
theorem State.loadHbm_binds (s : State) (lid : Nat) : bindsOn (s.loadHbm lid).ctxs = bindsOn s.ctxs := by
  unfold State.loadHbm
  dsimp only
  split
  · rfl
  · refine foldl_keeps (fun s => bindsOn s.ctxs) _ (fun s i => ?_) _ _
    refine foldl_keeps (fun s => bindsOn s.ctxs) _ (fun s x => ?_) _ _
    refine foldl_keeps (fun s => bindsOn s.ctxs) _ (fun s u => ?_) _ _
    split
    · exact (State.loadBytes_binds _ _ _ _ _).trans (touchLeaf_binds _ _ _ _ _)
    · rfl
theorem State.admitShare_binds {s u : State} {die : Nat} {h : Share} (hu : s.admitShare die h = some u) : bindsOn u.ctxs = bindsOn s.ctxs := by
  unfold State.admitShare at hu
  dsimp only at hu
  split at hu
  · cases hu
  · split at hu
    · split at hu
      · cases hu
      · next hplace =>
        have hp := State.placeAll_binds hplace
        split at hu
        · cases hu
          exact (foldl_keeps (fun s => bindsOn s.ctxs) _ (by exact fun _ _ => rfl) _ _).trans hp
        · cases hu
          exact (State.loseStrand_binds _ _).trans hp
    · obtain ⟨v, hplace, rfl⟩ := Option.map_eq_some_iff.mp hu
      rw [State.modShare_binds, State.loadHbm_binds, State.loadRegions_binds]
      exact (foldl_keeps (fun s => bindsOn s.ctxs) _ State.loadCore_binds _ _).trans
        ((State.placeAll_binds hplace).trans (State.makeStrands_binds _ _ _ _ _))
theorem State.admitFirst_binds {s u : State} {die : Nat} {hs : List Share} (hu : s.admitFirst die hs = some u) : bindsOn u.ctxs = bindsOn s.ctxs := by
  induction hs with
  | nil => cases hu
  | cons h r ih =>
    unfold State.admitFirst at hu
    split at hu
    · next hadmit =>
      cases hu
      split at hadmit
      · exact State.admitShare_binds hadmit
      · cases hadmit
    · split at hu
      · cases hu
      · exact ih hu
theorem State.scanLoop_binds (die n : Nat) (s : State) : bindsOn (State.scanLoop die n s).ctxs = bindsOn s.ctxs := by
  induction n generalizing s with
  | zero => rfl
  | succ n ih =>
    unfold State.scanLoop
    split
    · rfl
    · next hfirst => exact (ih _).trans (State.admitFirst_binds hfirst)
theorem State.scanRounds_binds (n : Nat) (s : State) : bindsOn (State.scanRounds n s).ctxs = bindsOn s.ctxs := by
  induction n generalizing s with
  | zero => rfl
  | succ n ih =>
    have hround := foldl_keeps (fun s => bindsOn s.ctxs) (fun s d => State.scanLoop d ((s.die d).shares.length + 1) s)
      (fun s d => State.scanLoop_binds d _ s) (List.range 8) s
    unfold State.scanRounds
    dsimp only
    split
    · exact (ih _).trans hround
    · exact hround

/-! ## Contexts in error and contexts released (R322, R385) -/

/-- Every die scans, and no context is bound otherwise than before. -/
theorem State.scanAll_bind (s : State) (d t : Nat) : (s.scanAll.ctx d t).bind = (s.ctx d t).bind :=
  congrFun (State.scanRounds_binds _ s) (ctxKey d t)

/-- A context that enters ERROR is in it when the dies have scanned, whatever shares they take. -/
theorem State.ctxError_enters (s : State) (d t : Nat) : ((s.ctxError d t).ctx d t).bind = .error := by
  rw [State.ctxError, State.scanAll_bind, State.ctx_modCtx]

/-- A context whose entry is gone is unbound when the dies have scanned, whatever shares they take. -/
theorem State.scanAll_unbound {s : State} {m : Store Ctx} {d t : Nat} (h : s.ctxs = storeErase m (ctxKey d t)) :
    (s.scanAll.ctx d t).bind = .unbound := by
  rw [State.scanAll_bind, State.ctx, storeGet, h, storeFind_storeErase_same]
  rfl

/-- A context that is released is unbound. -/
theorem State.ctxRelease_unbinds (s : State) (d t : Nat) : ((s.ctxRelease d t).ctx d t).bind = .unbound :=
  State.scanAll_unbound rfl

end Sys2Proof.Machine
end

section
/-! PROOF. Binding commands (O54).

A command in a secured session first starts the session's time anew and takes a free choice (`State.asked`): no context, strand or byte changes
with that. What an item changes is said of that state (`ItemDone`), once for each item, and `State.install` carries it to the answer
(`Installed`). -/
namespace Sys2Proof.Machine

/-! ## A command that is accepted (R385, R386) -/

/-- The state in which an item of a command is judged. -/
def State.asked (s : State) (b : Bind) : State := { s.heard b.die b.sess with nfree := s.nfree + 1 }

/-- An item's change, with status 0: its context changed by f, and no report, strand or byte. -/
structure ItemDone (s : State) (b : Bind) (f : Ctx → Ctx) (r : Nat × State) : Prop where
  status : r.1 = 0
  ctx : r.2.ctx b.die b.tcid = f (s.ctx b.die b.tcid)
  reports : r.2.pkg.reports = s.pkg.reports
  strands : r.2.strands = s.strands
  mem : r.2.mem = s.mem

/-- An item that is installed: its context changed by f and with the item's digest, and status 0 answered. -/
def Installed (s : State) (b : Bind) (f : Ctx → Ctx) (t : State) : Prop :=
  ∃ its : Store Nat, t.ctx b.die b.tcid = { f (s.ctx b.die b.tcid) with items := its } ∧
    t.pkg.reports = s.pkg.reports ++ [.command b.die b.tcid 0 0] ∧ t.strands = s.strands ∧ t.mem = s.mem

@[simp] theorem State.ctx_answer (s : State) (b : Bind) (status value d t : Nat) : (s.answer b status value).ctx d t = s.ctx d t := rfl

/-- An item's change, with its digest, is answered with status 0. -/
theorem ItemDone.answered {s : State} {b : Bind} {f : Ctx → Ctx} {r : Nat × State} (h : ItemDone s b f r) (i d : Nat) :
    Installed s b f ((r.2.modCtx b.die b.tcid (fun c => { c with items := storeSet c.items i d })).answer b 0 0) := by
  refine ⟨storeSet (r.2.ctx b.die b.tcid).items i d, ?ctx, ?reports, h.strands, h.mem⟩
  case ctx =>
    refine (State.ctx_modCtx r.2 b.die b.tcid (fun c => { c with items := storeSet c.items i d })).trans ?_
    rw [h.ctx]
  case reports =>
    rw [← h.reports]
    rfl

section
variable {s : State} {b : Bind} {item part : Nat} {content : List Nat} {keyed : Bool} {f : State → Nat × State}

/-- In a secured session that locked the context, an INSTALL goes by its item's own status. -/
theorem State.install_of_locking (h : Locking s b) : s.install b item part content keyed f =
    (let r := f (s.asked b)
     if r.1 ≠ 0 then (s.heard b.die b.sess).answer b r.1 0
     else if keyed && !Config.keyInstalls b.die s.nfree then ((s.asked b).ctxError b.die b.tcid).answer b 5 0
     else (r.2.modCtx b.die b.tcid (fun c => { c with items := storeSet c.items (item * 256 + part) (Config.digest content) })).answer b 0 0) := by
  obtain ⟨hsec, hbind, hsess⟩ := h
  obtain ⟨x, hx⟩ := Option.isSome_iff_exists.mp hsec
  have hgo : ¬(((s.heard b.die b.sess).ctx b.die b.tcid).bind ≠ .locked ∨ ((s.heard b.die b.sess).ctx b.die b.tcid).sess ≠ b.sess) :=
    not_or.mpr ⟨not_not_intro hbind, not_not_intro hsess⟩
  simp only [State.install, hx, if_neg hgo]
  rfl

/-- Outside LOCKED and that session it is answered with status 1. -/
theorem State.install_of_not_locked (hsec : (s.secured b.die b.sess).isSome = true)
    (h : (s.ctx b.die b.tcid).bind ≠ .locked ∨ (s.ctx b.die b.tcid).sess ≠ b.sess) :
    s.install b item part content keyed f = (s.heard b.die b.sess).answer b 1 0 := by
  obtain ⟨x, hx⟩ := Option.isSome_iff_exists.mp hsec
  have hstop : ((s.heard b.die b.sess).ctx b.die b.tcid).bind ≠ .locked ∨ ((s.heard b.die b.sess).ctx b.die b.tcid).sess ≠ b.sess := h
  simp only [State.install, hx, if_pos hstop]

/-- An item whose keys install, or that has none, is installed. -/
theorem State.install_done {g : Ctx → Ctx} (h : Locking s b) (hkey : (keyed && !Config.keyInstalls b.die s.nfree) = false)
    (hdone : ItemDone s b g (f (s.asked b))) : Installed s b g (s.install b item part content keyed f) := by
  rw [State.install_of_locking h]
  simp only [hdone.status, ne_eq, not_true_eq_false, if_false, hkey, Bool.false_eq_true]
  exact hdone.answered _ _

/-- An item whose keys do not install brings its context into ERROR. -/
theorem State.install_keys_fail {g : Ctx → Ctx} (h : Locking s b) (hkey : Config.keyInstalls b.die s.nfree = false)
    (hdone : ItemDone s b g (f (s.asked b))) : ((s.install b item part content true f).ctx b.die b.tcid).bind = .error := by
  rw [State.install_of_locking h]
  simp only [hdone.status, ne_eq, not_true_eq_false, if_false, hkey, Bool.not_false, Bool.and_true, if_true]
  exact State.ctxError_enters _ _ _

end

/-! ## The items (R387) -/

section
variable {s : State} {b : Bind}

/-- A change within its limit and its features. -/
theorem itemSet_done {limit : Bool} {needs : Nat} {f : Ctx → Ctx} (hlimit : limit = true)
    (hneeds : inWord needs (s.ctx b.die b.tcid).word = true) : ItemDone s b f (State.itemSet b limit needs f (s.asked b)) := by
  have hgo : ¬ inWord needs ((s.asked b).ctx b.die b.tcid).word = false := by
    rw [Bool.not_eq_false]
    exact hneeds
  rw [State.itemSet, if_neg (by simp [hlimit]), if_neg hgo]
  exact ⟨rfl, State.ctx_modCtx _ _ _ _, rfl, rfl, rfl⟩

/-- No feature is needed. -/
theorem inWord_zero (w : Nat) : inWord 0 w = true := by simp [inWord]

/-- A change within what is left of a resource. -/
theorem within_done {ok : Bool} {r : Nat × State} {u : State} {f : Ctx → Ctx} (hok : ok = true) (h : ItemDone s b f r) :
    ItemDone s b f (within ok r u) := by
  rwa [within, if_neg (by simp [hok])]

theorem execInstallMemory_done {q : Nat} (h : (s.heldBy b.die b.tcid (fun c => c.quota) + q) * 2 ^ 21 ≤ osBase) (hl : Locking s b) :
    ∃ t, exec (.installMemory b q) s = .next t ∧ Installed s b (fun c => { c with quota := q }) t :=
  ⟨_, rfl, State.install_done hl rfl (within_done (decide_eq_true h) (itemSet_done rfl (inWord_zero _)))⟩

theorem execInstallQueues_done {q v : Nat} (hq : q ≤ 4095) (hv : v < 2 ^ 48) (hl : Locking s b) :
    ∃ t, exec (.installQueues b q v) s = .next t ∧ Installed s b (fun c => { c with qmax := q, sqva := v }) t :=
  ⟨_, rfl, State.install_done hl rfl (itemSet_done (by simpa [hq] using hv) (inWord_zero _))⟩

theorem execInstallNotice_done {a : Nat} (hpage : a % 8192 = 0) (ha : a < 2 ^ 48) (hl : Locking s b) :
    ∃ t, exec (.installNotice b a) s = .next t ∧ Installed s b (fun c => { c with notice := some a, nnext := 0, nlost := 0 }) t :=
  ⟨_, rfl, State.install_done hl rfl (itemSet_done (by simpa [hpage] using ha) (inWord_zero _))⟩

theorem execInstallFaultpol_done {p : Nat} (hp : p < 4) (hl : Locking s b) :
    ∃ t, exec (.installFaultpol b p) s = .next t ∧ Installed s b (fun c => { c with faultpol := p }) t :=
  ⟨_, rfl, State.install_done hl rfl (itemSet_done (decide_eq_true hp) (inWord_zero _))⟩

theorem execInstallDeleg_done {r : DelegRec} (hflag : r.fflag < 64) (hpage : r.frva % 32768 = 0) (ha : r.frva < 2 ^ 48)
    (hfeat : inWord (2 ^ 13) (s.ctx b.die b.tcid).word = true) (hl : Locking s b) :
    ∃ t, exec (.installDeleg b r) s = .next t ∧ Installed s b (fun c => { c with deleg := ⟨some r, 0⟩ }) t :=
  ⟨_, rfl, State.install_done hl rfl (itemSet_done (by simpa [hflag, hpage] using ha) hfeat)⟩

theorem execInstallHandlers_done {es : List (Nat × HEntry)} (hes : ∀ e ∈ es, e.1 < 16 ∧ e.2.entry < 65536)
    (hfeat : inWord (2 ^ 6) (s.ctx b.die b.tcid).word = true) (hl : Locking s b) :
    ∃ t, exec (.installHandlers b es) s = .next t ∧
      Installed s b (fun c => { c with handlers := es.foldl (fun m e => storeSet m e.1 e.2) [] }) t :=
  ⟨_, rfl, State.install_done hl rfl (itemSet_done (by simpa using hes) hfeat)⟩

theorem execInstallFeatures_done {w : Nat} (hfeat : inWord (s.itemNeeds b.die b.tcid) (w &&& offered) = true) (hl : Locking s b) :
    ∃ t, exec (.installFeatures b w) s = .next t ∧ Installed s b (fun c => { c with features := some w }) t := by
  refine ⟨_, rfl, State.install_done hl rfl ?_⟩
  have hfeat' : inWord ((s.asked b).itemNeeds b.die b.tcid) (w &&& offered) = true := hfeat
  rw [if_pos hfeat']
  exact itemSet_done rfl (inWord_zero _)

theorem execInstallGangs_done {gs : List Nat} (hlen : gs.length ≤ 16) (hdup : gs.eraseDups.length = gs.length)
    (hrange : ∀ g ∈ gs, 1 ≤ g ∧ g < 65536)
    (hfree : ∀ e ∈ s.ctxs, e.2.bound = true → e.2.tenant ≠ (s.ctx b.die b.tcid).tenant → ∀ g ∈ gs, g ∉ e.2.gangs) (hl : Locking s b) :
    ∃ t, exec (.installGangs b gs) s = .next t ∧ Installed s b (fun c => { c with gangs := gs }) t := by
  refine ⟨_, rfl, State.install_done hl rfl (itemSet_done ?_ (inWord_zero _))⟩
  have hothers (g : Nat) (hg : g ∈ gs) : s.ctxs.any (fun e =>
      e.2.bound && e.2.tenant != (s.ctx b.die b.tcid).tenant && e.2.gangs.contains g) = false := by
    simp only [List.any_eq_false, Bool.and_eq_true, bne_iff_ne, List.contains_iff_mem, not_and]
    exact fun e he hb => hfree e he hb.1 hb.2 g hg
  simp only [Bool.and_eq_true, decide_eq_true_eq, List.all_eq_true, Bool.not_eq_true']
  exact ⟨⟨hlen, hdup⟩, fun g hg => ⟨hrange g hg, hothers g hg⟩⟩

theorem execInstallAccount_done {a : Account} (hfair : a.fairpm ≤ 1000) (hinc : a.inc ≤ 63) (htok : a.tokens ≤ 255)
    (hcrews : s.heldBy b.die b.tcid (fun c => c.crewq) + a.crewq ≤ 256) (hl : Locking s b) :
    ∃ t, exec (.installAccount b a) s = .next t ∧ Installed s b (fun c =>
      { c with
        energy := { c.energy with cap := a.cap, refill := a.refill, enbal := 256 * (a.cap : Int) }
        fairpm := a.fairpm, inc := a.inc, crewq := a.crewq, tokens := a.tokens }) t := by
  have hown : a.crewq ≤ 256 := by omega
  exact ⟨_, rfl, State.install_done hl rfl (within_done (decide_eq_true hcrews) (itemSet_done (by simp [hfair, hinc, htok, hown]) (inWord_zero _)))⟩

theorem execInstallPart_done {p u : Nat} (hp : p < 256) (hu : u < 2)
    (hfeat : inWord (if u = 1 then 2 ^ 11 else 2 ^ 12) (s.ctx b.die b.tcid).word = true) (hl : Locking s b) :
    ∃ t, exec (.installPart b p u) s = .next t ∧ Installed s b (fun c => { c with part := p, suite := u }) t := by
  obtain ⟨its, hctx, hreports, hstrands, hmem⟩ := State.install_done (item := 4) (part := 0) (content := [p, u]) (keyed := false) hl rfl
    (itemSet_done (b := b) (f := fun c => { c with part := p, suite := u }) (limit := decide (p < 256) && decide (u < 2)) (by simp [hp, hu]) hfeat)
  exact ⟨_, rfl, its, hctx, hreports, hstrands, hmem⟩

theorem winPut_done {w : WinSet} (hlegal : winLegal s b w = true) (hfeat : inWord (winNeeds w.wcfg) (s.ctx b.die b.tcid).word = true) :
    ItemDone s b (fun c => { c with wins := storeSet c.wins w.n (winFrom w) }) ((s.asked b).winPut b w) := by
  have hlegal' : winLegal (s.asked b) b w = true := hlegal
  have hset := itemSet_done (f := fun c => { c with wins := storeSet c.wins w.n (winFrom w) }) hlegal' hfeat
  obtain ⟨hstatus, hctx, hreports, hstrands, hmem⟩ := hset
  unfold State.winPut
  dsimp only
  split
  · exact ⟨rfl, hctx, hreports, hstrands, hmem⟩
  · exact ⟨hstatus, hctx, hreports, hstrands, hmem⟩

theorem execInstallWindow_done {w : WinSet} (hlegal : winLegal s b w = true)
    (hfeat : inWord (winNeeds w.wcfg) (s.ctx b.die b.tcid).word = true) (hl : Locking s b) :
    ∃ t, exec (.installWindow b w) s = .next t ∧ Installed s b (fun c => { c with wins := storeSet c.wins w.n (winFrom w) }) t :=
  ⟨_, rfl, State.install_done hl rfl (winPut_done hlegal hfeat)⟩

theorem execInstallBandwidth_done {sl w ta : Nat} {cr : Bool} (hsl : sl < 2) (hw : 1 ≤ w) (hw' : w ≤ 255)
    (hfeat : inWord (if cr then 2 ^ 14 else 0) (s.ctx b.die b.tcid).word = true) (hl : Locking s b) :
    ∃ t, exec (.installBandwidth b sl w cr ta) s = .next t ∧
      Installed s b (fun c => { c with critical := c.critical.filter (fun x => x != sl) ++ (if cr then [sl] else []) }) t := by
  refine ⟨_, rfl, State.install_done hl rfl ?_⟩
  have hset := itemSet_done (s := s) (b := b) (f := id) (limit := decide (sl < 2) && decide (1 ≤ w) && decide (w ≤ 255))
    (by simp [hsl, hw, hw']) hfeat
  simp only [hset.status, if_true]
  refine ⟨rfl, (State.ctx_modCtx _ _ _ _).trans ?_, rfl, rfl, rfl⟩
  cases cr with
  | false => simp only [Bool.false_eq_true, if_false, List.append_nil]; rfl
  | true => rfl

/-! ### Items with keys -/

/-- A keyed item, installed or not as its keys are. -/
theorem State.install_keyed {i : Instr} {g : Ctx → Ctx} {item part : Nat} {content : List Nat} {f : State → Nat × State}
    (hi : exec i s = .next (s.install b item part content true f)) (hl : Locking s b) (hdone : ItemDone s b g (f (s.asked b))) :
    ∃ t : State, exec i s = .next t ∧
      (Config.keyInstalls b.die s.nfree = true → ∃ its, t.ctx b.die b.tcid = { g (s.ctx b.die b.tcid) with items := its }) ∧
      (Config.keyInstalls b.die s.nfree = false → (t.ctx b.die b.tcid).bind = .error) := by
  refine ⟨_, hi, fun hkey => ?_, fun hkey => State.install_keys_fail hl hkey hdone⟩
  obtain ⟨its, hctx, -⟩ := State.install_done (item := item) (part := part) (content := content) hl (by simp [hkey]) hdone
  exact ⟨its, hctx⟩

/-- Keys that no other tenant holds. -/
theorem keys_apart {ks : List (Nat × Nat)} (hrange : ∀ k ∈ ks, 1 ≤ k.1 ∧ k.1 ≤ 1023)
    (hfree : ∀ e ∈ s.ctxs, e.2.bound = true → e.2.tenant ≠ (s.ctx b.die b.tcid).tenant → ∀ k ∈ ks, ∀ g ∈ e.2.keys, g.1 ≠ k.1) :
    (ks.map (fun k => k.1)).all (fun i => decide (1 ≤ i) && decide (i ≤ 1023) &&
      !s.ctxs.any (fun e => e.2.bound && e.2.tenant != (s.ctx b.die b.tcid).tenant && e.2.keys.any (fun k => k.1 == i))) = true := by
  have hothers (k : Nat × Nat) (hk : k ∈ ks) : s.ctxs.any (fun e =>
      e.2.bound && e.2.tenant != (s.ctx b.die b.tcid).tenant && e.2.keys.any (fun g => g.1 == k.1)) = false := by
    rw [List.any_eq_false]
    intro e he
    rw [Bool.and_eq_true, Bool.and_eq_true, bne_iff_ne, List.any_eq_true]
    rintro ⟨⟨hbound, htenant⟩, g, hg, heq⟩
    exact hfree e he hbound htenant k hk g hg (beq_iff_eq.mp heq)
  simp only [List.all_map, List.all_eq_true, Function.comp_apply, Bool.and_eq_true, decide_eq_true_eq, Bool.not_eq_true']
  exact fun k hk => ⟨hrange k hk, hothers k hk⟩

theorem installKeys_done {ks : List (Nat × Nat)} (hlen : ks.length ≤ 16) (hdup : (ks.map (fun k => k.1)).eraseDups.length = ks.length)
    (hrange : ∀ k ∈ ks, 1 ≤ k.1 ∧ k.1 ≤ 1023)
    (hfree : ∀ e ∈ s.ctxs, e.2.bound = true → e.2.tenant ≠ (s.ctx b.die b.tcid).tenant → ∀ k ∈ ks, ∀ g ∈ e.2.keys, g.1 ≠ k.1)
    (hl : Locking s b) : ∃ t : State, exec (.installKeys b ks) s = .next t ∧
      (Config.keyInstalls b.die s.nfree = true → ∃ its, t.ctx b.die b.tcid = { s.ctx b.die b.tcid with keys := ks, items := its }) ∧
      (Config.keyInstalls b.die s.nfree = false → (t.ctx b.die b.tcid).bind = .error) := by
  refine State.install_keyed (g := fun c => { c with keys := ks }) rfl hl (itemSet_done ?_ (inWord_zero _))
  rw [Bool.and_eq_true, Bool.and_eq_true, decide_eq_true_eq, decide_eq_true_eq]
  exact ⟨⟨hlen, hdup.trans (List.length_map _).symm⟩, keys_apart hrange hfree⟩

theorem installLinkkeys_done {j id key : Nat} (hj : j < 8) (hid : id < 1024) (hl : Locking s b) :
    ∃ t : State, exec (.installLinkkeys b j id key) s = .next t ∧
      (Config.keyInstalls b.die s.nfree = true → ∃ its, t.ctx b.die b.tcid =
        { s.ctx b.die b.tcid with lkeys := storeSet (s.ctx b.die b.tcid).lkeys j (id, key), items := its }) ∧
      (Config.keyInstalls b.die s.nfree = false → (t.ctx b.die b.tcid).bind = .error) :=
  State.install_keyed (g := fun c => { c with lkeys := storeSet c.lkeys j (id, key) }) rfl hl (itemSet_done (by simp [hj, hid]) (inWord_zero _))

theorem installSavekeys_done {key tag : Nat} (hl : Locking s b) :
    ∃ t : State, exec (.installSavekeys b key tag) s = .next t ∧
      (Config.keyInstalls b.die s.nfree = true → ∃ its, t.ctx b.die b.tcid = { s.ctx b.die b.tcid with saveKeys := some (key, tag), items := its }) ∧
      (Config.keyInstalls b.die s.nfree = false → (t.ctx b.die b.tcid).bind = .error) :=
  State.install_keyed (g := fun c => { c with saveKeys := some (key, tag) }) rfl hl (itemSet_done rfl (inWord_zero _))

theorem installQuayenrol_done {key : Nat} (hroom : (s.pkg.quayKeys.filter (fun k => k.1 != (s.ctx b.die b.tcid).tenant)).length < 64)
    (hfeat : inWord (2 ^ 5) (s.ctx b.die b.tcid).word = true) (hl : Locking s b) :
    ∃ t : State, exec (.installQuayenrol b key) s = .next t ∧
      (Config.keyInstalls b.die s.nfree = true → ∃ its, t.ctx b.die b.tcid = { s.ctx b.die b.tcid with qenr := true, items := its }) ∧
      (Config.keyInstalls b.die s.nfree = false → (t.ctx b.die b.tcid).bind = .error) := by
  refine State.install_keyed (g := fun c => { c with qenr := true }) rfl hl ?_
  have hset := within_done (u := s.asked b) (decide_eq_true hroom)
    (itemSet_done (b := b) (f := fun c => { c with qenr := true }) (limit := true) rfl hfeat)
  obtain ⟨hstatus, hctx, hreports, hstrands, hmem⟩ := hset
  refine ⟨hstatus, ?_, ?_, ?_, ?_⟩
  all_goals
    dsimp only
    split
  · exact hctx
  · exact hctx
  · exact hreports
  · exact hreports
  · exact hstrands
  · exact hstrands
  · exact hmem
  · exact hmem

/-! ### The regions (item 5, R114, R287) -/

/-- Which regions are free goes by the contexts alone. -/
theorem State.allocRegions_isSome {s u : State} (h : u.ctxs = s.ctxs) (d t cs ds : Nat) :
    (u.allocRegions d t cs ds).isSome = (s.allocRegions d t cs ds).isSome := by
  simp only [State.allocRegions, h]
  split
  · rfl
  · rfl

theorem State.zeroRegions_ctxs (s : State) (d t : Nat) : (s.zeroRegions d t).ctxs = s.ctxs :=
  foldl_keeps State.ctxs _ (by exact fun _ _ => rfl) _ _

/-- What item 5 leaves: regions of the sizes, and all that they hold zero. -/
def RegionsTaken (s : State) (b : Bind) (csize dsize bva : Nat) (t : State) : Prop :=
  (t.ctx b.die b.tcid).csize = csize ∧ (t.ctx b.die b.tcid).dsize = dsize ∧ (t.ctx b.die b.tcid).bva = bva ∧
    (∀ a, (∃ r ∈ t.ctxRegions b.die b.tcid, r.1 ≤ a ∧ a < r.1 + r.2) → t.byte a = 0) ∧
    (∀ a, (∀ r ∈ t.ctxRegions b.die b.tcid, a < r.1 ∨ r.1 + r.2 ≤ a) → t.byte a = s.byte a)

theorem RegionsTaken.of_alloc {u : State} {csize dsize bva i d : Nat} (h : (s.asked b).allocRegions b.die b.tcid csize dsize = some u) :
    RegionsTaken s b csize dsize bva ((((u.zeroRegions b.die b.tcid).modCtx b.die b.tcid (fun c => { c with bva := bva })).modCtx
      b.die b.tcid (fun c => { c with items := storeSet c.items i d })).answer b 0 0) := by
  obtain ⟨b0, b1, b2, b3, e, rfl, -⟩ := State.allocRegions_spec h
  generalize hu : (s.asked b).modCtx b.die b.tcid (fun x => { x with csize := csize, dsize := dsize, cbase := [b0, b1, b2, b3], dbase := e }) = u
  have hctx : (u.zeroRegions b.die b.tcid).ctx b.die b.tcid = u.ctx b.die b.tcid := by
    rw [State.ctx, State.ctx, State.zeroRegions_ctxs]
  have hsizes : (u.ctx b.die b.tcid).csize = csize ∧ (u.ctx b.die b.tcid).dsize = dsize := by
    rw [← hu, State.ctx_modCtx]
    exact ⟨rfl, rfl⟩
  have hbyte (a : Nat) : u.byte a = s.byte a := by
    rw [← hu, State.byte, State.modCtx_mem]
    rfl
  generalize ht : (((u.zeroRegions b.die b.tcid).modCtx b.die b.tcid (fun c => { c with bva := bva })).modCtx
      b.die b.tcid (fun c => { c with items := storeSet c.items i d })).answer b 0 0 = t
  have htctx : t.ctx b.die b.tcid = { u.ctx b.die b.tcid with bva := bva, items := storeSet (u.ctx b.die b.tcid).items i d } := by
    rw [← ht, State.ctx_answer, State.ctx_modCtx, State.ctx_modCtx, hctx]
  have htbyte (a : Nat) : t.byte a = (u.zeroRegions b.die b.tcid).byte a := by
    rw [← ht, State.byte, State.answer_mem, State.modCtx_mem, State.modCtx_mem, ← State.byte]
  have hregions : t.ctxRegions b.die b.tcid = u.ctxRegions b.die b.tcid := by
    simp only [State.ctxRegions, htctx, Ctx.regionBase]
  rw [RegionsTaken, htctx, hregions]
  refine ⟨hsizes.1, hsizes.2, rfl, fun a ha => ?_, fun a ha => ?_⟩
  · rw [htbyte, State.byte_zeroRegions, if_pos ha]
  · rw [htbyte, State.byte_zeroRegions, if_neg, hbyte]
    rintro ⟨r, hr, hin⟩
    have := ha r hr
    omega

theorem execInstallRegions_taken {csize dsize bva : Nat} (hl : Locking s b) (hc : csize % 65536 = 0) (hd : dsize % 65536 = 0)
    (hb : bva % 65536 = 0) (hva : bva < 2 ^ 48) : ∃ t : State, exec (.installRegions b csize dsize bva) s = .next t ∧
      (s.allocRegions b.die b.tcid csize dsize = none → t.mem = s.mem ∧ t.pkg.reports = s.pkg.reports ++ [.command b.die b.tcid 3 0]) ∧
      ((s.allocRegions b.die b.tcid csize dsize).isSome = true → RegionsTaken s b csize dsize bva t) := by
  have hgo : ¬(csize % 65536 ≠ 0 ∨ dsize % 65536 ≠ 0 ∨ bva % 65536 ≠ 0 ∨ 2 ^ 48 ≤ bva) := by
    simp only [hc, hd, hb, ne_eq, not_true_eq_false, false_or]
    exact Nat.not_le.mpr hva
  have hsome : ((s.asked b).allocRegions b.die b.tcid csize dsize).isSome = (s.allocRegions b.die b.tcid csize dsize).isSome :=
    State.allocRegions_isSome (s := s) (u := s.asked b) rfl _ _ _ _
  cases halloc : (s.asked b).allocRegions b.die b.tcid csize dsize with
  | none =>
    rw [halloc] at hsome
    refine ⟨(s.heard b.die b.sess).answer b 3 0, exec_next_of_eq rfl ?_, fun _ => ⟨rfl, rfl⟩, fun h => absurd (hsome.trans h) (by simp)⟩
    rw [State.install_of_locking hl]
    simp only [if_neg hgo, halloc]
    rfl
  | some u =>
    rw [halloc] at hsome
    refine ⟨_, exec_next_of_eq rfl ?_, fun h => absurd hsome (by simp [h]), fun _ =>
      RegionsTaken.of_alloc (i := 5 * 256 + 0) (d := Config.digest [csize, dsize, bva]) halloc⟩
    rw [State.install_of_locking hl]
    simp only [if_neg hgo, halloc]
    rfl

/-! ## LOCK (R23, R385, R386) -/

/-- A free choice among some things is one of them. -/
theorem getD_pick_mem (x : Nat) (l : List Nat) (n : Nat) : (x :: l).getD (n % (l.length + 1)) x ∈ x :: l := by
  have hlt : n % (l.length + 1) < (x :: l).length := Nat.mod_lt _ (Nat.succ_pos _)
  rw [List.getD_eq_getElem _ _ hlt]
  exact List.getElem_mem hlt

/-- What is left of a LOCK once its TCID is chosen. -/
def State.lockAt (s : State) (r : LockReq) (x : Session) (tc : Nat) : Option State :=
  (({ s with nfree := s.nfree + 1 } : State).assignIdx x.requester).bind (fun y =>
    (y.2.modCtx r.die tc (fun _ => { Ctx.reset with bind := .locked, sess := r.sess, tenant := y.1 })).reserve tc r)

variable {r : LockReq} {x : Session}

theorem execLock_full (hx : s.secured r.die r.sess = some x) (h : ∀ t < 1024, (s.ctx r.die t).bound = true) :
    exec (.lock r) s = .next ((s.heard r.die r.sess).report (.command r.die 0 3 0)) := by
  have hnone : (List.range 1024).filter (fun t => !((s.heard r.die r.sess).ctx r.die t).bound) = [] := by
    rw [List.filter_eq_nil_iff]
    intro t ht
    rw [Bool.not_eq_true', Bool.not_eq_false]
    exact h t (List.mem_range.mp ht)
  refine exec_next_of_eq rfl ?_
  simp only [State.lock, hx, hnone]

theorem execLock_free (hx : s.secured r.die r.sess = some x) (h : ∃ t < 1024, (s.ctx r.die t).bound = false) :
    ∃ tc < 1024, (s.ctx r.die tc).bound = false ∧
      ((s.heard r.die r.sess).lockAt r x tc = none → exec (.lock r) s = .next ((s.heard r.die r.sess).report (.command r.die 0 3 0))) ∧
      ∀ u, (s.heard r.die r.sess).lockAt r x tc = some u → exec (.lock r) s = .next (u.report (.command r.die tc 0 tc)) := by
  generalize hfree : (List.range 1024).filter (fun t => !((s.heard r.die r.sess).ctx r.die t).bound) = ts
  cases ts with
  | nil =>
    obtain ⟨t, ht, hunbound⟩ := h
    rw [List.filter_eq_nil_iff] at hfree
    exact absurd (by rw [Bool.not_eq_true']; exact hunbound) (hfree t (List.mem_range.mpr ht))
  | cons t0 l =>
    have hmem := getD_pick_mem t0 l (Config.pick (s.heard r.die r.sess).nfree)
    generalize htc : (t0 :: l).getD (Config.pick (s.heard r.die r.sess).nfree % (l.length + 1)) t0 = tc at hmem
    have hchosen := hmem
    rw [← hfree, List.mem_filter, List.mem_range, Bool.not_eq_true'] at hchosen
    refine ⟨tc, hchosen.1, hchosen.2, fun hnone => exec_next_of_eq rfl ?_, fun u hsome => exec_next_of_eq rfl ?_⟩
    · rw [State.lockAt] at hnone
      simp only [State.lock, hx, hfree, htc, hnone]
    · rw [State.lockAt] at hsome
      simp only [State.lock, hx, hfree, htc, hsome]

/-- The index of a requester's first context is free, and is its own from then on. -/
theorem State.assignIdx_free {q i : Nat} {u : State} (hnone : s.tenantIdx q = none) (h : s.assignIdx q = some (i, u)) :
    i < 256 ∧ storeFind s.pkg.tenants i = none ∧ u.pkg.tenants = storeSet s.pkg.tenants i q ∧ u.mem = s.mem := by
  simp only [State.assignIdx, hnone] at h
  split at h
  · cases h
  · next i0 l hfree =>
    obtain ⟨hi, rfl⟩ := Prod.mk.inj (Option.some.inj h)
    have hmem := getD_pick_mem i0 l (Config.pick s.nfree)
    rw [hi, ← hfree, List.mem_filter, List.mem_range, Option.isNone_iff_eq_none] at hmem
    exact ⟨hmem.1, hmem.2, by rw [hi], rfl⟩

theorem State.assignIdx_own {q i : Nat} (h : s.tenantIdx q = some i) : s.assignIdx q = some (i, s) := by
  simp only [State.assignIdx, h]

theorem State.reserve_spec {t : Nat} {u : State} (h : s.reserve t r = some u) : ∃ cb db, u.ctx r.die t = { s.ctx r.die t with
    quota := r.mem, crewq := r.crews, csize := r.csize, dsize := r.dsize, cbase := cb, dbase := db } := by
  unfold State.reserve at h
  split at h
  · cases h
  · obtain ⟨v, halloc, rfl⟩ := Option.map_eq_some_iff.mp h
    obtain ⟨b0, b1, b2, b3, e, rfl, -⟩ := State.allocRegions_spec halloc
    refine ⟨[b0, b1, b2, b3], e, (State.ctx_modCtx _ _ _ _).trans ?_⟩
    rw [State.ctx, State.zeroRegions_ctxs, ← State.ctx, State.ctx_modCtx]

theorem State.reserve_none {t : Nat} (h : s.allocRegions r.die t r.csize r.dsize = none ∨
    osBase < (s.heldBy r.die t (fun c => c.quota) + r.mem) * 2 ^ 21 ∨ 256 < s.heldBy r.die t (fun c => c.crewq) + r.crews) :
    s.reserve t r = none := by
  unfold State.reserve
  split
  · rfl
  · next hroom =>
    rw [h.resolve_right hroom]
    rfl

/-! ## ATTEST, START and UNBIND (R385, R386, R389) -/

variable {n : Nat}

theorem State.attest_of_locking (h : Locking s b) : s.attest b n =
    (match (s.heard b.die b.sess).mapBerth b.die b.tcid with
     | none => (s.heard b.die b.sess).answer b 3 0
     | some u =>
       let c := s.ctx b.die b.tcid
       let content := (u.die b.die).measured.take 6 ++ [c.word] ++ c.items.flatMap (fun e => [e.1, e.2]) ++ [n]
       ((u.modCtx b.die b.tcid (fun x => { x with bind := .attested, negotiated := some c.word })).report
         (.attest b.die b.tcid content (Config.signature b.die ((u.die b.die).algs.asym :: content)))).answer b 0 0) := by
  obtain ⟨hsec, hbind, hsess⟩ := h
  obtain ⟨x, hx⟩ := Option.isSome_iff_exists.mp hsec
  have hgo : ¬(((s.heard b.die b.sess).ctx b.die b.tcid).bind ≠ .locked ∨ ((s.heard b.die b.sess).ctx b.die b.tcid).sess ≠ b.sess) :=
    not_or.mpr ⟨not_not_intro hbind, not_not_intro hsess⟩
  simp only [State.attest, hx, if_neg hgo]
  rfl

theorem execAttest_none (h : Locking s b) (hnone : (s.heard b.die b.sess).mapBerth b.die b.tcid = none) :
    exec (.attest b n) s = .next ((s.heard b.die b.sess).answer b 3 0) := by
  refine exec_next_of_eq rfl ?_
  rw [State.attest_of_locking h, hnone]

theorem execAttest_some {u : State} (h : Locking s b) (hsome : (s.heard b.die b.sess).mapBerth b.die b.tcid = some u) :
    ∃ t : State, exec (.attest b n) s = .next t ∧ t.mem = u.mem ∧
      t.ctx b.die b.tcid = { u.ctx b.die b.tcid with bind := .attested, negotiated := some (s.ctx b.die b.tcid).word } := by
  have hattest := State.attest_of_locking (n := n) h
  rw [hsome] at hattest
  exact ⟨_, exec_next_of_eq rfl hattest, rfl, State.ctx_modCtx u _ _ (fun x =>
    { x with bind := .attested, negotiated := some (s.ctx b.die b.tcid).word })⟩

theorem State.mapBerth_without {d t : Nat} (h : (s.ctx d t).has 5 = false) : s.mapBerth d t = some s := by
  rw [State.mapBerth, if_pos h]

theorem State.attest_of_not_locked (hsec : (s.secured b.die b.sess).isSome = true)
    (h : (s.ctx b.die b.tcid).bind ≠ .locked ∨ (s.ctx b.die b.tcid).sess ≠ b.sess) :
    s.attest b n = (s.heard b.die b.sess).answer b 1 0 := by
  obtain ⟨x, hx⟩ := Option.isSome_iff_exists.mp hsec
  have hstop : ((s.heard b.die b.sess).ctx b.die b.tcid).bind ≠ .locked ∨ ((s.heard b.die b.sess).ctx b.die b.tcid).sess ≠ b.sess := h
  simp only [State.attest, hx, if_pos hstop]

theorem execStart_run (hsec : (s.secured b.die b.sess).isSome = true) (hbind : (s.ctx b.die b.tcid).bind = .attested)
    (hsess : (s.ctx b.die b.tcid).sess = b.sess) :
    ∃ t : State, exec (.start b) s = .next t ∧ t.ctx b.die b.tcid = { s.ctx b.die b.tcid with bind := .run } ∧ t.mem = s.mem ∧
      t.pkg.reports = s.pkg.reports ++ [.command b.die b.tcid 0 0] := by
  obtain ⟨x, hx⟩ := Option.isSome_iff_exists.mp hsec
  have hgo : ¬(((s.heard b.die b.sess).ctx b.die b.tcid).bind ≠ .attested ∨ ((s.heard b.die b.sess).ctx b.die b.tcid).sess ≠ b.sess) :=
    not_or.mpr ⟨not_not_intro hbind, not_not_intro hsess⟩
  refine ⟨((s.heard b.die b.sess).modCtx b.die b.tcid (fun x => { x with bind := .run })).answer b 0 0, exec_next_of_eq rfl ?_,
    State.ctx_modCtx (s.heard b.die b.sess) _ _ (fun x => { x with bind := .run }), rfl, rfl⟩
  simp only [State.start, hx, if_neg hgo]

theorem execStart_refused (hsec : (s.secured b.die b.sess).isSome = true)
    (h : (s.ctx b.die b.tcid).bind ≠ .attested ∨ (s.ctx b.die b.tcid).sess ≠ b.sess) :
    exec (.start b) s = .next ((s.heard b.die b.sess).answer b 1 0) := by
  obtain ⟨x, hx⟩ := Option.isSome_iff_exists.mp hsec
  have hstop : ((s.heard b.die b.sess).ctx b.die b.tcid).bind ≠ .attested ∨ ((s.heard b.die b.sess).ctx b.die b.tcid).sess ≠ b.sess := h
  refine exec_next_of_eq rfl ?_
  simp only [State.start, hx, if_pos hstop]

theorem execUnbind_reset (hx : s.secured b.die b.sess = some x) (hbind : (s.ctx b.die b.tcid).bind = .run ∨ (s.ctx b.die b.tcid).bind = .error)
    (htenant : s.tenantIdx x.requester = some (s.ctx b.die b.tcid).tenant) :
    exec (.unbind b) s = .next (((s.heard b.die b.sess).tenantReset b.die b.tcid).answer b 0 0) := by
  have hgo : ¬((((s.heard b.die b.sess).ctx b.die b.tcid).bind ≠ .run ∧ ((s.heard b.die b.sess).ctx b.die b.tcid).bind ≠ .error) ∨
      (s.heard b.die b.sess).tenantIdx x.requester ≠ some ((s.heard b.die b.sess).ctx b.die b.tcid).tenant) := by
    rw [not_or, not_and_or, not_not, not_not, not_not]
    exact ⟨hbind, htenant⟩
  refine exec_next_of_eq rfl ?_
  simp only [State.unbind, hx, if_neg hgo]

theorem execUnbind_refused (hx : s.secured b.die b.sess = some x) (htenant : s.tenantIdx x.requester ≠ some (s.ctx b.die b.tcid).tenant) :
    exec (.unbind b) s = .next ((s.heard b.die b.sess).answer b 1 0) := by
  have hstop : (s.heard b.die b.sess).tenantIdx x.requester ≠ some ((s.heard b.die b.sess).ctx b.die b.tcid).tenant := htenant
  refine exec_next_of_eq rfl ?_
  simp only [State.unbind, hx, if_pos (Or.inr hstop : _ ∨ _)]

/-! ## A command in another state or session (log entry 33) -/

/-- A command that is answered with status 1 and changes no context and no byte. -/
def Refused (s : State) (b : Bind) (i : Instr) : Prop :=
  ∃ t : State, exec i s = .next t ∧ t.pkg.reports = s.pkg.reports ++ [.command b.die b.tcid 1 0] ∧ t.ctxs = s.ctxs ∧ t.mem = s.mem

variable (hsec : (s.secured b.die b.sess).isSome = true) (hnot : (s.ctx b.die b.tcid).bind ≠ .locked ∨ (s.ctx b.die b.tcid).sess ≠ b.sess)
include hsec hnot

theorem refused_of_install {i : Instr} {item part : Nat} {content : List Nat} {keyed : Bool} {f : State → Nat × State}
    (hi : exec i s = .next (s.install b item part content keyed f)) : Refused s b i :=
  ⟨_, exec_next_of_eq hi (State.install_of_not_locked hsec hnot), rfl, rfl, rfl⟩

theorem execInstallPart_refused (p u : Nat) : Refused s b (.installPart b p u) :=
  ⟨((s.heard b.die b.sess).answer b 1 0).setPermits, exec_next_of_eq rfl (congrArg State.setPermits (State.install_of_not_locked hsec hnot)),
    rfl, rfl, rfl⟩

theorem execAttest_refused (n : Nat) : Refused s b (.attest b n) :=
  ⟨_, exec_next_of_eq rfl (State.attest_of_not_locked hsec hnot), rfl, rfl, rfl⟩

end

end Sys2Proof.Machine
end

section
open Sys2Proof Sys2Proof.Machine

/-- Settles O54: what an item changes is judged in the state in which its command is heard (`ItemDone`), a failing key leads to ERROR through a
scan that binds no context otherwise (`State.ctxError_enters`), and so does what is released (`State.ctxRelease_unbinds`). -/
theorem bindingEvents : Obligations.BindingEvents := by
  unfold Obligations.BindingEvents
  refine ⟨?lock, ?index, ?reserve, ?short, ?items, ?keyed, ?regions, ?refused, ?attest, ?start, ?unbind, fun s d tc _ => s.ctxRelease_unbinds d tc⟩
  case lock =>
    intro s r x hx
    refine ⟨fun hfree => ?_, execLock_full hx⟩
    obtain ⟨tc, htc, hunbound, hnone, hsome⟩ := execLock_free hx hfree
    refine ⟨tc, htc, hunbound, fun o ho => ?_⟩
    subst ho
    exact ⟨hnone, hsome⟩
  case index => exact fun s q => ⟨fun i => State.assignIdx_own, fun i u => State.assignIdx_free⟩
  case reserve => exact fun s u t r => State.reserve_spec
  case short => exact fun s t r => State.reserve_none
  case items =>
    intro s b i f hl hi
    suffices h : ∃ t, exec i s = .next t ∧ Installed s b f t by
      obtain ⟨t, hexec, its, hctx, hreports, hstrands, hmem⟩ := h
      exact ⟨t, its, hexec, hctx, hreports, hstrands, hmem⟩
    rcases hi with ⟨q, rfl, hq, rfl⟩ | ⟨q, v, rfl, hq, hv, rfl⟩ | ⟨a, rfl, hpage, ha, rfl⟩ | ⟨p, rfl, hp, rfl⟩ |
      ⟨r, rfl, hflag, hpage, ha, hfeat, rfl⟩ | ⟨es, rfl, hes, hfeat, rfl⟩ | ⟨w, rfl, hfeat, rfl⟩ | ⟨gs, rfl, hlen, hdup, hrange, hfree, rfl⟩ |
      ⟨a, rfl, hfair, hinc, htok, hcrews, rfl⟩ | ⟨p, u, rfl, hp, hu, hfeat, rfl⟩ | ⟨w, rfl, hlegal, hfeat, rfl⟩ |
      ⟨sl, w, cr, ta, rfl, hsl, hw, hw', hfeat, rfl⟩
    · exact execInstallMemory_done hq hl
    · exact execInstallQueues_done hq hv hl
    · exact execInstallNotice_done hpage ha hl
    · exact execInstallFaultpol_done hp hl
    · exact execInstallDeleg_done hflag hpage ha hfeat hl
    · exact execInstallHandlers_done hes hfeat hl
    · exact execInstallFeatures_done hfeat hl
    · exact execInstallGangs_done hlen hdup hrange hfree hl
    · exact execInstallAccount_done hfair hinc htok hcrews hl
    · exact execInstallPart_done hp hu hfeat hl
    · exact execInstallWindow_done hlegal hfeat hl
    · exact execInstallBandwidth_done hsl hw hw' hfeat hl
  case keyed =>
    intro s b i f hl hi
    rcases hi with ⟨ks, rfl, hlen, hdup, hrange, hfree, rfl⟩ | ⟨j, id, key, rfl, hj, hid, rfl⟩ | ⟨key, tag, rfl, rfl⟩ | ⟨key, rfl, hroom, hfeat, rfl⟩
    · exact installKeys_done hlen hdup hrange hfree hl
    · exact installLinkkeys_done hj hid hl
    · exact installSavekeys_done hl
    · exact installQuayenrol_done hroom hfeat hl
  case regions => exact fun s b csize dsize bva hl hc hd hb hva => execInstallRegions_taken hl hc hd hb hva
  case refused =>
    intro s b i hsec hnot hi
    rcases hi with ⟨q, rfl⟩ | ⟨q, v, rfl⟩ | ⟨a, rfl⟩ | ⟨p, rfl⟩ | ⟨r, rfl⟩ | ⟨es, rfl⟩ | ⟨w, rfl⟩ | ⟨gs, rfl⟩ | ⟨a, rfl⟩ | ⟨p, u, rfl⟩ | ⟨w, rfl⟩ |
      ⟨sl, w, cr, ta, rfl⟩ | ⟨ks, rfl⟩ | ⟨j, id, key, rfl⟩ | ⟨key, tag, rfl⟩ | ⟨key, rfl⟩ | ⟨cs, ds, bva, rfl⟩ | ⟨n, rfl⟩
    · exact refused_of_install hsec hnot rfl
    · exact refused_of_install hsec hnot rfl
    · exact refused_of_install hsec hnot rfl
    · exact refused_of_install hsec hnot rfl
    · exact refused_of_install hsec hnot rfl
    · exact refused_of_install hsec hnot rfl
    · exact refused_of_install hsec hnot rfl
    · exact refused_of_install hsec hnot rfl
    · exact refused_of_install hsec hnot rfl
    · exact execInstallPart_refused hsec hnot p u
    · exact refused_of_install hsec hnot rfl
    · exact refused_of_install hsec hnot rfl
    · exact refused_of_install hsec hnot rfl
    · exact refused_of_install hsec hnot rfl
    · exact refused_of_install hsec hnot rfl
    · exact refused_of_install hsec hnot rfl
    · exact refused_of_install hsec hnot rfl
    · exact execAttest_refused hsec hnot n
  case attest =>
    intro s b n hl
    exact ⟨execAttest_none hl, fun u => execAttest_some hl, fun h => State.mapBerth_without h⟩
  case start =>
    intro s b hsec
    exact ⟨execStart_run hsec, execStart_refused hsec⟩
  case unbind =>
    intro s b x hx hbind
    exact ⟨execUnbind_reset hx hbind, execUnbind_refused hx⟩

end

section
/-! PROOF. What a flag that an engine sets leaves (for O45).

A flag event may wake its strand, and a strand that it brings into ENERGY may have a fault record written and a second flag set for it. Through
all of that the cores and the jobs stay, and every strand keeps its latches, its engine operations and the flags that were set
(`State.KeepsMarks`); a strand that waits for nothing only gets its flag (`State.setFlag_of_no_wait`). -/
namespace Sys2Proof.Machine

/-! ## Marks of the strands -/

/-- A strand later has the same latches and engine operations, and every flag that was set. -/
def Strand.Marks (t u : Strand) : Prop := u.latches = t.latches ∧ u.engOps = t.engOps ∧ ∀ n, t.rf n = true → u.rf n = true

theorem Strand.Marks.refl (t : Strand) : t.Marks t := ⟨rfl, rfl, fun _ h => h⟩

theorem Strand.Marks.trans {t u v : Strand} (h : t.Marks u) (h' : u.Marks v) : t.Marks v := by
  obtain ⟨hlatches, hengOps, hflags⟩ := h
  obtain ⟨hlatches', hengOps', hflags'⟩ := h'
  exact ⟨hlatches'.trans hlatches, hengOps'.trans hengOps, fun n hn => hflags' n (hflags n hn)⟩

theorem Strand.endSpin_marks (t : Strand) (now : Nat) : t.Marks (t.endSpin now) := by
  unfold Strand.endSpin
  split
  · exact ⟨rfl, rfl, fun _ h => h⟩
  · exact ⟨rfl, rfl, fun _ h => h⟩

/-- Setting a flag clears none. -/
theorem Strand.rf_wf_of_set {t : Strand} {m : Nat} (h : t.rf m = true) (n : Nat) : (t.wf n true).rf m = true := by
  rw [Strand.rf] at h
  simp only [Strand.rf, Strand.wf, setBit, if_true, BitVec.getLsbD_or, h, Bool.true_or]

theorem Strand.Marks.rh {t u : Strand} (h : t.Marks u) (n : Nat) : u.rh n = t.rh n := by
  obtain ⟨hlatches, -, -⟩ := h
  rw [Strand.rh, Strand.rh, hlatches]

/-! ## Marks of the state -/

/-- The cores and the jobs stay, and the marks of every strand. -/
def State.KeepsMarks (s t : State) : Prop := t.cores = s.cores ∧ t.jobs = s.jobs ∧ ∀ k, (s.strand k).Marks (t.strand k)

theorem State.KeepsMarks.of_strands {s t : State} (hcores : t.cores = s.cores) (hjobs : t.jobs = s.jobs) (h : t.strands = s.strands) :
    s.KeepsMarks t := ⟨hcores, hjobs, fun k => by rw [State.strand_congr h]; exact .refl _⟩

theorem State.KeepsMarks.trans {s t u : State} (h : s.KeepsMarks t) (h' : t.KeepsMarks u) : s.KeepsMarks u := by
  obtain ⟨hcores, hjobs, hstrands⟩ := h
  obtain ⟨hcores', hjobs', hstrands'⟩ := h'
  exact ⟨hcores'.trans hcores, hjobs'.trans hjobs, fun k => (hstrands k).trans (hstrands' k)⟩

theorem State.KeepsMarks.refl (s : State) : s.KeepsMarks s := .of_strands rfl rfl rfl

theorem State.KeepsMarks.foldl {α : Type} {f : State → α → State} (hf : ∀ (s : State) a, s.KeepsMarks (f s a)) (l : List α) (s : State) :
    s.KeepsMarks (l.foldl f s) :=
  List.foldlRecOn l f (motive := s.KeepsMarks) (.refl s) fun u hu a _ => hu.trans (hf u a)

theorem State.KeepsMarks.core {s t : State} (h : s.KeepsMarks t) (c : Nat) : t.core c = s.core c := by
  obtain ⟨hcores, -, -⟩ := h
  rw [State.core, State.core, hcores]

theorem State.modStrand_keepsMarks (s : State) (k : Nat) {f : Strand → Strand} (hf : (s.strand k).Marks (f (s.strand k))) :
    s.KeepsMarks (s.modStrand k f) := by
  refine ⟨rfl, rfl, fun j => ?_⟩
  by_cases hj : j = k
  · subst hj
    rw [State.strand_modStrand]
    exact hf
  · rw [State.strand_modStrand_other _ _ _ _ hj]
    exact .refl _

theorem State.wakeSpin_keepsMarks (s : State) (ws : List (Nat × Nat)) : s.KeepsMarks (s.wakeSpin ws) := by
  refine ⟨rfl, rfl, fun k => ?_⟩
  obtain hk | hk := s.wakeSpin_strand ws k
  · rw [hk]
    exact .refl _
  · rw [hk]
    exact Strand.endSpin_marks _ _

theorem State.performEls_keepsMarks (wr : Writer) (els : List (Nat × Nat × Nat)) (s : State) : s.KeepsMarks (s.performEls wr els) := by
  induction els generalizing s with
  | nil => exact .of_strands rfl rfl rfl
  | cons e r ih => exact .trans (.of_strands rfl rfl rfl) (ih (s.perform wr e.1 e.2.1 e.2.2))

theorem State.homeWrite_keepsMarks (s : State) (wr : Writer) (els : List (Nat × Nat × Nat)) : s.KeepsMarks (s.homeWrite wr els) :=
  (State.performEls_keepsMarks wr els s).trans
    (.trans (t := (s.performEls wr els).clearPoison (els.map (fun e => (e.1, e.2.1)))) (.of_strands rfl rfl rfl) (State.wakeSpin_keepsMarks _ _))

theorem State.scratchWrite_keepsMarks (s : State) (cs : List Host.Cell) : s.KeepsMarks (s.scratchWrite cs) :=
  .trans (t := (s.pokeCells cs).clearPoison (cs.map (fun c => (c.1, 1)))) (.of_strands rfl rfl rfl) (State.wakeSpin_keepsMarks _ _)

theorem State.deviceWrite_keepsMarks (s : State) (die a : Nat) (bs : List Byte) (x : Nat) : s.KeepsMarks (s.deviceWrite die a bs x).2 :=
  .trans (.of_strands rfl rfl rfl) (State.homeWrite_keepsMarks s.fresh.2 _ _)

theorem touchLeaf_keepsMarks (s : State) (die tcid va : Nat) (w : Bool) : s.KeepsMarks (touchLeaf s die tcid va w) := by
  unfold touchLeaf
  split
  · exact .of_strands rfl rfl rfl
  · dsimp only
    split
    · exact .of_strands rfl rfl rfl
    · exact .of_strands rfl rfl rfl

theorem State.writeImage_keepsMarks (s : State) (k : Nat) : s.KeepsMarks (s.writeImage k) := by
  unfold State.writeImage
  dsimp only
  split
  · exact .refl s
  · refine State.KeepsMarks.trans (State.KeepsMarks.trans ?_ (State.KeepsMarks.foldl ?_ _ _)) (State.KeepsMarks.foldl ?_ _ _)
    · exact .of_strands rfl rfl rfl
    · exact fun _ _ => .of_strands rfl rfl rfl
    · exact fun _ _ => .of_strands rfl rfl rfl

theorem State.resave_keepsMarks (s : State) (k : Nat) : s.KeepsMarks (s.resave k) := by
  unfold State.resave
  split
  · exact s.writeImage_keepsMarks k
  · exact .refl s

theorem State.wakePlain_keepsMarks (s : State) (k : Nat) : s.KeepsMarks (s.wakePlain k) := by
  refine s.modStrand_keepsMarks k ?_
  split
  · exact ⟨rfl, rfl, fun _ h => h⟩
  · exact .refl _

theorem State.flagEvent_keepsMarks (s : State) (k n : Nat) (w : List Nat) : s.KeepsMarks (s.flagEvent k n w) := by
  have hset : s.KeepsMarks (s.modStrand k (fun t => { t.wf n true with view := viewAdd t.view (s.keysOf w) })) :=
    s.modStrand_keepsMarks k ⟨rfl, rfl, fun _ h => Strand.rf_wf_of_set h n⟩
  unfold State.flagEvent
  refine .trans ?_ (State.resave_keepsMarks _ _)
  dsimp only
  split
  · split
    · exact hset.trans (State.wakePlain_keepsMarks _ _)
    · exact hset
  · exact hset

theorem State.sendFault_keepsMarks (s : State) (k : Nat) (p : Pending) (pos ser : Nat) : s.KeepsMarks (s.sendFault k p pos ser).2 := by
  unfold State.sendFault
  split
  · exact .of_strands rfl rfl rfl
  · next f flag a _ =>
    dsimp only
    have htouch := touchLeaf_keepsMarks s (s.strand k).die (s.strand k).tcid ((s.ctx (s.strand k).die (s.strand k).tcid).deleg.va) true
    generalize touchLeaf s _ _ _ _ = s1 at htouch ⊢
    generalize faultRecord _ _ _ _ _ _ = bs
    have hwrite := htouch.trans (s1.deviceWrite_keepsMarks (s.strand k).die a bs 2)
    generalize s1.deviceWrite (s.strand k).die a bs 2 = r at hwrite ⊢
    have hflag (d t : Nat) (g : Ctx → Ctx) (w : List Nat) : s.KeepsMarks ((r.2.modCtx d t g).flagEvent f flag w) :=
      (hwrite.trans (.of_strands rfl rfl rfl)).trans (State.flagEvent_keepsMarks _ _ _ _)
    split
    · exact (hflag _ _ _ _).trans (.of_strands rfl rfl rfl)
    · exact hflag _ _ _ _

theorem State.toEnergy_keepsMarks (s : State) (k : Nat) : s.KeepsMarks (s.toEnergy k) := by
  have hst : s.KeepsMarks (s.modStrand k (fun t => { t with st := .energy })) := s.modStrand_keepsMarks k ⟨rfl, rfl, fun _ h => h⟩
  unfold State.toEnergy
  dsimp only
  split
  · exact hst
  · exact (hst.trans (.of_strands rfl rfl rfl)).trans (State.sendFault_keepsMarks _ _ _ _ _)

theorem State.setFlag_keepsMarks (s : State) (k n : Nat) (w : List Nat) : s.KeepsMarks (s.setFlag k n w) := by
  unfold State.setFlag
  dsimp only
  split
  · exact (s.flagEvent_keepsMarks k n w).trans (State.toEnergy_keepsMarks _ _)
  · exact s.flagEvent_keepsMarks k n w

/-- A flag that is set reads so. -/
theorem State.setFlag_rf (s : State) (k : Nat) {n : Nat} (hn : n < 64) (w : List Nat) : ((s.setFlag k n w).strand k).rf n = true := by
  obtain ⟨-, hevent, -⟩ := s.flagEvent_spec k hn w
  unfold State.setFlag
  dsimp only
  split
  · obtain ⟨-, -, hmarks⟩ := State.toEnergy_keepsMarks (s.flagEvent k n w) k
    obtain ⟨-, -, hflags⟩ := hmarks k
    exact hflags n hevent
  · exact hevent

/-! ## A strand that waits for nothing -/

/-- A strand is not saved and waits for nothing. -/
def Strand.plain (t : Strand) : Prop := t.wait = .none ∧ t.st ≠ .saved

/-- Its flag is set, and nothing else happens. -/
theorem State.setFlag_of_plain {s : State} {k : Nat} (h : (s.strand k).plain) (n : Nat) (w : List Nat) :
    s.setFlag k n w = s.modStrand k (fun t => { t.wf n true with view := viewAdd t.view (s.keysOf w) }) := by
  obtain ⟨hwait, hsaved⟩ := h
  generalize hf : (fun t : Strand => { t.wf n true with view := viewAdd t.view (s.keysOf w) }) = f
  have hstrand : ((s.modStrand k f).strand k).wait = .none ∧ ((s.modStrand k f).strand k).st = (s.strand k).st := by
    rw [State.strand_modStrand, ← hf]
    exact ⟨hwait, rfl⟩
  have hevent : s.flagEvent k n w = s.modStrand k f := by
    simp only [State.flagEvent, hf, hstrand.1]
    exact State.resave_of_not_saved (hstrand.2 ▸ hsaved)
  simp only [State.setFlag, hevent]
  refine if_neg fun hgo => ?_
  rw [hstrand.2, hgo.1] at hgo
  exact absurd hgo.2 (by decide)

theorem Strand.endSpin_plain {t : Strand} (h : t.plain) (now : Nat) : (t.endSpin now).plain := by
  obtain ⟨hwait, hsaved⟩ := h
  refine ⟨?_, fun hst => hsaved (t.endSpin_st now hst)⟩
  unfold Strand.endSpin
  split
  · exact hwait
  · exact hwait

theorem State.wakeSpin_plain {s : State} {k : Nat} (h : (s.strand k).plain) (ws : List (Nat × Nat)) : ((s.wakeSpin ws).strand k).plain := by
  obtain hk | hk := s.wakeSpin_strand ws k
  · rw [hk]
    exact h
  · rw [hk]
    exact Strand.endSpin_plain h _

end Sys2Proof.Machine
end

section
/-! PROOF. A TMOV that completes (for O45; R138, R222, R298). -/
namespace Sys2Proof.Machine

/-! ## The units of a copy -/

theorem State.copyBytes_plain {s : State} {k : Nat} (h : (s.strand k).plain) (wr : Writer) (ms : List (Nat × Nat)) :
    ((s.copyBytes wr ms).strand k).plain := by
  unfold State.copyBytes
  dsimp only
  split
  · split
    · exact State.wakeSpin_plain (s := (s.pokeCells _).clearPoison _) h _
    · refine State.wakeSpin_plain (s := (s.performEls wr _).clearPoison _) ?_ _
      exact (State.strand_congr (State.performEls_strands wr _ s) k).symm ▸ h
  · exact h

theorem State.copyUnits_plain {s : State} {k : Nat} (h : (s.strand k).plain) (wr : Writer) (us : List (List (Nat × Nat))) :
    ((s.copyUnits wr us).strand k).plain :=
  List.foldlRecOn (permBy us.length s.nfree us) _ (motive := fun u : State => (u.strand k).plain) h fun _ hu ms _ => State.copyBytes_plain hu wr ms

theorem State.copyUnits_nil (s : State) (wr : Writer) : (s.copyUnits wr (moveUnits [])).mem = s.mem := rfl

/-- One byte copied. -/
theorem State.copyUnits_one (s : State) (wr : Writer) (a b : Nat) : (s.copyUnits wr (moveUnits [(a, b)])).mem = writeBytes s.mem b [s.byte a] := by
  have hunits : moveUnits [(a, b)] = [[(a, b)]] := by simp [moveUnits, List.eraseDups_cons]
  have hperm : permBy 1 s.nfree [[(a, b)]] = [[(a, b)]] := by simp [permBy, Nat.mod_one]
  rw [hunits, State.copyUnits, List.length_singleton, hperm, List.foldl_cons, List.foldl_nil]
  generalize hu : ({ s with nfree := s.nfree + 1 } : State) = u
  have hmem : u.mem = s.mem := by rw [← hu]
  have hbyte : u.byte a = s.byte a := by rw [State.byte, State.byte, hmem]
  rw [← hmem, ← hbyte]
  unfold State.copyBytes
  dsimp only
  split
  · exact State.scratchWrite_cellsAt_mem u b [u.byte a]
  · exact State.homeWrite_cellsAt_mem u wr b [u.byte a]

/-! ## TMOV_COMPLETE -/

/-- What a TMOV leaves of the core's queue and of its strand before its flag is set: its moves made, or none of them. -/
def State.tmovMoved (s : State) (c : Nat) (m : Tmov) (r : List Tmov) (copies : Bool) : State :=
  let u := s.modStrand m.sid (fun t => t.landClear m.flag .ld)
  let u := if copies then u.copyUnits ⟨m.id, some m.sid, c, false, none, none⟩ (moveUnits m.moves) else u
  (u.modCore c (fun x => { x with tmq := r })).modStrand m.sid (fun t => { t with engOps := t.engOps.filter (fun x => x != m.id) })

/-- And with its flag set. -/
def State.tmovDone (s : State) (c : Nat) (m : Tmov) (r : List Tmov) (copies : Bool) : State := (s.tmovMoved c m r copies).setFlag m.sid m.flag [m.id]

variable {s : State} {c : Nat} {m : Tmov} {r : List Tmov}

section
variable (hq : (s.core c).tmq = m :: r) (hfence : fenceOk (s.strand m.sid) m.fence = true)
  (hok : tmovOk s m.sid m.id (m.moves.map Prod.fst) = true) (hclear : (s.strand m.sid).clearing m.flag .ld = false)
include hq hfence hok hclear

theorem State.tmovComplete_of_clean (hmet : tmovMet s (s.strand m.sid) m.moves = none) : s.tmovComplete c = s.tmovDone c m r true := by
  simp only [State.tmovComplete, hq, hfence, hok, hclear, hmet, Bool.not_false, Bool.true_or, Bool.and_true, if_true, Option.isSome_none,
    Bool.false_eq_true, if_false]
  rfl

theorem State.tmovComplete_of_failed {cs : Cause} {v : Word} (hmet : tmovMet s (s.strand m.sid) m.moves = some (cs, v)) :
    s.tmovComplete c = (s.tmovDone c m r false).raiseCe m.sid ⟨cs, v, m.tbun, 2 ^ Slot.bit .ld⟩ := by
  simp only [State.tmovComplete, hq, hfence, hok, hclear, hmet, Bool.not_false, Bool.true_or, Bool.and_true, if_true, Option.isSome_some]
  rfl

end

/-- The queue is shorter, the flag is set, and the operation is over. -/
theorem State.tmovDone_spec (s : State) (c : Nat) {m : Tmov} (r : List Tmov) (copies : Bool) (hflag : m.flag < 64) :
    ((s.tmovDone c m r copies).core c).tmq = r ∧ ((s.tmovDone c m r copies).strand m.sid).rf m.flag = true ∧
      m.id ∉ ((s.tmovDone c m r copies).strand m.sid).engOps := by
  have hmoved : ((s.tmovMoved c m r copies).core c).tmq = r ∧ m.id ∉ ((s.tmovMoved c m r copies).strand m.sid).engOps := by
    rw [State.tmovMoved, State.core_modStrand, State.core_modCore, State.strand_modStrand]
    exact ⟨rfl, by simp⟩
  have hmarks := (s.tmovMoved c m r copies).setFlag_keepsMarks m.sid m.flag [m.id]
  obtain ⟨-, -, hstrands⟩ := id hmarks
  obtain ⟨-, hengOps, -⟩ := hstrands m.sid
  refine ⟨?_, State.setFlag_rf _ _ hflag _, ?_⟩
  · rw [State.tmovDone, hmarks.core]
    exact hmoved.1
  · rw [State.tmovDone, hengOps]
    exact hmoved.2

/-- Of a strand that waits for nothing only the moves change memory. -/
theorem State.tmovDone_mem (s : State) (c : Nat) (m : Tmov) (r : List Tmov) (copies : Bool) (h : (s.strand m.sid).plain) :
    (s.tmovDone c m r copies).mem = if copies then ((s.modStrand m.sid (fun t => t.landClear m.flag .ld)).copyUnits
      ⟨m.id, some m.sid, c, false, none, none⟩ (moveUnits m.moves)).mem else s.mem := by
  have hcleared : ((s.modStrand m.sid (fun t => t.landClear m.flag .ld)).strand m.sid).plain := by
    rw [State.strand_modStrand]
    exact h
  have hmoved : ((s.tmovMoved c m r copies).strand m.sid).plain := by
    rw [State.tmovMoved, State.strand_modStrand, State.strand_modCore]
    cases copies with
    | false => exact hcleared
    | true => exact State.copyUnits_plain hcleared _ _
  rw [State.tmovDone, State.setFlag_of_plain hmoved]
  cases copies with
  | false => rfl
  | true => rfl

end Sys2Proof.Machine
end

section
/-! PROOF. CE operations that a die accepts (for O45; R304, R307, R308, R314). -/
namespace Sys2Proof.Machine

/-- The core's queue without its oldest CE operation. -/
def State.ceTaken (s : State) (c : Nat) (r : List CeEntry) : State := s.modCore c (fun x => { x with ceq := r })

theorem State.ceTaken_ceq (s : State) (c : Nat) (r : List CeEntry) : ((s.ceTaken c r).core c).ceq = r := by
  rw [State.ceTaken, State.core_modCore]

/-- A latch that an engine operation bound takes its value. -/
theorem State.engineFill_of_pend {s : State} {k n id : Nat} (h : ((s.strand k).rh n).pend = some id) (hsaved : (s.strand k).st ≠ .saved)
    (kind : Nat) (v : Word) :
    s.engineFill k n id kind v = s.modStrand k (fun t => t.wh n ⟨v.setWidth 1024, true, none, false, kind⟩) := by
  have hfill : s.modStrand k (fun t => t.fillLatch n id kind (v.setWidth 1024)) =
      s.modStrand k (fun t => t.wh n ⟨v.setWidth 1024, true, none, false, kind⟩) :=
    State.modStrand_congr _ _ _ _ (Strand.fillLatch_of_pend h kind _)
  rw [State.engineFill, hfill]
  exact State.resave_of_not_saved (by rw [State.strand_modStrand]; exact hsaved)

variable {s : State} {c : Nat} {e : CeEntry} {r : List CeEntry} (hq : (s.core c).ceq = e :: r)
include hq

/-! ## Queries (R307) -/

section
variable {h l : Nat} {w : Bool} (hop : e.op = if w = true then CeOp.wait h l else .poll h l)
include hop

theorem State.jobAccept_status : s.jobAccept c = (s.ceTaken c r).acceptStatus e h l w := by
  cases w with
  | false => simp [State.jobAccept, hq, hop, CeOp.isEngine, CeOp.flag, State.ceTaken]
  | true => simp [State.jobAccept, hq, hop, CeOp.isEngine, CeOp.flag, State.ceTaken]

variable (hpend : ((s.strand e.sid).rh l).pend = some e.id) (hsaved : (s.strand e.sid).st ≠ .saved)
include hpend hsaved

/-- Of no job the status is UNKNOWN. -/
theorem execJobAccept_unknown (hjob : s.jobOf e.die e.tcid h = none) :
    ∃ t, exec (.jobAccept c) s = .next t ∧ (t.core c).ceq = r ∧ t.jobs = s.jobs ∧ t.mem = s.mem ∧
      (t.strand e.sid).rh l = ⟨(wordOf [(56, 0x30)]).setWidth 1024, true, none, false, 3⟩ := by
  have hjob' : (s.ceTaken c r).jobOf e.die e.tcid h = none := hjob
  have haccept := State.jobAccept_status hq hop
  rw [State.acceptStatus, hjob'] at haccept
  dsimp only at haccept
  rw [State.engineFill_of_pend (s := s.ceTaken c r) hpend hsaved] at haccept
  refine ⟨_, exec_next_of_eq rfl haccept, ?_, rfl, rfl, ?_⟩
  · rw [State.core_modStrand, State.ceTaken_ceq]
  · rw [State.strand_modStrand, Strand.rh_wh, if_pos rfl]

/-- The status of a job that has ended, or to a CPOLL the one so far. -/
theorem execJobAccept_known {id : Nat} {j : Job} (hjob : s.jobOf e.die e.tcid h = some (id, j)) (hgo : jobFinal j.status = true ∨ w = false) :
    ∃ t, exec (.jobAccept c) s = .next t ∧ (t.core c).ceq = r ∧ t.mem = s.mem ∧
      t.jobs = (if jobFinal j.status then storeErase s.jobs id else s.jobs) ∧
      (t.strand e.sid).rh l = ⟨j.word.setWidth 1024, true, none, false, 3⟩ := by
  have hjob' : (s.ceTaken c r).jobOf e.die e.tcid h = some (id, j) := hjob
  have haccept := State.jobAccept_status hq hop
  rw [State.acceptStatus, hjob'] at haccept
  dsimp only at haccept
  rw [State.engineFill_of_pend (s := s.ceTaken c r) hpend hsaved] at haccept
  generalize hu : (s.ceTaken c r).modStrand e.sid (fun t => t.wh l ⟨j.word.setWidth 1024, true, none, false, 3⟩) = u at haccept
  have hkept : u.jobs = s.jobs ∧ u.mem = s.mem := by
    rw [← hu]
    exact ⟨rfl, rfl⟩
  have hceq : (u.core c).ceq = r := by rw [← hu, State.core_modStrand, State.ceTaken_ceq]
  have hlatch : (u.strand e.sid).rh l = ⟨j.word.setWidth 1024, true, none, false, 3⟩ := by
    rw [← hu, State.strand_modStrand, Strand.rh_wh, if_pos rfl]
  obtain ⟨hjobs, hmem⟩ := hkept
  by_cases hfinal : jobFinal j.status = true
  · rw [if_pos hfinal] at haccept
    refine ⟨_, exec_next_of_eq rfl haccept, hceq, hmem, ?_, hlatch⟩
    rw [if_pos hfinal]
    dsimp only
    rw [hjobs]
  · rw [if_neg hfinal, hgo.resolve_left hfinal, if_neg Bool.false_ne_true] at haccept
    refine ⟨_, exec_next_of_eq rfl haccept, hceq, hmem, ?_, hlatch⟩
    rw [if_neg hfinal, hjobs]

omit hpend hsaved in
/-- A CWAIT of an unfinished job waits. -/
theorem execJobAccept_waits {id : Nat} {j : Job} (hjob : s.jobOf e.die e.tcid h = some (id, j)) (hfinal : jobFinal j.status = false)
    (hw : w = true) : exec (.jobAccept c) s = .next ((s.modCore c (fun x => { x with ceq := r })).modJob id (fun j =>
      { j with waits := j.waits ++ [(e.sid, l, e.id)] })) := by
  have hjob' : (s.ceTaken c r).jobOf e.die e.tcid h = some (id, j) := hjob
  have haccept := State.jobAccept_status hq hop
  rw [State.acceptStatus, hjob'] at haccept
  dsimp only at haccept
  rw [hfinal, if_neg Bool.false_ne_true, if_pos hw] at haccept
  exact exec_next_of_eq rfl haccept

end

/-! ## CKILL (R307) -/

section
variable {h : Nat} (hop : e.op = .kill h)
include hop

theorem execJobAccept_kill_none (hjob : s.jobOf e.die e.tcid h = none) :
    exec (.jobAccept c) s = .next (s.modCore c (fun x => { x with ceq := r })) := by
  have hjob' : (s.modCore c (fun x => { x with ceq := r })).jobOf e.die e.tcid h = none := hjob
  refine exec_next_of_eq rfl ?_
  simp [State.jobAccept, hq, hop, CeOp.isEngine, CeOp.flag, hjob']

theorem execJobAccept_kill {id : Nat} {j : Job} (hjob : s.jobOf e.die e.tcid h = some (id, j)) :
    exec (.jobAccept c) s = .next ((s.modCore c (fun x => { x with ceq := r })).killJob id) := by
  have hjob' : (s.modCore c (fun x => { x with ceq := r })).jobOf e.die e.tcid h = some (id, j) := hjob
  refine exec_next_of_eq rfl ?_
  simp [State.jobAccept, hq, hop, CeOp.isEngine, CeOp.flag, hjob']

end

omit hq in
/-- A job with no block in progress ends at once. -/
theorem State.killJob_idle {u : State} {id : Nat} {j : Job} (hj : storeFind u.jobs id = some j) (hgot : j.got = []) (hput : j.put = []) :
    u.killJob id = u.jobEnd id 4 0 := by
  have hfinish : State.finishBlock id 16 u = u := by
    unfold State.finishBlock
    rw [hj]
    dsimp only
    split
    · rfl
    · simp [hgot, hput]
  rw [State.killJob, hfinish]

/-! ## CJOB (R299, R304) -/

section
variable {card : List Word} {due off l f p : Nat} (hop : e.op = .job card due off l f p) (hcard : card ≠ [])
  (hfence : fenceOk (s.strand e.sid) e.fence = true) (hclear : (s.strand e.sid).clearing f .ce = false)
  (hroom : jobRoom s e.die e.tcid = true) (hbefore : jobBefore s e = false)
include hop hcard hfence hclear hroom hbefore

theorem State.jobAccept_job : s.jobAccept c = (s.ceTaken c r).acceptJob e card off l f p := by
  have hsome : card.isEmpty = false := by simpa using hcard
  simp [State.jobAccept, hq, hop, CeOp.isEngine, CeOp.flag, hfence, hclear, hroom, hbefore, hsome, State.ceTaken]

variable (hpend : ((s.strand e.sid).rh l).pend = some e.id) (hsaved : (s.strand e.sid).st ≠ .saved)
include hpend hsaved

/-- A valid card becomes a queued job. -/
theorem execJobAccept_job
    (hvalid : cardReject (s.ctx e.die e.tcid) (some ((s.strand e.sid).csu * 32768)) (card.map (fun w => w.toNat)) = none) :
    ∃ t j, exec (.jobAccept c) s = .next t ∧ (t.core c).ceq = r ∧ t.mem = s.mem ∧ storeFind t.jobs s.nextId = some j ∧
      j.status = 1 ∧ j.done = 0 ∧ j.sid = some e.sid ∧ j.flag = f ∧ j.card = off ∧
      (t.strand e.sid).rh l = ⟨(wordOf [(56, 1), (0, j.handle)]).setWidth 1024, true, none, false, 4⟩ := by
  have haccept := State.jobAccept_job hq hop hcard hfence hclear hroom hbefore
  have hvalid' : cardReject ((s.ceTaken c r).ctx e.die e.tcid) (some (((s.ceTaken c r).strand e.sid).csu * 32768)) (card.map (fun w => w.toNat)) =
    none := hvalid
  simp only [State.acceptJob, hvalid'] at haccept
  generalize hj : mkJob e.die e.tcid (some e.sid) _ e.id e.tbun f p _ _ _ _ _ off false = j at haccept
  have hjob : j.status = 1 ∧ j.done = 0 ∧ j.sid = some e.sid ∧ j.flag = f ∧ j.card = off ∧
      j.handle = freeHandle (s.ceTaken c r) e.die (s.ceTaken c r).nfree := by
    rw [← hj]
    exact ⟨rfl, rfl, rfl, rfl, rfl, rfl⟩
  obtain ⟨hstatus, hdone, hsid, hflag, hoff, hhandle⟩ := hjob
  rw [← hhandle] at haccept
  generalize hv : ({ (s.ceTaken c r).fresh.2 with
    jobs := storeSet (s.ceTaken c r).fresh.2.jobs (s.ceTaken c r).fresh.1 j, nfree := (s.ceTaken c r).fresh.2.nfree + 1 } : State) = v at haccept
  have hstrand : v.strand e.sid = s.strand e.sid := by
    rw [← hv]
    rfl
  have hkept : (v.core c).ceq = r ∧ v.mem = s.mem ∧ storeFind v.jobs s.nextId = some j := by
    rw [← hv]
    exact ⟨s.ceTaken_ceq c r, rfl, storeFind_storeSet_same _ _ _⟩
  obtain ⟨hceq, hmem, hfind⟩ := hkept
  rw [State.engineFill_of_pend (hstrand.symm ▸ hpend) (hstrand.symm ▸ hsaved)] at haccept
  refine ⟨_, j, exec_next_of_eq rfl haccept, ?_, hmem, hfind, hstatus, hdone, hsid, hflag, hoff, ?_⟩
  · rw [State.core_modStrand]
    exact hceq
  · rw [State.strand_modStrand, Strand.rh_wh, if_pos rfl]

/-- An invalid card fills the latch with its reject code, and its flag sets. -/
theorem execJobAccept_rejected {code d : Nat} (hf : f < 64)
    (hbad : cardReject (s.ctx e.die e.tcid) (some ((s.strand e.sid).csu * 32768)) (card.map (fun w => w.toNat)) = some (code, d)) :
    ∃ t, exec (.jobAccept c) s = .next t ∧ (t.core c).ceq = r ∧ t.jobs = s.jobs ∧ (t.strand e.sid).rf f = true ∧
      (t.strand e.sid).rh l = ⟨(wordOf [(56, code)]).setWidth 1024, true, none, false, 4⟩ := by
  have haccept := State.jobAccept_job hq hop hcard hfence hclear hroom hbefore
  have hbad' : cardReject ((s.ceTaken c r).ctx e.die e.tcid) (some (((s.ceTaken c r).strand e.sid).csu * 32768)) (card.map (fun w => w.toNat)) =
    some (code, d) := hbad
  simp only [State.acceptJob, hbad'] at haccept
  rw [State.engineFill_of_pend (s := s.ceTaken c r) hpend hsaved] at haccept
  generalize hu : ((s.ceTaken c r).modStrand e.sid (fun t => t.wh l ⟨(wordOf [(56, code)]).setWidth 1024, true, none, false, 4⟩)).engineDone
    e.sid e.id = u at haccept
  have hceq : (u.core c).ceq = r := by
    rw [← hu, State.engineDone, State.core_modStrand, State.core_modStrand, State.ceTaken_ceq]
  have hjobs : u.jobs = s.jobs := by
    rw [← hu]
    rfl
  have hlatch : (u.strand e.sid).rh l = ⟨(wordOf [(56, code)]).setWidth 1024, true, none, false, 4⟩ := by
    rw [← hu, State.engineDone, State.strand_modStrand, State.strand_modStrand]
    exact (Strand.rh_wh _ _ _ _).trans (if_pos rfl)
  have hmarks := u.setFlag_keepsMarks e.sid f []
  obtain ⟨-, hjobs', hstrands⟩ := id hmarks
  refine ⟨_, exec_next_of_eq rfl haccept, ?_, hjobs'.trans hjobs, State.setFlag_rf _ _ hf _, ?_⟩
  · rw [hmarks.core]
    exact hceq
  · rw [(hstrands e.sid).rh]
    exact hlatch

end

/-! ## Bells (R314) -/

theorem execJobAccept_bell {tail : Nat} {data : Word} {w q : Nat} (hop : e.op = .bell tail data true w q)
    (hfence : fenceOk (s.strand e.sid) e.fence = true) :
    ∃ t b, exec (.jobAccept c) s = .next t ∧ (t.core c).ceq = r ∧ storeFind t.bells s.nextId = some b ∧ t.mem = s.mem ∧
      b.msg = ⟨e.die, e.tcid, q, tail, 0, data, true, true⟩ ∧ b.sid = e.sid := by
  have haccept : s.jobAccept c = (s.ceTaken c r).acceptBell e tail data true w q := by
    simp [State.jobAccept, hq, hop, CeOp.isEngine, CeOp.flag, hfence, State.ceTaken]
  simp only [State.acceptBell, if_true] at haccept
  refine ⟨_, _, exec_next_of_eq rfl haccept, s.ceTaken_ceq c r, storeFind_storeSet_same _ _ _, rfl, rfl, rfl⟩

end Sys2Proof.Machine
end

section
/-! PROOF. A fragment of core scratch that a die accepts (for O45; R308, R312). -/
namespace Sys2Proof.Machine

/-! ## What charges leave (R335) -/

/-- The cores, the jobs and the fragments. -/
def State.engines (s : State) : Store CoreSt × Store Job × Store Frag := (s.cores, s.jobs, s.frags)

@[simp] theorem State.charge_engines (s : State) (die tcid cls n : Nat) : (s.charge die tcid cls n).engines = s.engines :=
  State.charge_keeps State.engines (fun _ _ _ => rfl) (fun _ _ _ _ => rfl) s die tcid cls n
@[simp] theorem State.chargeHomes_engines (s : State) (die tcid : Nat) (as_ : List Nat) : (s.chargeHomes die tcid as_).engines = s.engines := by
  simp only [State.chargeHomes, State.charge_engines]
@[simp] theorem State.chargeAway_engines (s : State) (die tcid n : Nat) : (s.chargeAway die tcid n).engines = s.engines := by
  simp only [State.chargeAway, State.charge_engines]

/-! ## CSEND and CRED of core scratch (R308) -/

/-- What a fragment that is sent leaves: itself, with a copy on its way to every member. -/
structure FragSent (u t : State) (ms : List (Nat × Dest')) (bs : List Byte) (op : Option Nat) (tag flag : Nat) (x : Frag) : Prop where
  cores : t.cores = u.cores
  mem : t.mem = u.mem
  listed : storeFind t.frags u.nextId = some x
  bytes : x.bytes = bs
  op : x.op = op
  tag : x.tag = tag
  flag : x.flag = flag
  copies : x.copies = ms.map (fun m => (m.1, .sent))

theorem State.acceptFrag_sent {u : State} {e : CeEntry} {off n : Nat} {d : Word} {bs : List Byte} (op : Option Nat) (tag flag : Nat)
    (hsrc : fragSource u e 0 off n = .ok bs) (hsome : u.members ((u.ctx e.die e.tcid).win (fragWin d)) ≠ [])
    (hpath : ∀ m ∈ u.members ((u.ctx e.die e.tcid).win (fragWin d)), u.pathTo ((u.ctx e.die e.tcid).win (fragWin d)).ue m.2.ddie = true) :
    ∃ x, FragSent u (u.acceptFrag e 0 off n d op tag flag) (u.members ((u.ctx e.die e.tcid).win (fragWin d))) bs op tag flag x := by
  generalize hw : (u.ctx e.die e.tcid).win (fragWin d) = w at hsome hpath ⊢
  generalize hms : u.members w = ms at hsome hpath ⊢
  have hall : ms.all (fun m => u.pathTo w.ue m.2.ddie) = true := by
    rw [List.all_eq_true]
    exact hpath
  have hany : ¬ ms.any (fun m => u.pathTo w.ue m.2.ddie) = false := by
    obtain ⟨m, hm⟩ := List.exists_mem_of_ne_nil ms hsome
    rw [List.any_eq_true.mpr ⟨m, hm, hpath m hm⟩]
    exact Bool.noConfusion
  have hcopies : ms.map (fun m => (m.1, if u.pathTo w.ue m.2.ddie then CopySt.sent else .undeliverable)) = ms.map (fun m => (m.1, .sent)) :=
    List.map_congr_left fun m hm => by rw [if_pos (hpath m hm)]
  simp only [State.acceptFrag, hsrc, hw, hms, hall, hcopies, if_neg hany, if_true, fragTouch, Nat.reduceEqDiff, if_false]
  generalize hz : State.charge _ e.die e.tcid 7 _ = z
  have hengines : z.engines = u.engines ∧ z.mem = u.mem := by
    rw [← hz]
    simp only [State.charge_engines, State.chargeHomes_engines, State.chargeAway_engines, State.charge_mem, State.chargeHomes_mem,
      State.chargeAway_mem]
    exact ⟨rfl, rfl⟩
  obtain ⟨hcores, hjobs, hfrags⟩ : z.cores = u.cores ∧ z.jobs = u.jobs ∧ z.frags = u.frags := by simpa [State.engines] using hengines.1
  exact ⟨_, hcores, hengines.2, storeFind_storeSet_same _ _ _, rfl, rfl, rfl, rfl, rfl⟩

variable {s : State} {c : Nat} {e : CeEntry} {r : List CeEntry} {off n : Nat} {d : Word} {len tag f : Nat} {op : Option Nat}

/-- What is queued at the core sends that fragment. -/
def CeEntry.sends (e : CeEntry) (off n : Nat) (d : Word) (len : Nat) (op : Option Nat) (tag f : Nat) : Prop :=
  (e.op = .send [(0, off, n)] d len f ∧ op = none ∧ tag = 0) ∨ (∃ x, e.op = .red [(0, off, n)] d x tag len f ∧ op = some x)

theorem State.jobAccept_frag (hq : (s.core c).ceq = e :: r) (hop : e.sends off n d len op tag f)
    (hfence : fenceOk (s.strand e.sid) e.fence = true) (hclear : (s.strand e.sid).clearing f .ce = false)
    (hwaits : fragWaits s e 0 off (128 * len) = false) :
    s.jobAccept c = (s.ceTaken c r).acceptFrag e 0 off (128 * len) d op tag f := by
  have htry (op : Option Nat) (tag : Nat) :
      s.tryFrag c e (s.ceTaken c r) 0 off len d op tag f = (s.ceTaken c r).acceptFrag e 0 off (128 * len) d op tag f := by
    simp [State.tryFrag, hwaits, State.admitUnits]
  obtain ⟨hsend, rfl, rfl⟩ | ⟨x, hred, rfl⟩ := hop
  · rw [← htry]
    simp [State.jobAccept, hq, hsend, CeOp.isEngine, CeOp.flag, hfence, hclear, State.ceTaken]
  · rw [← htry]
    simp [State.jobAccept, hq, hred, CeOp.isEngine, CeOp.flag, hfence, hclear, State.ceTaken]

end Sys2Proof.Machine
end

section
/-! PROOF. The segments of one job (for O45; R226, R305, R306, log entry 74).

The engines of a die take segments, then move one unit of a segment in progress. With one job on the die the first part starts it or leaves it
(`State.enginesReady`), and the second moves its block. A region of cluster scratch needs no token, since its addresses lie above all HBM. -/
namespace Sys2Proof.Machine

/-! ## Blocks of cluster scratch -/

/-- A write of cluster scratch meets nothing. -/
theorem jobPlace_cluster {w : Region} (hw : w.space = 1) (s : State) (j : Job) (p : Nat) :
    jobPlace s j .store w p = .ok (.here ((s.ctx j.die j.tcid).regionBase j.die 1 j.cluster + w.at_ p)) := by
  have hacc : (Acc.store == Acc.load) = false := by decide
  simp [jobPlace, hw, blockCheck, hacc]

variable {s : State} {d id p : Nat} {j : Job} {w : Region}

/-- Where a job's block of cluster scratch is written. -/
def State.clusterBlock (s : State) (j : Job) (w : Region) (p : Nat) : Nat := (s.ctx j.die j.tcid).regionBase j.die 1 j.cluster + w.at_ p

/-- A block of a FILL of cluster scratch makes one request. -/
theorem blockNeeds_fill (hop : j.op ≠ 0) (hw : j.wrs[(j.at_ p).1]? = some w) (hsp : w.space = 1) (hpaid : j.paid = [])
    (ha : 2 ^ 51 ≤ s.clusterBlock j w (j.at_ p).2) : blockNeeds s j p = [(s.clusterBlock j w (j.at_ p).2 / 128, true)] := by
  have hread : blockAddrs s j p false = [] := by simp [blockAddrs, hop]
  have hwrite : blockAddrs s j p true = [s.clusterBlock j w (j.at_ p).2] := by
    simp [blockAddrs, hw, hsp, jobPlace_cluster hsp, State.clusterBlock]
  have hhbm : s.clusterBlock j w (j.at_ p).2 < 2 ^ 50 ∨ 2 ^ 51 ≤ s.clusterBlock j w (j.at_ p).2 := .inr ha
  simp only [blockNeeds, hread, hwrite, hpaid, List.filter_cons, decide_eq_true hhbm]
  simp [List.eraseDups_cons]

/-- It is no request of HBM. -/
theorem unit_above {a : Nat} (ha : 2 ^ 51 ≤ a) : 2 ^ 50 ≤ 128 * (a / 128) := by omega

/-! ## The engines take segments (R306) -/

section
variable (hjobs : s.jobs = [(id, j)])
include hjobs

/-- A job whose context has energy does not park. -/
theorem State.jobParks_of_energy (hestop : (s.ctx j.die j.tcid).estop = false) (hstatus : j.status ≠ 3) : s.jobParks d = s := by
  simp only [State.jobParks, hjobs, List.foldl_cons, List.foldl_nil, hestop, hstatus, Bool.false_eq_true, if_false]
  exact ite_self s

/-- Nor does one with a segment in progress. -/
theorem State.jobParks_of_segment (hseg : j.seg ≠ []) : s.jobParks d = s := by
  have hsome : j.seg.isEmpty = false := by simpa using hseg
  simp only [State.jobParks, hjobs, List.foldl_cons, List.foldl_nil, hsome, or_true, if_true]

omit hjobs in
/-- Its next segment is not ready. -/
theorem jobReady_of_segment (hseg : j.seg ≠ []) : jobReady s id j = false := by
  have hsome : j.seg.isEmpty = false := by simpa using hseg
  simp [jobReady, hsome]

theorem State.jobDemands_of_segment (hseg : j.seg ≠ []) : s.jobDemands d = s := by
  simp [State.jobDemands, hjobs, jobReady_of_segment hseg]

theorem State.takeSegments_of_segment (hseg : j.seg ≠ []) (n : Nat) : State.takeSegments d n s = s := by
  have hnone : bestJob s d = none := by simp [bestJob, hjobs, jobRunnable, jobReady_of_segment hseg]
  cases n with
  | zero => rfl
  | succ n =>
    simp only [State.takeSegments, hnone]
    exact ite_self s

/-- The unit that is moved is one of the job's. -/
theorem State.jobSegment_moves (hdie : j.die = d) (hfinal : jobFinal j.status = false) (hseg : j.seg ≠ []) {u : State}
    (hu : ((u.jobParks d).jobDemands d).takeSegments d 6 = s) : u.jobSegment d = ({ s with nfree := s.nfree + 1 } : State).moveBlock id j := by
  have hbusy : busyJobs s d = [(id, j)] := by simp [busyJobs, hjobs, hdie, hfinal, hseg]
  simp only [State.jobSegment, hu, hbusy, List.length_singleton, Nat.mod_one, List.getElem?_cons_zero]

end

/-! ## A segment that begins -/

/-- A FILL of one more block of cluster scratch, the one job of its die, that may start. -/
structure LastFill (s : State) (d id : Nat) (j : Job) (w : Region) : Prop where
  jobs : s.jobs = [(id, j)]
  die : j.die = d
  status : j.status = 2
  op : j.op ≠ 0
  rds : j.rds = []
  wrs : j.wrs = [w]
  space : w.space = 1
  got : j.got = []
  put : j.put = []
  total : j.total = j.done + 64
  run : jobRunnable s id j = true
  above : 2 ^ 51 ≤ s.clusterBlock j w j.done

/-- The job with its last block as its segment. -/
def Job.begun (j : Job) : Job := { j with status := 2, seg := [j.done], paid := [] }

/-- And with its requests made and its block filled. -/
def Job.filled (j : Job) (a : Nat) : Job :=
  { j.begun with paid := [(a / 128, true)], got := [], put := (List.range 8).map (fun i => (8 * i, j.pattern.toNat)) }

theorem LastFill.at_ (h : LastFill s d id j w) : j.at_ j.done = (0, j.done) := by
  have hbytes : j.total = w.bytes := by simp [Job.total, h.wrs]
  have hlt : j.done < w.bytes := by
    have := h.total
    omega
  simp [Job.at_, h.wrs, hlt]

theorem LastFill.needs (h : LastFill s d id j w) : blockNeeds s { j with paid := [] } j.done = [(s.clusterBlock j w j.done / 128, true)] := by
  have hat : ({ j with paid := [] } : Job).at_ j.done = (0, j.done) := h.at_
  have hw : ({ j with paid := [] } : Job).wrs[(({ j with paid := [] } : Job).at_ j.done).1]? = some w := by
    rw [hat, h.wrs]
    rfl
  have ha : 2 ^ 51 ≤ s.clusterBlock { j with paid := [] } w (({ j with paid := [] } : Job).at_ j.done).2 := by
    rw [hat]
    exact h.above
  have hneeds := blockNeeds_fill (s := s) (j := { j with paid := [] }) h.op hw h.space rfl ha
  rwa [hat] at hneeds

/-- Its regions can be reached, and its context has energy. -/
theorem LastFill.ready (h : LastFill s d id j w) : j.seg = [] ∧ (s.ctx j.die j.tcid).estop = false ∧ (s.ctx j.die j.tcid).resident = true := by
  have hready : jobReady s id j = true := by
    have hrun := h.run
    rw [jobRunnable, Bool.and_eq_true] at hrun
    exact hrun.1
  simp only [jobReady, jobReach, h.rds, h.wrs, Bool.and_eq_true, Bool.not_eq_true', List.isEmpty_iff] at hready
  obtain ⟨⟨⟨⟨⟨⟨-, hseg⟩, -⟩, hestop⟩, -⟩, -⟩, hreach⟩ := hready
  exact ⟨hseg, hestop, by simpa [h.space] using hreach⟩

theorem LastFill.segment (h : LastFill s d id j w) : j.segment = [j.done] := by
  have hcount : (j.total - j.done) / 64 = 1 := by
    have := h.total
    omega
  simp [Job.segment, hcount]

/-- A free engine takes it. -/
theorem LastFill.taken (h : LastFill s d id j w) : ∃ u : State, ((s.jobParks d).jobDemands d).takeSegments d 6 = u ∧ u.jobs = [(id, j.begun)] ∧
    u.ctxs = s.ctxs ∧ u.mem = s.mem := by
  obtain ⟨hseg, hestop, -⟩ := h.ready
  have hparks : s.jobParks d = s := State.jobParks_of_energy h.jobs hestop (by rw [h.status]; decide)
  have hdemands : s.jobDemands d = s := by
    have hskip : (blockNeeds s { j with paid := [] } j.done).foldl (fun (u : State) x =>
        if 2 ^ 50 ≤ 128 * x.1 then u else u.takeTokens (sliceOf (128 * x.1)) (u.ctx j.die j.tcid).tenant 0) s = s := by
      rw [h.needs, List.foldl_cons, List.foldl_nil, if_pos (unit_above h.above)]
    rw [State.jobDemands, h.jobs, List.filter_cons]
    split
    · rw [List.filter_nil, List.foldl_cons, List.foldl_nil]
      exact hskip
    · rfl
  have hidle : (busyJobs s d).length = 0 := by simp [busyJobs, h.jobs, hseg]
  have hbest : bestJob s d = some (id, j) := by simp [bestJob, h.jobs, h.die, h.run]
  have hover : j.selfOverlap = false := by simp [Job.selfOverlap, h.rds]
  have hstart : (s.startSegment id j).jobs = [(id, j.begun)] := by
    simp [State.startSegment, hover, h.segment, State.modJob, storeMod, h.jobs, Job.begun]
  refine ⟨s.startSegment id j, ?_, hstart, rfl, rfl⟩
  rw [hparks, hdemands, State.takeSegments, hidle, hbest]
  exact State.takeSegments_of_segment hstart (by simp [Job.begun]) 5

/-! ### Its requests are made, and it is filled -/

theorem State.chargeUnit_keeps (s : State) (j : Job) (p : Nat) (x : Nat × Bool) :
    (s.chargeUnit j p x).engines = s.engines ∧ (s.chargeUnit j p x).mem = s.mem := by
  unfold State.chargeUnit State.chargeServed
  dsimp only
  split
  · split
    · exact ⟨rfl, rfl⟩
    · simp only [State.charge_engines, State.charge_mem, and_self]
  · simp only [State.chargeHomes_engines, State.chargeHomes_mem, and_self]

/-- The one request of a block, of no HBM, is made. -/
theorem State.payBlock_one {x : Nat × Bool} (hneeds : blockNeeds s j p = [x]) (hx : 2 ^ 50 ≤ 128 * x.1) :
    s.payBlock id j p = (true, (s.chargeUnit j p x).modJob id (fun j' => { j' with paid := j'.paid ++ [x] })) := by
  have hadmit (tenant : Nat) (read : Bool) : s.admitUnit tenant x.1 read = some s := by
    rw [State.admitUnit, if_pos hx]
  simp only [State.payBlock, hneeds, List.foldl_cons, List.foldl_nil, hadmit]

theorem State.jobs_of_engines {s u : State} (h : u.engines = s.engines) : u.jobs = s.jobs := congrArg (fun x => x.2.1) h

/-- A block that has all its units is to be written; memory stays. -/
theorem State.jobHave_keeps (s : State) (id : Nat) (j : Job) (p : Nat) (us : List (Nat × Nat)) :
    (s.jobHave id j p us).jobs = storeMod s.jobs id (fun j => { j with got := [], put := us }) ∧ (s.jobHave id j p us).mem = s.mem := by
  simp only [State.jobHave, State.chargeBlockAway]
  generalize hu : State.chargeAway _ _ _ _ = u
  have hkept : u.engines = s.engines ∧ u.mem = s.mem := by
    rw [← hu]
    simp only [State.charge_engines, State.chargeAway_engines, State.charge_mem, State.chargeAway_mem, and_self]
  obtain ⟨hengines, hmem⟩ := hkept
  refine ⟨?_, hmem⟩
  rw [State.modJob, State.jobs_of_engines hengines]

theorem LastFill.moved (h : LastFill s d id j w) {u : State} (hctxs : u.ctxs = s.ctxs) (hjobs : u.jobs = [(id, j.begun)]) :
    (u.moveBlock id j.begun).jobs = [(id, j.filled (s.clusterBlock j w j.done))] ∧ (u.moveBlock id j.begun).mem = u.mem := by
  have hat : j.begun.at_ j.done = (0, j.done) := h.at_
  have hw : j.begun.wrs[(j.begun.at_ j.done).1]? = some w := by
    rw [hat]
    exact congrArg (fun l : List Region => l[0]?) h.wrs
  have hplace : u.clusterBlock j.begun w j.done = s.clusterBlock j w j.done := by
    simp only [State.clusterBlock, State.ctx, hctxs, Job.begun]
  have hneeds : blockNeeds u j.begun j.done = [(s.clusterBlock j w j.done / 128, true)] := by
    rw [blockNeeds_fill (j := j.begun) h.op hw h.space rfl (by rw [hat, hplace]; exact h.above), hat, hplace]
  have hreach : ¬ jobReach u j.begun = false := by
    obtain ⟨-, -, hres⟩ := h.ready
    have hres' : (u.ctx j.begun.die j.begun.tcid).resident = true := by
      rw [State.ctx, hctxs]
      exact hres
    have hregions : j.begun.rds = [] ∧ j.begun.wrs = [w] := ⟨h.rds, h.wrs⟩
    simp [jobReach, hregions, hres', h.space]
  have hput : j.begun.put.isEmpty = true := by
    rw [List.isEmpty_iff]
    exact h.put
  have hpay : u.payBlock id j.begun j.done = (true, (u.chargeUnit j.begun j.done (s.clusterBlock j w j.done / 128, true)).modJob id
      (fun j' => { j' with paid := j'.paid ++ [(s.clusterBlock j w j.done / 128, true)] })) := by
    exact State.payBlock_one hneeds (unit_above h.above)
  have hmove : u.moveBlock id j.begun = (u.payBlock id j.begun j.done).2.jobHave id j.begun j.done
      ((List.range 8).map (fun i => (8 * i, j.pattern.toNat))) := by
    have hop : j.begun.op ≠ 0 := h.op
    have hseg : j.begun.seg = [j.done] := rfl
    have hpaid : ¬ (u.payBlock id j.begun j.done).1 = false := by
      rw [hpay]
      exact Bool.noConfusion
    simp only [State.moveBlock, hseg, if_neg hreach, hput, if_neg hpaid, State.jobFetch, if_pos hop, Bool.true_eq_false, if_false]
    rfl
  obtain ⟨hengines, hmem⟩ := u.chargeUnit_keeps j.begun j.done (s.clusterBlock j w j.done / 128, true)
  rw [hmove, hpay]
  generalize hv : (u.chargeUnit j.begun j.done (s.clusterBlock j w j.done / 128, true)).modJob id
      (fun j' => { j' with paid := j'.paid ++ [(s.clusterBlock j w j.done / 128, true)] }) = v
  have hkept : v.jobs = [(id, { j.begun with paid := [(s.clusterBlock j w j.done / 128, true)] })] ∧ v.mem = u.mem := by
    rw [← hv, State.modJob_mem, State.modJob, State.jobs_of_engines hengines, hjobs]
    exact ⟨by simp [storeMod, Job.begun], hmem⟩
  obtain ⟨hvjobs, hvmem⟩ := hkept
  obtain ⟨hhave, hmem'⟩ := v.jobHave_keeps id j.begun j.done ((List.range 8).map (fun i => (8 * i, j.pattern.toNat)))
  refine ⟨?_, hmem'.trans hvmem⟩
  dsimp only
  rw [hhave, hvjobs]
  simp [storeMod, Job.filled]

theorem LastFill.begins (h : LastFill s d id j w) : (s.jobSegment d).jobs = [(id, j.filled (s.clusterBlock j w j.done))] ∧
    (s.jobSegment d).mem = s.mem := by
  obtain ⟨u, hu, hjobs, hctxs, hmem⟩ := h.taken
  rw [State.jobSegment_moves hjobs h.die (by rfl) (by simp [Job.begun]) hu]
  obtain ⟨hmoved, hkept⟩ := h.moved (u := { u with nfree := u.nfree + 1 }) hctxs hjobs
  exact ⟨hmoved, hkept.trans hmem⟩

/-! ## A unit that is written (R226) -/

theorem homeOf_cluster {a : Nat} (h : 2 ^ 51 ≤ a) (h' : a < 2 ^ 52) : homeOf a = .cluster ((a - 2 ^ 51) / 2 ^ 23) := by
  rw [homeOf, if_neg (by omega), if_neg (by omega), if_pos h']

theorem locExists_cluster {a : Nat} (h : 2 ^ 51 ≤ a) (h' : a < 2 ^ 52) : locExists (.here a) = true := by
  rw [locExists, homeOf_cluster h h']

/-- A unit of cluster scratch is written at its home. -/
theorem State.jobWrite_home {a o v : Nat} (hw : j.wrs[(j.at_ p).1]? = some w) (hsp : w.space = 1)
    (hplace : jobPlace s j .store w ((j.at_ p).2 + o) = .ok (.here a)) (hexists : locExists (.here a) = true) :
    s.jobWrite id j p o v = .ok (s.homeWrite ⟨id, none, engineOf j.die, false, none, none⟩ [(a, 8, v)]) := by
  simp [State.jobWrite, hw, hsp, hplace, hexists, jobTouch]

/-- A job whose block lacks only one unit of cluster scratch. -/
structure LastUnit (s : State) (d id : Nat) (j : Job) (w : Region) (p o v : Nat) : Prop where
  jobs : s.jobs = [(id, j)]
  die : j.die = d
  status : jobFinal j.status = false
  seg : j.seg = [p]
  put : j.put = [(o, v)]
  wrs : j.wrs[(j.at_ p).1]? = some w
  space : w.space = 1
  reach : jobReach s j = true
  above : 2 ^ 51 ≤ s.clusterBlock j w ((j.at_ p).2 + o)
  below : s.clusterBlock j w ((j.at_ p).2 + o) < 2 ^ 52

/-- The job once it is written. -/
def Job.after (j : Job) : Job := { j with seg := [], paid := [], got := [], put := [], done := min j.total (j.done + 65536) }

theorem LastUnit.writes {o v : Nat} (h : LastUnit s d id j w p o v) : ∃ (u : State) (wr : Writer), u.mem = s.mem ∧ u.jobs = s.jobs ∧
    s.jobSegment d = (u.homeWrite wr [(s.clusterBlock j w ((j.at_ p).2 + o), 8, v)]).modJob id Job.moved := by
  have hseg : j.seg ≠ [] := by simp [h.seg]
  have hparks : s.jobParks d = s := State.jobParks_of_segment h.jobs hseg
  have hdemands : s.jobDemands d = s := State.jobDemands_of_segment h.jobs hseg
  have htake := State.takeSegments_of_segment (d := d) h.jobs hseg 6
  rw [State.jobSegment_moves h.jobs h.die h.status hseg (u := s) (by rw [hparks, hdemands]; exact htake)]
  generalize hu : ({ s with nfree := s.nfree + 1 } : State) = u
  have hreach : ¬ jobReach u j = false := by
    rw [Bool.not_eq_false, ← hu]
    exact h.reach
  have hput : j.put.isEmpty = false := by simp [h.put]
  have hmove : u.moveBlock id j = u.jobStore id j p := by
    simp only [State.moveBlock, h.seg, if_neg hreach, hput, if_true]
  generalize hz : ({ u with nfree := u.nfree + 1 } : State) = z
  have hkept : z.mem = s.mem ∧ z.jobs = s.jobs ∧ z.ctxs = s.ctxs := by
    rw [← hz, ← hu]
    exact ⟨rfl, rfl, rfl⟩
  obtain ⟨hmem, hjobs, hctxs⟩ := hkept
  have hplace : z.clusterBlock j w ((j.at_ p).2 + o) = s.clusterBlock j w ((j.at_ p).2 + o) := by
    rw [State.clusterBlock, State.clusterBlock, State.ctx, State.ctx, hctxs]
  have hwrite : z.jobWrite id j p o v = .ok (z.homeWrite ⟨id, none, engineOf j.die, false, none, none⟩
      [(s.clusterBlock j w ((j.at_ p).2 + o), 8, v)]) := by
    have hloc := jobPlace_cluster h.space z j ((j.at_ p).2 + o)
    rw [← State.clusterBlock, hplace] at hloc
    exact State.jobWrite_home h.wrs h.space hloc (locExists_cluster h.above h.below)
  refine ⟨z, ⟨id, none, engineOf j.die, false, none, none⟩, hmem, hjobs, ?_⟩
  have hpick : j.put[Config.pick u.nfree % j.put.length]? = some (o, v) := by simp [h.put, Nat.mod_one]
  have hrest : (j.put.filter (fun y => y.1 != o)).isEmpty = true := by simp [h.put]
  rw [hmove, State.jobStore, hpick]
  simp only [hz, hwrite, hrest, Bool.true_or, if_true]

theorem LastUnit.spec {o v : Nat} (h : LastUnit s d id j w p o v) : (s.jobSegment d).jobs = [(id, j.after)] ∧
    (s.jobSegment d).mem = writeBytes s.mem (s.clusterBlock j w ((j.at_ p).2 + o)) (leBytes 8 v) := by
  obtain ⟨u, wr, hmem, hjobs, hgo⟩ := h.writes
  rw [hgo]
  constructor
  · obtain ⟨-, hkept, -⟩ := u.homeWrite_keepsMarks wr [(s.clusterBlock j w ((j.at_ p).2 + o), 8, v)]
    rw [State.modJob, hkept, hjobs, h.jobs]
    simp [storeMod, Job.moved, h.seg, Job.after]
  · have hwritten (a : Nat) : (u.homeWrite wr [(a, 8, v)]).mem = writeBytes u.mem a (leBytes 8 v) := by
      rw [State.homeWrite_mem]
      rfl
    rw [← hmem, ← hwritten, State.modJob_mem]

end Sys2Proof.Machine
end

section
/-! PROOF. The end of a job (for O45; R226, R302, R305, R307). -/
namespace Sys2Proof.Machine

theorem State.imagePut_keepsFrames (s : State) (sid : Option Nat) (off : Nat) (bs : List Byte) : s.KeepsFrames (s.imagePut sid off bs) := by
  cases sid with
  | none => exact .of_strands rfl
  | some k => exact (s.modStrand_keepsFrames k ⟨rfl, rfl⟩).trans (State.resave_keepsFrames _ k)

/-- Word 1 of a job's card is written back; no strand goes. -/
theorem State.jobWriteBack_keepsFrames (s : State) (j : Job) : s.KeepsFrames (s.jobWriteBack j) := by
  unfold State.jobWriteBack
  dsimp only
  split
  · split
    · exact .of_strands rfl
    · split
      · exact .trans (t := State.clearPoison (s.pokeCells _) _) (.of_strands rfl) (State.wakeSpin_keepsFrames _ _)
      · exact s.imagePut_keepsFrames _ _ _
  · split
    · exact .trans (.of_strands (touchLeaf_strands ..)) (State.deviceWrite_keepsFrames _ _ _ _ _)
    · exact .of_strands rfl

variable {s : State} {id : Nat} {j : Job}

/-- A job with its blocks moved and its transactions settled ends. -/
theorem State.jobComplete_ends (hj : storeFind s.jobs id = some j) (hfinal : jobFinal j.status = false) (hmoved : j.total ≤ j.done)
    (hsettled : jobXacts s id (fun c => !c.settled || c == .stored) = false) :
    s.jobComplete id = s.jobEnd id (if jobXacts s id (fun c => c == .uncertain) then 0x26 else 0) 0 := by
  have hgo : ¬(jobFinal j.status ∨ j.done < j.total ∨ jobXacts s id (fun c => !c.settled || c == .stored) = true) := by
    rw [hfinal, hsettled]
    simpa using hmoved
  simp only [State.jobComplete, hj, if_neg hgo]
  split
  · rfl
  · rfl

/-- A job that ends with status 0 and has no waiter. -/
def Job.ended (j : Job) : Job := { j with status := 0, detail := 0, seg := [], got := [], put := [], reported := false, waits := [] }

theorem State.jobEnd_spec {k : Nat} (hj : storeFind s.jobs id = some j) (hfinal : jobFinal j.status = false) (hsid : j.sid = some k)
    (hk : s.hasStrand k = true) (hwaits : j.waits = []) (hflag : j.flag < 64) :
    ((s.jobEnd id 0 0).strand k).rf j.flag = true ∧ storeFind (s.jobEnd id 0 0).jobs id = some j.ended := by
  have hnone : j.waits.isEmpty = true := by rw [hwaits]; rfl
  simp only [State.jobEnd, hj, hfinal, Bool.false_eq_true, if_false, hsid, hwaits, List.foldl_nil, List.isEmpty_nil, Bool.not_true]
  generalize hu : State.jobWriteBack _ _ = u
  have hlisted : u.hasStrand k = true := by
    rw [← hu]
    exact (State.jobWriteBack_keepsFrames (s.publishWids [id] j.scope) _ k).1 hk
  simp only [hlisted, if_true]
  refine ⟨?_, (storeFind_storeSet_same _ _ _).trans ?_⟩
  · have hset := u.setFlag_rf k hflag [id]
    have hdone : (((u.setFlag k j.flag [id]).engineDone k j.eid).strand k).rf j.flag = true := by
      rw [State.engineDone, State.strand_modStrand]
      exact hset
    exact hdone
  · rw [Job.ended, hsid]

end Sys2Proof.Machine
end

section
open Sys2Proof Sys2Proof.Machine

/-- Settles O45: a flag event keeps the cores, the jobs and the marks of every strand (`State.KeepsMarks`), and each event is taken apart into
what it does before that flag is set. -/
theorem engineEvents : Obligations.EngineEvents := by
  unfold Obligations.EngineEvents
  refine ⟨?tmov, ?query, ?kill, ?job, ?frag, ?bell, ?begins, ?unit, ?complete⟩
  case tmov =>
    intro s c m r hq hfence hok hclear hflag
    refine ⟨fun hmet => ?_, fun cs v hmet => ?_⟩
    · obtain ⟨htmq, hrf, hengOps⟩ := s.tmovDone_spec c r true hflag
      refine ⟨_, exec_next_of_eq rfl (State.tmovComplete_of_clean hq hfence hok hclear hmet), htmq, hrf, hengOps, fun hwait hsaved => ?_⟩
      have hmem := s.tmovDone_mem c m r true ⟨hwait, hsaved⟩
      rw [if_pos rfl] at hmem
      refine ⟨fun hnone => ?_, fun a b hone => ?_⟩
      · rw [hmem, hnone, State.copyUnits_nil]
        rfl
      · rw [hone, State.copyUnits_one] at hmem
        refine ⟨?_, fun x hx => ?_⟩
        · rw [State.byte, hmem, byte_writeBytes, if_pos ⟨Nat.le_refl b, Nat.lt_succ_self b⟩, Nat.sub_self]
          rfl
        · rw [State.byte, hmem, byte_writeBytes, if_neg]
          · rfl
          · rw [List.length_singleton]
            omega
    · obtain ⟨htmq, hrf, hengOps⟩ := s.tmovDone_spec c r false hflag
      exact ⟨_, exec_next_of_eq rfl (State.tmovComplete_of_failed hq hfence hok hclear hmet), htmq, hrf, hengOps,
        fun hwait hsaved => s.tmovDone_mem c m r false ⟨hwait, hsaved⟩⟩
  case query =>
    intro s c e r h l w hq hop hpend hsaved
    exact ⟨execJobAccept_unknown hq hop hpend hsaved, fun id j hjob hgo => execJobAccept_known hq hop hpend hsaved hjob hgo,
      fun id j hjob hfinal hw => execJobAccept_waits hq hop hjob hfinal hw⟩
  case kill =>
    intro s c e r h hq hop
    refine ⟨execJobAccept_kill_none hq hop, fun id j hjob => ⟨execJobAccept_kill hq hop hjob, fun hj hgot hput => ?_⟩⟩
    exact exec_next_of_eq (execJobAccept_kill hq hop hjob) (State.killJob_idle (u := s.modCore c (fun x => { x with ceq := r })) hj hgot hput)
  case job =>
    intro s c e r card due off l f p hq hop hcard hfence hclear hroom hbefore hpend hsaved hf
    exact ⟨execJobAccept_job hq hop hcard hfence hclear hroom hbefore hpend hsaved,
      fun code d => execJobAccept_rejected hq hop hcard hfence hclear hroom hbefore hpend hsaved hf⟩
  case frag =>
    intro s c e r off n d len op tag f bs hq hop hfence hclear hwaits u w hsrc hsome hpath
    obtain ⟨x, hsent⟩ := State.acceptFrag_sent (u := s.ceTaken c r) op tag f hsrc hsome hpath
    refine ⟨_, x, exec_next_of_eq rfl (State.jobAccept_frag hq hop hfence hclear hwaits), ?_, hsent.listed, hsent.bytes, hsent.op, hsent.tag,
      hsent.flag, hsent.copies, hsent.mem⟩
    rw [State.core, hsent.cores]
    exact s.ceTaken_ceq c r
  case bell => exact fun s c e r tail data w q hq hop hfence => execJobAccept_bell hq hop hfence
  case begins =>
    intro s d id j w a hjobs hdie hstatus hop hrds hwrs hsp hgot hput htotal hrun hplace ha
    have hblock : s.clusterBlock j w j.done = a := by
      have hloc := (jobPlace_cluster hsp s j j.done).symm.trans hplace
      exact Loc.here.inj (Except.ok.inj hloc)
    have hfill : LastFill s d id j w := ⟨hjobs, hdie, hstatus, hop, hrds, hwrs, hsp, hgot, hput, htotal, hrun, by rw [hblock]; exact ha⟩
    obtain ⟨hafter, hmem⟩ := hfill.begins
    refine ⟨_, j.filled (s.clusterBlock j w j.done), rfl, hmem, ?_, rfl, rfl, rfl⟩
    rw [hafter]
    simp [storeFind]
  case unit =>
    intro s d id j w p o v a hjobs hdie hfinal hseg hput hwrs hsp hreach hplace hlo hhi halign
    have hblock : s.clusterBlock j w ((j.at_ p).2 + o) = a := by
      have hloc := (jobPlace_cluster hsp s j ((j.at_ p).2 + o)).symm.trans hplace
      exact Loc.here.inj (Except.ok.inj hloc)
    have hunit : LastUnit s d id j w p o v :=
      ⟨hjobs, hdie, hfinal, hseg, hput, hwrs, hsp, hreach, by rw [hblock]; exact hlo, by rw [hblock]; exact hhi⟩
    obtain ⟨hafter, hmem⟩ := hunit.spec
    rw [hblock] at hmem
    refine ⟨_, j.after, rfl, fun i hi => byte_of_written hmem i hi, fun b hb => byte_of_not_written hmem hb, ?_, rfl, rfl, rfl⟩
    rw [hafter]
    simp [storeFind]
  case complete =>
    intro s id j hj hfinal hmoved hsettled
    have hends := State.jobComplete_ends hj hfinal hmoved hsettled
    refine ⟨exec_next_of_eq rfl hends, fun k hcertain hsid hk hwaits hflag => ?_⟩
    rw [hcertain, if_neg Bool.false_ne_true] at hends
    obtain ⟨hrf, hfind⟩ := State.jobEnd_spec hj hfinal hsid hk hwaits hflag
    exact ⟨_, exec_next_of_eq rfl hends, hrf, hfind⟩

end
